-- ==== Sys2Proof/Word.lean ====
section
/-! DEFINITION. The word types of the J7 and nothing else: bytes, registers, core words, commands and descriptors. -/

namespace Sys2Proof

/-- One byte (R6: every multi-byte field is a little-endian string of these). -/
abbrev Byte := BitVec 8

/-- One register (R7). -/
abbrev Reg32 := BitVec 32

/-- One scalar register of the Jubo core (R127). -/
abbrev Word64 := BitVec 64

/-- One engine command (R75). -/
abbrev Cmd := BitVec 256

/-- One submission descriptor (R280) or one tensor descriptor (R189), its 128 bytes as a little-endian number. -/
abbrev Desc := BitVec 1024

/-- What a read of host memory returned: the bytes, or none when the link reported an error (R290). -/
abbrev HostData := Option (List Byte)

end Sys2Proof
end

