-- ==== Sys2Proof/Syntax.lean ====
section
/-! DEFINITION. The commands of the J7: one constructor per row of the opcode table, with the row's operands. -/

namespace Sys2Proof

/-- One doorbell record as fetched (R276): its host address, the address space times 2^64 added (log 6), and its 64 bytes. -/
structure DbRec where
  addr : Nat
  data : List (BitVec 8)
  deriving DecidableEq, Repr

/-- The windows a host register access may name (R274). -/
inductive Bar where
  | bar0
  | bar2
  deriving DecidableEq, Repr

/-- The answers to a page request (R212). -/
inductive PriCode where
  | success
  | invalidRequest
  | responseFailure
  deriving DecidableEq, Repr

/-- The two on-die networks (R341). -/
inductive Net where
  | tileNetwork
  | memoryFabric
  deriving DecidableEq, Repr

/-- What a read of a unit meets: nothing; a unit whose CRC-32C is the given one; a burst whose retries all failed; a Stack Cache line whose
CRC-32C is the given one (R236, R239, R333). `direct` names the unit (17 × stripe + unit) that the next read other than a stream engine's
meets, with its CRC-32C, or none where the retries of a burst all failed. -/
inductive ReadMet where
  | clean
  | unit (crc : Nat)
  | burst
  | line (crc : Nat)
  | direct (unit : Nat) (crc : Option Nat)
  deriving DecidableEq, Repr

/-- A read of a unit at its Stack Controller: the number of its request and what it meets there (R238, R239). -/
structure ReadEvent where
  req : Nat
  met : ReadMet
  deriving DecidableEq, Repr

/-- A lane of a channel: DQ, or CA where `ca` is true (R231). -/
structure Lane where
  channel : Nat
  ca      : Bool
  lane    : Nat
  deriving DecidableEq, Repr

/-- What the boot ROM's test of the Mirror layer finds: whether it passes, and how many vertical connections of each region fail, where it
has tested them (R262, R364). -/
structure MirrorTest where
  ok    : Bool
  conns : List Nat
  deriving DecidableEq, Repr

/-- What the self-tests before service find: the tiles that fail theirs, and the lanes below margin after training (R249, R342). -/
structure SelfTests where
  tiles : List Nat
  weak  : List Lane
  deriving DecidableEq, Repr

/-- The Mirror areas whose CRC mismatch R262 tells apart, and a vertical connection of a region that fails; a checkpoint names its group's
handle, a firmware image comes with what the flash holds then (log 52). -/
inductive MirrorArea where
  | twoCopies
  | checkpoint (h : Nat)
  | firmware (flash : HostData)
  | connection (z : Nat)
  deriving DecidableEq, Repr

/-- The configuration-space controls that a write may change (R272, R289, R298, R302, R303). -/
inductive CfgField where
  | busMaster
  | atsEnable
  | priEnable
  | pasidEnable
  | pageRequestAllocation
  | msixEnable
  | msixFunctionMask
  | ideStreamEnable (stream : Nat)
  | powerState
  | initiateFlr
  deriving DecidableEq, Repr

/-- How the host side of a transfer ended: with the bytes that its host reads returned, with those after page requests for some missing
pages, with a link error, or with 100 ms of paging (R212, R290, R294). -/
inductive HostEnd where
  | bytes (l : List (BitVec 8))
  | paged (pages : List Nat) (l : List (BitVec 8))
  | linkError
  | pageFault
  deriving DecidableEq, Repr

/-- The uses of the test access port; `trst` drives TRST_N, `low` holding the port in reset (R415). -/
inductive TapAccess where
  | boundaryScan
  | instruments
  | memoryBist
  | trst (low : Bool)
  deriving DecidableEq, Repr

/-- The commands: every row of the opcode table, in its order. -/
inductive Instr where
  /-- KICK_ALL (R277). -/
  | kickAll (fn : Nat)
  /-- KICK_RING (R277). -/
  | kickRing (fn : Nat) (ring : Nat)
  /-- POLL_TIMER (R278). -/
  | pollTimer (fn : Nat)
  /-- DOORBELL_RECORD_ARRIVAL (R279). -/
  | doorbellRecordArrival (fn : Nat) (recs : List DbRec)
  /-- TASK (R118). -/
  | task (fn : Nat) (ring : Nat) (d : Desc) (arg : HostData)
  /-- REFRESH (R222). -/
  | refresh (fn : Nat) (ring : Nat) (d : Desc) (arg : HostData)
  /-- SWITCH_TO_LWE (R220). -/
  | switchToLwe (fn : Nat) (ring : Nat) (d : Desc) (arg : HostData)
  /-- REPACK (R220). -/
  | repack (fn : Nat) (ring : Nat) (d : Desc) (arg : HostData)
  /-- PBS (R223). -/
  | pbs (fn : Nat) (ring : Nat) (d : Desc) (arg : HostData)
  /-- KEYSWITCH (R220). -/
  | keyswitch (fn : Nat) (ring : Nat) (d : Desc) (arg : HostData)
  /-- ROTATE_MANY (R220). -/
  | rotateMany (fn : Nat) (ring : Nat) (d : Desc) (arg : HostData)
  /-- RESCALE (R220). -/
  | rescale (fn : Nat) (ring : Nat) (d : Desc) (arg : HostData)
  /-- MPC_TRUNC (R224). -/
  | mpcTrunc (fn : Nat) (ring : Nat) (d : Desc) (arg : HostData)
  /-- MPC_COMPARE (R224). -/
  | mpcCompare (fn : Nat) (ring : Nat) (d : Desc) (arg : HostData)
  /-- MOVE (R294). -/
  | move (fn : Nat) (ring : Nat) (d : Desc) (arg : HostData)
  /-- FENCE (R295). -/
  | fence (fn : Nat) (ring : Nat) (d : Desc) (arg : HostData)
  /-- FENCE_COMPLETE (R295). -/
  | fenceComplete (h : Nat)
  /-- CANCEL (R296). -/
  | cancel (fn : Nat) (ring : Nat) (d : Desc) (arg : HostData)
  /-- QUERY (R297). -/
  | query (fn : Nat) (ring : Nat) (d : Desc) (arg : HostData)
  /-- OPEN (R314). -/
  | openSession (fn : Nat) (ring : Nat) (d : Desc) (arg : HostData)
  /-- CLOSE (R314). -/
  | closeSession (fn : Nat) (ring : Nat) (d : Desc) (arg : HostData)
  /-- LOAD_PSET (R426). -/
  | loadPset (fn : Nat) (ring : Nat) (d : Desc) (arg : HostData)
  /-- UNLOAD_PSET (R314). -/
  | unloadPset (fn : Nat) (ring : Nat) (d : Desc) (arg : HostData)
  /-- ADD_REGION (R315). -/
  | addRegion (fn : Nat) (ring : Nat) (d : Desc) (arg : HostData)
  /-- REMOVE_REGION (R314). -/
  | removeRegion (fn : Nat) (ring : Nat) (d : Desc) (arg : HostData)
  /-- POLICY (R314). -/
  | policy (fn : Nat) (ring : Nat) (d : Desc) (arg : HostData)
  /-- EXPORT (R229). -/
  | exportMsg (fn : Nat) (ring : Nat) (d : Desc) (arg : HostData)
  /-- IMPORT (R230). -/
  | importMsg (fn : Nat) (ring : Nat) (d : Desc) (arg : HostData)
  /-- SHA_256 (R385). -/
  | sha256Op (fn : Nat) (ring : Nat) (d : Desc) (arg : HostData)
  /-- SHA_384 (R385). -/
  | sha384Op (fn : Nat) (ring : Nat) (d : Desc) (arg : HostData)
  /-- SHA_512 (R385). -/
  | sha512Op (fn : Nat) (ring : Nat) (d : Desc) (arg : HostData)
  /-- SHAKE_128 (R385). -/
  | shake128Op (fn : Nat) (ring : Nat) (d : Desc) (arg : HostData)
  /-- SHAKE_256 (R385). -/
  | shake256Op (fn : Nat) (ring : Nat) (d : Desc) (arg : HostData)
  /-- RSA_3072_QUOTE (R385). -/
  | rsa3072Quote (fn : Nat) (ring : Nat) (d : Desc) (arg : HostData)
  /-- RSA_4096_QUOTE (R388). -/
  | rsa4096Quote (fn : Nat) (ring : Nat) (d : Desc) (arg : HostData)
  /-- RSA_3072_PSS_VERIFY (R385). -/
  | rsa3072PssVerify (fn : Nat) (ring : Nat) (d : Desc) (arg : HostData)
  /-- RSA_4096_PSS_VERIFY (R385). -/
  | rsa4096PssVerify (fn : Nat) (ring : Nat) (d : Desc) (arg : HostData)
  /-- P_256_KEY_PAIR (R385). -/
  | p256KeyPair (fn : Nat) (ring : Nat) (d : Desc) (arg : HostData)
  /-- P_256_ECDSA_SIGN (R385). -/
  | p256EcdsaSign (fn : Nat) (ring : Nat) (d : Desc) (arg : HostData)
  /-- P_256_ECDSA_VERIFY (R385). -/
  | p256EcdsaVerify (fn : Nat) (ring : Nat) (d : Desc) (arg : HostData)
  /-- P_256_ECDH (R385). -/
  | p256Ecdh (fn : Nat) (ring : Nat) (d : Desc) (arg : HostData)
  /-- P_384_KEY_PAIR (R385). -/
  | p384KeyPair (fn : Nat) (ring : Nat) (d : Desc) (arg : HostData)
  /-- P_384_ECDSA_SIGN (R385). -/
  | p384EcdsaSign (fn : Nat) (ring : Nat) (d : Desc) (arg : HostData)
  /-- P_384_ECDSA_VERIFY (R385). -/
  | p384EcdsaVerify (fn : Nat) (ring : Nat) (d : Desc) (arg : HostData)
  /-- P_384_ECDH (R385). -/
  | p384Ecdh (fn : Nat) (ring : Nat) (d : Desc) (arg : HostData)
  /-- X25519_KEY_PAIR (R385). -/
  | x25519KeyPair (fn : Nat) (ring : Nat) (d : Desc) (arg : HostData)
  /-- X25519 (R385). -/
  | x25519Op (fn : Nat) (ring : Nat) (d : Desc) (arg : HostData)
  /-- ED25519_KEY_PAIR (R385). -/
  | ed25519KeyPair (fn : Nat) (ring : Nat) (d : Desc) (arg : HostData)
  /-- ED25519_SIGN (R385). -/
  | ed25519Sign (fn : Nat) (ring : Nat) (d : Desc) (arg : HostData)
  /-- ED25519_VERIFY (R385). -/
  | ed25519Verify (fn : Nat) (ring : Nat) (d : Desc) (arg : HostData)
  /-- ML_KEM_768_KEY_PAIR (R385). -/
  | mlKem768KeyPair (fn : Nat) (ring : Nat) (d : Desc) (arg : HostData)
  /-- ML_KEM_768_ENCAPSULATE (R387). -/
  | mlKem768Encapsulate (fn : Nat) (ring : Nat) (d : Desc) (arg : HostData)
  /-- ML_KEM_768_DECAPSULATE (R386). -/
  | mlKem768Decapsulate (fn : Nat) (ring : Nat) (d : Desc) (arg : HostData)
  /-- ML_KEM_1024_KEY_PAIR (R385). -/
  | mlKem1024KeyPair (fn : Nat) (ring : Nat) (d : Desc) (arg : HostData)
  /-- ML_KEM_1024_ENCAPSULATE (R387). -/
  | mlKem1024Encapsulate (fn : Nat) (ring : Nat) (d : Desc) (arg : HostData)
  /-- ML_KEM_1024_DECAPSULATE (R386). -/
  | mlKem1024Decapsulate (fn : Nat) (ring : Nat) (d : Desc) (arg : HostData)
  /-- SLOT_LOAD (R383). -/
  | slotLoad (fn : Nat) (ring : Nat) (d : Desc) (arg : HostData)
  /-- SLOT_CLEAR (R383). -/
  | slotClear (fn : Nat) (ring : Nat) (d : Desc) (arg : HostData)
  /-- PKE_OP_START (R384). -/
  | pkeOpStart (data : HostData) (fails : Nat)
  /-- PKE_YIELD_POINT (R384). -/
  | pkeYieldPoint (ops : List (HostData × Nat))
  /-- TRANSFER_START (R308). -/
  | transferStart
  /-- TRANSFER_COMPLETE (R287). -/
  | transferComplete (h : Nat) (e : HostEnd) (reruns : Nat)
  /-- SESSION_OP_RUN (R314). -/
  | sessionOpRun (h : Nat) (data : HostData)
  /-- READINESS_CHECK (R56). -/
  | readinessCheck (h : Nat)
  /-- PRIORITY_AGE (R309). -/
  | priorityAge (h : Nat)
  /-- DISPATCH (R310). -/
  | dispatch (part : Nat)
  /-- TILE_TASK_START (R125). -/
  | tileTaskStart (t : Nat)
  /-- TASK_FINAL_HEADERS (R126). -/
  | taskFinalHeaders (h : Nat)
  /-- MSIX_COALESCE_TIMER (R289). -/
  | msixCoalesceTimer (cq : Nat)
  /-- HOST_FETCH_ERROR (R290). -/
  | hostFetchError (fn : Nat) (ring : Nat)
  /-- CQ_WRITE_ERROR (R292). -/
  | cqWriteError (cq : Nat)
  /-- HI_SQ_RESET (R284). -/
  | hiSqReset (fn : Nat) (v : BitVec 32)
  /-- SQ_ENABLE (R302). -/
  | sqEnable (fn : Nat) (v : BitVec 32)
  /-- SQ_DISABLE (R301). -/
  | sqDisable (fn : Nat) (v : BitVec 32)
  /-- CQ_ENABLE (R302). -/
  | cqEnable (fn : Nat) (v : BitVec 32)
  /-- CQ_DISABLE (R301). -/
  | cqDisable (fn : Nat) (v : BitVec 32)
  /-- RESUME (R292). -/
  | resume (fn : Nat)
  /-- CLEAR_NOTICE_LOST (R302). -/
  | clearNoticeLost (fn : Nat)
  /-- FUNCTION_LEVEL_RESET (R298). -/
  | functionLevelReset (fn : Nat)
  /-- LINK_RESET (R410). -/
  | linkReset
  /-- TDI_ERROR (R300). -/
  | tdiError (fn : Nat)
  /-- PAIR_LO_READ (R9). -/
  | pairLoRead (fn : Nat) (off : Nat)
  /-- PAIR_HI_READ (R9). -/
  | pairHiRead (fn : Nat) (off : Nat)
  /-- PAIR_LO_WRITE (R9). -/
  | pairLoWrite (fn : Nat) (off : Nat) (v : BitVec 32)
  /-- PAIR_HI_WRITE (R9). -/
  | pairHiWrite (fn : Nat) (off : Nat) (v : BitVec 32)
  /-- PAIR_64_ACCESS (R7). -/
  | pair64Access (fn : Nat) (off : Nat) (w : Option (BitVec 64))
  /-- REGISTER_WRITE (R11). -/
  | registerWrite (fn : Nat) (bar : Bar) (off : Nat) (bytes : List (BitVec 8))
  /-- STOPPED_DOMAIN_ACCESS (R408). -/
  | stoppedDomainAccess (fn : Nat) (off : Nat) (w : Option (BitVec 32))
  /-- STAGE (R323). -/
  | stage
  /-- APPLY (R324). -/
  | apply
  /-- COMMIT (R328). -/
  | commit
  /-- REVERT (R326). -/
  | revert
  /-- DISCARD (R323). -/
  | discard
  /-- SWITCH_POINT (R324). -/
  | switchPoint
  /-- TRIAL_EXPIRY (R328). -/
  | trialExpiry
  /-- AUTO_REVERT (R328). -/
  | autoRevert
  /-- TILE_RECONFIGURE (R325). -/
  | tileReconfigure (t : Nat) (ok : Bool)
  /-- LULL_ENTRY (R176). -/
  | lullEntry (t : Nat)
  /-- TILE_SCRUB (R177). -/
  | tileScrub (t : Nat)
  /-- ALU (R130). -/
  | alu (t : Nat)
  /-- ADDI (R130). -/
  | addi (t : Nat)
  /-- ANDI (R130). -/
  | andi (t : Nat)
  /-- ORI (R130). -/
  | ori (t : Nat)
  /-- XORI (R130). -/
  | xori (t : Nat)
  /-- SLLI (R130). -/
  | slli (t : Nat)
  /-- SRLI (R130). -/
  | srli (t : Nat)
  /-- SRAI (R130). -/
  | srai (t : Nat)
  /-- SLTI (R130). -/
  | slti (t : Nat)
  /-- SLTIU (R130). -/
  | sltiu (t : Nat)
  /-- SETH (R130). -/
  | seth (t : Nat)
  /-- BFI (R130). -/
  | bfi (t : Nat)
  /-- BFX (R130). -/
  | bfx (t : Nat)
  /-- LD (R133). -/
  | ld (t : Nat)
  /-- LW (R133). -/
  | lw (t : Nat)
  /-- ST (R134). -/
  | st (t : Nat)
  /-- SW (R134). -/
  | sw (t : Nat)
  /-- CORE_STORE_WRITE (R134). -/
  | coreStoreWrite (t : Nat)
  /-- ARG (R130). -/
  | arg (t : Nat)
  /-- CLD (R130). -/
  | cld (t : Nat)
  /-- BEQ (R130). -/
  | beq (t : Nat)
  /-- BNE (R130). -/
  | bne (t : Nat)
  /-- BLT (R130). -/
  | blt (t : Nat)
  /-- BGE (R130). -/
  | bge (t : Nat)
  /-- BLTU (R130). -/
  | bltu (t : Nat)
  /-- BGEU (R130). -/
  | bgeu (t : Nat)
  /-- JAL (R130). -/
  | jal (t : Nat)
  /-- JALR (R130). -/
  | jalr (t : Nat)
  /-- PUSH (R136). -/
  | push (t : Nat)
  /-- PUSH_STALL_END (R138). -/
  | pushStallEnd (t : Nat) (cyc : Nat)
  /-- SEMW (R139). -/
  | semw (t : Nat)
  /-- SEMW_SATISFIED (R140). -/
  | semwSatisfied (t : Nat)
  /-- SEMS (R139). -/
  | sems (t : Nat)
  /-- SEMR (R130). -/
  | semr (t : Nat)
  /-- RSIG (R143). -/
  | rsig (t : Nat)
  /-- REMOTE_SIGNAL_ARRIVAL (R144). -/
  | remoteSignalArrival (t : Nat) (src : Nat) (cyc : Nat)
  /-- BAR (R145). -/
  | bar (t : Nat)
  /-- BARRIER_ARRIVAL (R145). -/
  | barrierArrival (t : Nat)
  /-- BARRIER_RELEASE (R145). -/
  | barrierRelease (t : Nat) (cyc : Nat)
  /-- ANCHOR (R137). -/
  | anchor (t : Nat)
  /-- WAITC (R130). -/
  | waitc (t : Nat)
  /-- WAITC_EXPIRY (R130). -/
  | waitcExpiry (t : Nat)
  /-- CSRR (R128). -/
  | csrr (t : Nat)
  /-- WIN (R179). -/
  | win (t : Nat)
  /-- DESC_MAKE (R194). -/
  | descMake (t : Nat)
  /-- EPOCH (R156). -/
  | epoch (t : Nat)
  /-- EPOCH_CHECKPOINT (R157). -/
  | epochCheckpoint (h : Nat)
  /-- END (R126). -/
  | endCore (t : Nat)
  /-- CORE_NOP (R131). -/
  | coreNop (t : Nat)
  /-- CYC_OVERFLOW (R128). -/
  | cycOverflow (t : Nat)
  /-- MMA_NOP (R76). -/
  | mmaNop (t : Nat)
  /-- MMA_LOAD (R70). -/
  | mmaLoad (t : Nat)
  /-- MMA_LOADT (R71). -/
  | mmaLoadt (t : Nat)
  /-- MMA_MUL (R64). -/
  | mmaMul (t : Nat)
  /-- VE_NOP (R103). -/
  | veNop (t : Nat)
  /-- VE_SETCHAIN (R104). -/
  | veSetchain (t : Nat)
  /-- VE_SETQ (R107). -/
  | veSetq (t : Nat)
  /-- VE_SETPERM (R108). -/
  | veSetperm (t : Nat)
  /-- VE_RUN (R88). -/
  | veRun (t : Nat)
  /-- SP_NOP (R167). -/
  | spNop (t : Nat)
  /-- SP_FILL (R168). -/
  | spFill (t : Nat)
  /-- SP_COPY (R171). -/
  | spCopy (t : Nat)
  /-- SP_COMMAND_DONE (R172). -/
  | spCommandDone (t : Nat)
  /-- SE_NOP (R196). -/
  | seNop (t : Nat) (e : Nat) (cyc : Nat)
  /-- SE_READ (R198). -/
  | seRead (t : Nat) (e : Nat) (cyc : Nat)
  /-- SE_WRITE (R198). -/
  | seWrite (t : Nat) (e : Nat) (cyc : Nat)
  /-- SE_KEY (R207). -/
  | seKey (t : Nat) (e : Nat) (cyc : Nat)
  /-- KEY_HEADER_CHECK (R208). -/
  | keyHeaderCheck (t : Nat) (e : Nat) (cyc : Nat)
  /-- SX_STREAM_START (R210). -/
  | sxStreamStart (t : Nat) (e : Nat) (cyc : Nat)
  /-- BLOCK_LIST_READ (R199). -/
  | blockListRead (t : Nat) (e : Nat) (cyc : Nat)
  /-- STREAM_DATA_ARRIVAL (R203). -/
  | streamDataArrival (t : Nat) (e : Nat) (req : Nat) (cyc : Nat) (data : HostData)
  /-- STREAM_SIGNAL (R204). -/
  | streamSignal (t : Nat) (e : Nat) (cyc : Nat)
  /-- TRANSLATION_MISS (R212). -/
  | translationMiss (t : Nat) (e : Nat) (req : Nat)
  /-- PRI_RESPONSE (R212). -/
  | priResponse (t : Nat) (e : Nat) (resp : PriCode)
  /-- PAGE_REQUEST_TIMEOUT (R212). -/
  | pageRequestTimeout (t : Nat) (e : Nat)
  /-- HOST_ABORT (R213). -/
  | hostAbort (t : Nat) (e : Nat) (req : Nat)
  /-- REMOTE_ACCESS_ARRIVAL (R182). -/
  | remoteAccessArrival (t : Nat) (src : Nat) (cyc : Nat)
  /-- REMOTE_RESPONSE_ARRIVAL (R187). -/
  | remoteResponseArrival (t : Nat) (cyc : Nat)
  /-- WINDOW_NACK (R184). -/
  | windowNack (t : Nat)
  /-- SEMAPHORE_DEADLOCK (R154). -/
  | semaphoreDeadlock (h : Nat)
  /-- REPLAY (R159). -/
  | replay (h : Nat) (src : Nat) (t : Nat)
  /-- EPOCH_WATCHDOG (R337). -/
  | epochWatchdog (h : Nat) (failing : List Nat)
  /-- TILE_RETIRE (R340). -/
  | tileRetire (t : Nat) (code : Nat) (badSpares : Nat)
  /-- LINK_HALVING (R341). -/
  | linkHalving (net : Net) (link : Nat) (h : Nat)
  /-- GLINT (R343). -/
  | glint
  /-- MC_RESTART (R343). -/
  | mcRestart (parity : Bool)
  /-- MEM_READ (R239). -/
  | memRead (req : ReadEvent)
  /-- MEM_WRITE (R237). -/
  | memWrite (req : Nat)
  /-- BUCKET_RELEASE (R245). -/
  | bucketRelease (part : Nat) (req : Nat)
  /-- KEEP_EXPIRY (R243). -/
  | keepExpiry (unit : Nat)
  /-- LANE_REPAIR (R250). -/
  | laneRepair (ch : Nat) (ca : Bool) (lane : Nat)
  /-- CAL_INTERVAL (R251). -/
  | calInterval (ch : Nat) (ca : Bool)
  /-- CAL_PAUSE (R252). -/
  | calPause (ch : Nat)
  /-- CAL_PAUSE_END (R252). -/
  | calPauseEnd (ch : Nat)
  /-- CHANNEL_LOST (R254). -/
  | channelLost (ch : Nat)
  /-- STACK_LOST (R254). -/
  | stackLost (stk : Nat)
  /-- REBUILD_DONE (R255). -/
  | rebuildDone
  /-- RESYNC (R257). -/
  | resync (stk : Nat)
  /-- PATROL_SCRUB (R248). -/
  | patrolScrub (stripe : Nat) (badUnits : List Nat) (badParity : Bool)
  /-- STACK_TEMP_SAMPLE (R258). -/
  | stackTempSample (stk : Nat) (temp : Int)
  /-- MIRROR_ZONE_TEMP (R263). -/
  | mirrorZoneTemp (z : Nat) (temp : Int)
  /-- MIRROR_CRC (R262). -/
  | mirrorCrc (area : MirrorArea) (both : Bool)
  /-- THROTTLE_COMMAND (R396). -/
  | throttleCommand (pos : Nat)
  /-- VOLT_SETTLED (R397). -/
  | voltSettled (pos : Nat)
  /-- POWER_SAMPLE (R402). -/
  | powerSample (watts : Nat) (avg : Nat)
  /-- V12_LOW (R401). -/
  | v12Low (mv : Nat)
  /-- THERMAL_TRIP (R404). -/
  | thermalTrip
  /-- PLL_UNLOCK (R393). -/
  | pllUnlock
  /-- STBY_POWER_VALID (R400). -/
  | stbyPowerValid (mv : Nat)
  /-- MAIN_POWER_VALID (R400). -/
  | mainPowerValid (mv : Nat)
  /-- COLD_RESET (R410). -/
  | coldReset
  /-- PERST_DEASSERT (R400). -/
  | perstDeassert
  /-- BOOT_CHAIN (R364). -/
  | bootChain (mirrorOk : MirrorTest) (storeOk : Bool) (flash : HostData)
  /-- SERVICE_READY (R400). -/
  | serviceReady (initOk : Bool) (badTiles : SelfTests)
  /-- BEGIN (R366). -/
  | bootBegin
  /-- CHUNK (R366). -/
  | bootChunk (buf : Nat) (pages : Nat)
  /-- BOOT_END (R366). -/
  | bootEnd
  /-- AUTH_OPEN (R373). -/
  | authOpen
  /-- AUTH_CLOSE (R373). -/
  | authClose
  /-- AUTH_EXPIRY (R373). -/
  | authExpiry
  /-- TAKE_OWNERSHIP (R374). -/
  | takeOwnership
  /-- RELEASE_OWNERSHIP (R374). -/
  | releaseOwnership
  /-- SET_POLICY (R365). -/
  | setPolicy
  /-- SET_CERT (R372). -/
  | setCert
  /-- AUDIT_EXPORT (R381). -/
  | auditExport
  /-- AUDIT_ACK (R380). -/
  | auditAck
  /-- DIAG_UNLOCK (R376). -/
  | diagUnlock
  /-- DIAG_LOCK (R376). -/
  | diagLock
  /-- CONSENT_EXPIRY (R376). -/
  | consentExpiry
  /-- FUSE_PROGRAM (R377). -/
  | fuseProgram (readBack : Bool)
  /-- SHIP (R377). -/
  | ship
  /-- ARM (R359). -/
  | arm
  /-- CANCEL_INJECTION (R359). -/
  | cancelInjection
  /-- NO_OPPORTUNITY (R359). -/
  | noOpportunity
  /-- GET_VERSION (R367). -/
  | getVersion
  /-- GET_CAPABILITIES (R367). -/
  | getCapabilities
  /-- NEGOTIATE_ALGORITHMS (R367). -/
  | negotiateAlgorithms (ver : Nat) (asym : Nat) (hash : Nat) (dhe : Nat) (aead : Nat)
  /-- GET_DIGESTS (R367). -/
  | getDigests
  /-- GET_CERTIFICATE (R367). -/
  | getCertificate (slot : Nat) (off : Nat) (len : Nat)
  /-- CHALLENGE (R367). -/
  | challenge (slot : Nat) (nonce : List (BitVec 8))
  /-- GET_MEASUREMENTS (R368). -/
  | getMeasurements (index : Nat) (sign : Bool) (nonce : List (BitVec 8))
  /-- KEY_EXCHANGE (R367). -/
  | keyExchange (group : Nat) (pub : List (BitVec 8))
  /-- FINISH (R367). -/
  | finish (sid : Nat) (ok : Bool)
  /-- HEARTBEAT (R367). -/
  | heartbeat (sid : Nat)
  /-- KEY_UPDATE (R367). -/
  | keyUpdate (sid : Nat) (op : Nat)
  /-- END_SESSION (R367). -/
  | endSession (sid : Nat)
  /-- SET_CERTIFICATE (R367). -/
  | setCertificate (slot : Nat) (chain : List (BitVec 8))
  /-- KEY_PROG (R369). -/
  | keyProg (sid : Nat) (stream : Nat) (kset : Nat) (tx : Bool) (sub : Nat) (key : List (BitVec 8))
  /-- K_SET_GO (R369). -/
  | kSetGo (sid : Nat) (stream : Nat) (kset : Nat) (tx : Bool)
  /-- K_SET_STOP (R369). -/
  | kSetStop (sid : Nat) (stream : Nat)
  /-- SMB_DOMAIN_STATUS (R413). -/
  | smbDomainStatus
  /-- SMB_PKG_STATE (R413). -/
  | smbPkgState
  /-- SMB_TEMPERATURES (R413). -/
  | smbTemperatures
  /-- SMB_POWER (R413). -/
  | smbPower
  /-- SMB_BOOT_STATUS (R413). -/
  | smbBootStatus
  /-- SMB_FLT_STATUS (R413). -/
  | smbFltStatus
  /-- SMB_SERIAL (R413). -/
  | smbSerial
  /-- SMB_REFRESH (R413). -/
  | smbRefresh
  /-- LINK_TRAINED (R400). -/
  | linkTrained (rate : Nat) (width : Nat) (flit : Bool)
  /-- STBY_POWER_LOSS (R420). -/
  | stbyPowerLoss
  /-- PLL_RELOCK (R393). -/
  | pllRelock
  /-- RESYNC_DONE (R257). -/
  | resyncDone (stk : Nat)
  /-- LANE_REPAIR_DONE (R250). -/
  | laneRepairDone (ch : Nat)
  /-- ATS_TRANSLATION_COMPLETION (R211). -/
  | atsTranslationCompletion (t : Nat) (e : Nat) (req : Nat) (grant : Bool)
  /-- ATS_INVALIDATE_REQUEST (R272). -/
  | atsInvalidateRequest (fn : Nat) (pasid : Option Nat) (addr : Nat) (size : Nat)
  /-- CONFIG_SPACE_WRITE (R272). -/
  | configSpaceWrite (fn : Nat) (field : CfgField) (v : Nat)
  /-- MSIX_UNMASK (R289). -/
  | msixUnmask (fn : Nat) (vec : Nat)
  /-- DOE_DISCOVERY (R272). -/
  | doeDiscovery (index : Nat)
  /-- LOCK_INTERFACE_REQUEST (R300). -/
  | lockInterfaceRequest (sid : Nat) (fn : Nat)
  /-- START_INTERFACE_REQUEST (R300). -/
  | startInterfaceRequest (sid : Nat) (fn : Nat)
  /-- STOP_INTERFACE_REQUEST (R300). -/
  | stopInterfaceRequest (sid : Nat) (fn : Nat)
  /-- GET_DEVICE_INTERFACE_REPORT (R369). -/
  | getDeviceInterfaceReport (sid : Nat) (fn : Nat)
  /-- SMB_UNSUPPORTED_COMMAND (R413). -/
  | smbUnsupportedCommand (cmd : Nat)
  /-- TEST_CONTROLLER_ACCESS (R415). -/
  | testControllerAccess (kind : TapAccess)
  deriving DecidableEq, Repr

end Sys2Proof
end

