-- ==== Sys2Proof/Machine/Bits.lean ====
section
/-! DEFINITION. Bit fields, byte strings, sign extension, sparse tables and sparse memories: the helpers of every meaning. -/

namespace Sys2Proof.Machine

/-- The field of `n` bits that begins at bit `lo` of `x` (R5). -/
def fld (x lo n : Nat) : Nat := (x >>> lo) % 2 ^ n

/-- Bit `i` of `x`. -/
def bitAt (x i : Nat) : Bool := x.testBit i

/-- `x` with the field of `n` bits at bit `lo` replaced by `v`. -/
def setFld (x lo n v : Nat) : Nat :=
  x - (fld x lo n) <<< lo + (v % 2 ^ n) <<< lo

/-- The number of a Boolean. -/
def b2n (b : Bool) : Nat := if b then 1 else 0

/-- `x` read as an `n`-bit two's-complement value. -/
def sext (n x : Nat) : Int :=
  let y := x % 2 ^ n
  if y < 2 ^ (n - 1) then (y : Int) else (y : Int) - (2 ^ n : Nat)

/-- An integer taken modulo `m`, as a natural number. -/
def imod (x : Int) (m : Nat) : Nat := (x % (m : Int)).toNat

/-- Ceiling division. -/
def cdiv (a b : Nat) : Nat := (a + b - 1) / b

/-- Floor of the base-2 logarithm, 0 for 0. -/
def log2 (x : Nat) : Nat := Nat.log2 x

/-- Ceiling of the base-2 logarithm, 0 for 0 and 1. -/
def clog2 (x : Nat) : Nat := if x ≤ 1 then 0 else Nat.log2 (x - 1) + 1

/-- A byte string read as a little-endian number (R6). -/
def leNat : List Byte → Nat
  | [] => 0
  | b :: r => b.toNat + 256 * leNat r

/-- The `n` low bytes of `x`, little-endian (R6). -/
def leBytes : Nat → Nat → List Byte
  | 0, _ => []
  | n + 1, x => BitVec.ofNat 8 x :: leBytes n (x / 256)

/-- A byte string read as a big-endian number (the exception of R6). -/
def beNat (l : List Byte) : Nat := l.foldl (fun a b => a * 256 + b.toNat) 0

/-- The `n` low bytes of `x`, big-endian. -/
def beBytes (n x : Nat) : List Byte := (leBytes n x).reverse

/-- The `n` bytes from offset `o`, short at the end of the string. -/
def sub (l : List Byte) (o n : Nat) : List Byte := (l.drop o).take n

/-- The little-endian field of `n` bytes at offset `o`. -/
def le (l : List Byte) (o n : Nat) : Nat := leNat (sub l o n)

/-- Every byte of the string is zero. -/
def zeros (l : List Byte) : Bool := l.all (fun b => b == 0)

/-- `l` with the bytes from offset `o` replaced by `v`. -/
def splice (l : List Byte) (o : Nat) (v : List Byte) : List Byte :=
  l.take o ++ v ++ l.drop (o + v.length)

/-- The 128 bytes of a descriptor. -/
def descBytes (d : Desc) : List Byte := leBytes 128 d.toNat

/-- The field of `n` bytes at offset `o` of a descriptor. -/
def dfld (d : Desc) (o n : Nat) : Nat := fld d.toNat (8 * o) (8 * n)

/-- The intervals [a, a+n) and [b, b+m) share a byte. -/
def overlaps (a n b m : Nat) : Bool := decide (a < b + m) && decide (b < a + n) && decide (0 < n) && decide (0 < m)

/-- [a, a+n) lies within [b, b+m). -/
def within (a n b m : Nat) : Bool := decide (b ≤ a) && decide (a + n ≤ b + m)

/-- Saturating increment. -/
def satInc (x cap : Nat) : Nat := if x < cap then x + 1 else cap

/-- The list with position `i` changed by `f`. -/
def modAt {α : Type} (l : List α) (i : Nat) (f : α → α) : List α :=
  match l, i with
  | [], _ => []
  | x :: r, 0 => f x :: r
  | x :: r, k + 1 => x :: modAt r k f

/-- The smallest element of a list, the default for none. -/
def minL (l : List Nat) (d : Nat) : Nat := l.foldl Nat.min d

/-- The largest element of a list and `d`. -/
def maxL (l : List Nat) (d : Nat) : Nat := l.foldl Nat.max d

/-- Insert before the first element that does not come earlier. -/
def insertBy {α : Type} (le : α → α → Bool) (a : α) : List α → List α
  | [] => [a]
  | b :: r => if le a b then a :: b :: r else b :: insertBy le a r

/-- A list in order, equal elements as they stood. -/
def sortBy {α : Type} (le : α → α → Bool) (l : List α) : List α := l.foldr (insertBy le) []

/-- A sparse table: keys rising, an unlisted key holds the default the reader names. -/
abbrev Tbl (α : Type) := List (Nat × α)

/-- The entry of a table, if listed. -/
def Tbl.find {α : Type} (t : Tbl α) (k : Nat) : Option α :=
  match t with
  | [] => none
  | (j, v) :: r => if j = k then some v else Tbl.find r k

/-- The entry of a table, or the default. -/
def Tbl.get {α : Type} (t : Tbl α) (k : Nat) (d : α) : α := (t.find k).getD d

/-- Write one entry, keys kept rising. -/
def Tbl.put {α : Type} (t : Tbl α) (k : Nat) (v : α) : Tbl α :=
  match t with
  | [] => [(k, v)]
  | (j, w) :: r =>
    if k < j then (k, v) :: (j, w) :: r
    else if k = j then (k, v) :: r
    else (j, w) :: Tbl.put r k v

/-- Remove one entry. -/
def Tbl.del {α : Type} (t : Tbl α) (k : Nat) : Tbl α := t.filter (fun p => p.1 ≠ k)

/-- The values of a table, in key order. -/
def Tbl.vals {α : Type} (t : Tbl α) : List α := t.map (·.2)

/-- A sparse memory: addresses strictly rising, no listed byte equal to 0, the value an unlisted address reads as. -/
abbrev Mem := List Host.Cell

/-- The byte at an address; an unlisted address reads as 0 (R235; log 8). -/
def Mem.rd (m : Mem) (a : Nat) : Byte :=
  match m with
  | [] => 0
  | (k, v) :: r => if k = a then v else Mem.rd r a

/-- Write one byte, keeping the canonical form. -/
def Mem.wr (m : Mem) (a : Nat) (b : Byte) : Mem :=
  match m with
  | [] => if b = 0 then [] else [(a, b)]
  | (k, v) :: r =>
    if a < k then (if b = 0 then (k, v) :: r else (a, b) :: (k, v) :: r)
    else if a = k then (if b = 0 then r else (a, b) :: r)
    else (k, v) :: Mem.wr r a b

/-- `n` bytes from address `a`. -/
def Mem.rdN (m : Mem) (a : Nat) : Nat → List Byte
  | 0 => []
  | n + 1 => m.rd a :: Mem.rdN m (a + 1) n

/-- Write a byte string at address `a`. -/
def Mem.wrN (m : Mem) (a : Nat) : List Byte → Mem
  | [] => m
  | b :: r => Mem.wrN (m.wr a b) (a + 1) r

/-- Every byte of [a, a+n) becomes 0: the listed bytes of the range are dropped. -/
def Mem.clear (m : Mem) (a n : Nat) : Mem := m.filter (fun p => !(decide (a ≤ p.1) && decide (p.1 < a + n)))

/-- Every byte outside [a, a+n) becomes 0. -/
def Mem.restrict (m : Mem) (a n : Nat) : Mem := m.filter (fun p => decide (a ≤ p.1) && decide (p.1 < a + n))

/-- The canonical form above a bound. -/
def Mem.wfFrom (lo : Nat) : Mem → Bool
  | [] => true
  | (k, v) :: r => decide (lo ≤ k) && !(v == 0) && Mem.wfFrom (k + 1) r

/-- The canonical form: addresses strictly rising, no entry equal to 0. -/
def Mem.wf (m : Mem) : Bool := Mem.wfFrom 0 m

end Sys2Proof.Machine
end

