-- ==== Sys2Proof/Machine/Hash.lean ====
section
/-! DEFINITION. The published hash functions and the block cipher the device uses: SHA-2, Keccak with SHAKE and SHA-3, HMAC-free, and
AES-256 in counter mode (PRESUMED from the published standards; log 12). -/

namespace Sys2Proof.Machine

/-- A `w`-bit rotation to the left by `n`. -/
def rotl (w x n : Nat) : Nat := (x <<< (n % w)) % 2 ^ w ||| x >>> (w - n % w)

/-- A `w`-bit rotation to the right by `n`. -/
def rotr (w x n : Nat) : Nat := rotl w x (w - n % w)

/-- The `w`-bit complement. -/
def inv (w x : Nat) : Nat := 2 ^ w - 1 - x

/-- The integer square root, by bits from `k` down. -/
def rootBits (p x : Nat) : Nat → Nat → Nat
  | 0, r => if (r + 1) ^ p ≤ x then r + 1 else r
  | k + 1, r => rootBits p x k (if (r + 2 ^ (k + 1)) ^ p ≤ x then r + 2 ^ (k + 1) else r)

/-- floor(x^(1/p)) for roots below 2^80. -/
def rootOf (p x : Nat) : Nat := rootBits p x 79 0

/-- The first `n` primes from `k` on, by trial division. -/
def primesFrom : Nat → Nat → Nat → List Nat
  | 0, _, _ => []
  | fuel + 1, n, k =>
    if n = 0 then []
    else if (List.range k).all (fun d => decide (d < 2) || decide (k % d ≠ 0)) then k :: primesFrom fuel (n - 1) (k + 1)
    else primesFrom fuel n (k + 1)

/-- The first eighty primes. -/
def primes80 : List Nat := primesFrom 410 80 2

/-- The first `w` bits of the fractional part of the `r`-th root of `p` (the constants of SHA-2). -/
def fracRoot (r w p : Nat) : Nat := rootOf r (p * 2 ^ (r * w)) % 2 ^ w

/-- The parameters of a SHA-2 function: word size, rounds, the rotations of Σ0, Σ1, σ0, σ1, the initial hash, constants. -/
structure Sha2 where
  w  : Nat
  s0 : Nat × Nat × Nat
  s1 : Nat × Nat × Nat
  t0 : Nat × Nat × Nat
  t1 : Nat × Nat × Nat
  iv : List Nat
  ks : List Nat
  deriving DecidableEq, Repr

/-- SHA-256. -/
def sha2P256 : Sha2 :=
  { w := 32, s0 := (2, 13, 22), s1 := (6, 11, 25), t0 := (7, 18, 3), t1 := (17, 19, 10),
    iv := (primes80.take 8).map (fracRoot 2 32), ks := (primes80.take 64).map (fracRoot 3 32) }

/-- SHA-512. -/
def sha2P512 : Sha2 :=
  { w := 64, s0 := (28, 34, 39), s1 := (14, 18, 41), t0 := (1, 8, 7), t1 := (19, 61, 6),
    iv := (primes80.take 8).map (fracRoot 2 64), ks := primes80.map (fracRoot 3 64) }

/-- SHA-384: SHA-512 with the ninth to sixteenth primes. -/
def sha2P384 : Sha2 := { sha2P512 with iv := ((primes80.drop 8).take 8).map (fracRoot 2 64) }

/-- Three rotations XORed; the last is a shift when `sh`. -/
def rot3 (w : Nat) (sh : Bool) (r : Nat × Nat × Nat) (x : Nat) : Nat :=
  rotr w x r.1 ^^^ rotr w x r.2.1 ^^^ (if sh then x >>> r.2.2 else rotr w x r.2.2)

/-- The message schedule, newest word first, extended to `n` more words. -/
def shaExtend (p : Sha2) : Nat → List Nat → List Nat
  | 0, l => l
  | n + 1, l =>
    let g := fun i => l.getD i 0
    shaExtend p n ((rot3 p.w true p.t1 (g 1) + g 6 + rot3 p.w true p.t0 (g 14) + g 15) % 2 ^ p.w :: l)

/-- One round on the working variables a to h. -/
def shaRound (p : Sha2) (v : List Nat) (kw : Nat × Nat) : List Nat :=
  match v with
  | [a, b, c, d, e, f, g, h] =>
    let t1 := h + rot3 p.w false p.s1 e + ((e &&& f) ^^^ (inv p.w e &&& g)) + kw.1 + kw.2
    let t2 := rot3 p.w false p.s0 a + ((a &&& b) ^^^ (a &&& c) ^^^ (b &&& c))
    [(t1 + t2) % 2 ^ p.w, a, b, c, (d + t1) % 2 ^ p.w, e, f, g]
  | _ => v

/-- One block of sixteen words. -/
def shaBlock (p : Sha2) (h : List Nat) (block : List Byte) : List Nat :=
  let b := p.w / 8
  let ws := (List.range 16).map (fun i => beNat (sub block (b * i) b))
  let all := (shaExtend p (p.ks.length - 16) ws.reverse).reverse
  let v := (p.ks.zip all).foldl (shaRound p) h
  (h.zip v).map (fun q => (q.1 + q.2) % 2 ^ p.w)

/-- The blocks of a byte string. -/
def chunks (n : Nat) : Nat → List Byte → List (List Byte)
  | 0, _ => []
  | k + 1, l => if l.isEmpty then [] else l.take n :: chunks n k (l.drop n)

/-- A SHA-2 digest of `out` bytes. -/
def sha2 (p : Sha2) (out : Nat) (m : List Byte) : List Byte :=
  let bs := 2 * p.w
  let lb := p.w / 4
  let pad := (bs - (m.length + 1 + lb) % bs) % bs
  let t := m ++ [0x80] ++ List.replicate pad 0 ++ beBytes lb (8 * m.length)
  (((chunks bs (t.length / bs) t).foldl (shaBlock p) p.iv).map (beBytes (p.w / 8))).flatten.take out

/-- SHA-256. -/
def sha256 (m : List Byte) : List Byte := sha2 sha2P256 32 m
/-- SHA-384. -/
def sha384 (m : List Byte) : List Byte := sha2 sha2P384 48 m
/-- SHA-512. -/
def sha512 (m : List Byte) : List Byte := sha2 sha2P512 64 m

/-- Lane (x, y) of a Keccak state. -/
def kLane (a : List Nat) (x y : Nat) : Nat := a.getD (x % 5 + 5 * (y % 5)) 0

/-- The positions and rotations of the ρ and π walk, from (1, 0). -/
def kWalk : Nat → Nat → Nat → Nat → List (Nat × Nat)
  | 0, _, _, _ => []
  | n + 1, t, x, y => (x + 5 * y, (t + 1) * (t + 2) / 2 % 64) :: kWalk n (t + 1) y ((2 * x + 3 * y) % 5)

/-- The rotation of each lane. -/
def kRots : List Nat :=
  let w := kWalk 24 0 1 0
  (List.range 25).map (fun i => match w.find? (fun p => p.1 == i) with
    | some p => p.2
    | none => 0)

/-- One step of the LFSR of the round constants. -/
def kLfsr (r : Nat) : Nat := if r % 256 ≥ 128 then (r * 2 ^^^ 0x171) % 256 else r * 2 % 256

/-- The LFSR after `n` steps from 1. -/
def kLfsrN : Nat → Nat
  | 0 => 1
  | n + 1 => kLfsr (kLfsrN n)

/-- The round constant of round `i`. -/
def kConst (i : Nat) : Nat :=
  (List.range 7).foldl (fun c j => c + (kLfsrN (7 * i + j) % 2) * 2 ^ (2 ^ j - 1)) 0

/-- The 24 round constants. -/
def kConsts : List Nat := (List.range 24).map kConst

/-- One round of Keccak-f[1600]. -/
def kRound (rots : List Nat) (a : List Nat) (rc : Nat) : List Nat :=
  let c := (List.range 5).map (fun x => (List.range 5).foldl (fun v y => v ^^^ kLane a x y) 0)
  let d := (List.range 5).map (fun x => c.getD ((x + 4) % 5) 0 ^^^ rotl 64 (c.getD ((x + 1) % 5) 0) 1)
  let a := a.mapIdx (fun i v => v ^^^ d.getD (i % 5) 0)
  let r := a.mapIdx (fun i v => rotl 64 v (rots.getD i 0))
  -- B[y, 2x + 3y] = rot(A[x, y]), read backwards: B[X, Y] comes from x with y = X
  let b := (List.range 25).map (fun i =>
    let x := i % 5
    let y := i / 5
    kLane r (x + 3 * y) x)
  let e := b.mapIdx (fun i v => v ^^^ (inv 64 (kLane b (i % 5 + 1) (i / 5)) &&& kLane b (i % 5 + 2) (i / 5)))
  e.mapIdx (fun i v => if i = 0 then v ^^^ rc else v)

/-- Keccak-f[1600]. -/
def keccakF (a : List Nat) : List Nat := kConsts.foldl (kRound kRots) a

/-- XOR a block of bytes into the state. -/
def kAbsorb (a : List Nat) (block : List Byte) : List Nat :=
  keccakF (a.mapIdx (fun i v => v ^^^ le block (8 * i) 8))

/-- The first `rate` bytes of `n` squeezes. -/
def kSqueeze (rate : Nat) : Nat → List Nat → List Byte
  | 0, _ => []
  | n + 1, a => ((a.map (leBytes 8)).flatten.take rate) ++ (if n = 0 then [] else kSqueeze rate n (keccakF a))

/-- A sponge with the given rate, domain byte and output length. -/
def sponge (rate dom out : Nat) (m : List Byte) : List Byte :=
  let n := m.length / rate + 1
  let z := m ++ [BitVec.ofNat 8 dom] ++ List.replicate (n * rate - m.length - 1) 0
  let z := z.take (n * rate - 1) ++ (z.drop (n * rate - 1)).map (fun b => b ^^^ 0x80)
  let a := (chunks rate n z).foldl kAbsorb (List.replicate 25 0)
  (kSqueeze rate (cdiv out rate) a).take out

/-- SHAKE-128. -/
def shake128 (out : Nat) (m : List Byte) : List Byte := sponge 168 0x1F out m
/-- SHAKE-256. -/
def shake256 (out : Nat) (m : List Byte) : List Byte := sponge 136 0x1F out m
/-- SHA3-256. -/
def sha3_256 (m : List Byte) : List Byte := sponge 136 0x06 32 m
/-- SHA3-512. -/
def sha3_512 (m : List Byte) : List Byte := sponge 72 0x06 64 m

/-- Multiplication by x in GF(2^8) modulo 0x11B. -/
def gfDouble (a : Nat) : Nat := if a ≥ 128 then (2 * a ^^^ 0x11B) % 256 else 2 * a

/-- Multiplication in GF(2^8), over the low `n` bits of `b`. -/
def gfMulN : Nat → Nat → Nat → Nat
  | 0, _, _ => 0
  | n + 1, a, b => (if b % 2 = 1 then a else 0) ^^^ gfMulN n (gfDouble a) (b / 2)

/-- Multiplication in GF(2^8). -/
def gfMul (a b : Nat) : Nat := gfMulN 8 a b

/-- a^254 in GF(2^8), the inverse. -/
def gfInv (a : Nat) : Nat :=
  let a2 := gfMul a a
  let a4 := gfMul a2 a2
  let a8 := gfMul a4 a4
  let a16 := gfMul a8 a8
  let a32 := gfMul a16 a16
  let a64 := gfMul a32 a32
  let a128 := gfMul a64 a64
  gfMul a2 (gfMul a4 (gfMul a8 (gfMul a16 (gfMul a32 (gfMul a64 a128)))))

/-- The AES S-box. -/
def aesSub (x : Nat) : Nat :=
  let b := gfInv x
  b ^^^ rotl 8 b 1 ^^^ rotl 8 b 2 ^^^ rotl 8 b 3 ^^^ rotl 8 b 4 ^^^ 0x63

/-- The S-box as a table. -/
def aesSbox : List Nat := (List.range 256).map aesSub

/-- The words of the AES-256 key schedule, newest first, extended by `n`. -/
def aesExpand (sbox : List Nat) : Nat → Nat → Nat → List (List Nat) → List (List Nat)
  | 0, _, _, l => l
  | n + 1, i, rcon, l =>
    let t := l.headD []
    let su := fun (w : List Nat) => w.map (fun b => sbox.getD b 0)
    let t' := if i % 8 = 0 then
        match su (t.drop 1 ++ t.take 1) with
        | a :: r => (a ^^^ rcon) :: r
        | [] => []
      else if i % 8 = 4 then su t else t
    let w := (t'.zip (l.getD 7 [])).map (fun p => p.1 ^^^ p.2)
    aesExpand sbox n (i + 1) (if i % 8 = 0 then gfDouble rcon else rcon) (w :: l)

/-- The fifteen round keys of AES-256 as 16-byte lists. -/
def aesKeys (sbox : List Nat) (key : List Byte) : List (List Nat) :=
  let ws := (List.range 8).map (fun i => (sub key (4 * i) 4).map (fun b => b.toNat))
  let all := (aesExpand sbox 52 8 1 ws.reverse).reverse
  (List.range 15).map (fun r => ((all.drop (4 * r)).take 4).flatten)

/-- SubBytes and ShiftRows on a state in column order. -/
def aesShift (sbox : List Nat) (s : List Nat) : List Nat :=
  (List.range 16).map (fun i => sbox.getD (s.getD ((i + 4 * (i % 4)) % 16) 0) 0)

/-- MixColumns. -/
def aesMix (s : List Nat) : List Nat :=
  (List.range 16).map (fun i =>
    let c := i / 4 * 4
    let b := fun k => s.getD (c + (i + k) % 4) 0
    gfDouble (b 0) ^^^ (gfDouble (b 1) ^^^ b 1) ^^^ b 2 ^^^ b 3)

/-- XOR of two states. -/
def aesAdd (a b : List Nat) : List Nat := (a.zip b).map (fun p => p.1 ^^^ p.2)

/-- One AES-256 block with expanded keys. -/
def aesBlockWith (sbox : List Nat) (ks : List (List Nat)) (block : List Byte) : List Byte :=
  let s := aesAdd (block.map (fun b => b.toNat)) (ks.headD [])
  let s := ((ks.drop 1).take 13).foldl (fun s k => aesAdd (aesMix (aesShift sbox s)) k) s
  (aesAdd (aesShift sbox s) (ks.getLastD [])).map (BitVec.ofNat 8)

/-- AES-256 of one block. -/
def aes256 (key block : List Byte) : List Byte := aesBlockWith aesSbox (aesKeys aesSbox key) block

end Sys2Proof.Machine
end

