-- ==== Sys2Proof/Machine/Codes.lean ====
section
/-! DEFINITION. The status codes the device reports (R17), and CRC-32C (R42). -/

namespace Sys2Proof.Machine

/-- 0x0000 OK. -/
def stOk : Nat := 0x0000
/-- 0x0101. -/
def stBadOpcode : Nat := 0x0101
/-- 0x0102. -/
def stSessionInvalid : Nat := 0x0102
/-- 0x0103. -/
def stPermission : Nat := 0x0103
/-- 0x0104. -/
def stQuota : Nat := 0x0104
/-- 0x0105. -/
def stContractVersion : Nat := 0x0105
/-- 0x0106. -/
def stRingSeqGap : Nat := 0x0106
/-- 0x0107. -/
def stInPlaceForbidden : Nat := 0x0107
/-- 0x0201. -/
def stKeyMismatch : Nat := 0x0201
/-- 0x0202. -/
def stLevelExhausted : Nat := 0x0202
/-- 0x0203. -/
def stNoiseBudget : Nat := 0x0203
/-- 0x0204. -/
def stParamMismatch : Nat := 0x0204
/-- 0x0205. -/
def stHeaderInvalid : Nat := 0x0205
/-- 0x0206. -/
def stExchangeVersion : Nat := 0x0206
/-- 0x0301. -/
def stContractViolation : Nat := 0x0301
/-- 0x0302. -/
def stBankConflict : Nat := 0x0302
/-- 0x0303. -/
def stSemaphoreDeadlock : Nat := 0x0303
/-- 0x0304. -/
def stSemaphoreOverflow : Nat := 0x0304
/-- 0x0305. -/
def stWindowClosed : Nat := 0x0305
/-- 0x0401. -/
def stDescRange : Nat := 0x0401
/-- 0x0402. -/
def stDescAlign : Nat := 0x0402
/-- 0x0403. -/
def stDescAlias : Nat := 0x0403
/-- 0x0404. -/
def stLayoutOverlap : Nat := 0x0404
/-- 0x0405. -/
def stPageFault : Nat := 0x0405
/-- 0x0406. -/
def stHostAbort : Nat := 0x0406
/-- 0x0501. -/
def stInputRange : Nat := 0x0501
/-- 0x0502. -/
def stPointInvalid : Nat := 0x0502
/-- 0x0503. -/
def stScalarZero : Nat := 0x0503
/-- 0x0504. -/
def stVerifyFail : Nat := 0x0504
/-- 0x0505. -/
def stExpansionShort : Nat := 0x0505
/-- 0x0601. -/
def stCancelled : Nat := 0x0601
/-- 0x0602. -/
def stDependencyFailed : Nat := 0x0602
/-- 0x0603. -/
def stConfigStale : Nat := 0x0603
/-- 0x0604. -/
def stTimeout : Nat := 0x0604
/-- 0x07F1. -/
def stObjectLost : Nat := 0x07F1
/-- 0x07FF. -/
def stUnrecoverable : Nat := 0x07FF

/-- One bit step of CRC-32C in its reflected form. -/
def crcBit (c : Nat) : Nat := if c % 2 = 1 then (c / 2) ^^^ 0x82F63B78 else c / 2

/-- One byte step of CRC-32C. -/
def crcByte (c : Nat) (b : Byte) : Nat :=
  crcBit (crcBit (crcBit (crcBit (crcBit (crcBit (crcBit (crcBit (c ^^^ b.toNat))))))))

/-- CRC-32C of a byte string: reflected polynomial 0x82F6_3B78, initial value and final XOR 0xFFFF_FFFF (R42). -/
def crc32c (l : List Byte) : Nat := (l.foldl crcByte 0xFFFFFFFF) ^^^ 0xFFFFFFFF

/-- A 256-byte header with its CRC field set (R42). -/
def sealHeader (h : List Byte) : List Byte := h.take 0xFC ++ leBytes 4 (crc32c (h.take 0xFC))

/-- The CRC field of a 256-byte header matches (R42). -/
def crcOk (h : List Byte) : Bool := le h 0xFC 4 == crc32c (h.take 0xFC)

end Sys2Proof.Machine
end

