-- ==== Sys2Proof/Machine/HostTypes.lean ====
section
/-! DEFINITION. The state of the Host Interface and of the Task Scheduler: rings, function pages, entries, sessions, bundles. -/

namespace Sys2Proof.Machine

/-- The configuration-space controls of a function (R272, R289, R298, R302); `prAlloc` is the Page Request Allocation register, `msix` and
`msixMask` the enable and the function mask of MSI-X. -/
structure FnCfg where
  busMaster : Bool
  msix   : Bool
  msixMask : Bool
  ats    : Bool
  pri    : Bool
  pasid  : Bool
  prAlloc : Nat
  d3hot  : Bool
  deriving DecidableEq, Repr

/-- One function page (R302), with its poll timer and its pending doorbell fetch (R277, R278). -/
structure FnPage where
  dbrBase  : Nat
  dbrPasid : Nat
  poll     : Nat
  noticeCq : Nat
  dup      : Nat
  error    : Bool
  sqSel    : Nat
  cqSel    : Nat
  period   : Nat
  pollAt   : Nat
  fetchSq  : List Nat
  fetchCq  : List Nat
  fetching : Bool
  polled   : Bool
  paused   : Bool
  deriving DecidableEq, Repr

/-- What the outcome record keeps of a consumed descriptor (R306, R431): its SEQ, its number among all acceptances, its session tag,
whether its ACCEPT carried 0x0000, and its outcome once it has one. -/
structure Outcome where
  seq    : Nat
  no     : Nat
  tag    : Nat
  taken  : Bool
  result : Option Bool
  deriving DecidableEq, Repr

/-- One submission ring (R275, R279, R284, R290, R302, R306): `slots` and `cq` as the enabling write applied them, `outcome` newest
first, `enabledAt` the acceptances before its last enabling, `consumed` the descriptors consumed on the present epoch. -/
structure Sq where
  base    : Nat
  cfg     : Nat
  pasid   : Nat
  enabled : Bool
  halted  : Bool
  slots   : Nat
  cq      : Nat
  epoch   : Nat
  expect  : Nat
  halt    : Nat
  tail    : Nat
  stopped : Bool
  outcome : List Outcome
  enabledAt : Nat
  consumed : Nat
  deriving DecidableEq, Repr

/-- A completion entry that waits to be written (R292), its 32 bytes without PHASE and its detail record; `done` for a COMPLETE entry:
the handle whose scoreboard entry its writing frees, and whether its status is 0x0000 (R304). -/
structure HeldEntry where
  entry  : List Byte
  detail : List Byte
  noirq  : Bool
  notice : Bool
  done   : Option (Nat × Bool)
  deriving DecidableEq, Repr

/-- One completion ring (R275, R285 to R292, R302). -/
structure Cq where
  base    : Nat
  det     : Nat
  cfg     : Nat
  coal    : Nat
  pasid   : Nat
  enabled : Bool
  halted  : Bool
  log2    : Nat
  vector  : Nat
  next    : Nat
  head    : Nat
  reserved : Nat
  notices : List Nat
  held    : List HeldEntry
  count   : Nat
  firstAt : Option Nat
  lost    : Bool
  deriving DecidableEq, Repr

/-- One MSI-X table entry with its pending bit (R274, R289). -/
structure MsixEntry where
  addr : Nat
  data : Nat
  ctrl : Nat
  pend : Bool
  deriving DecidableEq, Repr

/-- The holding and staging registers of one pair (R9). -/
structure Pair where
  held   : Option (BitVec 32)
  staged : Option (BitVec 32)
  deriving DecidableEq, Repr

/-- One outstanding page request of a stream engine (R212, R272). -/
structure PageReq where
  fn     : Nat
  tile   : Nat
  engine : Nat
  num    : Nat := 0
  deriving DecidableEq, Repr

/-- One cached address translation (R211). -/
structure Translation where
  fn    : Nat
  space : Nat
  page  : Nat
  rd    : Bool
  wr    : Bool
  deriving DecidableEq, Repr

/-- HI_LINK (R303). -/
structure Link where
  rate  : Nat
  width : Nat
  flit  : Bool
  l0p   : Nat
  up    : Bool
  deriving DecidableEq, Repr

/-- The Mirror record of an entry written to a completion ring: the ring, its number there, the keys of its host addresses and its bytes
(R292, R344). -/
structure Posted where
  ring     : Nat
  num      : Nat
  entryAt  : Nat
  entry    : List Byte
  detailAt : Nat
  detail   : List Byte
  noirq    : Bool
  deriving DecidableEq, Repr

/-- The Host Interface (file 10). -/
structure Hi where
  link   : Link
  cfgs   : Tbl FnCfg
  fns    : Tbl FnPage
  fnSel  : Nat
  sqs    : Tbl Sq
  cqs    : Tbl Cq
  msix   : Tbl (Tbl MsixEntry)
  pairs  : Tbl (Tbl Pair)
  ats    : List Translation
  pris   : List PageReq
  xfers  : List Nat
  recent : List Posted
  deriving DecidableEq, Repr

/-- One object declaration (R120). -/
structure ObjDecl where
  slot    : Nat
  role    : Nat
  kind    : Nat
  drop    : Nat
  srcmask : Nat
  galois  : Nat
  scaleRule : Nat
  target  : Nat
  dec     : Nat
  ptScale : Nat
  targetArg : Nat
  polys   : Nat
  deriving DecidableEq, Repr

/-- One range record (R122). -/
structure RangeRec where
  slot : Nat
  kind : Nat
  dir  : Nat
  len  : Nat
  off  : Nat
  deriving DecidableEq, Repr

/-- One role-table entry (R117). -/
structure Role where
  codeOff : Nat
  codeLen : Nat
  entry   : Nat
  deriving DecidableEq, Repr

/-- A stage of a firmware macro (R220 to R223): REFRESH lowers, raises and transforms between two levels, where R222 gives them; SWITCH_TO_LWE extracts the
coefficients (p0 + i × p1) mod n for `count` items from `first` on; REPACK merges its inputs b at coefficient b × p1; PBS sets up its
accumulators, runs blind-rotation steps and extracts; any other macro is one epoch. -/
inductive MacroStage where
  | lower
  | modRaise (level : Nat)
  | coeffToSlot (levels : Option (Nat × Nat))
  | evalMod (level out : Nat)
  | evalModHalf (half : Nat)
  | digits (half : Nat)
  | slotToCoeff (levels : Option (Nat × Nat))
  | extract (p0 p1 n first count : Nat)
  | merge (p1 first count : Nat)
  | accumulate
  | rotate (first count : Nat)
  | extractSwitch
  | whole (mcode : Nat)
  deriving DecidableEq, Repr

/-- A task image as the scheduler has read it (R116 to R122); `plan` is what each epoch of a macro does (R221). -/
structure Image where
  addr      : Nat
  streaming : Bool
  gw        : Nat
  gh        : Nat
  footprint : Nat
  semode    : Nat
  roles     : List Role
  roleMap   : List Nat
  descs     : List Desc
  objs      : List ObjDecl
  epochs    : List (List RangeRec)
  codes     : List Mem
  plan      : List (List MacroStage)
  deriving DecidableEq, Repr

/-- The states that QUERY reports of a held entry (R297, R304), and `completing`: the work has ended, and its COMPLETE entry waits for
a halted completion ring. -/
inductive EntryState where
  | waiting
  | ready
  | running
  | replaying
  | completing
  deriving DecidableEq, Repr

/-- One region of a session (R188, R315); `removed` after the acceptance of its REMOVE_REGION. -/
structure Region where
  id      : Nat
  host    : Bool
  pasid   : Nat
  base    : Nat
  len     : Nat
  removed : Bool
  deriving DecidableEq, Repr

/-- One scoreboard entry (R304), with what the scheduler keeps for it: `regions` are those that served its acceptance (R315),
`before` the handles that a SESSION operation runs after (R314), `finals` the headers that its outputs will carry, GEN apart. -/
structure Entry where
  handle   : Nat
  fn       : Nat
  tag      : Nat
  row      : String
  desc     : Desc
  arg      : List Byte
  version  : Nat
  state    : EntryState
  deps     : List Nat
  scope    : List Nat
  failed   : Nat
  barriers : List Nat
  no       : Nat
  acceptAt : Nat
  readyAt  : Nat
  boost    : Nat
  replayed : Bool
  cq       : Nat
  image    : Option Image
  headers  : List (Nat × List Byte)
  finals   : List (Nat × List Byte)
  prevGen  : List (Nat × Nat)
  before   : List Nat
  regions  : List Region
  deriving DecidableEq, Repr

/-- One loaded parameter set (R36). -/
structure Pset where
  id      : Nat
  scheme  : Nat
  logN    : Nat
  flags   : Nat
  l       : Nat
  k       : Nat
  dnum    : Nat
  top     : Nat
  lweN    : Nat
  glweK   : Nat
  t       : Nat
  decLog  : Nat
  decLevels : Nat
  refresh : Nat
  primes  : List (Nat × Nat × Nat)
  deriving DecidableEq, Repr

/-- One open session (R312 to R316). -/
structure Session where
  gen     : Nat
  fn      : Nat
  part    : Nat
  qEntries : Nat
  qBytes  : Nat
  idle    : Nat
  closing : Bool
  regions : List Region
  psets   : List Pset
  openAt  : Nat
  deriving DecidableEq, Repr

/-- One partition record of a bundle (R321). -/
structure Part where
  tiles   : Nat
  memBase : Nat
  memLen  : Nat
  rate    : Nat
  burst   : Nat
  keep    : Nat
  entries : Nat
  sessions : Nat
  defEntries : Nat
  prioCap : Nat
  idle    : Nat
  defBytes : Nat
  deriving DecidableEq, Repr

/-- One function record of a bundle (R322). -/
structure FnRec where
  part    : Nat
  present : Bool
  pk      : Bool
  sqBase  : Nat
  sqCount : Nat
  cqBase  : Nat
  cqCount : Nat
  deriving DecidableEq, Repr

/-- A configuration bundle (R320), its recorded RWL values (R329) and its 3,712 bytes. -/
structure Bundle where
  version : Nat
  numVfs  : Nat
  trialS  : Nat
  storm   : Nat
  ageUs   : Nat
  headWaitUs : Nat
  lullUs  : Nat
  powerW  : Nat
  cal     : Nat
  rebuild : Nat
  patrol  : Nat
  parts   : List Part
  fns     : Tbl FnRec
  raw     : List Byte
  deriving DecidableEq, Repr

/-- The scheduler's record of a logical tile (R176, R177, R325, R332): `state` is coded as TS_TILE_INFO gives; `fails` counts failed
reconfigurations, 3 standing for a failed self-test; `dirty` until it is scrubbed; `lull` while it is in Lull, held out or not; `idle` the
idle state that its last session had when it closed, 0 for none. -/
structure TileInfo where
  state   : Nat
  session : Nat
  part    : Nat
  version : Nat
  freeAt  : Nat
  fails   : Nat
  dirty   : Bool
  lull    : Bool
  idle    : Nat
  deriving DecidableEq, Repr

/-- A pending switch point (R324, R326). -/
inductive SwitchTo where
  | apply
  | revert
  | release
  deriving DecidableEq, Repr

/-- The Task Scheduler (file 11). -/
structure Ts where
  entries  : List Entry
  sessions : Tbl Session
  gens     : Tbl Nat
  accepts  : Nat
  heads    : Tbl Nat
  fences   : Tbl Nat
  bundle   : Bundle
  committed : Bool
  history  : List Bundle
  staged   : Option Bundle
  maxver   : Nat
  switchTo : Option SwitchTo
  trialEnds : Option Nat
  stormTimes : List Nat
  faultTimes : List Nat
  stormHit : Bool
  event    : Nat
  mask     : Nat
  cfgOffset : Nat
  result   : Nat
  tileSel  : Nat
  tiles    : Tbl TileInfo
  deriving DecidableEq, Repr

end Sys2Proof.Machine
end

