-- ==== Sys2Proof/Config.lean ====
section
/-! DEFINITION. What an implementation fixes and the spec does not state, as constants without a body, and the revision of the contract. -/

namespace Sys2Proof

open Sys2Proof.Machine

/-- The contract revision of the silicon (R118). -/
def Config.contract : Nat := 1

/-- Free value `i` of draw number `k`: what the spec leaves open, such as a byte of the DRBG (log 7). -/
opaque Config.freeNat : Nat → Nat → Nat

/-- The running firmware provides this macro version (R217; log 10). -/
opaque Config.macroProvided : Nat → Nat → Bool

/-- The shipped image of a macro, by MCODE, MVER, tile count, COUNT, P0, P1 and P2 and by the first source's set (R216;
log 10). -/
opaque Config.macroImage : List Nat → Option Pset → Option Image

/-- The Galois element of a rotation-key slot of REFRESH, as the release notes list it (R219; log 10). -/
opaque Config.refreshGalois : Nat → Nat → Nat

/-- The slots 3 to 22 that REFRESH uses for a set (R219; log 10). -/
opaque Config.refreshSlots : Nat → Nat

/-- The release notes list this round of a protocol as local: MCODE, MVER, WIDTH, round (R225; log 10). -/
opaque Config.roundLocal : Nat → Nat → Nat → Nat → Bool

/-- POLYS of the state object or result that a round of a protocol writes to slot 30, 0 for slot 0's: MCODE, MVER, WIDTH, round (R225;
log 10). -/
opaque Config.mpcPolys : Nat → Nat → Nat → Nat → Nat

/-- SCALE of the output that REPACK writes into a CKKS set, by MVER, set and level (R58, R220; log 10). -/
opaque Config.repackScale : Nat → Nat → Nat → Nat

/-- The prime entries of a shipped profile: Q, PSI and LG_Q in storage order (R39; log 11). -/
opaque Config.profilePrimes : Nat → List (Nat × Nat × Nat)

/-- The entry of the fixed placement table for a stripe and a unit, from which its place in the reserve follows (R255; log 17). -/
opaque Config.reservePlace : Nat → Nat → Nat

/-- The key kind that a kind word of SLOT_LOAD names: 1 to 6 in the order of R383, 0 none (R385; log 7). -/
opaque Config.slotKind : Nat → Nat

/-- Whether the `n`-th pulse event of crossing class `c` meets, in its crossing, one that is still in transit (R406; log 16). -/
opaque Config.inTransit : Nat → Nat → Bool

/-- The serial number in the fuses (R362; log 2). -/
opaque Config.serial : Nat

/-- The item that the fuse word at an address holds and its place within the item, which R362 does not number: 1 the serial, by half; 2 the
firmware key hashes, by slot and word; 3 the revocation bits; 4 the maker hash, by word; 5 the SVN floor; 6 the factory repair map, by
logical tile; 7 the failed spares; 8 and 9 the encrypted IDK-3072 and IDK-4096; any other value an item that no register or check reads
(R362, R372; log 2). -/
opaque Config.fuseItem : Nat → Nat × Nat

/-- The hash of the maker firmware key of a fuse slot (R362; log 2). -/
opaque Config.fwKeyHash : Nat → List Byte

/-- The hash of the maker authentication key in the fuses (R362; log 2). -/
opaque Config.makerHash : List Byte

/-- IDK-3072, as the die decrypts it from its fuses with the words given burned since manufacture: modulus, public and secret exponents
(R362; log 2). -/
opaque Config.idk3072 : List (Nat × Nat) → Nat × Nat × Nat

/-- IDK-4096, in the same way (R362; log 2). -/
opaque Config.idk4096 : List (Nat × Nat) → Nat × Nat × Nat

/-- The certificate chain of SPDM slot 0 (R367; log 13). -/
opaque Config.chain0 : List Byte

/-- The digest of measurement block 1 for a fuse SVN floor and the key revocations (R368; log 13). -/
opaque Config.romDigest : Nat → Nat → List Byte

end Sys2Proof
end

