-- ==== Sys2Proof/Machine/MemTypes.lean ====
section
/-! DEFINITION. The state of device memory, the Stack Cache, the Mirror layer and the fault unit. -/

namespace Sys2Proof.Machine

/-- The state of a stripe (R235). -/
inductive StripeState where
  | unwritten
  | written
  | poisoned
  deriving DecidableEq, Repr

/-- The state of a channel (R269). -/
inductive ChannelState where
  | inService
  | repair
  | pause
  | lost
  | notTrained
  deriving DecidableEq, Repr

/-- One channel (R231, R250 to R252, R269): the free lanes of each kind, the first of which is the next to calibrate, failed lanes, pauses,
when each lane last calibrated, the lane under repair (CA or DQ, its number, and the spare that takes its place), and the units its write buffer holds. -/
structure Channel where
  state    : ChannelState
  dqSpares : List Nat
  caSpares : List Nat
  failA    : Nat
  failB    : Nat
  failCa   : Nat
  pauses   : Nat
  dqCal    : List Nat
  caCal    : List Nat
  mend     : Option (Bool × Nat × Nat)
  buffered : List Nat
  deriving DecidableEq, Repr

/-- Free DQ spares of a channel (R269). -/
def Channel.dqFree (x : Channel) : Nat := x.dqSpares.length

/-- Free CA spares of a channel (R269). -/
def Channel.caFree (x : Channel) : Nat := x.caSpares.length

/-- One stack (R258, R268); `state` is coded as R268 gives. -/
structure Stack where
  state   : Nat
  temp    : Int
  hot85   : Bool
  hot95   : Bool
  hot105  : Bool
  refresh4 : Bool
  deriving DecidableEq, Repr

/-- One line of the Stack Cache (R240): the unit it holds as 17 × stripe + unit, 16 being parity, its class, who allocated it
and when it was last touched. -/
structure Line where
  unit    : Nat
  keep    : Bool
  session : Nat
  part    : Nat
  used    : Nat
  deriving DecidableEq, Repr

/-- The token bucket of a partition (R245, R246): its level in hundredths of a byte when last settled, and the bytes charged. -/
structure Bucket where
  level : Int
  at_   : Nat
  bytes : Nat
  deriving DecidableEq, Repr

/-- The phase of a request: at the tile's port, at the Stack Controllers, or served. -/
inductive MemPhase where
  | port
  | fabric
  | served
  deriving DecidableEq, Repr

/-- One request of a stream engine (R205, R237, R238, R245): a read of the unit at `addr`, or a write of the stripe at `addr`
with its 4,096 bytes and their enables; a served read holds its data. -/
structure MemReq where
  id      : Nat
  write   : Bool
  addr    : Nat
  hint    : Nat
  part    : Nat
  session : Nat
  tile    : Nat
  engine  : Nat
  phase   : MemPhase
  data    : List Byte
  enable  : List Bool
  deriving DecidableEq, Repr

/-- A range of device memory that holds undefined data: its bytes `lo` up to `hi` are the free values of `key`, numbered from `base`. -/
structure Undef where
  key  : Nat
  base : Nat
  lo   : Nat
  hi   : Nat
  deriving DecidableEq, Repr

/-- A class of crossings that carries pulse events: when the last one left, how many have left, and how many were merged (R405, R406). -/
structure Crossing where
  last   : Option Nat
  sent   : Nat
  merged : Nat
  deriving DecidableEq, Repr

/-- Device memory with its controllers (file 09). `bytes` is what every unit holds; `bad` lists the stored units that fail their
CRC, `linkBad` those of them whose burst failed every retry (R239), `stale` those that were not written on their stack, as (stripe, unit) with 16 for parity; `placed` gives the channel of a unit
rebuilt into the reserve; `reserveUsed` counts the units placed there, and `metaDone` says that the rebuild in progress has placed those of
the CRC table and the device-reserved area (R255); `undef` the ranges that aborted tasks left undefined and nothing has written since
(R152). -/
structure DevMem where
  bytes     : Mem
  undef     : List Undef
  stripes   : Tbl StripeState
  bad       : List (Nat × Nat)
  linkBad   : List (Nat × Nat)
  stale     : List (Nat × Nat)
  placed    : List (Nat × Nat × Nat)
  channels  : Tbl Channel
  stks      : Tbl Stack
  trained   : Bool
  noReserve : Bool
  lostStack : Option Nat
  paused    : Option Nat
  event     : Nat
  mask      : Nat
  evcnt     : Tbl Nat
  reserveFree : Nat
  reserveUsed : Nat
  rebuilding : Bool
  metaDone : Bool
  rebuilt   : Nat
  calInterval : Nat
  rebuildShare : Nat
  patrolPeriod : Nat
  laneSel   : Nat
  buckets   : Tbl Bucket
  urgent    : Bucket
  lines     : List Line
  reqs      : List MemReq
  nextReq   : Nat
  tel       : Crossing
  deriving DecidableEq, Repr

/-- One thermal zone and region of the Mirror layer (R263, R271): `failing` vertical connections wait to be switched out (R262). -/
structure Zone where
  temp       : Int
  throttle   : Bool
  failing    : Nat
  sparesUsed : Nat
  deriving DecidableEq, Repr

/-- The Mirror layer: zones, and whether each of the two firmware images is intact (R261, R262). -/
structure Mirror where
  zones  : Tbl Zone
  images : Nat
  running : Nat
  deriving DecidableEq, Repr

/-- An armed injection (R358, R359). -/
structure Injection where
  kind    : Nat
  ltile   : Nat
  channel : Nat
  param   : Nat
  armedAt : Nat
  deriving DecidableEq, Repr

/-- The fault unit (file 12); `saved` is the persisted tile map, which a retirement by injection does not change (R342, R360); `faults`
are the attributed faults of the last hour: position, time, and whether injected (R339). -/
structure Flt where
  unrecoverable : Bool
  cause       : Nat
  mcRestarting : Bool
  lastBeat    : Nat
  suppressed  : Bool
  factoryUsed : Nat
  fieldRetired : List Nat
  tempRetired : List Nat
  map         : Tbl Nat
  saved       : Tbl Nat
  event       : Nat
  mask        : Nat
  irqEn       : Bool
  irqVector   : Nat
  evcnt       : Tbl Nat
  log         : Tbl (List Byte)
  logCount    : Nat
  logSel      : Nat
  logSeen     : List Nat
  replays     : Nat
  mcRestarts  : Nat
  tnHalved    : List Nat
  mfHalved    : List Nat
  tnLost      : Bool
  faults      : List (Nat × Nat × Bool)
  injTarget   : Nat
  inj         : Option Injection
  injResult   : Nat
  tileTel     : Crossing
  fabTel      : Crossing
  linkReset   : Bool
  deriving DecidableEq, Repr

end Sys2Proof.Machine
end

