-- ==== Sys2Proof/Machine/TileTypes.lean ====
section
/-! DEFINITION. The state of one tile: core, queues, semaphores, checker, scratchpad, windows, MMA, VE, streams; and of a running group. -/

namespace Sys2Proof.Machine

/-- What a core that has not ended is stalled in (R138, R139, R145, R156). -/
inductive CoreWait where
  | sem (s n : Nat)
  | bar (id : Nat)
  | until (c : Nat)
  | pushing
  | quiesce
  deriving DecidableEq, Repr

/-- The Jubo core of a tile: without a task, running, stalled, or stopped by END (R125, R126). -/
inductive CoreStatus where
  | idle
  | running
  | waiting (w : CoreWait)
  | ended
  deriving DecidableEq, Repr

/-- One entry of an engine queue: the command after R137, its push cycle, the byte offset of its PUSH, its number in the
epoch, the eight scalars a VE.RUN snapshots (R92) and the descriptor a stream command copies (R195). -/
structure QEntry where
  word    : Cmd
  pushed  : Nat
  pc      : Nat
  num     : Nat
  scalars : List Word64
  desc    : Option Desc
  deriving DecidableEq, Repr

/-- One write of the epoch, at the end of the cycle `cyc` (R83, R134, R166), by a unit for the command `num` pushed at `pc`. -/
structure TimedWrite where
  cyc  : Nat
  addr : Nat
  data : List Byte
  unit : Nat
  num  : Nat
  pc   : Nat
  deriving DecidableEq, Repr

/-- One row that a command will write, pending through its commit cycle once that is known (R83, R146). -/
structure Mark where
  num    : Nat
  unit   : Nat
  pc     : Nat
  start  : Nat
  addr   : Nat
  len    : Nat
  commit : Option Nat
  deriving DecidableEq, Repr

/-- One entry of the range-holding table (R85, R147): the bytes `lo` to `hi`, from the push cycle through `release`. -/
structure Hold where
  num     : Nat
  unit    : Nat
  pc      : Nat
  start   : Nat
  lo      : Nat
  hi      : Nat
  release : Option Nat
  exact   : Bool
  record  : Bool
  deriving DecidableEq, Repr

/-- The bank use of an issued MMA or VE command: row `i` of `nw` words at `addrs[i]` in cycle `c0 + i * step` (R86, R115);
`rank` is the priority of the access, 0 first. `seq` is the place of an access of Q_SP, a stream engine or a remote unit in its requester's
own order (R164), and tells it from every other of the epoch. -/
structure Claim where
  num   : Nat
  unit  : Nat
  pc    : Nat
  rank  : Nat
  c0    : Nat
  step  : Nat
  nw    : Nat
  write : Bool
  addrs : List Nat
  seq   : Nat := 0
  deriving DecidableEq, Repr

/-- One stationary plane (R69): MODE, elements by row, one modulus per column, one weight per row. -/
structure Plane where
  mode    : Nat
  rows    : List (List Nat)
  moduli  : List Nat
  weights : List Nat
  deriving DecidableEq, Repr

/-- What a RUN latches at issue, and its snapshot (R92, R102). -/
structure Latch where
  rec_    : Nat
  qregs   : Tbl (List Nat)
  perms   : Tbl (List Nat)
  scalars : List Word64
  deriving DecidableEq, Repr

/-- An issued MUL or RUN whose rows may still read: its entry, its issue cycle, and the load of its plane or what it latched. -/
inductive Job where
  | mul (e : QEntry) (c : Nat) (ld : Option (Cmd × Nat))
  | run (e : QEntry) (i : Nat) (l : Latch)
  deriving DecidableEq, Repr

/-- An MMA command issued in this epoch, as R84 compares later ones with it. -/
structure MmaIssue where
  mul    : Bool
  plane  : Nat
  cyc    : Nat
  rows   : Nat
  wide   : Bool
  deriving DecidableEq, Repr

/-- A VE command issued in this epoch, as R113 compares later ones with it: `kind` 0 RUN, 1 SETCHAIN, 2 SETQ, 3 SETPERM. -/
structure VeIssue where
  kind  : Nat
  idx   : Nat
  cyc   : Nat
  rows  : Nat
  depth : Nat
  ru    : Bool
  deriving DecidableEq, Repr

/-- A signal on its way to a local semaphore: applied at the end of `cyc` by the unit of R151 (R139, R140). -/
structure Sig where
  cyc  : Nat
  sem  : Nat
  n    : Nat
  unit : Nat
  pc   : Nat
  deriving DecidableEq, Repr

/-- A core store that has issued and has not written (R134): it requests its bank from `from_`. -/
structure PendStore where
  from_ : Nat
  addr  : Nat
  data  : List Byte
  pc    : Nat
  deriving DecidableEq, Repr

/-- One entry of the window table (R178). -/
structure Window where
  open_ : Bool
  base  : Nat
  words : Nat
  rd    : Bool
  wr    : Bool
  deriving DecidableEq, Repr

/-- The power state of a scratchpad group (R173). -/
inductive GroupPower where
  | on
  | penumbra
  | umbra
  deriving DecidableEq, Repr

/-- The phase of a request of a stream: waiting at the tile's port, sent, or complete. -/
inductive ReqPhase where
  | waiting
  | sent
  | done
  deriving DecidableEq, Repr

/-- One request of a stream: `dev` 0 device memory, 1 host memory, 2 window, 3 local copy; `held` is the trackers it holds, `lo` and `hi`
bound the positions in the walk of the elements it serves, `at_` is the cycle in which it left. -/
structure StreamReq where
  id    : Nat
  dev   : Nat
  addr  : Nat
  lo    : Nat
  hi    : Nat
  held  : Nat
  at_   : Nat
  phase : ReqPhase
  deriving DecidableEq, Repr

/-- The phase of an issued stream command. -/
inductive StreamPhase where
  | header
  | sx
  | list
  | active
  | paused
  deriving DecidableEq, Repr

/-- An issued stream command that has not signalled (R202 to R213): `op` 0 read, 1 write, 2 key, 3 NOP that waits to signal;
`dev` as in its requests. An element is its address on the memory side, its packed address, and its size in bytes. `first` is the
earliest cycle of its requests, `header` the key header read, `asking` the tracker that a header read holds, `last` the latest
event towards its signal, `pri` the number of its page request that has no answer yet, 0 for none (R212). -/
structure Stream where
  op      : Nat
  entry   : QEntry
  issue   : Nat
  phase   : StreamPhase
  dev     : Nat
  elems   : List (Nat × Nat × Nat)
  reqs    : List StreamReq
  header  : List Byte
  asking  : Nat
  first   : Nat
  sxUnit  : Nat
  sxEnd   : Nat
  last    : Nat
  firstPri : Nat
  asked   : List Nat
  pri     : Nat := 0
  deriving DecidableEq, Repr

/-- One tile (file 05's opening; R125 gives its state at task start). `semAt` is the cycle from which a semaphore's count as held is
visible (R139). `winPast` is the retire cycle of each WIN with the table before it, oldest first (R183); `heard` the cycle of the last message
from each tile (R144, R185); `loads` the last load of each plane with its cycle; `icache` the lines of each set, the latest used first (R135); `rank5` the record of each bank at the start
of the epoch (R164); `seen` is the last cycle in which the core has read a semaphore, the scratchpad, a queue or the checker, so that what
comes from outside the tile comes later; `seLast` the cycle after the last request of each engine's commands that have signalled (R202). -/
structure Tile where
  status  : CoreStatus
  regs    : Tbl Word64
  readyAt : Tbl Nat
  pc      : Nat
  base    : Nat
  cyc     : Nat
  num     : Nat
  group   : Nat
  index   : Nat
  code    : Mem
  codeLen : Nat
  role    : Nat
  args    : Tbl Word64
  store   : Option PendStore
  storeAt : Nat
  queues  : Tbl (List QEntry)
  sems    : Tbl Nat
  semAt   : Tbl Nat
  sigs    : List Sig
  marks   : List Mark
  holds   : List Hold
  claims  : List Claim
  spad    : Mem
  writes  : List TimedWrite
  power   : Tbl GroupPower
  windows : Tbl Window
  winPast : List (Nat × Tbl Window)
  heard   : Tbl Nat
  icache  : Tbl (List Nat)
  planes  : Tbl Plane
  loads   : Tbl (Cmd × Nat)
  mmaHist : List MmaIssue
  veHist  : List VeIssue
  chains  : Tbl Nat
  qregs   : Tbl (List Nat)
  perms   : Tbl (List Nat)
  jobs    : List Job
  descs   : Tbl Desc
  streams : Tbl (List Stream)
  trackers : Tbl Nat
  rank5   : Tbl Nat
  lastShared : Nat
  spBusy  : Option QEntry
  spLast  : Nat
  veLast  : Nat
  issued  : Tbl (List Nat)
  seen    : Nat
  seLast  : Tbl Nat
  deriving DecidableEq, Repr

/-- What a checkpoint keeps of one tile (R157). -/
structure TileSave where
  tile    : Nat
  spad    : Mem
  regs    : Tbl Word64
  base    : Nat
  pc      : Nat
  sems    : Tbl Nat
  windows : Tbl Window
  deriving DecidableEq, Repr

/-- A message of the Tile Network between two tiles of a group (R143, R181 to R185): `kind` 0 write, 1 read, 2 signal. -/
structure Msg where
  src    : Nat
  dst    : Nat
  kind   : Nat
  unit   : Nat
  stream : Nat
  req    : Nat
  window : Nat
  offset : Nat
  data   : List Byte
  enable : List Bool
  sem    : Nat
  count  : Nat
  deriving DecidableEq, Repr

/-- An answer to a remote access on its way back: data, an acknowledgement, or a NACK (R182, R184). -/
structure Answer where
  dst    : Nat
  unit   : Nat
  stream : Nat
  req    : Nat
  nack   : Bool
  read   : Bool
  ref    : Nat
  data   : List Byte
  deriving DecidableEq, Repr

/-- A fault that waits for the replay of its group (R73, R159, R333): `link` is the number of the link of a fault on one, 0xFFFF for
none; `logged` when its record stands in the fault log. -/
structure GFault where
  source   : Nat
  tile     : Nat
  link     : Nat
  cyc      : Nat
  unit     : Nat
  injected : Bool
  logged   : Bool
  deriving DecidableEq, Repr

/-- A running group (R117, R145, R153 to R159). `idle` is the idle state of its session at dispatch (R174, R314); `lastFault` is the
position to which the first replay of this epoch is attributed, 0xFF for none, and whether its fault was injected (R339); `watched` says that this epoch has replayed under R337, whose limit leaves out `exempt` ns and the pause
that began at `pausedAt - 1`; `stalled` is when the present stall was first seen, and where its tiles stand (R154); `triples` are the
slots consumed (R430). -/
structure Group where
  handle   : Nat
  fn       : Nat
  session  : Nat
  part     : Nat
  version  : Nat
  x0       : Nat
  y0       : Nat
  gw       : Nat
  gh       : Nat
  idle     : Nat
  started  : List Nat
  epoch    : Nat
  epochAt  : Nat
  barSent  : List (Nat × Nat)
  barHere  : List (Nat × Nat)
  release  : List Nat
  saves    : List (Nat × List TileSave)
  msgs     : List Msg
  answers  : List Answer
  fault    : Option GFault
  lastFault : Option (Nat × Bool)
  watched  : Bool
  exempt   : Nat
  pausedAt : Nat
  stalled  : Option (Nat × List (Nat × Nat))
  triples  : List Nat
  deriving DecidableEq, Repr

end Sys2Proof.Machine
end

