-- ==== Sys2Proof/Machine/TrustTypes.lean ====
section
/-! DEFINITION. The state of clocks and power, management, the Public-Key Engine, attestation, the sideband, and the outputs. -/

namespace Sys2Proof.Machine

/-- The clock of one physical tile (R395 to R397): the step count in force, the count of a throttle command in flight, and the lower
count that waits for its voltage to settle. -/
structure TileClock where
  steps    : Nat
  command  : Option Nat
  settling : Option Nat
  deriving DecidableEq, Repr

/-- A register access held for a stopped domain (R408). -/
structure HeldAccess where
  domain : Nat
  fn     : Nat
  off    : Nat
  write  : Option (BitVec 32)
  deriving DecidableEq, Repr

/-- Clocks, power, crossings and pins (file 14). -/
structure Clk where
  run       : Nat
  inReset   : Nat
  pllLocked : Bool
  pllLosses : Nat
  pkg       : Nat
  trip      : Bool
  v12Ok     : Bool
  v12mV     : Nat
  v3mV      : Nat
  avgPower  : Nat
  powerW    : Nat
  powerStep : Nat
  fastStep  : Nat
  fastArmed : Bool
  overSince : Option Nat
  underSince : Option Nat
  calmSince : Option Nat
  stepRises : Nat
  event     : Nat
  tileSel   : Nat
  ovSeen    : Tbl Nat
  hangLog   : Nat
  hangDropped : Nat
  hangHeld  : Nat
  held      : List HeldAccess
  positions : Tbl TileClock
  mainUp    : Bool
  pwrGood   : Bool
  perst     : Bool
  thermTrip : Bool
  flashPresent : Bool
  addrStrap : Nat
  hottestDie : Int
  tapReset  : Bool
  deriving DecidableEq, Repr

/-- The fuses (R362): `repair` is the factory repair map, position by logical tile; `failed` has bit i set for a spare position 64 + i that
failed its factory test (R338); `words` are the fuse words as FUSE_PROGRAM has burned them (R372). -/
structure Fuses where
  serial   : Nat
  keyHash  : List (List Byte)
  revoked  : Nat
  makerHash : List Byte
  svnFloor : Nat
  repair   : Tbl Nat
  failed   : Nat
  words    : Tbl Nat
  deriving DecidableEq, Repr

/-- An RSA public key: modulus and exponent (R360). -/
structure RsaPub where
  modulus  : Nat
  exponent : Nat
  deriving DecidableEq, Repr

/-- A host push in progress (R366). -/
structure Push where
  header : List Byte
  got    : Nat
  image  : List Byte
  deriving DecidableEq, Repr

/-- Diagnostic unlock (R375, R376). -/
structure Diag where
  scope  : Nat
  expiry : Nat
  deriving DecidableEq, Repr

/-- Management: fuses, persistent store, boot, roles, commands, audit log and the PF0 BAR2 window (file 13). `svnInForce` and `inForce` are
the policy of the last cold start, which a SET_POLICY does not change (R365); `blob` is the command blob that is processing (R372). -/
structure Mgt where
  fuses     : Fuses
  lifecycle : Nat
  owner     : Option RsaPub
  svnMin    : Nat
  policy    : Nat
  svnInForce : Nat
  inForce   : Nat
  bootCount : Nat
  committed : Option Bundle
  maxver    : Nat
  chain1    : List Byte
  records   : Tbl (List Byte)
  auditNext : Nat
  acked     : Nat
  head      : List Byte
  context   : Option Nat
  diag      : Option Diag
  ready     : Bool
  bootWait  : Bool
  bufFree   : Nat
  step      : Nat
  error     : Nat
  fromHost  : Bool
  push      : Option Push
  fwVersion : Nat
  fwSvn     : Nat
  fwDigest  : List Byte
  nonce     : List Byte
  cmdPage   : Nat
  blob      : Option (List Byte)
  cmdResult : Nat
  bar2      : Mem
  deriving DecidableEq, Repr

/-- The kinds of key a slot holds (R383). -/
inductive KeyKind where
  | p256
  | p384
  | x25519
  | ed25519
  | mlKem768
  | mlKem1024
  deriving DecidableEq, Repr

/-- A key slot's content (R383). -/
structure SlotKey where
  kind : KeyKind
  key  : List Byte
  deriving DecidableEq, Repr

/-- The long operation on the engine (R384): its handle, the engine time it has run in ns, its engine time, and what it releases:
its status, its output and the key for its slot. -/
structure PkeRun where
  handle : Nat
  done   : Nat
  total  : Nat
  status : Nat
  output : List Byte
  slot   : Option SlotKey
  deriving DecidableEq, Repr

/-- The Public-Key Engine (file 13); slots keyed by session number. -/
structure Pke where
  slots   : Tbl (Tbl SlotKey)
  long    : Option PkeRun
  ops     : Nat
  reruns  : Nat
  healthy : Bool
  reseeds : Nat
  deriving DecidableEq, Repr

/-- The states of a TDI (R303). -/
inductive TdiState where
  | unlocked
  | locked
  | run
  | error
  deriving DecidableEq, Repr

/-- One selective IDE stream (R303, R369): its enable in configuration space, the programmed keys, and the key set in force in each
direction. -/
structure IdeStream where
  enabled : Bool
  keys  : Tbl (List Byte)
  rxSet : Option Nat
  txSet : Option Nat
  deriving DecidableEq, Repr

/-- One SPDM secured session (R367). -/
structure SpdmSession where
  finished : Bool
  updates  : Nat
  beats    : Nat
  deriving DecidableEq, Repr

/-- Attestation, IDE and TDISP (R367 to R369, R300). -/
structure Spdm where
  version    : Nat
  negotiated : Bool
  dhe        : Nat
  sessions   : Tbl SpdmSession
  nextSid    : Nat
  ide        : Tbl IdeStream
  tdi        : Tbl TdiState
  deriving DecidableEq, Repr

/-- The standby copies served on the management bus (R413). -/
structure Smb where
  domain : Nat
  pkg    : Nat
  temps  : List Int
  power  : Nat
  powerW : Nat
  boot   : Nat
  flt    : Nat
  serial : Nat
  deriving DecidableEq, Repr

/-- An answer on PF0's DOE mailbox, by content (R367 to R369; log 13). -/
inductive DoeAnswer where
  | none
  | protocols (next : Nat) (vendor protocol : Nat)
  | version (l : List Nat)
  | capabilities (l : List String)
  | algorithms (ver dhe : Nat)
  | digests (mask : Nat) (l : List (List Byte))
  | certificate (slot : Nat) (portion : List Byte) (rest : Nat)
  | challenge (slot : Nat) (hash summary signature : List Byte)
  | measurements (blocks : List (Nat × List Byte)) (signature : List Byte)
  | keyExchange (sid : Nat) (pub signature : List Byte)
  | ack (what : String)
  | report (fn : Nat) (fields : List Nat)
  | errorCode (name : String)
  deriving DecidableEq, Repr

/-- A message the device sends on the link apart from memory writes (R211, R212, R272). -/
inductive LinkMsg where
  | pageRequest (fn space page : Nat) (write : Bool)
  | atsRequest (fn space page : Nat)
  | invalidateDone (fn : Nat)
  | aer (fn : Nat)
  deriving DecidableEq, Repr

/-- What the device has put on its outputs: host memory as written, MSI-X messages, the last register read, the DOE and
SMBus answers, and link messages. -/
structure Out where
  host  : Mem
  msix  : List (Nat × Nat)
  read  : Option (BitVec 64)
  doe   : DoeAnswer
  smbus : Option (List Byte)
  tap   : Option Bool
  link  : List LinkMsg
  deriving DecidableEq, Repr

end Sys2Proof.Machine
end

