-- ==== Sys2Proof/Machine/Defaults.lean ====
section
/-! DEFINITION. What an unlisted entry of each table reads as, and the reset value of each unit. -/

namespace Sys2Proof.Machine

/-- A function page at reset (R302). -/
def fnPage0 : FnPage :=
  { dbrBase := 0, dbrPasid := 0, poll := 0x6401, noticeCq := 0, dup := 0, error := false, sqSel := 0, cqSel := 0,
    period := 1, pollAt := 1000, fetchSq := [], fetchCq := [], fetching := false, polled := false, paused := false }

/-- A function's configuration-space controls at reset (log 14). -/
def fnCfg0 : FnCfg :=
  { busMaster := false, msix := false, msixMask := false, ats := false, pri := false, pasid := false, prAlloc := 0, d3hot := false }

/-- A submission ring at reset (R284, R302). -/
def sq0 : Sq :=
  { base := 0, cfg := 0, pasid := 0, enabled := false, halted := false, slots := 0, cq := 0, epoch := 0, expect := 0,
    halt := 0, tail := 0, stopped := false, outcome := [], enabledAt := 0, consumed := 0 }

/-- A completion ring at reset (R302). -/
def cq0 : Cq :=
  { base := 0, det := 0, cfg := 0, coal := 0x10001, pasid := 0, enabled := false, halted := false, log2 := 0, vector := 0,
    next := 0, head := 0, reserved := 0, notices := [], held := [], count := 0, firstAt := none, lost := false }

/-- An MSI-X entry at reset: masked, nothing pending (PRESUMED; log 14). -/
def msix0 : MsixEntry := { addr := 0, data := 0, ctrl := 1, pend := false }

/-- A pair with nothing held and nothing staged (R9). -/
def pair0 : Pair := { held := none, staged := none }

/-- A plane at task start and at reset: zero, RING32, zero weights (R69). -/
def plane0 : Plane := { mode := 2, rows := [], moduli := [], weights := [] }

/-- A closed window (R178). -/
def window0 : Window := { open_ := false, base := 0, words := 0, rd := false, wr := false }

/-- A tile that has never held a task (log 3). -/
def tile0 : Tile :=
  { status := .idle, regs := [], readyAt := [], pc := 0, base := 0, cyc := 0, num := 0, group := 0, index := 0,
    code := [], codeLen := 0, role := 0, args := [], store := none, storeAt := 0, queues := [], sems := [], semAt := [], sigs := [], marks := [],
    holds := [], claims := [], spad := [], writes := [], power := [], windows := [], winPast := [], heard := [], icache := [],
    planes := [], loads := [], mmaHist := [], veHist := [], chains := [], qregs := [], perms := [], jobs := [], descs := [], streams := [], trackers := [], rank5 := [], lastShared := 1,
    spBusy := none, spLast := 0, veLast := 0, issued := [], seen := 0, seLast := [] }

/-- A channel before training (R231, R269): DQ17, DQ16 and CA7 are free (DESIGN CHOICE, log 2). -/
def channel0 : Channel :=
  { state := .notTrained, dqSpares := [17, 16], caSpares := [7], failA := 31, failB := 31, failCa := 15, pauses := 0,
    dqCal := List.replicate 18 0, caCal := List.replicate 8 0, mend := none, buffered := [] }

/-- A stack before training (R268). -/
def stack0 : Stack := { state := 4, temp := 0, hot85 := false, hot95 := false, hot105 := false, refresh4 := false }

/-- A Mirror zone at reset (R271). -/
def zone0 : Zone := { temp := 0, throttle := false, failing := 0, sparesUsed := 0 }

/-- A tile clock at reset (R419). -/
def tileClock0 : TileClock := { steps := 0, command := none, settling := none }

/-- The scheduler's record of a tile before the first configuration (log 2). -/
def tileInfo0 : TileInfo :=
  { state := 2, session := 0, part := 0, version := 0, freeAt := 0, fails := 0, dirty := false, lull := false, idle := 0 }

/-- An IDE stream without keys (R369). -/
def ide0 : IdeStream := { enabled := false, keys := [], rxSet := none, txSet := none }

/-- An undefined partition (R321). -/
def part0 : Part :=
  { tiles := 0, memBase := 0, memLen := 0, rate := 0, burst := 0, keep := 0, entries := 0, sessions := 0,
    defEntries := 0, prioCap := 0, idle := 0, defBytes := 0 }

/-- An absent function (R322). -/
def fnRec0 : FnRec :=
  { part := 0, present := false, pk := false, sqBase := 0, sqCount := 0, cqBase := 0, cqCount := 0 }

/-- The user capacity in bytes (R232, R234). -/
def capacity : Nat := 1352914698240

/-- The default bundle, version 0 (R330). -/
def defaultBundle : Bundle :=
  { version := 0, numVfs := 0, trialS := 0, storm := 16, ageUs := 1000, headWaitUs := 200, lullUs := 1000,
    powerW := 1800, cal := 100, rebuild := 60, patrol := 24,
    parts := [{ tiles := 2 ^ 64 - 1, memBase := 0, memLen := capacity, rate := 23040, burst := 1024, keep := 524280,
                entries := 16384, sessions := 4095, defEntries := 1024, prioCap := 7, idle := 1, defBytes := capacity }],
    fns := [(0, { part := 0, present := true, pk := true, sqBase := 0, sqCount := 4096, cqBase := 0, cqCount := 512 })],
    raw := [] }

/-- Bytes `0 .. n-1` of free draw `k` (log 7). -/
def freeBytes (k n : Nat) : List Byte := (List.range n).map (fun i => BitVec.ofNat 8 (Config.freeNat k i))

/-- A value the spec leaves open within a range, as a function of what was written (log 7). -/
def openIn (tag v lo hi : Nat) : Nat := lo + Config.freeNat (2 ^ 64 + tag) v % (hi - lo + 1)

/-- `v` when it lies in the range the spec gives, otherwise an open value of that range (log 7). -/
def orOpen (tag v lo hi : Nat) : Nat := if lo ≤ v ∧ v ≤ hi then v else openIn tag v lo hi

/-- A crossing that has carried no pulse. -/
def crossing0 : Crossing := { last := none, sent := 0, merged := 0 }

/-- Device memory at reset: every stripe UNWRITTEN, nothing trained (R235, R265 to R268). -/
def devMem0 : DevMem :=
  { bytes := [], undef := [], stripes := [], bad := [], linkBad := [], stale := [], placed := [], channels := [], stks := [],
    trained := false, noReserve := false, lostStack := none, paused := none, event := 0, mask := 0, evcnt := [],
    reserveFree := 0x12000, reserveUsed := 0, rebuilding := false, metaDone := false, rebuilt := 0, calInterval := 100,
    rebuildShare := 60, patrolPeriod := 24, laneSel := 0, buckets := [(0, { level := 419430400, at_ := 0, bytes := 0 })],
    urgent := { level := 26214400, at_ := 0, bytes := 0 }, lines := [], reqs := [], nextReq := 0, tel := crossing0 }

/-- The identity map of R338 before factory repair. -/
def identityMap : Tbl Nat := (List.range 64).map (fun l => (l, l))

/-- The fault unit at reset (R354 to R359); the shipped map is the identity (log 2). -/
def flt0 : Flt :=
  { unrecoverable := false, cause := 0, mcRestarting := false, lastBeat := 0, suppressed := false, factoryUsed := 0,
    fieldRetired := [], tempRetired := [], map := identityMap, saved := identityMap, event := 0, mask := 0, irqEn := false, irqVector := 0,
    evcnt := [], log := [], logCount := 0, logSel := 0, logSeen := [], replays := 0, mcRestarts := 0, tnHalved := [], mfHalved := [],
    tnLost := false, faults := [], injTarget := 0, inj := none, injResult := 0, tileTel := crossing0, fabTel := crossing0,
    linkReset := false }

/-- The standby domain just out of reset (R399, R417 to R420; log 1). -/
def clk0 : Clk :=
  { run := 1, inReset := 0, pllLocked := false, pllLosses := 0, pkg := 1, trip := false, v12Ok := false, v12mV := 0,
    v3mV := 0, avgPower := 0, powerW := 1800, powerStep := 0, fastStep := 0, fastArmed := true, overSince := none, underSince := none,
    calmSince := none, stepRises := 0, event := 0, tileSel := 0, ovSeen := [], hangLog := 0,
    hangDropped := 0, hangHeld := 0, held := [], positions := [], mainUp := false, pwrGood := false, perst := true,
    thermTrip := false, flashPresent := false, addrStrap := 0, hottestDie := 0, tapReset := false }

/-- The Host Interface at reset (R302, R303). -/
def hi0 : Hi :=
  { link := { rate := 0, width := 0, flit := false, l0p := 0, up := false }, cfgs := [], fns := [], fnSel := 0, sqs := [],
    cqs := [], msix := [], pairs := [], ats := [], pris := [], xfers := [], recent := [] }

/-- The Task Scheduler at reset, under the default bundle (R330, R332). -/
def ts0 : Ts :=
  { entries := [], sessions := [], gens := [], accepts := 0, heads := [], fences := [], bundle := defaultBundle, committed := false, history := [],
    staged := none, maxver := 0, switchTo := none, trialEnds := none, faultTimes := [], stormTimes := [], stormHit := false, event := 0, mask := 0,
    cfgOffset := 0, result := 0x80000000, tileSel := 0, tiles := [] }

/-- The fuses of a device as manufactured (R362; log 2). -/
def fuses0 : Fuses :=
  { serial := Config.serial % 2 ^ 64, keyHash := (List.range 4).map Config.fwKeyHash, revoked := 0, makerHash := Config.makerHash,
    svnFloor := 0, repair := identityMap, failed := 0, words := [] }

/-- Management of a device as manufactured (R360, R361, R365, R390; log 2). -/
def mgt0 : Mgt :=
  { fuses := fuses0, lifecycle := 0, owner := none, svnMin := 0, policy := 3, svnInForce := 0, inForce := 3, bootCount := 0, committed := none,
    maxver := 0, chain1 := [], records := [], auditNext := 0, acked := 0, head := [], context := none, diag := none,
    ready := false, bootWait := false, bufFree := 0, step := 0, error := 0, fromHost := false, push := none,
    fwVersion := 0, fwSvn := 0, fwDigest := [], nonce := freeBytes 0 32, cmdPage := 0, blob := none, cmdResult := 0x80000000,
    bar2 := [] }

/-- The Public-Key Engine at reset (R392). -/
def pke0 : Pke := { slots := [], long := none, ops := 0, reruns := 0, healthy := false, reseeds := 0 }

/-- Attestation at reset. -/
def spdm0 : Spdm :=
  { version := 0, negotiated := false, dhe := 0, sessions := [], nextSid := 1, ide := [], tdi := [] }

/-- The standby copies before the first refresh (R413; log 2). -/
def smb0 : Smb :=
  { domain := 0, pkg := 0, temps := [0, 0, 0], power := 0, powerW := 0, boot := 0, flt := 0, serial := 0 }

/-- Nothing has been put out. -/
def out0 : Out :=
  { host := [], msix := [], read := none, doe := .none, smbus := none, tap := none, link := [] }

end Sys2Proof.Machine
end

