-- ==== Sys2Proof/Machine/State.lean ====
section
/-! DEFINITION. The state of the J7, the reasons a step can stop, and the state after reset. -/

namespace Sys2Proof.Machine

/-- The reasons a step stops the machine. -/
inductive Fault where
  /-- Raised by MEM_READ and MEM_WRITE for a unit at or above the user capacity, which no device address names (R232);
  no validated request holds one. Safe: the model stops where the spec gives no access. -/
  | noSuchAddress (unit : Nat)
  deriving DecidableEq, Repr

/-- The reasons a command has no effect to give. -/
inductive Refusal where
  /-- Raised by the arm of a command whose meaning is not written. Safe. -/
  | notModelled (mnemonic : String)
  /-- Raised by a meaning whose event cannot take place in the state: the unit it names has nothing of that kind to do,
  or its time has not come (log 9). The spec gives the event no effect there. Safe. -/
  | notEnabled (row : String)
  deriving DecidableEq, Repr

/-- The whole machine: the queue of waiting commands, time, and every unit. -/
structure State where
  pending : List Instr
  freeCtr : Nat
  time    : Nat
  clk     : Clk
  hi      : Hi
  ts      : Ts
  groups  : List Group
  tiles   : Tbl Tile
  mem     : DevMem
  mir     : Mirror
  flt     : Flt
  mgt     : Mgt
  pke     : Pke
  spdm    : Spdm
  smb     : Smb
  out     : Out
  deriving DecidableEq, Repr

/-- The machine right after 3V3_STBY has become valid and the standby domain has left reset (R399, R400; log 1). -/
def State.reset : State :=
  { pending := [], freeCtr := 1, time := 0, clk := clk0, hi := hi0, ts := ts0, groups := [], tiles := [], mem := devMem0,
    mir := { zones := [], images := 0, running := 0 }, flt := flt0, mgt := mgt0, pke := pke0, spdm := spdm0, smb := smb0,
    out := out0 }

end Sys2Proof.Machine
end

