-- ==== Sys2Proof/Machine/Time.lean ====
section
/-! DEFINITION. What an empty queue does: one nanosecond of HCLK passes while the LINK domain runs. -/

namespace Sys2Proof.Machine

/-- Domain `d` of R409 is running. -/
def domainRuns (s : State) (d : Nat) : Bool := s.clk.run.testBit d

/-- One idle step: HI_TIME counts one nominal nanosecond on HCLK (R286, R393) while the LINK domain runs, and nothing else
changes (log 4). -/
def idleTick (s : State) : State :=
  if domainRuns s 1 then { s with time := s.time + 1 } else s

end Sys2Proof.Machine
end

