-- ==== Sys2Proof/Machine/Ops.lean ====
section
/-! DEFINITION. The named operations that several commands share: access to the parts of the state, events and interrupts, completion
entries, completing and aborting work, the fault log and the unrecoverable state. -/

namespace Sys2Proof.Machine

/-- The outcome of a command. -/
abbrev Res := Host.Outcome State Fault Refusal

/-- The event of this row cannot take place in the state (log 9). -/
def no (row : String) : Res := .refused (.notEnabled row)

/-- The next `n` free bytes (log 7). -/
def drawBytes (s : State) (n : Nat) : List Byte × State :=
  (freeBytes s.freeCtr n, { s with freeCtr := s.freeCtr + 1 })

/-- Logical tile `t`. -/
def tileOf (s : State) (t : Nat) : Tile := s.tiles.get t tile0

/-- Replace logical tile `t`. -/
def setTile (s : State) (t : Nat) (x : Tile) : State := { s with tiles := s.tiles.put t x }

/-- Function page `fn`. -/
def pageOf (s : State) (fn : Nat) : FnPage := s.hi.fns.get fn fnPage0

/-- Replace function page `fn`. -/
def setPage (s : State) (fn : Nat) (p : FnPage) : State := { s with hi := { s.hi with fns := s.hi.fns.put fn p } }

/-- Configuration-space controls of `fn`. -/
def cfgOf (s : State) (fn : Nat) : FnCfg := s.hi.cfgs.get fn fnCfg0

/-- Global submission ring `g`. -/
def sqOf (s : State) (g : Nat) : Sq := s.hi.sqs.get g sq0

/-- Replace global submission ring `g`. -/
def setSq (s : State) (g : Nat) (q : Sq) : State := { s with hi := { s.hi with sqs := s.hi.sqs.put g q } }

/-- Global completion ring `g`. -/
def cqOf (s : State) (g : Nat) : Cq := s.hi.cqs.get g cq0

/-- Replace global completion ring `g`. -/
def setCq (s : State) (g : Nat) (q : Cq) : State := { s with hi := { s.hi with cqs := s.hi.cqs.put g q } }

/-- The record of function `fn` in the active bundle (R322). -/
def fnRecOf (s : State) (fn : Nat) : FnRec := s.ts.bundle.fns.get fn fnRec0

/-- Partition `p` of the active bundle (R321). -/
def partOf (s : State) (p : Nat) : Part := (s.ts.bundle.parts[p]?).getD part0

/-- The partition of a function. -/
def partOfFn (s : State) (fn : Nat) : Nat := (fnRecOf s fn).part

/-- The device is under diagnostic unlock (R376). -/
def diagOpen (s : State) : Bool :=
  match s.mgt.diag with
  | some d => decide (s.time < 1000000000 * d.expiry)
  | none => false

/-- The global number of local submission ring `i` of `fn`, when the function owns it (R302). -/
def sqGlobal (s : State) (fn i : Nat) : Option Nat :=
  let r := fnRecOf s fn
  if r.present && decide (i < r.sqCount) then some (r.sqBase + i) else none

/-- The global number of local completion ring `i` of `fn`, when the function owns it (R302). -/
def cqGlobal (s : State) (fn i : Nat) : Option Nat :=
  let r := fnRecOf s fn
  if r.present && decide (i < r.cqCount) then some (r.cqBase + i) else none

/-- The held entry of a handle (R304). -/
def entryOf (s : State) (h : Nat) : Option Entry := s.ts.entries.find? (fun e => e.handle == h)

/-- Replace the held entry of its handle. -/
def setEntry (s : State) (e : Entry) : State :=
  { s with ts := { s.ts with entries := s.ts.entries.map (fun x => if x.handle == e.handle then e else x) } }

/-- The running group of a handle. -/
def groupOf (s : State) (h : Nat) : Option Group := s.groups.find? (fun g => g.handle == h)

/-- Replace the running group of its handle. -/
def setGroup (s : State) (g : Group) : State :=
  { s with groups := s.groups.map (fun x => if x.handle == g.handle then g else x) }

/-- The logical tile at group-relative index `i` of a rectangle (R117). -/
def groupTile (g : Group) (i : Nat) : Nat := 8 * (g.y0 + i / g.gw) + g.x0 + i % g.gw

/-- The logical tiles of a group, in group-relative order (R117). -/
def groupTiles (g : Group) : List Nat := (List.range (g.gw * g.gh)).map (groupTile g)

/-- The session of a tag, when it is open, of this function and of the current generation (R312). -/
def sessionOf (s : State) (fn tag : Nat) : Option Session :=
  let n := tag % 4096
  match s.ts.sessions.find n with
  | none => none
  | some x => if n ≠ 0 ∧ x.gen = tag / 4096 ∧ x.fn = fn ∧ x.closing = false then some x else none

/-- Replace session number `n`. -/
def setSession (s : State) (n : Nat) (x : Session) : State :=
  { s with ts := { s.ts with sessions := s.ts.sessions.put n x } }

/-- The physical position of logical tile `t` (R23). -/
def physOf (s : State) (t : Nat) : Nat := s.flt.map.get t t

/-- The scheduler's record of logical tile `t`. -/
def infoOf (s : State) (t : Nat) : TileInfo := s.ts.tiles.get t tileInfo0

/-- Replace the scheduler's record of logical tile `t`. -/
def setInfo (s : State) (t : Nat) (i : TileInfo) : State := { s with ts := { s.ts with tiles := s.ts.tiles.put t i } }

/-- The MSI-X vectors of a function (R272). -/
def vectorCount (fn : Nat) : Nat := if fn = 0 then 2048 else 64

/-- The TDI state of a function; PF0 has none (R272, R300). -/
def tdiOf (s : State) (fn : Nat) : TdiState := if fn = 0 then .unlocked else s.spdm.tdi.get fn .unlocked

/-- The function's ring set-up is locked (R300). -/
def tdiLocked (s : State) (fn : Nat) : Bool :=
  match tdiOf s fn with
  | .locked | .run => true
  | _ => false

/-- The function may send requests to the host: while its TDI is locked, only on an IDE stream with a programmed key (R300). -/
def linkOpen (s : State) (fn : Nat) : Bool := !(tdiLocked s fn) || s.spdm.ide.any (fun p => !(p.2.keys.isEmpty))

/-- Send the message of a vector, or set its pending bit while the vector or the function is masked; a vector at or beyond the count
sends nothing, nor does a function whose MSI-X is not enabled, nor one that may send no request (R289, R300; PRESUMED, log 14). -/
def msixSend (s : State) (fn vec : Nat) : State :=
  if decide (vec < vectorCount fn) && (cfgOf s fn).msix && linkOpen s fn then
    let t := s.hi.msix.get fn []
    let e := t.get vec msix0
    if e.ctrl.testBit 0 || (cfgOf s fn).msixMask then
      { s with hi := { s.hi with msix := s.hi.msix.put fn (t.put vec { e with pend := true }) } }
    else
      { s with out := { s.out with msix := s.out.msix ++ [(fn, vec)], host := s.out.host.wrN e.addr (leBytes 4 e.data) } }
  else s

/-- The fault interrupt on PF0's vector while FLT_IRQ.EN is set (R353). -/
def faultInterrupt (s : State) : State := if s.flt.irqEn then msixSend s 0 s.flt.irqVector else s

/-- A pulse event enters a crossing of class `c`: one that meets another still in transit, within four periods of SCLK, is merged with it.
Whether the two use the same crossing of the class is a free value (R405, R406; log 16). -/
def pulse (x : Crossing) (c now : Nat) : Crossing × Bool :=
  let near := match x.last with
    | some t => decide (now < t + 8)
    | none => false
  if near && Config.inTransit c x.sent then ({ x with sent := x.sent + 1, merged := x.merged + 1 }, true)
  else ({ x with last := some now, sent := x.sent + 1 }, false)

/-- An event counter after one more event, unless its pulse was merged (R12, R353, R406). -/
def counted (t : Tbl Nat) (b : Nat) (meets : Bool) : Tbl Nat := if meets then t else t.put b (satInc (t.get b 0) 0xFFFFFFFF)

/-- A bit becomes set in FLT_EVENT: the bit, its counter, and the interrupt when its mask bit is set (R353, R356). -/
def fltEvent (s : State) (b : Nat) : State :=
  let was := s.flt.event.testBit b
  let (x, meets) := pulse (if b = 3 then s.flt.fabTel else s.flt.tileTel) (if b = 3 then 2 else 1) s.time
  let s := { s with flt := { s.flt with event := s.flt.event ||| 2 ^ b, evcnt := counted s.flt.evcnt b meets,
                                        tileTel := if b = 3 then s.flt.tileTel else x, fabTel := if b = 3 then x else s.flt.fabTel } }
  if !was && s.flt.mask.testBit b then faultInterrupt s else s

/-- A bit becomes set in MEM_EVENT (R267, R353). -/
def memEvent (s : State) (b : Nat) : State :=
  let was := s.mem.event.testBit b
  let (x, meets) := pulse s.mem.tel 0 s.time
  let s := { s with mem := { s.mem with event := s.mem.event ||| 2 ^ b, evcnt := counted s.mem.evcnt b meets, tel := x } }
  if !was && s.mem.mask.testBit b then faultInterrupt s else s

/-- A bit becomes set in TS_EVENT (R332, R353). -/
def tsEvent (s : State) (b : Nat) : State :=
  let was := s.ts.event.testBit b
  let s := { s with ts := { s.ts with event := s.ts.event ||| 2 ^ b } }
  if !was && s.ts.mask.testBit b then faultInterrupt s else s

/-- A bit becomes set in CLK_EVENT, which raises no interrupt (R420). -/
def clkEvent (s : State) (b : Nat) : State := { s with clk := { s.clk with event := s.clk.event ||| 2 ^ b } }

/-- The key of a host address: the address space named by a PASID register, or the untagged one, and the address (R275;
log 6). -/
def hostKey (pasid addr : Nat) : Nat :=
  (if pasid.testBit 31 then 1 + pasid % 2 ^ 20 else 0) * 2 ^ 64 + addr % 2 ^ 64

/-- The address space of a PASID register: 0 untagged, 1 + PASID otherwise. -/
def spaceOf (pasid : Nat) : Nat := if bitAt pasid 31 then 1 + pasid % 2 ^ 20 else 0

/-- The cached translation of a page (R211). -/
def cached (s : State) (fn space page : Nat) : Option Translation :=
  s.hi.ats.find? (fun a => a.fn == fn && a.space == space && a.page == page)

/-- A cached translation grants access in a direction (R211). -/
def grants (s : State) (fn space page : Nat) (write : Bool) : Bool :=
  match cached s fn space page with
  | some a => if write then a.wr else a.rd
  | none => false

/-- A translation of a page is cached, adding what it grants (R211). -/
def cacheTranslation (s : State) (fn space page : Nat) (rd wr : Bool) : State :=
  let old := s.hi.ats.filter (fun a => !(a.fn == fn && a.space == space && a.page == page))
  let was := cached s fn space page
  let hadRd := was.any (fun a => a.rd)
  let hadWr := was.any (fun a => a.wr)
  { s with hi := { s.hi with ats := old ++ [{ fn := fn, space := space, page := page, rd := hadRd || rd, wr := hadWr || wr }] } }

/-- Entries written and not yet consumed, counting from the last HEAD read (R288). -/
def cqUnread (c : Cq) : Nat := (c.next + 2 ^ 32 - c.head % 2 ^ 32) % 2 ^ 32

/-- NOTICE entries written and not yet consumed. -/
def cqNotices (c : Cq) : Nat := (c.notices.filter (fun k => decide ((k + 2 ^ 32 - c.head % 2 ^ 32) % 2 ^ 32 < cqUnread c))).length

/-- Entries neither reserved nor written, apart from the 8 kept for NOTICE entries (R288); a COMPLETE entry that is held still has its
reserved place. -/
def cqFree (c : Cq) : Nat :=
  2 ^ c.log2 - 8 - (cqUnread c - cqNotices c) - c.reserved - (c.held.filter (fun e => !e.notice && e.done.isNone)).length

/-- The COUNT of HI_CQ_COAL (R302). -/
def coalCount (c : Cq) : Nat := if c.coal % 256 = 0 then 1 else c.coal % 256

/-- The function that owns a global completion ring. -/
def cqOwner (s : State) (g : Nat) : Nat :=
  match s.ts.bundle.fns.find? (fun p => p.2.present && decide (p.2.cqBase ≤ g) && decide (g < p.2.cqBase + p.2.cqCount)) with
  | some p => p.1
  | none => 0

/-- Send the completion ring's message; it covers every entry written so far (R289). -/
def cqSignal (s : State) (g : Nat) : State :=
  let c := cqOf s g
  msixSend (setCq s g { c with count := 0, firstAt := none }) (cqOwner s g) c.vector

/-- Entry `k` of a ring has been written and HEAD has not passed it (R288, R344). -/
def unread (c : Cq) (k : Nat) : Bool := decide ((k + 2 ^ 32 - c.head % 2 ^ 32) % 2 ^ 32 < cqUnread c)

/-- The bytes of a recorded entry in host memory: the detail record first, then the entry (R286, R287). -/
def putPosted (m : Mem) (r : Posted) : Mem :=
  (if r.detail.isEmpty then m else m.wrN r.detailAt r.detail).wrN r.entryAt r.entry

/-- Write one entry into its slot: the detail record first, then the entry with PHASE, then the message when it is due
(R286, R287, R289). -/
def writeEntry (s : State) (g : Nat) (h : HeldEntry) : State :=
  let c := cqOf s g
  let slot := c.next % 2 ^ c.log2
  let phase := if (c.next / 2 ^ c.log2) % 2 = 0 then 0x80 else 0
  let flags := (le h.entry 1 1) ||| phase
  let e := splice h.entry 1 [BitVec.ofNat 8 flags]
  let r : Posted := { ring := g, num := c.next, entryAt := hostKey c.pasid (c.base + 32 * slot), entry := e,
                      detailAt := hostKey c.pasid (c.det + 64 * slot), detail := h.detail, noirq := h.noirq }
  let counts := !h.noirq && !h.notice
  let c' := { c with next := (c.next + 1) % 2 ^ 32,
                     notices := if h.notice then c.notices ++ [c.next] else c.notices,
                     count := if counts then c.count + 1 else c.count,
                     firstAt := if counts && c.firstAt.isNone then some s.time else c.firstAt }
  let s := setCq { s with out := { s.out with host := putPosted s.out.host r } } g c'
  let s := { s with hi := { s.hi with recent := r :: s.hi.recent.filter (fun p => p.ring != g || (p.num != r.num && unread c' p.num)) } }
  if h.notice || (counts && decide (coalCount c' ≤ c'.count)) then cqSignal s g else s

/-- An error of the link is reported for a function: ERROR of HI_FN_STATUS, and AER (R292). -/
def linkError (s : State) (fn : Nat) : State :=
  let s := setPage s fn { pageOf s fn with error := true }
  { s with out := { s.out with link := s.out.link ++ [.aer fn] } }

/-- An entry that cannot be sent: the ring halts, as on a link error, and holds it (R292, R300; DEDUCED, log 45). -/
def holdEntry (s : State) (g : Nat) (h : HeldEntry) : State :=
  let c := cqOf s g
  let s' := setCq s g { c with halted := true, held := c.held ++ [h] }
  if c.halted then s' else linkError s' (cqOwner s g)

/-- The 32 bytes of an entry without PHASE (R285). -/
def entryBytes (kind flags status info handle time cookie : Nat) : List Byte :=
  leBytes 1 kind ++ leBytes 1 flags ++ leBytes 2 status ++ leBytes 4 info ++ leBytes 8 handle ++ leBytes 8 time ++
    leBytes 8 cookie

/-- A detail record (R150). -/
structure Detail where
  status  : Nat
  subtype : Nat
  epoch   : Nat
  tile    : Nat
  unitA   : Nat
  unitB   : Nat
  bank    : Nat
  cycle   : Nat
  address : Nat
  pc      : Nat
  at_     : Nat
  pushed  : Nat
  waiters : Nat
  tilesWaiting : Nat
  hostHi  : Nat
  waitSem : List Nat
  waitCount : List Nat
  pasid   : Nat
  deriving DecidableEq, Repr

/-- A record with nothing to name beyond its status (R150). What no rule of R150 fills for a status, as the WAIT_SEM bytes of a record that is
no SEMAPHORE_DEADLOCK and ADDRESS of a LATE_ISSUE, reads 0 (DESIGN CHOICE, log 46). -/
def detail0 (status : Nat) : Detail :=
  { status := status, subtype := 0, epoch := 0, tile := 0, unitA := 0, unitB := 0xFF, bank := 0xFF, cycle := 0,
    address := 0, pc := 0xFFFFFFFF, at_ := 0, pushed := 0, waiters := 0, tilesWaiting := 0, hostHi := 0,
    waitSem := [0, 0, 0, 0, 0, 0], waitCount := [0, 0, 0, 0, 0, 0], pasid := 0 }

/-- The 64 bytes of a detail record (R150, R214). -/
def detailBytes (d : Detail) : List Byte :=
  leBytes 2 d.status ++ leBytes 1 d.subtype ++ leBytes 1 d.epoch ++ leBytes 1 d.tile ++ leBytes 1 d.unitA ++
    leBytes 1 d.unitB ++ leBytes 1 d.bank ++ leBytes 8 d.cycle ++ leBytes 4 d.address ++ leBytes 4 d.pc ++
    leBytes 8 d.at_ ++ leBytes 8 d.pushed ++ leBytes 1 d.waiters ++ leBytes 1 d.tilesWaiting ++ leBytes 4 d.hostHi ++
    leBytes 2 0 ++ (d.waitSem.map (leBytes 1)).flatten ++ (d.waitCount.map (leBytes 1)).flatten ++ leBytes 4 d.pasid

/-- Give `post` a NOTICE for the function's notice ring, or count it lost beyond the reserve (R288, R291). Of its detail record
R150 fixes STATUS and what is none; TILE, UNIT_A, EPOCH, CYCLE and ADDRESS are free values (log 7). -/
def noticeBy (post : State → Nat → HeldEntry → State) (s : State) (fn code status handle : Nat) : State :=
  let n := (pageOf s fn).noticeCq
  if n.testBit 31 then
    match cqGlobal s fn (n % 512) with
    | none => s
    | some g =>
      let c := cqOf s g
      if !c.enabled then s
      else if 8 ≤ cqNotices c + (c.held.filter (fun e => e.notice)).length then setCq s g { c with lost := true }
      else
        let (v, s) := drawBytes s 15
        let d := { detail0 status with epoch := le v 0 1, tile := le v 1 1, unitA := le v 2 1, cycle := le v 3 8,
                                       address := le v 11 4 }
        post s g { entry := entryBytes 3 2 status code handle s.time 0, detail := detailBytes d, noirq := false,
                   notice := true, done := none }
  else s

/-- Post an entry: a halted ring holds it (R292), a disabled one takes none, and where the function may send no request the ring halts,
with notice 2 for another notice ring, which cannot be sent either (R292, R300). -/
def postEntry (s : State) (g : Nat) (h : HeldEntry) : State :=
  let c := cqOf s g
  let fn := cqOwner s g
  if !c.enabled then s
  else if c.halted then setCq s g { c with held := c.held ++ [h] }
  else if linkOpen s fn then writeEntry s g h
  else
    let s' := holdEntry s g h
    if cqGlobal s' fn ((pageOf s' fn).noticeCq % 512) = some g then s' else noticeBy holdEntry s' fn 2 stHostAbort g

/-- Post a NOTICE to the function's notice ring (R291). -/
def notice (s : State) (fn code status handle : Nat) : State := noticeBy postEntry s fn code status handle

/-- The functions that the active bundle has. -/
def presentFns (s : State) : List Nat := (s.ts.bundle.fns.filter (fun p => p.2.present)).map (·.1)

/-- Post a NOTICE on every function's notice ring (R301, R324). -/
def noticeAll (s : State) (code status handle : Nat) : State :=
  (presentFns s).foldl (fun s fn => notice s fn code status handle) s

/-- The handle of a descriptor (R284). -/
def handleOf (ring epoch seq : Nat) : Nat := ring * 2 ^ 52 + epoch * 2 ^ 32 + seq

/-- Record an outcome in the ring's outcome record, while its epoch is the handle's (R306). -/
def recordOutcome (s : State) (h : Nat) (good : Bool) : State :=
  let g := h / 2 ^ 52
  let q := sqOf s g
  if (h / 2 ^ 32) % 2 ^ 20 = q.epoch then
    setSq s g { q with outcome := q.outcome.map (fun p => if p.seq = h % 2 ^ 32 then { p with result := some good } else p) }
  else s

/-- An entry's view of the end of handle `h`: dependencies and scope shrink, failures count, barriers open (R295, R306). -/
def settleDep (h : Nat) (good : Bool) (e : Entry) : Entry :=
  let hit := (e.deps.filter (· == h)).length + (e.scope.filter (· == h)).length
  { e with deps := e.deps.filter (· ≠ h), scope := e.scope.filter (· ≠ h), before := e.before.filter (· ≠ h),
           failed := if good then e.failed else e.failed + hit,
           barriers := e.barriers.filter (· ≠ h) }

/-- Remove the entry of a handle and let the others see its end. -/
def releaseEntry (s : State) (h : Nat) (good : Bool) : State :=
  { s with ts := { s.ts with entries := (s.ts.entries.filter (fun e => !(e.handle == h))).map (settleDep h good) } }

/-- A COMPLETE entry has been written: its outcome is recorded, its reserved place and its scoreboard entry are freed (R288, R304,
R306). -/
def settle (s : State) (done : Option (Nat × Bool)) : State :=
  match done with
  | none => s
  | some (h, good) =>
    match entryOf s h with
    | none => s
    | some e =>
      let s := releaseEntry (recordOutcome s h good) h good
      let c := cqOf s e.cq
      setCq s e.cq { c with reserved := c.reserved - 1 }

/-- An entry posted to a completion ring now is written, and not held (R292, R300). -/
def cqSends (s : State) (g : Nat) : Bool := !((cqOf s g).halted) && linkOpen s (cqOwner s g)

/-- Complete a held handle: exactly one COMPLETE entry; once it is written, the outcome is recorded and the scoreboard entry freed. While
the completion ring only holds it, the handle stays held, its work ended (R31, R287, R292, R304, R306). An unrecoverable device answers
0x07FF (R347). -/
def complete (s : State) (h status info : Nat) (detail : Option Detail) (exhausted : Bool) : State :=
  match entryOf s h with
  | none => s
  | some e =>
    if e.state = .completing then s
    else
      let status := if s.flt.unrecoverable then stUnrecoverable else status
      let det := match detail with
        | some d => detailBytes { d with status := status }
        | none => []
      let flags := b2n e.replayed + 2 * b2n (!det.isEmpty) + 4 * b2n exhausted
      let done := some (h, status == 0)
      let t := postEntry s e.cq { entry := entryBytes 2 flags status info h s.time (dfld e.desc 0x78 8), detail := det,
                                  noirq := (dfld e.desc 1 1).testBit 0, notice := false, done := done }
      if !((cqOf s e.cq).enabled) || cqSends s e.cq then settle t done else setEntry t { e with state := .completing }

/-- End a held handle without any entry (R298). -/
def dropHandle (s : State) (h : Nat) : State :=
  match entryOf s h with
  | none => s
  | some e =>
    let s := releaseEntry s h false
    let c := cqOf s e.cq
    setCq s e.cq { c with reserved := c.reserved - 1 }

/-- Append one record to the fault log (R352); a record overwritten before FLT_LOG_SEL named it sets LOG_WRAP. -/
def logFault (s : State) (source action ltile ptile channel part handle detail : Nat) : State :=
  let r := leBytes 8 s.time ++ leBytes 1 source ++ leBytes 1 action ++ leBytes 1 ltile ++ leBytes 1 ptile ++
    leBytes 2 channel ++ leBytes 1 part ++ leBytes 1 0 ++ leBytes 8 handle ++ leBytes 8 detail
  let n := s.flt.logCount
  let old := n - 1024
  let wraps := decide (1024 ≤ n) && !(s.flt.logSeen.contains old)
  let log := (if 1024 ≤ n then s.flt.log.del old else s.flt.log).put n r
  let s := { s with flt := { s.flt with log := log, logCount := n + 1, logSeen := s.flt.logSeen.filter (· ≠ old) } }
  if wraps then fltEvent s 6 else s

/-- One absorbed fault event of R351; in a trial, STORM of them since its switch point and within 10 s bring the automatic revert (R328,
R332). -/
def absorbed (s : State) : State :=
  let recent := fun (l : List Nat) => s.time :: l.filter (fun t => decide (s.time < t + 10000000000))
  let l := recent s.ts.stormTimes
  { s with ts := { s.ts with faultTimes := recent s.ts.faultTimes, stormTimes := l, stormHit := s.ts.stormHit || (s.ts.trialEnds.isSome && decide (s.ts.bundle.storm ≤ l.length)) } }

/-- A tile's contents with every write of the epoch applied in cycle order. -/
def flushWrites (x : Tile) : Mem :=
  let ws := sortBy (fun (a b : TimedWrite) => decide (a.cyc ≤ b.cyc)) x.writes
  ws.foldl (fun m w => (m.wrN w.addr (w.data.take (0x800000 - w.addr))).wrN 0 (w.data.drop (0x800000 - w.addr))) x.spad

/-- The bytes of a write that the bank `b` does not serve, one by one (R86). -/
def outsideBank (b : Nat) (w : TimedWrite) : List TimedWrite :=
  (w.data.mapIdx (fun i v => { w with addr := (w.addr + i) % 0x800000, data := [v] })).filter (fun v => !(v.addr / 64 % 64 == b))

/-- What the writes of a tile come to that stops at cycle `c`: none in a group that is off (R149), none of the loser of a bank conflict in
its bank (R86, R115), none after the 4 ACLK of R152. Where one unit is winner and loser the access that loses is a read: the MMA and the VE each
have one kind of write, which comes before their reads. -/
def stoppedWrites (x : Tile) (c : Nat) (d : Option Detail) : List TimedWrite :=
  ((x.writes.filter (fun w => decide (w.cyc ≤ c + 4) && x.power.get (w.addr / 0x100000) .on == .on)).map (fun w =>
    match d with
    | none => [w]
    | some v => if v.status = 0x0302 ∧ v.unitA ≠ v.unitB ∧ w.unit = v.unitB ∧ w.cyc = v.cycle then outsideBank v.bank w else [w])).flatten

/-- A write that may have been made or not in the 4 ACLK after detection leaves free bytes (R152). -/
def blurWrites (c : Nat) (s : State) : List TimedWrite → State × List TimedWrite
  | [] => (s, [])
  | w :: r =>
    let (v, s1) := if w.cyc ≤ c then (w.data, s) else drawBytes s w.data.length
    let (s2, l) := blurWrites c s1 r
    (s2, { w with data := v } :: l)

/-- Tile `t` stops: at the cycle of the detail record where it names the tile, elsewhere at a free one (R26, R152). -/
def cutTile (d : Option Detail) (s : State) (t : Nat) : State :=
  let x := tileOf s t
  if x.writes.isEmpty then s
  else
    let mine := match d with
      | some v => if v.tile = t then some v else none
      | none => none
    let (c, s1) := match mine with
      | some v => (v.cycle, s)
      | none => let (v, s1) := drawBytes s 5; (leNat v, s1)
    let (s2, l) := blurWrites c s1 (stoppedWrites x c mine)
    setTile s2 t { x with writes := l }

/-- The parts of undefined ranges outside [a, a+n). -/
def outsideRange (a n : Nat) (l : List Undef) : List Undef :=
  (l.map (fun u => [{ u with hi := Nat.min u.hi a }, { u with lo := Nat.max u.lo (a + n) }])).flatten.filter (fun u => decide (u.lo < u.hi))

/-- The PASID word of the host region that a stream's descriptor names. -/
def streamPasid (s : State) (st : Stream) : Nat :=
  let rs := (s.groups.filterMap (fun g => (entryOf s g.handle).map (fun e => e.regions))).flatten
  match rs.find? (fun r => r.id == dfld (st.entry.desc.getD 0) 0 2 && r.host) with
  | none => 0
  | some r => r.pasid

/-- The extent of some elements on the memory side, from the lowest byte to the highest: its start and length. -/
def elemExtent : List (Nat × Nat × Nat) → Nat × Nat
  | [] => (0, 0)
  | p :: r =>
    let (lo, hi) := r.foldl (fun (q : Nat × Nat) k => (Nat.min q.1 k.1, Nat.max q.2 (k.1 + k.2.2))) (p.1, p.1 + p.2.2)
    (lo, hi - lo)

/-- The destination extent in host memory of a write that is cut short holds free bytes, from its lowest byte to its highest (R215). -/
def spoilHost (s : State) (t : Nat) : State :=
  ((tileOf s t).streams.vals.flatten.filter (fun st => st.op == 1 && st.dev == 1)).foldl (fun s st =>
    let (a, n) := elemExtent st.elems
    let (v, s) := drawBytes s n
    { s with out := { s.out with host := s.out.host.wrN (hostKey (streamPasid s st) a) v } }) s

/-- The intervals of a direction in the epoch, 0 read and 1 write (R122, R124). -/
def rangesIn (i : Image) (args : Tbl Word64) (epoch dir : Nat) : List (Nat × Nat) :=
  ((i.epochs.getD epoch []).filter (fun r => r.dir == dir)).map (fun r =>
    let data := (args.get (64 + r.slot) 0).toNat
    match r.kind with
    | 0 => (data, (args.get (96 + r.slot) 0).toNat)
    | 1 => ((args.get r.slot 0).toNat, 256)
    | _ => (data + r.off, 256 * r.len))

/-- The part of [a, a + n) that lies in a stripe with data, as undefined bytes; an UNWRITTEN stripe reads as zero and stays so (R235). -/
def spoilPiece (key a n : Nat) (p : Nat × StripeState) : List Undef :=
  let lo := Nat.max a (4096 * p.1)
  let hi := Nat.min (a + n) (4096 * p.1 + 4096)
  if p.2 = .unwritten ∨ hi ≤ lo then [] else [{ key := key, base := a, lo := lo, hi := hi }]

/-- The bytes [a, a+n) of device memory are undefined: free values, where something has been written and nothing has since (R152, R215,
R235). -/
def spoilRange (s : State) (a n : Nat) : State :=
  { s with mem := { s.mem with undef := (s.mem.stripes.map (spoilPiece s.freeCtr a n)).flatten ++ outsideRange a n s.mem.undef },
           freeCtr := s.freeCtr + 1 }

/-- What the epochs of a group that have begun declare to write. -/
def writtenRanges (s : State) (g : Group) : List (Nat × Nat) :=
  match entryOf s g.handle with
  | none => []
  | some e =>
    match e.image with
    | none => []
    | some i =>
      ((List.range (g.epoch + 1)).map (fun k => rangesIn i (tileOf s (groupTile g 0)).args k 1)).flatten

/-- A task's output ranges hold undefined bytes: the data of its destinations, and every interval that its epochs so far declare to write
(R152, R215). -/
def spoilOutputs (s : State) (g : Group) : State :=
  match entryOf s g.handle with
  | none => s
  | some e =>
    let data := e.finals.map (fun p => (le p.2 0x28 8, le p.2 0x30 8))
    (data ++ (writtenRanges s g).filter (fun r => !(data.any (fun d => d.1 ≤ r.1 && r.1 + r.2 ≤ d.1 + d.2)))).foldl
      (fun s r => spoilRange s r.1 r.2) s

/-- Every tile of a group stops issuing and its work is cut short (R152, R215). -/
def cutGroup (s : State) (g : Group) (d : Option Detail) : State :=
  let s := (groupTiles g).foldl spoilHost s
  spoilOutputs ((groupTiles g).foldl (cutTile d) s) g

/-- A tile whose task has ended: core, queues, engines, checker, streams and descriptor store reset, scratchpad kept (R152,
R410). -/
def stopTile (x : Tile) : Tile :=
  { x with status := .idle, store := none, queues := [], sigs := [], marks := [], holds := [], claims := [],
           spad := flushWrites x, writes := [], mmaHist := [], veHist := [], jobs := [], loads := [], descs := [], streams := [],
           trackers := [], winPast := [], heard := [], spBusy := none, spLast := 0, veLast := 0, issued := [], storeAt := 0,
           seen := 0, seLast := [] }

/-- A tile that has become free, held out until it is configured to the active version, or retired where it has failed (R325, R339). -/
def offerTile (s : State) (t : Nat) : State :=
  let i := infoOf s t
  if i.version = s.ts.bundle.version ∧ i.fails < 2 then setInfo s t { i with state := if i.lull then 3 else 0, freeAt := s.time }
  else tsEvent (setInfo s t { i with state := 2, freeAt := s.time }) 4

/-- The session that used a tile last; a tile whose partition changed while it ran keeps its mark, 8192 added to the number, so that it is
scrubbed before it is used (R177, R331). -/
def lastSession (g : Group) (i : TileInfo) : Nat := if 8192 ≤ i.session then 8192 + g.session else g.session

/-- The tiles of a group leave it, with the session that used them last (R175, R311). -/
def freeTiles (s : State) (g : Group) : State :=
  (groupTiles g).foldl (fun s t =>
    let s := setTile s t (stopTile (tileOf s t))
    offerTile (setInfo s t { infoOf s t with session := lastSession g (infoOf s t), dirty := true }) t) s

/-- Drop the requests of a group's tiles at the memory system: reads are forgotten, writes not yet applied lapse (R152,
R159). -/
def dropReqs (s : State) (ts : List Nat) : State :=
  { s with mem := { s.mem with reqs := s.mem.reqs.filter (fun r => !(ts.contains r.tile)) } }

/-- Remove a group and free its tiles. -/
def endGroup (s : State) (g : Group) : State :=
  let s := dropReqs s (groupTiles g)
  freeTiles { s with groups := s.groups.filter (fun x => !(x.handle == g.handle)) } g

/-- A task aborts: every tile of the group stops, its work is discarded, and its COMPLETE entry carries the status (R152). -/
def abortTask (s : State) (h status : Nat) (detail : Option Detail) : State :=
  match groupOf s h with
  | none => complete s h status 0 detail false
  | some g => complete (endGroup (cutGroup s g detail) g) h status 0 detail false

/-- The scratchpad group of an address. -/
def spadGroup (a : Nat) : Nat := a / 0x100000

/-- The groups of a scratchpad. -/
def groupList : List Nat := [0, 1, 2, 3, 4, 5, 6, 7]

/-- The contents that a power state leaves of the groups that are off: none (R173). -/
def spadKept (x : Tile) (power : Tbl GroupPower) : Mem :=
  x.spad.filter (fun p => !(power.get (spadGroup p.1) .on == .umbra))

/-- The groups of a tile that are On pass to an idle state, 1 Penumbra or 2 Umbra (R173, R176). -/
def idleGroups (idle : Nat) (x : Tile) : Tile :=
  let p := groupList.map (fun k => (k, if x.power.get k .on == .on then (if idle = 1 then .penumbra else .umbra) else x.power.get k .on))
  { x with power := p, spad := spadKept x p }

/-- The device becomes unrecoverable: every tile stops, every held descriptor completes with 0x07FF, notice 3 is posted and
the package is STOPPED, with its tiles at retention and the stopped domains in reset (R347, R399, R408, R418). -/
def goUnrecoverable (s : State) (cause : Nat) : State :=
  if s.flt.unrecoverable then s
  else
    let s := { s with flt := { s.flt with unrecoverable := true, cause := cause } }
    let (v, s) := drawBytes s 1
    let s := logFault s (leNat v) 8 0xFF 0xFF 0xFFFF 0xFF 0 (if cause = 2 then 2 ^ 64 - 1 else 0)
    let s := fltEvent s 5
    let s := s.groups.foldl (fun s g => endGroup s g) s
    let s := (s.ts.entries.map (·.handle)).foldl (fun s h => complete s h stUnrecoverable 0 none false) s
    let s := { s with hi := { s.hi with xfers := [] }, pke := { s.pke with long := none },
                      clk := { s.clk with pkg := 5, run := s.clk.run % 16, inReset := s.clk.inReset ||| s.clk.run / 16 * 16 },
                      tiles := s.tiles.map (fun p => (p.1, idleGroups 1 p.2)) }
    noticeAll s 3 stUnrecoverable 0

end Sys2Proof.Machine
end

