-- ==== Sys2Proof/Machine/Objects.lean ====
section
/-! DEFINITION. Encrypted objects: the headers (R40, R48), parameter sets (R36, R37, R57, R432), layouts (R46, R50), the readiness checks
of R56 and the derived header fields (R58 to R61). -/

namespace Sys2Proof.Machine

/-- An IGCT header field. -/
def ohScheme (h : List Byte) : Nat := le h 5 1
/-- FLAGS. -/
def ohFlags (h : List Byte) : Nat := le h 6 2
/-- VALID, at the same bit in both headers. -/
def ohValid (h : List Byte) : Bool := bitAt (ohFlags h) 0
/-- BUDGET_EXHAUSTED. -/
def ohExhausted (h : List Byte) : Bool := bitAt (ohFlags h) 1
/-- STRICT. -/
def ohStrict (h : List Byte) : Bool := bitAt (ohFlags h) 2
/-- PSET, at the same place in both headers. -/
def ohPset (h : List Byte) : Nat := le h 8 4
/-- LAYOUT. -/
def ohLayout (h : List Byte) : Nat := le h 0x0C 1
/-- WIDTH. -/
def ohWidth (h : List Byte) : Nat := le h 0x0D 1
/-- POLYS. -/
def ohPolys (h : List Byte) : Nat := le h 0x0E 2
/-- KEYID, at the same place in both headers. -/
def ohKeyid (h : List Byte) : Nat := le h 0x10 8
/-- LEVEL. -/
def ohLevel (h : List Byte) : Nat := le h 0x18 2
/-- LIMBS. -/
def ohLimbs (h : List Byte) : Nat := le h 0x1A 2
/-- BUDGET. -/
def ohBudget (h : List Byte) : Nat := le h 0x1C 2
/-- SCALE. -/
def ohScale (h : List Byte) : Nat := le h 0x20 4
/-- PARTY and PARTIES. -/
def ohParty (h : List Byte) : Nat := le h 0x24 2
/-- DATA of an IGCT header. -/
def ohData (h : List Byte) : Nat := le h 0x28 8
/-- LENGTH of an IGCT header. -/
def ohLength (h : List Byte) : Nat := le h 0x30 8
/-- GEN of an IGCT header. -/
def ohGen (h : List Byte) : Nat := le h 0x38 8

/-- KIND of an IGKY header. -/
def khKind (h : List Byte) : Nat := le h 5 1
/-- SEEDED. -/
def khSeeded (h : List Byte) : Bool := bitAt (ohFlags h) 1
/-- DNUM. -/
def khDnum (h : List Byte) : Nat := le h 0x0C 1
/-- XOF. -/
def khXof (h : List Byte) : Nat := le h 0x0D 1
/-- DECOMP_LEVELS. -/
def khLevels (h : List Byte) : Nat := le h 0x0F 1
/-- GALOIS. -/
def khGalois (h : List Byte) : Nat := le h 0x18 4
/-- KLIMBS. -/
def khLimbs (h : List Byte) : Nat := le h 0x1C 2
/-- KSPECIAL. -/
def khSpecial (h : List Byte) : Nat := le h 0x1E 2
/-- SEED. -/
def khSeed (h : List Byte) : List Byte := sub h 0x20 32
/-- DATA of an IGKY header. -/
def khData (h : List Byte) : Nat := le h 0x40 8
/-- LENGTH of an IGKY header. -/
def khLength (h : List Byte) : Nat := le h 0x48 8
/-- GEN of an IGKY header. -/
def khGen (h : List Byte) : Nat := le h 0x50 8

/-- "IGCT". -/
def magicCt : Nat := 0x54434749
/-- "IGKY". -/
def magicKy : Nat := 0x594B4749

/-- An intact header: MAGIC and CRC correct (R43). -/
def intactCt (h : List Byte) : Bool := le h 0 4 == magicCt && crcOk h
/-- An intact key header. -/
def intactKy (h : List Byte) : Bool := le h 0 4 == magicKy && crcOk h

/-- GEN of a header of either kind. -/
def genOf (h : List Byte) : Nat := if le h 0 4 = magicKy then khGen h else ohGen h

/-- The layouts that R46 lists for a scheme. -/
def layoutListed (scheme layout : Nat) : Bool :=
  match scheme with
  | 1 | 2 | 3 => layout == 0x01 || layout == 0x02
  | 4 => layout == 0x10 || layout == 0x11
  | 5 => layout == 0x12
  | 6 => layout == 0x20
  | _ => false

/-- Check 1 of R56 for a source or a triple. -/
def check1Ct (h : List Byte) : Bool :=
  intactCt h && le h 4 1 == 1 && ohValid h && ohFlags h / 8 == 0 && le h 0x1E 2 == 0 && le h 0x26 2 == 0 &&
    zeros (sub h 0x40 64) && zeros (sub h 0xF0 12) && layoutListed (ohScheme h) (ohLayout h) && ohKeyid h != 0

/-- Check 1 of R56 for a key. -/
def check1Ky (h : List Byte) : Bool :=
  intactKy h && le h 4 1 == 1 && ohValid h && ohFlags h / 4 == 0 && zeros (sub h 0x58 164) && ohKeyid h != 0 &&
    (!(khSeeded h) || khXof h == 1 || khXof h == 2)

/-- PAIRED (R36). -/
def psPaired (p : Pset) : Bool := bitAt p.flags 0
/-- PAIRED_RESCALE. -/
def psPairedRescale (p : Pset) : Bool := bitAt p.flags 1
/-- TORUS64. -/
def psTorus64 (p : Pset) : Bool := bitAt p.flags 2
/-- The element width of the set's objects (R432). -/
def psWidth (p : Pset) : Nat := if (if p.scheme ≤ 3 then psPaired p else psTorus64 p) then 8 else 4
/-- N. -/
def psN (p : Pset) : Nat := 2 ^ p.logN
/-- The set serves objects of a scheme (R432). -/
def psServes (p : Pset) (scheme : Nat) : Bool := p.scheme == scheme || (p.scheme == 5 && scheme == 4)

/-- The maximum level of a set (R57). -/
def psMaxLevel (p : Pset) : Nat :=
  match p.scheme with
  | 1 => if psPairedRescale p then p.l / 2 - 1 else p.l - 1
  | 2 => p.l - 1
  | _ => 0

/-- LIMBS at a level (R57). -/
def psLimbs (p : Pset) (level : Nat) : Nat :=
  match p.scheme with
  | 1 => if psPairedRescale p then 2 * (level + 1) else level + 1
  | 2 => level + 1
  | 3 => p.l
  | _ => 0

/-- A count rounded up to a multiple. -/
def roundUp (a m : Nat) : Nat := cdiv a m * m

/-- LENGTH that R46 gives; none where R46 gives a condition instead (scheme 6). -/
def layoutLength (p : Pset) (layout width polys limbs : Nat) : Option Nat :=
  match layout with
  | 0x01 | 0x02 => some (polys * limbs * psN p * width)
  | 0x10 => some (polys * roundUp ((p.lweN + 1) * width) 4096)
  | 0x11 => some ((p.lweN + 1) * roundUp polys (4096 / width) * width)
  | 0x12 => some ((p.glweK + 1) * psN p * width)
  | _ => none

/-- LENGTH agrees with R46; for scheme 6 it is a nonzero multiple of POLYS × 4,096 (R46, R59). -/
def lengthOk (p : Pset) (layout width polys limbs len : Nat) : Bool :=
  match layoutLength p layout width polys limbs with
  | some n => len == n
  | none => polys != 0 && len != 0 && len % (polys * 4096) == 0

/-- The key's data length by R50, from the header's own fields and the dimensions of its set; a switch-to-LWE key of a set with GLWE_K 0
takes k = 1 (DESIGN CHOICE, log 58). -/
def keyLength (p : Pset) (h : List Byte) : Option Nat :=
  let half := if khSeeded h then 1 else 2
  match khKind h with
  | 1 | 2 | 3 | 6 => some (half * (khDnum h * (p.l + p.k) * psN p * psWidth p))
  | 5 => some (p.lweN * ((p.glweK + 1) * khLevels h) * (if khSeeded h then 1 else p.glweK + 1) * psN p * psWidth p)
  | 4 => some (Nat.max 1 p.glweK * psN p * roundUp (khLevels h * (if khSeeded h then 1 else p.lweN + 1) * psWidth p) 4096)
  | _ => none

/-- Check 3 of R56 for a ciphertext or share object. -/
def check3Ct (p : Pset) (h : List Byte) : Bool :=
  decide (ohLevel h ≤ psMaxLevel p) && ohLimbs h == psLimbs p (ohLevel h) &&
    lengthOk p (ohLayout h) (ohWidth h) (ohPolys h) (ohLimbs h) (ohLength h)

/-- Check 3 of R56 for a key. -/
def check3Ky (p : Pset) (h : List Byte) : Bool :=
  khLimbs h == p.l && khSpecial h == p.k && (match keyLength p h with
    | some n => khLength h == n
    | none => false)

/-- A loaded set of a session. -/
def psetOf (x : Session) (id : Nat) : Option Pset := x.psets.find? (fun p => p.id == id)

/-- Deterministic Miller–Rabin for one base (R37): n − 1 = d × 2^r. -/
def mrSquares (n x : Nat) : Nat → Bool
  | 0 => false
  | r + 1 => x == n - 1 || mrSquares n (x * x % n) r

/-- b^e mod m by repeated squaring, over the low `k` bits of e. -/
def powModBits (m : Nat) : Nat → Nat → Nat → Nat → Nat
  | 0, acc, _, _ => acc
  | k + 1, acc, b, e => powModBits m k (if e % 2 = 1 then acc * b % m else acc) (b * b % m) (e / 2)

/-- b^e mod m. -/
def powModN (m b e : Nat) : Nat := powModBits m (Nat.log2 e + 1) (1 % m) (b % m) e

/-- The odd part of n and its exponent of two. -/
def oddPart : Nat → Nat → Nat → Nat × Nat
  | 0, n, r => (n, r)
  | k + 1, n, r => if n % 2 = 0 then oddPart k (n / 2) (r + 1) else (n, r)

/-- Prime under Miller–Rabin with the twelve bases 2 to 37 (R37). -/
def mrPrime (n : Nat) : Bool :=
  let bases := [2, 3, 5, 7, 11, 13, 17, 19, 23, 29, 31, 37]
  if n < 2 then false
  else if bases.contains n then true
  else if n % 2 = 0 then false
  else
    let (d, r) := oddPart (Nat.log2 n + 1) (n - 1) 0
    bases.all (fun b => let x := powModN n b d; x == 1 || mrSquares n x r)

/-- The fixed part and prime entries of a descriptor of a parameter set (R34 to R36, R38). -/
def parsePset (b : List Byte) (limbs : Nat) : Pset :=
  { id := le b 0 4, scheme := le b 4 1, logN := le b 5 1, flags := le b 6 2, l := le b 8 1, k := le b 9 1, dnum := le b 0x0A 1,
    top := le b 0x0B 1, lweN := le b 0x0C 2, glweK := le b 0x0E 1, t := le b 0x10 8, decLog := le b 0x18 1,
    decLevels := le b 0x19 1, refresh := le b 0x1A 2,
    primes := (List.range limbs).map (fun i => (le b (0x40 + 32 * i) 8, le b (0x48 + 32 * i) 8, le b (0x50 + 32 * i) 4)) }

/-- The reserved fields of a descriptor are zero (R37). -/
def psetReserved (b : List Byte) (limbs : Nat) : Bool :=
  le b 6 2 / 8 == 0 && le b 0x0F 1 == 0 && zeros (sub b 0x1C 36) &&
    (List.range limbs).all (fun i => zeros (sub b (0x54 + 32 * i) 12))

/-- The ranges of R36 by scheme (R37, condition 1). -/
def psetRanges (p : Pset) : Bool :=
  let ring := decide (1 ≤ p.scheme) && decide (p.scheme ≤ 3)
  let torus := p.scheme == 4 || p.scheme == 5
  decide (1 ≤ p.scheme) && decide (p.scheme ≤ 6) && decide (p.l ≤ 96) && decide (p.k ≤ 32) &&
    (if ring || p.scheme == 5 then decide (10 ≤ p.logN) && decide (p.logN ≤ 17) else p.logN == 0) &&
    (if p.k = 0 then p.dnum == 0 else decide (1 ≤ p.dnum) && decide (p.dnum ≤ 8)) &&
    (if torus then decide (256 ≤ p.lweN) && decide (p.lweN ≤ 4096) else p.lweN == 0) &&
    (if p.scheme = 5 then decide (1 ≤ p.glweK) && decide (p.glweK ≤ 4) else p.glweK == 0)

/-- The conditions of R37 on primes and roots (conditions 2 and 3). -/
def psetPrimes (p : Pset) : Bool :=
  let top := if psPaired p then 2 ^ 61 else 2 ^ 31
  let n := psN p
  decide (1 ≤ p.l) && decide ((p.primes.map (fun e => e.1)).Nodup) &&
    p.primes.all (fun e => decide (e.1 < top) && mrPrime e.1 && e.1 % (2 * n) == 1 && powModN e.1 e.2.1 n == e.1 - 1 &&
      e.2.2 / 65536 == Nat.log2 e.1)

/-- Every condition of R37. -/
def psetOk (b : List Byte) (limbs : Nat) : Bool :=
  let p := parsePset b limbs
  psetRanges p && psetReserved b limbs &&
    (if p.scheme ≤ 3 then psetPrimes p else p.l == 0 && p.k == 0) &&
    (p.k == 0 || decide (cdiv p.l p.dnum ≤ p.k)) &&
    (!(psPairedRescale p) || (p.scheme == 1 && p.l % 2 == 0)) && decide (p.top ≤ psMaxLevel p) &&
    (p.scheme != 2 || p.primes.all (fun e => Nat.gcd p.t e.1 == 1))

/-- The declared sources of an output or a key, by SRCMASK (R120, R121). -/
def sourcesIn (decls : List ObjDecl) (mask : Nat) : List ObjDecl :=
  ((decls.mapIdx (fun i d => (i, d))).filter (fun p => bitAt mask p.1 && p.2.role == 1)).map (fun p => p.2)

/-- The header recorded for a slot. -/
def headerAt (hs : List (Nat × List Byte)) (slot : Nat) : List Byte :=
  match hs.find? (fun p => p.1 == slot) with
  | some p => p.2
  | none => []

/-- All members of a list are equal under `f`. -/
def allSame (l : List Nat) : Bool :=
  match l with
  | [] => true
  | a :: r => r.all (fun b => b == a)

/-- The headers of the sources of an output, in declaration order. -/
def srcHeaders (decls : List ObjDecl) (hs : List (Nat × List Byte)) (mask : Nat) : List (List Byte) :=
  (sourcesIn decls mask).map (fun d => headerAt hs d.slot)

/-- The target set and KEYID of a DEST: copied from the first source, or taken from the argument words (R58, R120, R427). -/
def destPset (args : Tbl Word64) (d : ObjDecl) (first : List Byte) : Nat :=
  if d.target = 1 then (args.get (d.targetArg + 1) 0).toNat % 2 ^ 32 else ohPset first

/-- KEYID of a DEST (R58, R120). -/
def destKeyid (args : Tbl Word64) (d : ObjDecl) (first : List Byte) : Nat :=
  if d.target = 1 then (args.get d.targetArg 0).toNat else ohKeyid first

/-- The minimum LEVEL of the sources (R58). -/
def minLevel (hs : List (List Byte)) : Nat :=
  match hs.map ohLevel with
  | [] => 0
  | a :: r => r.foldl Nat.min a

/-- SCALE of a DEST, an integer that R58 bounds afterwards: only CKKS carries a scale. `q` is the set of the first source: the limbs
that a rescale drops, and their LG_Q, are those of the sources' chain, whatever target set the DEST declares (R427; DEDUCED, log 32). -/
def destScale (q : Pset) (d : ObjDecl) (hs : List (List Byte)) : Int :=
  match hs with
  | [] => 0
  | f :: _ =>
    if ohScheme f ≠ 1 then 0
    else
      let lv := minLevel hs
      let keep := if bitAt d.scaleRule 0 then hs.foldl (fun v h => v + (ohScale h : Int)) 0 else (ohScale f : Int)
      let pt := if bitAt d.scaleRule 1 then keep + d.ptScale else keep
      let c1 := psLimbs q lv
      let c0 := psLimbs q (lv - d.drop)
      if bitAt d.scaleRule 2 then ((q.primes.drop c0).take (c1 - c0)).foldl (fun v e => v - (e.2.2 : Int)) pt else pt

/-- BUDGET and flags of a DEST, or none where check 7 of R56 fails (R61). `refresh` is REFRESH_BUDGET for DEC = 0xFFFF. A share output has
the BUDGET of R62 and so never fails check 7; rules 2 and 3, which speak of any source, still hold of its flags (DEDUCED, log 32). -/
def destBudget (refresh : Nat) (d : ObjDecl) (hs : List (List Byte)) : Option (Nat × Bool × Bool) :=
  match hs with
  | [] => none
  | f :: _ =>
    let strict := hs.any ohStrict
    if ohScheme f = 6 then some (0xFFFF, hs.any ohExhausted, strict)
    else
      let least := (hs.map ohBudget).foldl Nat.min (ohBudget f)
      let beta : Int := if d.dec = 0xFFFF then refresh else (least : Int) - d.dec
      let out := hs.any ohExhausted
      if !out && decide (0 < beta) then some (Nat.min beta.toNat 65534, false, strict)
      else if strict then none
      else some (0, true, strict)

/-- POLYS of a DEST (R58). -/
def destPolys (d : ObjDecl) (first : List Byte) : Nat := if d.polys = 0 then ohPolys first else d.polys

/-- What a destination header carries apart from its slot's DATA and LENGTH and its GEN (R58). -/
structure OutSpec where
  slot   : Nat
  scheme : Nat
  layout : Nat
  width  : Nat
  pset   : Nat
  polys  : Nat
  keyid  : Nat
  level  : Nat
  limbs  : Nat
  scale  : Int
  party  : Nat
  budget : Option (Nat × Bool × Bool)

/-- The output that a TASK's declaration derives under its target set `p`, its sources standing under the set `q` (R58, R61). Only a
share carries PARTY and PARTIES (R40, R62). DEC = 0xFFFF takes the REFRESH_BUDGET of the target set, also with TARGET = 1 (DESIGN CHOICE,
log 58). -/
def taskOut (p q : Pset) (args : Tbl Word64) (d : ObjDecl) (hs : List (List Byte)) : OutSpec :=
  let f := hs.headD []
  let lv := minLevel hs - d.drop
  { slot := d.slot, scheme := ohScheme f, layout := ohLayout f, width := ohWidth f, pset := destPset args d f,
    polys := destPolys d f, keyid := destKeyid args d f, level := lv, limbs := psLimbs p lv, scale := destScale q d hs,
    party := if ohScheme f = 6 then ohParty f else 0, budget := destBudget p.refresh d hs }

/-- The final header of an output with VALID set, its GEN and its CRC to be put in (R43, R58, R61). -/
def outHeader (args : Tbl Word64) (o : OutSpec) : List Byte :=
  let (b, ex, strict) := o.budget.getD (0, true, false)
  leBytes 4 magicCt ++ leBytes 1 1 ++ leBytes 1 o.scheme ++ leBytes 2 (1 + 2 * b2n ex + 4 * b2n strict) ++ leBytes 4 o.pset ++
    leBytes 1 o.layout ++ leBytes 1 o.width ++ leBytes 2 o.polys ++ leBytes 8 o.keyid ++ leBytes 2 o.level ++ leBytes 2 o.limbs ++
    leBytes 2 b ++ leBytes 2 0 ++ leBytes 4 o.scale.toNat ++ leBytes 2 o.party ++ leBytes 2 0 ++
    leBytes 8 (args.get (64 + o.slot) 0).toNat ++ leBytes 8 (args.get (96 + o.slot) 0).toNat ++ List.replicate 196 0

/-- A header of an output with a generation put in. -/
def withGen (h : List Byte) (gen : Nat) : List Byte := sealHeader (splice h 0x38 (leBytes 8 (gen % 2 ^ 64)))

/-- The not-VALID header of R43: GEN = g, VALID clear, a correct CRC; its other fields are free bytes (log 7). -/
def notValid (free : List Byte) (gen : Nat) : List Byte :=
  let h := leBytes 4 magicCt ++ leBytes 1 1 ++ free.drop 5
  withGen (splice h 6 (leBytes 2 (le h 6 2 / 2 * 2))) gen

/-- The first status of a list that is not 0. -/
def firstBad (l : List Nat) : Nat := (l.find? (fun x => x != 0)).getD 0

/-- A status unless the condition holds. -/
def unlessOk (b : Bool) (st : Nat) : Nat := if b then 0 else st

/-- The declarations of a role. -/
def declsOf (decls : List ObjDecl) (role : Nat) : List ObjDecl := decls.filter (fun d => d.role == role)

/-- Check 1 of R56 over all declarations, with R55 for target words (R34, R62). -/
def check1 (decls : List ObjDecl) (args : Tbl Word64) (hs : List (Nat × List Byte)) : Nat :=
  firstBad (decls.map (fun d =>
    match d.role with
    | 1 | 4 => unlessOk (check1Ct (headerAt hs d.slot)) stHeaderInvalid
    | 2 => unlessOk (check1Ky (headerAt hs d.slot)) stHeaderInvalid
    | _ => unlessOk (d.target == 0 || destKeyid args d [] != 0) stHeaderInvalid))

/-- The set of an object is loaded and serves it (check 2 of R56, R432). -/
def served (x : Session) (h : List Byte) : Bool :=
  match psetOf x (ohPset h) with
  | some p => psServes p (ohScheme h) && ohWidth h == psWidth p
  | none => false

/-- R427 for a DEST with a target set. `level` is the LEVEL that R58 derives. -/
def targetOk (x : Session) (args : Tbl Word64) (d : ObjDecl) (hs : List (List Byte)) : Bool :=
  match hs with
  | [] => false
  | f :: _ =>
    match psetOf x (destPset args d f), psetOf x (ohPset f) with
    | some p, some q =>
      psServes p (ohScheme f) && ohWidth f == psWidth p &&
        (decide (3 < ohScheme f) || (p.logN == q.logN && decide (minLevel hs - d.drop ≤ psMaxLevel p)))
    | _, _ => false

/-- Check 2 of R56. `bridge` names the key kinds whose sets a macro compares by R220 instead. -/
def check2 (x : Session) (bridge : List Nat) (decls : List ObjDecl) (args : Tbl Word64) (hs : List (Nat × List Byte)) : Nat :=
  firstBad (decls.map (fun d =>
    let h := headerAt hs d.slot
    let src := srcHeaders decls hs d.srcmask
    unlessOk (match d.role with
      | 1 => served x h
      | 4 => served x h && ohScheme h == 6 && ohPolys h == 3
      | 2 => (psetOf x (ohPset h)).isSome && (bridge.contains (khKind h) || src.all (fun s => ohPset s == ohPset h))
      | _ => allSame (src.map ohPset) && (d.target == 0 || targetOk x args d src)) stParamMismatch))

/-- Check 3 of R56. -/
def check3 (x : Session) (decls : List ObjDecl) (hs : List (Nat × List Byte)) : Nat :=
  firstBad (decls.map (fun d =>
    let h := headerAt hs d.slot
    match psetOf x (ohPset h), d.role with
    | _, 3 => 0
    | some p, 2 => unlessOk (check3Ky p h) stHeaderInvalid
    | some p, _ => unlessOk (check3Ct p h) stHeaderInvalid
    | none, _ => stHeaderInvalid))

/-- Checks 4 to 6 of R56 over the outputs, and check 6 over the sources (R29, R121). Shares of two share sets that one DEST combines fail
check 4, with a declared new share-set id too: R62 gives no exception to it (DEDUCED, log 32). -/
def check456 (decls : List ObjDecl) (hs : List (Nat × List Byte)) : Nat :=
  let dests := (declsOf decls 3).map (fun d => (d, srcHeaders decls hs d.srcmask))
  firstBad (dests.map (fun p => unlessOk (allSame (p.2.map ohKeyid) &&
      (decide ((p.2.headD []).length = 0) || ohScheme (p.2.headD []) != 6 || allSame (p.2.map ohParty))) stKeyMismatch) ++
    dests.map (fun p => unlessOk (bitAt p.1.scaleRule 0 || ohScheme (p.2.headD []) != 1 || allSame (p.2.map ohScale))
      stParamMismatch) ++
    (declsOf decls 1).map (fun d => unlessOk (decide (d.drop ≤ ohLevel (headerAt hs d.slot))) stLevelExhausted) ++
    dests.map (fun p => unlessOk (decide (p.1.drop ≤ minLevel p.2)) stLevelExhausted))

/-- Check 7 of R56 over the outputs (R61). -/
def check7 (outs : List OutSpec) : Nat := firstBad (outs.map (fun o => unlessOk o.budget.isSome stNoiseBudget))

/-- R58's bound on SCALE and R59's check of LENGTH and DATA over the outputs. -/
def check59 (x : Session) (args : Tbl Word64) (outs : List OutSpec) : Nat :=
  firstBad (outs.map (fun o =>
    match psetOf x o.pset with
    | none => stParamMismatch
    | some p =>
      if decide (o.scale < (0 : Int)) || decide ((4294967296 : Int) ≤ o.scale) then stParamMismatch
      else unlessOk (lengthOk p o.layout o.width o.polys o.limbs (args.get (96 + o.slot) 0).toNat &&
        (args.get (64 + o.slot) 0).toNat % 4096 == 0) stHeaderInvalid))

/-- The outputs of a TASK (R58, R120, R427). -/
def taskOuts (x : Session) (decls : List ObjDecl) (args : Tbl Word64) (hs : List (Nat × List Byte)) : List OutSpec :=
  (declsOf decls 3).filterMap (fun d =>
    let src := srcHeaders decls hs d.srcmask
    match psetOf x (destPset args d (src.headD [])), psetOf x (ohPset (src.headD [])) with
    | some p, some q => some (taskOut p q args d src)
    | _, _ => none)

/-- The data range of a declared object: from the header for sources, keys and triples, from the arguments for outputs. -/
def dataRange (args : Tbl Word64) (hs : List (Nat × List Byte)) (d : ObjDecl) : Nat × Nat :=
  match d.role with
  | 2 => (khData (headerAt hs d.slot), khLength (headerAt hs d.slot))
  | 3 => ((args.get (64 + d.slot) 0).toNat, (args.get (96 + d.slot) 0).toNat)
  | _ => (ohData (headerAt hs d.slot), ohLength (headerAt hs d.slot))

/-- The header unit of a declared object. -/
def headerRange (args : Tbl Word64) (d : ObjDecl) : Nat × Nat := ((args.get d.slot 0).toNat, 256)

/-- Two ranges share a byte. -/
def meets (a b : Nat × Nat) : Bool := overlaps a.1 a.2 b.1 b.2

/-- R30's comparison of the declared objects. -/
def objectsMeet (decls : List ObjDecl) (args : Tbl Word64) (hs : List (Nat × List Byte)) : Bool :=
  (declsOf decls 3).any (fun d => (decls.filter (fun o => o.role != 3)).any (fun o =>
    meets (dataRange args hs d) (dataRange args hs o) || meets (headerRange args d) (headerRange args o) ||
      meets (headerRange args d) (dataRange args hs o)))

end Sys2Proof.Machine
end

