-- ==== Sys2Proof/Machine/Rsa.lean ====
section
/-! DEFINITION. RSASSA-PSS signatures as published (R320, R371, R381, R385; PRESUMED, log 12). -/

namespace Sys2Proof.Machine

/-- The hash whose output has `n` bytes. -/
def hashBy (n : Nat) (m : List Byte) : List Byte :=
  if n = 32 then sha256 m else if n = 48 then sha384 m else sha512 m

/-- MGF1 to `n` bytes with the hash of `h` bytes. -/
def mgf1 (h : Nat) (seed : List Byte) (n : Nat) : List Byte :=
  (((List.range (cdiv n h)).map (fun i => hashBy h (seed ++ beBytes 4 i))).flatten).take n

/-- Exclusive or of two byte strings. -/
def xorBytes (a b : List Byte) : List Byte := (a.zip b).map (fun p => p.1 ^^^ p.2)

/-- The hash H of the encoded message. -/
def pssHash (h : Nat) (mHash salt : List Byte) : List Byte := hashBy h (List.replicate 8 0 ++ mHash ++ salt)

/-- The encoded message of `len` bytes for a modulus of 8 × len bits. -/
def pssEncode (len : Nat) (mHash salt : List Byte) : List Byte :=
  let h := mHash.length
  let hh := pssHash h mHash salt
  let db := List.replicate (len - salt.length - h - 2) 0 ++ [1] ++ salt
  let masked := beNat (xorBytes db (mgf1 h hh (len - h - 1))) % 2 ^ (8 * (len - h - 1) - 1)
  beBytes (len - h - 1) masked ++ hh ++ [0xBC]

/-- Verify an encoded message with a salt of `sl` bytes. -/
def pssDecodeOk (len sl : Nat) (mHash em : List Byte) : Bool :=
  let h := mHash.length
  let n := len - h - 1
  let masked := em.take n
  let hh := sub em n h
  let db := beBytes n (beNat (xorBytes masked (mgf1 h hh n)) % 2 ^ (8 * n - 1))
  let ps := n - sl - 1
  sub em (n + h) 1 == [0xBC] && decide (beNat (masked.take 1) < 128) && zeros (db.take ps) && sub db ps 1 == [1] &&
    hh == pssHash h mHash (db.drop (ps + 1))

/-- A signature of `len` bytes verifies over a message hash. -/
def pssVerify (len sl modulus exponent : Nat) (mHash sig : List Byte) : Bool :=
  let v := beNat sig
  decide (v < modulus) && pssDecodeOk len sl mHash (beBytes len (powModN modulus v exponent))

/-- A signature of `len` bytes over a message hash, with a secret exponent and a salt. -/
def pssSign (len modulus secret : Nat) (mHash salt : List Byte) : List Byte :=
  beBytes len (powModN modulus (beNat (pssEncode len mHash salt)) secret)

/-- An RSA-3072 signature with SHA-256 and a salt of 32 B verifies under a public key (R320, R371). -/
def rsaOk (k : RsaPub) (msg sig : List Byte) : Bool :=
  k.modulus.testBit 3071 && decide (k.modulus < 2 ^ 3072) && pssVerify 384 32 k.modulus k.exponent (sha256 msg) sig

end Sys2Proof.Machine
end

