-- ==== Sys2Proof/Machine/Ec.lean ====
section
/-! DEFINITION. The elliptic-curve operations of the PKE as published: ECDSA, ECDH, X25519, Ed25519 (R385; PRESUMED, log 12). -/

namespace Sys2Proof.Machine

/-- The inverse modulo a prime. -/
def invMod (p a : Nat) : Nat := powModN p (a % p) (p - 2)

/-- a − b modulo p. -/
def subMod (p a b : Nat) : Nat := (a % p + p - b % p) % p

/-- A short Weierstrass curve y² = x³ − 3x + b over a prime field, with its base point, its order, and the bytes of a coordinate. -/
structure Curve where
  p : Nat
  b : Nat
  gx : Nat
  gy : Nat
  n : Nat
  len : Nat

/-- P-256. -/
def p256 : Curve :=
  { p := 0xFFFFFFFF00000001000000000000000000000000FFFFFFFFFFFFFFFFFFFFFFFF,
    b := 0x5AC635D8AA3A93E7B3EBBD55769886BC651D06B0CC53B0F63BCE3C3E27D2604B,
    gx := 0x6B17D1F2E12C4247F8BCE6E563A440F277037D812DEB33A0F4A13945D898C296,
    gy := 0x4FE342E2FE1A7F9B8EE7EB4A7C0F9E162BCE33576B315ECECBB6406837BF51F5,
    n := 0xFFFFFFFF00000000FFFFFFFFFFFFFFFFBCE6FAADA7179E84F3B9CAC2FC632551, len := 32 }

/-- P-384. -/
def p384 : Curve :=
  { p := 0xFFFFFFFFFFFFFFFFFFFFFFFFFFFFFFFFFFFFFFFFFFFFFFFFFFFFFFFFFFFFFFFEFFFFFFFF0000000000000000FFFFFFFF,
    b := 0xB3312FA7E23EE7E4988E056BE3F82D19181D9C6EFE8141120314088F5013875AC656398D8A2ED19D2A85C8EDD3EC2AEF,
    gx := 0xAA87CA22BE8B05378EB1C71EF320AD746E1D3B628BA79B9859F741E082542A385502F25DBF55296C3A545E3872760AB7,
    gy := 0x3617DE4A96262C6F5D9E98BF9292DC29F8F41DBD289A147CE9DA3113B5F0B8C00A60B1CE1D7E819D7A431D7C90EA0E5F,
    n := 0xFFFFFFFFFFFFFFFFFFFFFFFFFFFFFFFFFFFFFFFFFFFFFFFFC7634D81F4372DDF581A0DB248B0A77AECEC196ACCC52973, len := 48 }

/-- An affine point, none for the identity. -/
abbrev Pt := Option (Nat × Nat)

/-- The point lies on the curve. -/
def onCurve (c : Curve) (x y : Nat) : Bool :=
  decide (x < c.p) && decide (y < c.p) && y * y % c.p == subMod c.p (x * x * x + c.b) (3 * x)

/-- Point addition. -/
def ecAdd (c : Curve) (a b : Pt) : Pt :=
  match a, b with
  | none, q => q
  | q, none => q
  | some (x1, y1), some (x2, y2) =>
    if x1 = x2 ∧ (y1 + y2) % c.p = 0 then none
    else
      let l := if x1 = x2 then subMod c.p (3 * x1 * x1) 3 * invMod c.p (2 * y1) % c.p
        else subMod c.p y2 y1 * invMod c.p (subMod c.p x2 x1) % c.p
      let x3 := subMod c.p (l * l) (x1 + x2)
      some (x3, subMod c.p (l * subMod c.p x1 x3) y1)

/-- Double and add over `k` bits, the lowest first. -/
def ecMulBits (c : Curve) : Nat → Nat → Pt → Pt → Pt
  | 0, _, _, acc => acc
  | k + 1, e, q, acc => ecMulBits c k (e / 2) (ecAdd c q q) (if e % 2 = 1 then ecAdd c acc q else acc)

/-- Scalar multiplication. -/
def ecMul (c : Curve) (e : Nat) (q : Pt) : Pt := ecMulBits c (8 * c.len) e q none

/-- The base point. -/
def ecBase (c : Curve) : Pt := some (c.gx, c.gy)

/-- A point as two big-endian coordinates. -/
def ptBytes (c : Curve) (q : Pt) : List Byte :=
  match q with
  | none => List.replicate (2 * c.len) 0
  | some (x, y) => beBytes c.len x ++ beBytes c.len y

/-- The coordinates of a public value. -/
def ptOf (c : Curve) (b : List Byte) : Nat × Nat := (beNat (b.take c.len), beNat (sub b c.len c.len))

/-- HMAC with the hash of `h` bytes. -/
def hmac (h : Nat) (key m : List Byte) : List Byte :=
  let block := if h = 32 then 64 else 128
  let k := key ++ List.replicate (block - key.length) 0
  hashBy h (k.map (fun b => b ^^^ 0x5C) ++ hashBy h (k.map (fun b => b ^^^ 0x36) ++ m))

/-- The retry loop of RFC 6979 over (K, V), at most `fuel` candidates. -/
def nonceLoop (c : Curve) : Nat → List Byte → List Byte → Nat
  | 0, _, _ => 1
  | f + 1, k, v =>
    let v := hmac c.len k v
    let t := beNat v
    if 1 ≤ t ∧ t < c.n then t
    else
      let k := hmac c.len k (v ++ [0])
      nonceLoop c f k (hmac c.len k v)

/-- The deterministic nonce of RFC 6979 for a digest as long as the order. -/
def detNonce (c : Curve) (d : Nat) (digest : List Byte) : Nat :=
  let seed := beBytes c.len d ++ beBytes c.len (beNat digest % c.n)
  let v0 := List.replicate c.len 1
  let k1 := hmac c.len (List.replicate c.len 0) (v0 ++ [0] ++ seed)
  let v1 := hmac c.len k1 v0
  let k2 := hmac c.len k1 (v1 ++ [1] ++ seed)
  nonceLoop c 64 k2 (hmac c.len k2 v1)

/-- The x coordinate of a point, 0 for the identity. -/
def ptX (q : Pt) : Nat :=
  match q with
  | none => 0
  | some p => p.1

/-- An ECDSA signature r, s. -/
def ecdsaSign (c : Curve) (d : Nat) (digest : List Byte) : List Byte :=
  let k := detNonce c d digest
  let r := ptX (ecMul c k (ecBase c)) % c.n
  beBytes c.len r ++ beBytes c.len (invMod c.n k * (beNat digest + r * d) % c.n)

/-- An ECDSA signature verifies. -/
def ecdsaOk (c : Curve) (q : Pt) (digest : List Byte) (r s : Nat) : Bool :=
  let w := invMod c.n s
  let z := beNat digest
  let t := ecAdd c (ecMul c (z * w % c.n) (ecBase c)) (ecMul c (r * w % c.n) q)
  t.isSome && ptX t % c.n == r

/-- 2^255 − 19. -/
def q25519 : Nat := 2 ^ 255 - 19

/-- One step of the Montgomery ladder of X25519 on (x2, z2, x3, z3). -/
def ladderStep (x1 : Nat) (swap : Bool) (v : Nat × Nat × Nat × Nat) : Nat × Nat × Nat × Nat :=
  let p := q25519
  let (x2, z2, x3, z3) := if swap then (v.2.2.1, v.2.2.2, v.1, v.2.1) else v
  let a := (x2 + z2) % p
  let b := subMod p x2 z2
  let aa := a * a % p
  let bb := b * b % p
  let e := subMod p aa bb
  let da := subMod p x3 z3 * a % p
  let cb := (x3 + z3) * b % p
  let u := (da + cb) * (da + cb) % p
  let w := subMod p da cb
  let r := (aa * bb % p, e * (aa + 121665 * e) % p, u, x1 * (w * w % p) % p)
  if swap then (r.2.2.1, r.2.2.2, r.1, r.2.1) else r

/-- The X25519 function on a scalar string and a u coordinate string. -/
def x25519 (k u : List Byte) : List Byte :=
  let s := leNat k
  let e := s % 2 ^ 255 / 8 * 8 % 2 ^ 254 + 2 ^ 254
  let x1 := leNat u % 2 ^ 255 % q25519
  let r := (List.range 255).foldr (fun i v => ladderStep x1 (e.testBit i) v) (1, 0, x1, 1)
  leBytes 32 (r.1 * invMod q25519 r.2.1 % q25519)

/-- The base u coordinate. -/
def x25519Base : List Byte := leBytes 32 9

/-- d of edwards25519. -/
def edD : Nat := subMod q25519 0 (121665 * invMod q25519 121666)

/-- The order of the base point. -/
def edL : Nat := 2 ^ 252 + 27742317777372353535851937790883648493

/-- Addition on edwards25519. -/
def edAdd (a b : Nat × Nat) : Nat × Nat :=
  let p := q25519
  let t := edD * (a.1 * b.1 % p * (a.2 * b.2 % p) % p) % p
  ((a.1 * b.2 + b.1 * a.2) * invMod p (1 + t) % p, (a.2 * b.2 + a.1 * b.1) * invMod p (subMod p 1 t) % p)

/-- Double and add on edwards25519. -/
def edMulBits : Nat → Nat → Nat × Nat → Nat × Nat → Nat × Nat
  | 0, _, _, acc => acc
  | k + 1, e, q, acc => edMulBits k (e / 2) (edAdd q q) (if e % 2 = 1 then edAdd acc q else acc)

/-- Scalar multiplication on edwards25519. -/
def edMul (e : Nat) (q : Nat × Nat) : Nat × Nat := edMulBits 256 e q (0, 1)

/-- The x coordinate of a y coordinate and a sign (RFC 8032), if the encoding decodes. -/
def edX (y sign : Nat) : Option Nat :=
  let p := q25519
  let u := subMod p (y * y) 1
  let v := (edD * (y * y % p) + 1) % p
  let x2 := u * invMod p v % p
  let r := powModN p x2 ((p + 3) / 8)
  let x := if r * r % p = x2 then r else r * powModN p 2 ((p - 1) / 4) % p
  if x * x % p ≠ x2 then none
  else if x = 0 ∧ sign = 1 then none
  else some (if x % 2 = sign then x else p - x)

/-- Decode a point. -/
def edDecode (b : List Byte) : Option (Nat × Nat) :=
  let n := leNat b
  let y := n % 2 ^ 255
  if y < q25519 then (edX y (n / 2 ^ 255)).map (fun x => (x, y)) else none

/-- Encode a point. -/
def edEncode (q : Nat × Nat) : List Byte := leBytes 32 (q.2 + q.1 % 2 * 2 ^ 255)

/-- The base point of edwards25519. -/
def edBase : Nat × Nat :=
  let y := 4 * invMod q25519 5 % q25519
  ((edX y 0).getD 0, y)

/-- The secret scalar and the prefix of a seed. -/
def edSecret (seed : List Byte) : Nat × List Byte :=
  let h := sha512 seed
  (leNat (h.take 32) % 2 ^ 254 / 8 * 8 + 2 ^ 254, h.drop 32)

/-- The public key of a seed. -/
def edPublic (seed : List Byte) : List Byte := edEncode (edMul (edSecret seed).1 edBase)

/-- An Ed25519 signature. -/
def edSign (seed m : List Byte) : List Byte :=
  let (a, pre) := edSecret seed
  let pub := edPublic seed
  let r := leNat (sha512 (pre ++ m)) % edL
  let rb := edEncode (edMul r edBase)
  let k := leNat (sha512 (rb ++ pub ++ m)) % edL
  rb ++ leBytes 32 ((r + k * a) % edL)

/-- An Ed25519 signature verifies, for decoded A and R: [8][S]B = [8]R + [8][k]A. -/
def edOk (pub : List Byte) (a r : Nat × Nat) (rb : List Byte) (s : Nat) (m : List Byte) : Bool :=
  let k := leNat (sha512 (rb ++ pub ++ m)) % edL
  edMul 8 (edMul s edBase) == edMul 8 (edAdd r (edMul k a))

end Sys2Proof.Machine
end

