-- ==== Sys2Proof/Machine/Kem.lean ====
section
/-! DEFINITION. ML-KEM as published, with the fixed matrix expansion of R387 (R385 to R387; PRESUMED, log 12). -/

namespace Sys2Proof.Machine

/-- The parameters of ML-KEM-768 and ML-KEM-1024: k, du, dv. -/
structure Kem where
  k  : Nat
  du : Nat
  dv : Nat

/-- ML-KEM-768. -/
def kem768 : Kem := { k := 3, du := 10, dv := 4 }
/-- ML-KEM-1024. -/
def kem1024 : Kem := { k := 4, du := 11, dv := 5 }

/-- q. -/
def kq : Nat := 3329

/-- The seven bits of a number reversed. -/
def brv7 (i : Nat) : Nat := (List.range 7).foldl (fun r b => r + i / 2 ^ b % 2 * 2 ^ (6 - b)) 0

/-- 17^e modulo q. -/
def zetaPow (e : Nat) : Nat := 17 ^ (e % 256) % kq

/-- The value of a polynomial, lowest coefficient first, at a point modulo q. -/
def evalAt (x : Nat) (l : List Nat) : Nat := l.foldr (fun a v => (a + v * x) % kq) 0

/-- The even and the odd coefficients. -/
def evens : List Nat → List Nat
  | [] => []
  | [a] => [a]
  | a :: _ :: r => a :: evens r

/-- The odd coefficients. -/
def odds (l : List Nat) : List Nat := evens l.tail

/-- The NTT of FIPS 203: each pair is the residue modulo X² − ζ^(2 brv(i) + 1). -/
def ntt (f : List Nat) : List Nat :=
  (List.range 128).flatMap (fun i => let x := zetaPow (2 * brv7 i + 1); [evalAt x (evens f), evalAt x (odds f)])

/-- The coefficients j of an inverse transform of 128 values. -/
def invHalf (v : List Nat) : List Nat :=
  let pts := (List.range 128).map (fun i => 256 - (2 * brv7 i + 1))
  (List.range 128).map (fun j => ((pts.zip v).foldl (fun s p => s + p.2 * zetaPow (p.1 * j)) 0) * 3303 % kq)

/-- Two lists taken in turn. -/
def interleave : List Nat → List Nat → List Nat
  | a :: r, b :: t => a :: b :: interleave r t
  | _, _ => []

/-- The inverse NTT. -/
def nttInv (f : List Nat) : List Nat := interleave (invHalf (evens f)) (invHalf (odds f))

/-- Sum of two polynomials. -/
def polyAdd (a b : List Nat) : List Nat := (a.zip b).map (fun p => (p.1 + p.2) % kq)

/-- Difference of two polynomials. -/
def polySub (a b : List Nat) : List Nat := (a.zip b).map (fun p => (p.1 + kq - p.2 % kq) % kq)

/-- The pairs of a transformed polynomial. -/
def pairsOf (f : List Nat) : List (Nat × Nat) := (evens f).zip (odds f)

/-- Product of two transformed polynomials. -/
def nttMul (a b : List Nat) : List Nat :=
  (((pairsOf a).zip (pairsOf b)).mapIdx (fun i p =>
    let g := zetaPow (2 * brv7 i + 1)
    [(p.1.1 * p.2.1 + p.1.2 * p.2.2 % kq * g) % kq, (p.1.1 * p.2.2 + p.1.2 * p.2.1) % kq])).flatten

/-- The zero polynomial. -/
def poly0 : List Nat := List.replicate 256 0

/-- Inner product of two vectors of transformed polynomials. -/
def nttDot (a b : List (List Nat)) : List Nat := (a.zip b).foldl (fun s p => polyAdd s (nttMul p.1 p.2)) poly0

/-- The twelve-bit candidates of a byte string. -/
def candidates : List Byte → List Nat
  | a :: b :: c :: r => (a.toNat + 256 * (b.toNat % 16)) :: (b.toNat / 16 + 16 * c.toNat) :: candidates r
  | _ => []

/-- One matrix polynomial from exactly 4 blocks of SHAKE-128, none when fewer than 256 candidates are accepted (R387). -/
def sampleNtt (seed : List Byte) : Option (List Nat) :=
  let l := (candidates (shake128 672 seed)).filter (fun c => decide (c < kq))
  if l.length < 256 then none else some (l.take 256)

/-- The matrix, row by row. -/
def kemMatrix (k : Nat) (rho : List Byte) : Option (List (List (List Nat))) :=
  (List.range k).mapM (fun i => (List.range k).mapM (fun j => sampleNtt (rho ++ [BitVec.ofNat 8 j, BitVec.ofNat 8 i])))

/-- The transpose of a matrix of `k` columns. -/
def transpose (k : Nat) (m : List (List (List Nat))) : List (List (List Nat)) :=
  (List.range k).map (fun j => m.map (fun r => r.getD j []))

/-- A byte string as bits, lowest first. -/
def bitsOf (l : List Byte) : List Nat := l.flatMap (fun b => (List.range 8).map (fun i => b.toNat / 2 ^ i % 2))

/-- A polynomial of the centred binomial distribution with η = 2. -/
def cbd2 (l : List Byte) : List Nat :=
  (chunks 4 256 (l.flatMap (fun b => (List.range 8).map (fun i => BitVec.ofNat 8 (b.toNat / 2 ^ i % 2))))).map (fun c =>
    match c with
    | [a, b, x, y] => (a.toNat + b.toNat + kq - x.toNat - y.toNat) % kq
    | _ => 0)

/-- PRF with η = 2. -/
def kemNoise (s : List Byte) (n : Nat) : List Nat := cbd2 (shake256 128 (s ++ [BitVec.ofNat 8 n]))

/-- A bit list as bytes, lowest bit first. -/
def bytesOfBits (n : Nat) (l : List Nat) : List Byte :=
  leBytes n (l.foldr (fun b v => b + 2 * v) 0)

/-- ByteEncode of `d` bits. -/
def byteEncode (d : Nat) (f : List Nat) : List Byte :=
  bytesOfBits (32 * d) (f.flatMap (fun c => (List.range d).map (fun i => c / 2 ^ i % 2)))

/-- ByteDecode of `d` bits, without a reduction. -/
def byteDecode (d : Nat) (b : List Byte) : List Nat :=
  let n := leNat b
  (List.range 256).map (fun i => n / 2 ^ (d * i) % 2 ^ d)

/-- Compress. -/
def compress (d x : Nat) : Nat := (2 ^ (d + 1) * x + kq) / (2 * kq) % 2 ^ d

/-- Decompress. -/
def decompress (d y : Nat) : Nat := (2 * kq * y + 2 ^ d) / 2 ^ (d + 1)

/-- The pieces of 384 bytes of an encoded vector. -/
def decodeVec (k : Nat) (b : List Byte) : List (List Nat) := (List.range k).map (fun i => byteDecode 12 (sub b (384 * i) 384))

/-- Encapsulation key and decapsulation key from d and z, none when the expansion is short. -/
def kemKeys (p : Kem) (d z : List Byte) : Option (List Byte × List Byte) :=
  let g := sha3_512 (d ++ [BitVec.ofNat 8 p.k])
  let rho := g.take 32
  let sigma := g.drop 32
  match kemMatrix p.k rho with
  | none => none
  | some a =>
    let sv := (List.range p.k).map (fun i => ntt (kemNoise sigma i))
    let ev := (List.range p.k).map (fun i => ntt (kemNoise sigma (p.k + i)))
    let t := (a.zip ev).map (fun r => polyAdd (nttDot r.1 sv) r.2)
    let ek := (t.map (byteEncode 12)).flatten ++ rho
    some (ek, (sv.map (byteEncode 12)).flatten ++ ek ++ sha3_256 ek ++ z)

/-- K-PKE encryption, none when the expansion is short. -/
def kemEncrypt (p : Kem) (ek m r : List Byte) : Option (List Byte) :=
  let rho := ek.drop (384 * p.k)
  match kemMatrix p.k rho with
  | none => none
  | some a =>
    let t := (decodeVec p.k ek).map (fun f => f.map (· % kq))
    let y := (List.range p.k).map (fun i => ntt (kemNoise r i))
    let e1 := (List.range p.k).map (fun i => kemNoise r (p.k + i))
    let e2 := kemNoise r (2 * p.k)
    let u := ((transpose p.k a).zip e1).map (fun w => polyAdd (nttInv (nttDot w.1 y)) w.2)
    let mu := (byteDecode 1 m).map (decompress 1)
    let v := polyAdd (polyAdd (nttInv (nttDot t y)) e2) mu
    some ((u.map (fun f => byteEncode p.du (f.map (compress p.du)))).flatten ++ byteEncode p.dv (v.map (compress p.dv)))

/-- K-PKE decryption. -/
def kemDecrypt (p : Kem) (dk c : List Byte) : List Byte :=
  let u := (List.range p.k).map (fun i => (byteDecode p.du (sub c (32 * p.du * i) (32 * p.du))).map (decompress p.du))
  let v := (byteDecode p.dv (c.drop (32 * p.du * p.k))).map (decompress p.dv)
  let sv := (decodeVec p.k dk).map (fun f => f.map (· % kq))
  let w := polySub v (nttInv (nttDot sv (u.map ntt)))
  byteEncode 1 (w.map (compress 1))

/-- Ciphertext and shared key from a random m. -/
def kemEncaps (p : Kem) (ek m : List Byte) : Option (List Byte × List Byte) :=
  let g := sha3_512 (m ++ sha3_256 ek)
  (kemEncrypt p ek m (g.drop 32)).map (fun c => (c, g.take 32))

/-- The shared key, by implicit rejection for a malformed ciphertext. -/
def kemDecaps (p : Kem) (dk c : List Byte) : Option (List Byte) :=
  let n := 384 * p.k
  let ek := sub dk n (n + 32)
  let h := sub dk (2 * n + 32) 32
  let z := sub dk (2 * n + 64) 32
  let m := kemDecrypt p (dk.take n) c
  let g := sha3_512 (m ++ h)
  (kemEncrypt p ek m (g.drop 32)).map (fun c' => if c' = c then g.take 32 else shake256 32 (z ++ c))

/-- Every coefficient of an encapsulation key is below q (R386). -/
def kemKeyOk (p : Kem) (ek : List Byte) : Bool := (decodeVec p.k ek).all (fun f => f.all (fun c => decide (c < kq)))

/-- The hash field of a decapsulation key matches (R386). -/
def kemSecretOk (p : Kem) (dk : List Byte) : Bool :=
  let n := 384 * p.k
  sub dk (2 * n + 32) 32 == sha3_256 (sub dk n (n + 32))

end Sys2Proof.Machine
end

