-- ==== Sys2Proof/Machine/Measure.lean ====
section
/-! DEFINITION. What the device says of itself: the hash of a public key, the measurement blocks (R368), and the identity keys (R362). -/

namespace Sys2Proof.Machine

/-- Modulus and exponent of an RSA-3072 key, big-endian (R363, R372). -/
def keyBytes (k : RsaPub) : List Byte := beBytes 384 k.modulus ++ beBytes 4 k.exponent

/-- The SHA-256 of a public key (R360, R362, R364). -/
def keyHash (k : RsaPub) : List Byte := sha256 (keyBytes k)

/-- The key of 388 bytes that a blob or an image carries. -/
def parseKey (b : List Byte) : RsaPub := { modulus := beNat (b.take 384), exponent := beNat (sub b 384 4) }

/-- The digest of a bundle's 3,712 bytes; the default bundle has no image, and its digest is open (R330, R368; log 7). -/
def bundleDigest (b : Bundle) : List Byte := if b.raw.isEmpty then freeBytes (2 ^ 70) 32 else sha256 b.raw

/-- The 64 bytes of FLT_MAP (R354). -/
def mapBytes (s : State) : List Byte := (List.range 64).map (fun t => BitVec.ofNat 8 (physOf s t))

/-- The HASH of the last record, 32 zero bytes before record 0 (R378). -/
def auditHead (s : State) : List Byte := if s.mgt.head.isEmpty then List.replicate 32 0 else s.mgt.head

/-- The value of measurement block `i` (R368). -/
def measValue (s : State) (i : Nat) : List Byte :=
  match i with
  | 1 => Config.romDigest s.mgt.fuses.svnFloor s.mgt.fuses.revoked
  | 2 => s.mgt.fwDigest
  | 3 => leBytes 4 s.mgt.fwSvn ++ leBytes 4 s.mgt.fwVersion
  | 4 => leBytes 4 s.ts.bundle.version ++ bundleDigest s.ts.bundle
  | 5 =>
    let owner := match s.mgt.owner with
      | none => List.replicate 32 0
      | some k => keyHash k
    leBytes 1 s.mgt.lifecycle ++ leBytes 1 (b2n (diagOpen s)) ++ owner
  | 6 => leBytes 4 Config.contract ++ mapBytes s
  | 7 => leBytes 8 (s.mgt.auditNext + 2 ^ 64 - 1) ++ auditHead s
  | _ => []

/-- Measurement block `i` in the DMTF format: index, specification, size, type, size of the value, value (R368; PRESUMED, log 13). -/
def measBlock (s : State) (i : Nat) : List Byte :=
  let v := measValue s i
  let kind := if i = 1 ∨ i = 2 then i - 1 else 0x80 + i - 1
  leBytes 1 i ++ leBytes 1 1 ++ leBytes 2 (v.length + 3) ++ leBytes 1 kind ++ leBytes 2 v.length ++ v

/-- MDIGEST: the SHA-256 of blocks 1 to 6 in index order (R385). -/
def mdigest (s : State) : List Byte := sha256 (((List.range 6).map (fun i => measBlock s (i + 1))).flatten)

/-- The fuse words of an item that have been burned since manufacture (R362, R377). -/
def burnedWords (f : Fuses) (item : Nat) : Tbl Nat := f.words.filter (fun p => (Config.fuseItem p.1).1 == item)

/-- Sign with IDK-3072, with a salt from the DRBG (R362, R381, R385). -/
def signIdk (s : State) (m : List Byte) : List Byte × State :=
  let (salt, s) := drawBytes s 32
  let k := Config.idk3072 (burnedWords s.mgt.fuses 8)
  (pssSign 384 k.1 k.2.2 (sha256 m) salt, s)

end Sys2Proof.Machine
end

