-- ==== Sys2Proof/Machine/Operands.lean ====
section
/-! DEFINITION. The operand forms: the fields of core instructions (R129), of the command header (R75), of every engine command, of
chain records and of tensor descriptors. -/

namespace Sys2Proof.Machine

/-- The size of a scratchpad, 8 MB (R161). -/
def spadSize : Nat := 0x800000

/-- An address taken modulo 8 MB (R80, R110, R130). -/
def spadMod (a : Int) : Nat := imod a spadSize

/-- A 23-bit stride read as signed (R110). -/
def stride (x : Nat) : Int := sext 23 x

/-- Bits [5:0] taken as zero (R80). -/
def word64 (a : Nat) : Nat := a - a % 64

/-- OP of a core instruction (R129). -/
def iOp (w : Nat) : Nat := fld w 26 6

/-- Field [25:20]: D, A, N (R129). -/
def iD (w : Nat) : Nat := fld w 20 6

/-- Field [19:14]: A, B, SEM (R129). -/
def iA (w : Nat) : Nat := fld w 14 6

/-- Field [13:8]: B, POS (R129). -/
def iB (w : Nat) : Nat := fld w 8 6

/-- FN of format R. -/
def iFn (w : Nat) : Nat := fld w 0 8

/-- IMM14 or OFF14, signed. -/
def iImm (w : Nat) : Int := sext 14 w

/-- OFF20, signed. -/
def iOff20 (w : Nat) : Int := sext 20 w

/-- SH of format H. -/
def iSh (w : Nat) : Nat := fld w 18 2

/-- IMM16 of format H. -/
def iImm16 (w : Nat) : Nat := fld w 0 16

/-- LEN of format F, 64 for 0 (R130). -/
def iLen (w : Nat) : Nat := if fld w 2 6 = 0 then 64 else fld w 2 6

/-- QUEUE of format Q. -/
def iQueue (w : Nat) : Nat := fld w 17 3

/-- REL of format Q. -/
def iRel (w : Nat) : Bool := bitAt w 16

/-- COUNT of format S. -/
def iCount (w : Nat) : Nat := fld w 6 8

/-- A field of an engine command (R75). -/
def cf (c : Cmd) (lo n : Nat) : Nat := fld c.toNat lo n

/-- OPCODE of the header. -/
def hOp (c : Cmd) : Nat := cf c 248 8
/-- QUEUE of the header. -/
def hQueue (c : Cmd) : Nat := cf c 245 3
/-- TIMED of the header. -/
def hTimed (c : Cmd) : Bool := bitAt c.toNat 244
/-- AT of the header. -/
def hAt (c : Cmd) : Nat := cf c 204 40
/-- WAIT_SEM of the header. -/
def hWaitSem (c : Cmd) : Nat := cf c 198 6
/-- WAIT_N of the header. -/
def hWaitN (c : Cmd) : Nat := cf c 190 8
/-- SIG_SEM of the header. -/
def hSigSem (c : Cmd) : Nat := cf c 184 6
/-- SIG_N of the header. -/
def hSigN (c : Cmd) : Nat := cf c 176 8

/-- The command kinds that the queues execute (R76, R103, R167, R196). -/
inductive EKind where
  | nop
  | load
  | loadt
  | mul
  | setchain
  | setq
  | setperm
  | run
  | fill
  | copy
  | seRead
  | seWrite
  | seKey
  deriving DecidableEq, Repr

/-- What a word executes as on queue `q`: NOP when its header names another queue or its opcode is not listed. -/
def ekind (q : Nat) (c : Cmd) : EKind :=
  if hQueue c ≠ q then .nop
  else match q, hOp c with
    | 0, 0x10 => .load
    | 0, 0x11 => .loadt
    | 0, 0x12 => .mul
    | 1, 0x20 => .setchain
    | 1, 0x21 => .setq
    | 1, 0x22 => .setperm
    | 1, 0x24 => .run
    | 4, 0x30 => .fill
    | 4, 0x31 => .copy
    | 2, 0x40 | 3, 0x40 => .seRead
    | 2, 0x41 | 3, 0x41 => .seWrite
    | 2, 0x42 | 3, 0x42 => .seKey
    | _, _ => .nop

/-- A mode of paired lanes (R65). -/
def wide (mode : Nat) : Bool := mode % 2 == 1
/-- Lane width W in bytes (R65). -/
def laneW (mode : Nat) : Nat := if wide mode then 8 else 4
/-- Logical rows K (R65). -/
def arrayK (mode : Nat) : Nat := if wide mode then 64 else 128
/-- Logical columns N (R65). -/
def arrayN (mode : Nat) : Nat := if wide mode then 32 else 64
/-- 0 and values above the maximum are taken as the maximum (R80). -/
def clampMax (v m : Nat) : Nat := if v = 0 ∨ m < v then m else v

/-- MMA.LOAD and MMA.LOADT: MODE. -/
def lMode (c : Cmd) : Nat := cf c 158 2
/-- Target plane. -/
def lPlane (c : Cmd) : Nat := cf c 157 1
/-- The modulus comes from a vector: MSRC, outside the RING modes (R70). -/
def lVec (c : Cmd) : Bool := bitAt c.toNat 156 && decide (lMode c < 2)
/-- BADDR. -/
def lBaddr (c : Cmd) : Nat := word64 (cf c 133 23)
/-- BSTRIDE. -/
def lBstride (c : Cmd) : Nat := word64 (cf c 110 23)
/-- ROWS (R80). -/
def lRows (c : Cmd) : Nat := clampMax (cf c 102 8) (arrayK (lMode c))
/-- MQ. -/
def lMq (c : Cmd) : Nat := cf c 0 64
/-- The address of the modulus vector. -/
def lMqAddr (c : Cmd) : Nat := word64 (cf c 0 23)
/-- The length of the modulus vector in bytes (R70). -/
def lVecLen (c : Cmd) : Nat := 8 * arrayN (lMode c)
/-- LOADT: NEG. -/
def ltNeg (c : Cmd) : Bool := bitAt c.toNat 155
/-- LOADT: N, LOGN clamped to 10 to 17 (R80). -/
def ltN (c : Cmd) : Nat := 2 ^ Nat.min 17 (Nat.max 10 (cf c 151 4))
/-- LOADT: GADDR. -/
def ltGaddr (c : Cmd) : Nat := word64 (cf c 128 23)
/-- LOADT: J0, taken modulo N (R71). -/
def ltJ0 (c : Cmd) : Nat := cf c 111 17 % ltN c
/-- LOADT: M0, taken modulo N (R71). -/
def ltM0 (c : Cmd) : Nat := cf c 94 17 % ltN c

/-- MMA.MUL: PLANE. -/
def mPlane (c : Cmd) : Nat := cf c 159 1
/-- ACC. -/
def mAcc (c : Cmd) : Bool := bitAt c.toNat 158
/-- AFMT: signed bytes. -/
def mAfmt (c : Cmd) : Bool := bitAt c.toNat 157
/-- AADDR. -/
def mAaddr (c : Cmd) : Nat := word64 (cf c 134 23)
/-- ASTRIDE. -/
def mAstride (c : Cmd) : Nat := word64 (cf c 111 23)
/-- CADDR. -/
def mCaddr (c : Cmd) : Nat := word64 (cf c 88 23)
/-- CSTRIDE. -/
def mCstride (c : Cmd) : Nat := word64 (cf c 65 23)
/-- M. -/
def mM (c : Cmd) : Nat := if cf c 49 16 = 0 then 65536 else cf c 49 16
/-- KLEN in a mode. -/
def mKlen (c : Cmd) (mode : Nat) : Nat := clampMax (cf c 41 8) (arrayK mode)
/-- NCOL in a mode. -/
def mNcol (c : Cmd) (mode : Nat) : Nat := clampMax (cf c 34 7) (arrayN mode)
/-- Bytes of an A row. -/
def mArow (c : Cmd) (mode : Nat) : Nat := if mAfmt c then mKlen c mode else mKlen c mode * laneW mode
/-- Bytes of an output row. -/
def mCrow (c : Cmd) (mode : Nat) : Nat := mNcol c mode * laneW mode

/-- One stage of a chain (R106). -/
structure Stage where
  op   : Nat
  srcb : Nat
  srcc : Nat
  qsel : Nat
  sidx : Nat
  imm  : Nat
  imm2 : Nat
  deriving DecidableEq, Repr

/-- Stage `i` (0-based) of a chain record (R105, R106). -/
def chainStage (r i : Nat) : Stage :=
  let w := fld r (40 * i) 40
  { op := fld w 34 6, srcb := fld w 31 3, srcc := fld w 28 3, qsel := fld w 25 3, sidx := fld w 22 3, imm := fld w 16 6,
    imm2 := Nat.min 16 (Nat.max 1 (fld w 10 6)) }

/-- S, the number of stages. -/
def chS (r : Nat) : Nat := fld r 435 3 + 1
/-- The stages. -/
def chStages (r : Nat) : List Stage := (List.range (chS r)).map (chainStage r)
/-- RQSEL. -/
def chRqsel (r : Nat) : Nat := fld r 463 3
/-- RTAP as a 0-based stage. -/
def chRtap (r : Nat) : Nat := Nat.min (fld r 460 3) (chS r - 1)
/-- ROP, reserved codes taken as SUM (R99). -/
def chRop (r : Nat) : Nat := if 5 ≤ fld r 457 3 then 0 else fld r 457 3
/-- RMODE, 3 taken as 0 (R100). -/
def chRmode (r : Nat) : Nat := if fld r 455 2 = 3 then 0 else fld r 455 2
/-- WALK_SIDX. -/
def chWalkSidx (r : Nat) : Nat := fld r 452 3
/-- R of the walk: 2 to WALK_LOGR, values below 4 taken as 4. -/
def chWalkR (r : Nat) : Nat := 2 ^ Nat.max 4 (fld r 448 4)
/-- WALK. -/
def chWalk (r : Nat) : Bool := bitAt r 447
/-- WIDE. -/
def chWide (r : Nat) : Bool := bitAt r 438
/-- Elements per row L (R87). -/
def chL (r : Nat) : Nat := if chWide r then 32 else 64
/-- Lane value width w in bits (R87). -/
def chW (r : Nat) : Nat := if chWide r then 64 else 32
/-- LANES; 0 or above L means L. -/
def chLanes (r : Nat) : Nat := clampMax (fld r 441 6) (chL r)
/-- Bytes of an output element (R97). -/
def chOsize (r : Nat) : Nat :=
  match fld r 439 2 with
  | 0 => 0
  | 1 => 1
  | 2 => 4
  | _ => chW r / 8
/-- OSTRIDE in bytes, modulo 8 MB. -/
def chOstride (r : Nat) : Nat := 64 * fld r 418 17
/-- ISTRIDE of stream `v` in bytes. -/
def chIstride (r v : Nat) : Nat := 4 * fld r (397 - 21 * v) 21
/-- Input stream `v` is read: V0, or one that a stage selects (R91). -/
def chReads (r v : Nat) : Bool := v == 0 || (chStages r).any (fun g => g.srcb == v || g.srcc == v)
/-- The streams that are read. -/
def chStreams (r : Nat) : List Nat := (List.range 4).filter (chReads r)

/-- VE.SETCHAIN: SLOT. -/
def vcSlot (c : Cmd) : Nat := cf c 156 4
/-- VE.SETCHAIN: CADDR. -/
def vcAddr (c : Cmd) : Nat := 64 * cf c 139 17
/-- VE.SETQ: QREG. -/
def vqReg (c : Cmd) : Nat := cf c 157 3
/-- VE.SETQ: VEC. -/
def vqVec (c : Cmd) : Bool := bitAt c.toNat 156
/-- VE.SETQ: VADDR. -/
def vqAddr (c : Cmd) : Nat := 64 * cf c 139 17
/-- VE.SETPERM: TABLE. -/
def vpTable (c : Cmd) : Nat := cf c 158 2
/-- VE.SETPERM: PADDR. -/
def vpAddr (c : Cmd) : Nat := 64 * cf c 141 17
/-- VE.RUN: CHAIN. -/
def vrChain (c : Cmd) : Nat := cf c 156 4
/-- VE.RUN: SBASE. -/
def vrSbase (c : Cmd) : Nat := cf c 150 6
/-- VE.RUN: M. -/
def vrM (c : Cmd) : Nat := if cf c 134 16 = 0 then 65536 else cf c 134 16
/-- VE.RUN: OADDR. -/
def vrOaddr (c : Cmd) : Nat := 64 * cf c 117 17
/-- VE.RUN: IADDRv. -/
def vrIaddr (c : Cmd) (v : Nat) : Nat := 4 * cf c (96 - 21 * v) 21
/-- VE.RUN: RADDR; in wide width bit 2 is taken as zero (R110). -/
def vrRaddr (c : Cmd) (r : Nat) : Nat := let a := 4 * cf c 12 21; if chWide r then a - a % 8 else a
/-- The command is rotated: bits [5:2] of a read base or read stride are nonzero (R98). -/
def vrRotated (c : Cmd) (r : Nat) : Bool :=
  (chStreams r).any (fun v => vrIaddr c v % 64 != 0 || chIstride r v % 64 != 0)
/-- d (R98). -/
def vrD (c : Cmd) (r : Nat) : Nat := if vrRotated c r then 7 else 6

/-- Q_SP: DADDR. -/
def spDaddr (c : Cmd) : Nat := word64 (cf c 137 23)
/-- SP.FILL: words per row. -/
def sfRowlen (c : Cmd) : Nat := if cf c 120 17 = 0 then 131072 else cf c 120 17
/-- SP.FILL: rows. -/
def sfRows (c : Cmd) : Nat := if cf c 104 16 = 0 then 65536 else cf c 104 16
/-- SP.FILL: DSTRIDE. -/
def sfDstride (c : Cmd) : Nat := word64 (cf c 81 23)
/-- SP.FILL: bytes of the pattern element. -/
def sfEsize (c : Cmd) : Nat := 2 ^ cf c 79 2
/-- SP.FILL: VALUE. -/
def sfValue (c : Cmd) : Nat := cf c 0 64
/-- SP.COPY: SADDR. -/
def scSaddr (c : Cmd) : Nat := word64 (cf c 114 23)
/-- SP.COPY: words per row. -/
def scRowlen (c : Cmd) : Nat := if cf c 97 17 = 0 then 131072 else cf c 97 17
/-- SP.COPY: rows. -/
def scRows (c : Cmd) : Nat := if cf c 81 16 = 0 then 65536 else cf c 81 16
/-- SP.COPY: DSTRIDE. -/
def scDstride (c : Cmd) : Nat := word64 (cf c 58 23)
/-- SP.COPY: SSTRIDE. -/
def scSstride (c : Cmd) : Nat := word64 (cf c 35 23)

/-- Stream commands: DESC. -/
def seDesc (c : Cmd) : Nat := cf c 150 10
/-- SE.READ and SE.WRITE: walk position `p` of PERM. -/
def sePerm (c : Cmd) (p : Nat) : Nat := cf c (132 + 3 * p) 3
/-- SE.READ and SE.WRITE: SADDR. -/
def seSaddr (c : Cmd) : Nat := cf c 109 23
/-- SE.READ and SE.WRITE: SSTRIDE. -/
def seSstride (c : Cmd) : Nat := cf c 86 23
/-- SE.KEY: SADDR. -/
def skSaddr (c : Cmd) : Nat := cf c 127 23
/-- SE.KEY: SSTRIDE. -/
def skSstride (c : Cmd) : Nat := cf c 104 23
/-- SE.KEY: XADDR. -/
def skXaddr (c : Cmd) : Nat := cf c 81 23
/-- SE.KEY: KSLOT. -/
def skSlot (c : Cmd) : Nat := cf c 76 5
/-- SE.KEY: D. -/
def skD (c : Cmd) : Nat := cf c 70 6
/-- SE.KEY: LIDX. -/
def skLidx (c : Cmd) : Nat := cf c 50 20
/-- SE.KEY: J0. -/
def skJ0 (c : Cmd) : Nat := cf c 31 19
/-- SE.KEY: JCOUNT. -/
def skJcount (c : Cmd) : Nat := cf c 11 20

/-- Tensor descriptor: REGION (R189). -/
def tdRegion (d : Desc) : Nat := dfld d 0 2
/-- ESIZE. -/
def tdEsizeCode (d : Desc) : Nat := dfld d 2 1
/-- Element size e in bytes. -/
def tdE (d : Desc) : Nat := 2 ^ (tdEsizeCode d % 4)
/-- DIMS. -/
def tdDims (d : Desc) : Nat := dfld d 3 1
/-- FLAGS.WR. -/
def tdWr (d : Desc) : Bool := bitAt (dfld d 4 1) 0
/-- FLAGS.HOST. -/
def tdHost (d : Desc) : Bool := bitAt (dfld d 4 1) 1
/-- HINT. -/
def tdHint (d : Desc) : Nat := dfld d 5 1
/-- BDIMS. -/
def tdBdims (d : Desc) : Nat := dfld d 6 1
/-- BASE, bits [47:0]. -/
def tdBase (d : Desc) : Nat := dfld d 8 6
/-- SIZE of dimension `i`. -/
def tdSize (d : Desc) (i : Nat) : Nat := dfld d (0x10 + 4 * i) 4
/-- STRIDE of dimension `i`, signed. -/
def tdStride (d : Desc) (i : Nat) : Int := sext 64 (dfld d (0x28 + 8 * i) 8)
/-- BLIST. -/
def tdBlist (d : Desc) : Nat := dfld d 0x58 4 % 2 ^ 23
/-- BCOUNT. -/
def tdBcount (d : Desc) : Nat := dfld d 0x5C 2
/-- PASID. -/
def tdPasid (d : Desc) : Nat := dfld d 0x60 4 % 2 ^ 20
/-- The dimensions of the walk: BDIMS with a block list, otherwise DIMS (R198). -/
def tdWalk (d : Desc) : Nat := if tdBdims d = 0 then tdDims d else tdBdims d
/-- Low byte of the extent (R190). -/
def tdLow (d : Desc) : Int :=
  (List.range (tdDims d)).foldl (fun a i => a + min 0 (((tdSize d i : Int) - 1) * tdStride d i)) (tdBase d : Int)
/-- High byte of the extent (R190). -/
def tdHigh (d : Desc) : Int :=
  (List.range (tdDims d)).foldl (fun a i => a + max 0 (((tdSize d i : Int) - 1) * tdStride d i))
    ((tdBase d : Int) + (tdE d : Int) - 1)
/-- The descriptor names a LOCAL region. -/
def tdLocal (d : Desc) : Bool := tdRegion d == 0xFFFF
/-- The descriptor names a window region. -/
def tdWindow (d : Desc) : Bool := decide (0x2000 ≤ tdRegion d) && decide (tdRegion d < 0x2200)

end Sys2Proof.Machine
end

