-- ==== Sys2Proof/Machine/Tiles.lean ====
section
/-! DEFINITION. What the units of a tile share: the running group, scratchpad reads by cycle, pending marks and holds, bank use,
semaphores, issue of engine commands, violations and injected faults. -/

namespace Sys2Proof.Machine

/-- The group that runs on logical tile `t`. -/
def tileGroup (s : State) (t : Nat) : Option Group := s.groups.find? (fun g => (groupTiles g).contains t)

/-- The group of a tile that has started its task and is not stopped by a fault (R125, R159). -/
def live (s : State) (t : Nat) : Option Group :=
  match tileGroup s t with
  | none => none
  | some g => if g.started.contains t && g.fault.isNone then some g else none

/-- The image of a running group. -/
def imageOf (s : State) (h : Nat) : Option Image :=
  match entryOf s h with
  | none => none
  | some e => e.image

/-- FOOTPRINT of the running image (R116). -/
def footOf (s : State) (h : Nat) : Nat :=
  match imageOf s h with
  | none => 0
  | some i => i.footprint

/-- MODE of the running image is streaming (R135). -/
def streamingOf (s : State) (h : Nat) : Bool :=
  match imageOf s h with
  | none => false
  | some i => i.streaming

/-- The byte of the latest write before cycle `c` that covers address `a`; of two writes in one cycle the later listed. -/
def lateByte (ws : List TimedWrite) (c a : Nat) (best : Option (Nat × Byte)) : Option (Nat × Byte) :=
  match ws with
  | [] => best
  | w :: r =>
    let i := (a + spadSize - w.addr) % spadSize
    match w.data[i]? with
    | none => lateByte r c a best
    | some b =>
      let better := decide (w.cyc < c) && (match best with
        | none => true
        | some p => decide (p.1 ≤ w.cyc))
      lateByte r c a (if better then some (w.cyc, b) else best)

/-- The byte a read in cycle `c` returns (R83, R166). -/
def spadByte (x : Tile) (c a : Nat) : Byte :=
  match lateByte x.writes c (a % spadSize) none with
  | some p => p.2
  | none => x.spad.rd (a % spadSize)

/-- `n` bytes as a read in cycle `c` returns them, addresses modulo 8 MB. -/
def spadBytes (x : Tile) (c a n : Nat) : List Byte := (List.range n).map (fun i => spadByte x c (a + i))

/-- The addresses of the 64-byte words that [a, a+n) touches, modulo 8 MB. -/
def wordsOf (a n : Nat) : List Nat :=
  if n = 0 then [] else (List.range ((a % 64 + n + 63) / 64)).map (fun i => 64 * ((a / 64 + i) % 131072))

/-- The bank of an address (R161). -/
def bankOf (a : Nat) : Nat := a / 64 % 64

/-- The 64-byte word `w` is one of those that [a, a+n) touches. -/
def touchesWord (a n w : Nat) : Bool :=
  decide (0 < n) && decide ((w / 64 + 131072 - a / 64 % 131072) % 131072 < (a % 64 + n + 63) / 64)

/-- A mark is pending in cycle `c` (R83). -/
def markActive (m : Mark) (c : Nat) : Bool :=
  decide (m.start ≤ c) && (match m.commit with
    | none => true
    | some k => decide (c ≤ k))

/-- A unit whose writes are not compared with MMA and VE holds (R147). -/
def exactUnit (u : Nat) : Bool := u == 0 || u == 1 || u == 7

/-- The mark that a read of word `w` in cycle `c` by command `num` violates. `own` marks the reads of R83, R114, R200 and R171 that may
meet the command's own output words: on such a word only marks of earlier commands count; the rows of the RU are no exception (R114). -/
def markHit (x : Tile) (c w unit num : Nat) (own : Bool) : Option Mark :=
  let ms := x.marks.filter (fun m => markActive m c && touchesWord m.addr m.len w && (m.commit.isSome || !(exactUnit unit)))
  let mine := own && ms.any (fun m => m.num == num && !(m.unit == 7))
  ms.find? (fun m => if mine then decide (m.num < num) || (m.num == num && m.unit == 7) else true)

/-- Word `w` lies outside FOOTPRINT (R149). -/
def outside (foot w : Nat) : Bool := !(bitAt foot (w / 0x100000))

/-- The first address of the extent [a, a+n) that lies outside FOOTPRINT (R149). -/
def firstOutside (foot a n : Nat) : Option Nat :=
  ((wordsOf a n).find? (outside foot)).map (fun w => if w = word64 a then a else w)

/-- DESC_RANGE at scratchpad address `a` (R149). -/
def rangeViol (c a unit pc : Nat) : Detail :=
  { detail0 stDescRange with unitA := unit, cycle := c, address := a, pc := pc }

/-- The violations of a read of [a, a+n) in cycle `c`: FOOTPRINT (R149) and PENDING_READ (R146); a read that the MMA or the VE will make is
compared with a mark once its commit is known. -/
def readViols (foot : Nat) (x : Tile) (c a n unit pc num : Nat) (own : Bool) : List Detail :=
  (wordsOf a n).filterMap (fun w =>
    let at_ := if w = word64 a then a else w
    if outside foot w then some (rangeViol c at_ unit pc)
    else match markHit x c w unit num own with
      | none => none
      | some m => some { detail0 stContractViolation with
                           subtype := 1, unitA := unit, unitB := m.unit, cycle := c, address := at_, pc := pc })

/-- A hold is in force in cycle `c`. -/
def holdActive (h : Hold) (c : Nat) : Bool :=
  decide (h.start ≤ c) && (match h.release with
    | none => true
    | some k => decide (c ≤ k))

/-- A write of [a, a+n) by unit `unit` for command `num` meets the hold (R147, R428). -/
def holdMeets (h : Hold) (a n unit num : Nat) : Bool :=
  !(h.num == num) && (overlaps a n h.lo (h.hi + 1 - h.lo) ||
    (decide (spadSize < a + n) && overlaps 0 (a + n - spadSize) h.lo (h.hi + 1 - h.lo))) &&
    (!h.exact || h.record || !(exactUnit unit))

/-- The parts of [a, a+n) in each 64-byte word, modulo 8 MB: first byte and length. -/
def partsOf (a n : Nat) : List (Nat × Nat) :=
  (wordsOf a n).mapIdx (fun i w => if i = 0 then (a % spadSize, Nat.min n (64 - a % 64)) else (w, Nat.min 64 (n + a % 64 - 64 * i)))

/-- The first word of a write that meets one of the holds, by the byte at which the write enters it. -/
def meetAt (holds : List Hold) (a n unit num : Nat) : Option (Nat × Hold) :=
  (partsOf a n).findSome? (fun p => (holds.find? (fun h => holdMeets h p.1 p.2 unit num)).map (fun h => (p.1, h)))

/-- The violations of a write: FOOTPRINT (R149) and HELD_WRITE (R147); a write that the MMA or the VE will make is compared with a hold once
its release is known. -/
def writeViols (foot : Nat) (x : Tile) (c a n unit pc num : Nat) : List Detail :=
  match firstOutside foot a n with
  | some w => [rangeViol c w unit pc]
  | none =>
    match meetAt (x.holds.filter (fun h => holdActive h c && (h.release.isSome || !(exactUnit unit)))) a n unit num with
    | none => []
    | some (b, h) => [{ detail0 stContractViolation with
                          subtype := 2, unitA := unit, unitB := h.unit, cycle := c, address := b, pc := pc }]

/-- The rows of a claim with their cycles. -/
def claimRows (k : Claim) : List (Nat × Nat) :=
  ((List.range k.addrs.length).zip k.addrs).map (fun p => (k.c0 + p.1 * k.step, p.2))

/-- The first word of a row of `nw` words at `a` that a mark pending in cycle `c` covers, by the address at which the row enters it. -/
def markedAt (marks : List Mark) (c a nw : Nat) : Option (Nat × Nat × Mark) :=
  ((List.range nw).map (fun i => 64 * ((a / 64 + i) % 131072))).findSome? (fun w =>
    (marks.find? (fun m => markActive m c && touchesWord m.addr m.len w)).map (fun m => (w, if w = word64 a then a else w, m)))

/-- The reads to which the exceptions of R83, R114 and R200 apply: C_in (rank 1), the input rows of a RUN (7 to 10) and what a copy of a
stream engine reads (14). -/
def ownRead (k : Claim) : Bool := k.rank == 1 || (decide (7 ≤ k.rank) && decide (k.rank ≤ 10)) || k.rank == 14

/-- The read `k` meets word `w` in cycle `c` while its own command has it pending, other than by a row of the RU: there only the marks of
earlier commands count (R83, R114, R200). -/
def ownPending (x : Tile) (k : Claim) (c w : Nat) : Bool :=
  ownRead k && x.marks.any (fun o => o.num == k.num && !(o.unit == 7) && markActive o c && touchesWord o.addr o.len w)

/-- The reads of a claim in cycles before `c` that meet one of these marks of other commands (R83, R114, R146). -/
def markedReads (x : Tile) (marks : List Mark) (c : Nat) (k : Claim) : List Detail :=
  (claimRows k).filterMap (fun p =>
    if p.1 < c then
      match markedAt (marks.filter (fun m => !(m.num == k.num))) p.1 p.2 k.nw with
      | none => none
      | some (w, a, m) =>
        if decide (k.num < m.num) && ownPending x k p.1 w then none
        else some { detail0 stContractViolation with subtype := 1, unitA := k.unit, unitB := m.unit, cycle := p.1, address := a, pc := k.pc }
    else none)

/-- The writes in cycles before `c` into one of these ranges while it is held (R147, R209, R428). -/
def heldWrites (x : Tile) (holds : List Hold) (c : Nat) : List Detail :=
  (x.writes.filter (fun w => decide (w.cyc < c))).filterMap (fun w =>
    (meetAt (holds.filter (fun h => holdActive h w.cyc)) w.addr w.data.length w.unit w.num).map (fun p =>
      { detail0 stContractViolation with subtype := 2, unitA := w.unit, unitB := p.2.unit, cycle := w.cyc, address := p.1, pc := w.pc }))

/-- What has happened before cycle `c` against the marks and the holds of commands that have not issued by then: their rows are still
pending, and their ranges held (R83, R114, R146, R147, R428). -/
def openViols (x : Tile) (c : Nat) : List Detail :=
  ((x.claims.filter (fun k => !(k.write))).map (markedReads x (x.marks.filter (fun m => m.commit.isNone)) c)).flatten ++
    heldWrites x (x.holds.filter (fun h => h.release.isNone)) c

/-- The earliest of several violations. -/
def firstViol : List Detail → Option Detail
  | [] => none
  | d :: r =>
    match firstViol r with
    | none => some d
    | some e => if e.cycle < d.cycle then some e else some d

/-- The count of a semaphore as a wait in cycle `c` sees it: what was added by then, and the signals of earlier cycles (R139). -/
def semAvail (x : Tile) (sem c : Nat) : Nat :=
  (x.sigs.filter (fun g => g.sem == sem && decide (g.cyc < c))).foldl (fun v g => Nat.min 255 (v + g.n))
    (if x.semAt.get sem 0 ≤ c then x.sems.get sem 0 else 0)

/-- The first cycle from `lo` in which the count is at least `n`; none while no signal brings it there. -/
def waitFrom (x : Tile) (sem n lo : Nat) : Option Nat :=
  if n = 0 then some lo
  else
    let cs := sortBy (fun (a b : Nat) => decide (a ≤ b)) (lo :: Nat.max lo (x.semAt.get sem 0) :: x.sigs.map (fun g => Nat.max lo (g.cyc + 1)))
    cs.find? (fun c => decide (n ≤ semAvail x sem c))

/-- Apply one signal; the first that passes 255 is kept (R141). -/
def applySig (p : Tbl Nat × Option Sig) (g : Sig) : Tbl Nat × Option Sig :=
  let v := p.1.get g.sem 0
  if 255 < v + g.n then (p.1.put g.sem 255, if p.2.isNone then some g else p.2) else (p.1.put g.sem (v + g.n), p.2)

/-- Signals in the order of R141: by cycle, then by unit code, then as they arrived. -/
def sigLe (a b : Sig) : Bool := decide (a.cyc < b.cyc) || (a.cyc == b.cyc && decide (a.unit ≤ b.unit))

/-- Add the signals of cycles before `c` that `p` selects to their semaphores; a count so reached is visible from the cycle after the last
of them (R139). -/
def foldSigs (x : Tile) (c : Nat) (p : Sig → Bool) : Tile × Option Sig :=
  let now := fun (g : Sig) => decide (g.cyc < c) && p g
  let due := sortBy sigLe (x.sigs.filter now)
  let (sems, bad) := due.foldl applySig (x.sems, none)
  ({ x with sems := sems, semAt := due.foldl (fun m g => m.put g.sem (Nat.max (m.get g.sem 0) (g.cyc + 1))) x.semAt,
            sigs := x.sigs.filter (fun g => !(now g)) }, bad)

/-- The first signal of a cycle before `c` that takes its semaphore past 255 (R141). -/
def overBy (x : Tile) (c : Nat) : Option Sig := (foldSigs x c (fun _ => true)).2

/-- SEMAPHORE_OVERFLOW (R141). -/
def overViol (g : Sig) : Detail :=
  { detail0 stSemaphoreOverflow with unitA := g.unit, cycle := g.cyc, address := g.sem, pc := g.pc }

/-- The violation of a fold. -/
def overViols : Option Sig → List Detail
  | none => []
  | some g => [overViol g]

/-- What the tile had violated in a cycle before that of `d` comes first: a signal that overflowed its semaphore, a read of a row whose
command has not issued, a write into its held range (R83, R85, R141, R147). -/
def earliest (x : Tile) (d : Detail) : Detail :=
  match firstViol (overViols (overBy x d.cycle) ++ openViols x d.cycle) with
  | none => d
  | some v => v

/-- Abort the task of a tile with a detail record that names the tile and the epoch, of its earliest violation (R150, R152). -/
def tileAbort (s : State) (g : Group) (t : Nat) (d : Detail) : State :=
  let v := earliest (tileOf s t) d
  abortTask s g.handle v.status (some { v with epoch := g.epoch % 256, tile := t })

/-- The tile as changed; on a violation the task aborts with the earliest, and what had committed by then stays (R85, R152). -/
def settleTile (s : State) (g : Group) (t : Nat) (x : Tile) (viols : List Detail) : State :=
  match firstViol viols with
  | none => setTile s t x
  | some d => tileAbort (setTile s t x) g t d

/-- Add a signal; a count of 0 does nothing (R139). -/
def addSig (x : Tile) (cyc sem n unit pc : Nat) : Tile :=
  if n = 0 then x else { x with sigs := x.sigs ++ [{ cyc := cyc, sem := sem, n := n, unit := unit, pc := pc }] }

/-- A signal of a command, in the cycle that its engine's contract gives (R139). -/
def cmdSig (x : Tile) (c unit : Nat) (e : QEntry) : Tile := addSig x c (hSigSem e.word) (hSigN e.word) unit e.pc

/-- Take `n` from a semaphore in cycle `c`, after the signals of earlier cycles. -/
def takeSem (x : Tile) (sem n c : Nat) : Tile × List Detail :=
  let (y, o) := foldSigs x c (fun g => g.sem == sem)
  ({ y with sems := y.sems.put sem (y.sems.get sem 0 - n) }, overViols o)

/-- A queue of a tile. -/
def queueOf (x : Tile) (q : Nat) : List QEntry := x.queues.get q []

/-- The first cycle in which an entry can issue: after its push, and after the command before it in the queue (R81). -/
def headFrom (x : Tile) (q : Nat) (e : QEntry) : Nat :=
  (x.issued.get q []).foldl (fun m c => Nat.max m (c + 1)) (e.pushed + 1)

/-- What R81 and R111 say of the issue of an entry. -/
inductive Issue where
  | go (c : Nat)
  | late (c : Nat)
  | waiting
  deriving DecidableEq, Repr

/-- The issue cycle of an entry whose structural rules allow it from `lo`, and whose whole table allows it from `full`
(R81, R84, R111, R113). -/
def issueOf (x : Tile) (q : Nat) (e : QEntry) (lo full : Nat) : Issue :=
  let sem := hWaitSem e.word
  let n := hWaitN e.word
  let h := headFrom x q e
  let bound := if hTimed e.word then Nat.max (hAt e.word) (Nat.max h lo) else Nat.max h full
  if hTimed e.word && decide (hAt e.word < lo) && (n == 0 || decide (n ≤ semAvail x sem (hAt e.word))) then
    .late (hAt e.word)
  else match waitFrom x sem n bound with
    | some c => .go c
    | none => .waiting

/-- LATE_ISSUE (R81, R137, R150). -/
def lateViol (c unit : Nat) (e : QEntry) : Detail :=
  { detail0 stContractViolation with subtype := 3, unitA := unit, cycle := c, pc := e.pc, at_ := hAt e.word,
                                     pushed := e.pushed }

/-- The head of a queue issues in cycle `c`: it leaves the queue and its WAIT is taken (R139). -/
def popIssue (x : Tile) (q c : Nat) (e : QEntry) : Tile × List Detail :=
  let x := { x with queues := x.queues.put q (queueOf x q).tail, issued := x.issued.put q ((x.issued.get q []) ++ [c]) }
  if hWaitN e.word = 0 then (x, []) else takeSem x (hWaitSem e.word) (hWaitN e.word) c

/-- The head of queue `q` of a live tile, when it executes as the kind. -/
def headIs (s : State) (t q : Nat) (k : EKind) : Option (Group × Tile × QEntry) :=
  match live s t with
  | none => none
  | some g =>
    let x := tileOf s t
    match queueOf x q with
    | [] => none
    | e :: _ => if ekind q e.word = k then some (g, x, e) else none

/-- The commit cycles of the rows of a command become known. -/
def setCommits (x : Tile) (num : Nat) (commits : List Nat) : Tile :=
  let p := x.marks.foldl (fun (acc : List Mark × List Nat) m =>
    if m.num = num then
      match acc.2 with
      | [] => (m :: acc.1, [])
      | c :: r => ({ m with commit := some c } :: acc.1, r)
    else (m :: acc.1, acc.2)) ([], commits)
  { x with marks := p.1.reverse }

/-- The holds of a command are released after cycle `c`, one cycle per hold in their order. -/
def setReleases (x : Tile) (num : Nat) (cs : List Nat) : Tile :=
  let p := x.holds.foldl (fun (acc : List Hold × List Nat) h =>
    if h.num = num then
      match acc.2 with
      | [] => (h :: acc.1, [])
      | c :: r => ({ h with release := some c } :: acc.1, r)
    else (h :: acc.1, acc.2)) ([], cs)
  { x with holds := p.1.reverse }

/-- A fault fires in a tile: the group waits for its replay (R73, R159). -/
def groupFault (s : State) (g : Group) (t source cyc unit : Nat) (injected : Bool) : State :=
  setGroup s { g with fault := some { source := source, tile := t, link := 0xFFFF, cyc := cyc, unit := unit, injected := injected, logged := false } }

/-- The armed injection has ended with a code (R359). -/
def endInjection (s : State) (fired : Bool) (kind code : Nat) : State :=
  fltEvent { s with flt := { s.flt with inj := none,
                                        injResult := 2 ^ 31 + b2n fired * 2 ^ 30 + kind * 256 + code } } 7

/-- The parity bit of a 32-bit word: data and bit together hold an even number of ones (R162). -/
def parityBit (v : Nat) : Bool := (List.range 32).foldl (fun b i => b != v.testBit i) false

/-- A read checks the word that it returns against the parity bit that the last write of the word set. No command of this hardware changes
a stored word without its bit, so the bit is the parity of what the last write left, and is not held beside it (R162; DEDUCED, log 56). -/
def parityOk (read stored : Nat) : Bool := parityBit read == parityBit stored

/-- An armed injection of this kind fires at the tile: the group stops for replay, nothing is written (R357, R358). -/
def fireTile (s : State) (g : Group) (t kind source cyc unit : Nat) : Option State :=
  match s.flt.inj with
  | none => none
  | some i =>
    if i.kind = kind ∧ i.ltile = t then
      some (endInjection (groupFault s g t source cyc unit true) true kind 0)
    else none

/-- A unit reads the word at `a` in cycle `cyc`: an armed SP_WORD flips one bit of the word that the tile's next scratchpad read returns and
leaves its parity bit, so that the check fails and the value is not used (R162, R358). -/
def fireRead (s : State) (g : Group) (t a cyc unit : Nat) : Option State :=
  let word := leNat (spadBytes (tileOf s t) cyc (a / 4 * 4) 4)
  let read := match s.flt.inj with
    | some i => if i.kind = 3 ∧ i.ltile = t then word ^^^ 2 ^ (i.param % 32) else word
    | none => word
  if parityOk read word then none else fireTile s g t 3 5 cyc unit

/-- A write of [a, a+n) that covers only part of a 32-bit word reads the word's prior contents and checks their parity (R165). -/
def fireMerge (s : State) (g : Group) (t a n cyc unit : Nat) : Option State :=
  if n = 0 then none
  else if a % 4 ≠ 0 then fireRead s g t a cyc unit
  else if n % 4 ≠ 0 then fireRead s g t (a + n - 1) cyc unit
  else none

end Sys2Proof.Machine
end

