-- ==== Sys2Proof/Machine/Memory.lean ====
section
/-! DEFINITION. Device memory: the address map (R232, R233), stripe states, unit reads with reconstruction and poisoning, stripe writes with
parity, the Stack Cache, bandwidth regulators, and the rows MEM_READ, MEM_WRITE, BUCKET_RELEASE and KEEP_EXPIRY. -/

namespace Sys2Proof.Machine

/-- The stack of unit `u` of stripe `st`, 16 being parity (R232). -/
def unitStack (st u : Nat) : Nat := (st % 20 + u) % 20

/-- The stack-local index of the unit that stripe `st` has on stack `x` (R233). -/
def localIndex (st x : Nat) : Nat := 17 * (st / 20) + (st + 36 - x) % 20

/-- The channel 48 × stack + channel of a unit before any rebuild (R233). -/
def homeChannel (st u : Nat) : Nat := 48 * unitStack st u + localIndex st (unitStack st u) % 48

/-- The place in the reserve of a rebuilt unit. -/
def placedIn (l : List (Nat × Nat × Nat)) (st u : Nat) : Option Nat :=
  (l.find? (fun p => p.1 == st && p.2.1 == u)).map (fun p => p.2.2)

/-- The channel that holds a unit (R233, R255). -/
def unitChannel (s : State) (st u : Nat) : Nat := (placedIn s.mem.placed st u).getD (homeChannel st u)

/-- Channel `c`. -/
def channelOf (s : State) (c : Nat) : Channel := s.mem.channels.get c channel0

/-- Replace channel `c`. -/
def setChannel (s : State) (c : Nat) (x : Channel) : State := { s with mem := { s.mem with channels := s.mem.channels.put c x } }

/-- Stack `n`. -/
def stackOf (s : State) (n : Nat) : Stack := s.mem.stks.get n stack0

/-- Replace stack `n`. -/
def setStack (s : State) (n : Nat) (x : Stack) : State := { s with mem := { s.mem with stks := s.mem.stks.put n x } }

/-- A channel is lost: itself, or its whole stack (R254). -/
def channelIsLost (s : State) (c : Nat) : Bool := (channelOf s c).state == .lost || (stackOf s (c / 48)).state == 2

/-- A channel is out of service (R253). -/
def channelOut (s : State) (c : Nat) : Bool :=
  channelIsLost s c || (channelOf s c).state == .repair || (stackOf s (c / 48)).state == 1

/-- The stored unit fails its CRC. -/
def unitBad (s : State) (st u : Nat) : Bool := s.mem.bad.contains (st, u)

/-- The stored unit is stale (R253, R257). -/
def unitStale (s : State) (st u : Nat) : Bool := s.mem.stale.contains (st, u)

/-- The unit's stack is in service, it is not stale and it passes its CRC. -/
def unitGood (s : State) (st u : Nat) : Bool := !(channelOut s (unitChannel s st u)) && !(unitBad s st u) && !(unitStale s st u)

/-- As `unitGood`, taking a thermally paused stack as readable (R260). -/
def unitDirect (s : State) (st u : Nat) : Bool :=
  let c := unitChannel s st u
  (unitGood s st u || (stackOf s (c / 48)).state == 1) && !(channelIsLost s c) && !((channelOf s c).state == .repair) &&
    !(unitBad s st u) && !(unitStale s st u)

/-- As `unitDirect`, once a lane repair of the channel is complete (R264). -/
def unitSoon (s : State) (st u : Nat) : Bool :=
  !(channelIsLost s (unitChannel s st u)) && !(unitBad s st u) && !(unitStale s st u)

/-- The unit's channel is in a calibration pause (R252). -/
def unitPaused (s : State) (st u : Nat) : Bool := (channelOf s (unitChannel s st u)).state == .pause

/-- The other units of a stripe group (R232). -/
def otherUnits (u : Nat) : List Nat := (List.range 17).filter (fun v => !(v == u))

/-- The state of a stripe (R235). -/
def stripeOf (s : State) (st : Nat) : StripeState := s.mem.stripes.get st .unwritten

/-- What serves a read of a unit (R235, R239, R252, R253, R260, R264). -/
inductive UnitRead where
  | zero
  | direct
  | rebuilt (repair : Bool)
  | waits
  | lost
  deriving DecidableEq, Repr

/-- How a read of unit `u` of stripe `st` is served. -/
def unitRead (s : State) (st u : Nat) : UnitRead :=
  let others := otherUnits u
  match stripeOf s st with
  | .unwritten => .zero
  | .poisoned =>
    if unitSoon s st u && (stackOf s (unitChannel s st u / 48)).state != 1 then
      (if unitPaused s st u || channelOut s (unitChannel s st u) then .waits else .direct)
    else .lost
  | .written =>
    if unitGood s st u then (if unitPaused s st u then .waits else .direct)
    else if others.all (unitGood s st) then
      (if others.any (unitPaused s st) then .waits
       else .rebuilt (unitBad s st u && !(channelOut s (unitChannel s st u)) && !(unitStale s st u)))
    else if unitDirect s st u then .direct
    else if others.all (unitDirect s st) then .rebuilt (unitBad s st u && !(channelOut s (unitChannel s st u)) && !(unitStale s st u))
    else if unitSoon s st u || others.all (unitSoon s st) then .waits
    else .lost

/-- One byte of device memory: a free value where an aborted task left it undefined (R152). -/
def memByte (m : DevMem) (a : Nat) : Byte :=
  match m.undef.find? (fun u => decide (u.lo ≤ a) && decide (a < u.hi)) with
  | some u => BitVec.ofNat 8 (Config.freeNat u.key (a - u.base))
  | none => m.bytes.rd a

/-- `n` bytes of device memory from address `a`. -/
def memBytes (m : DevMem) (a n : Nat) : List Byte :=
  if m.undef.isEmpty then m.bytes.rdN a n else (List.range n).map (fun i => memByte m (a + i))

/-- The undefined ranges after a write with these enables at `a`. -/
def definedBy (a : Nat) (en : List Bool) (l : List Undef) : List Undef :=
  if l.isEmpty then l else (en.zipIdx.filter (fun p => p.1)).foldl (fun l p => outsideRange (a + p.2) 1 l) l

/-- The 256 bytes that a unit holds. -/
def unitBytes (s : State) (st u : Nat) : List Byte := memBytes s.mem (4096 * st + 256 * u) 256

/-- A unit is rewritten with good contents: neither bad nor stale. -/
def unitMended (s : State) (st u : Nat) : State :=
  { s with mem := { s.mem with bad := s.mem.bad.filter (fun p => !(p == (st, u))),
                               linkBad := s.mem.linkBad.filter (fun p => !(p == (st, u))),
                               stale := s.mem.stale.filter (fun p => !(p == (st, u))) } }

/-- A CRC mismatch was reconstructed and rewritten: CRC_REPAIRED and its record (R239, R352). -/
def crcRepaired (s : State) (source part handle st u : Nat) : State :=
  logFault (memEvent (unitMended s st u) 0) source 3 0xFF 0xFF (unitChannel s st u) part handle (4096 * st)

/-- A read met a unit that cannot be recovered: the stripe is POISONED, OBJECT_LOST in MEM_EVENT (R239, R267). -/
def poison (s : State) (st : Nat) : State :=
  memEvent { s with mem := { s.mem with stripes := s.mem.stripes.put st .poisoned } } 7

/-- An armed MEM_UNIT or MEM_LINK injection that fires at this read: the kind and the log source (R358). It fires only where the
unit can be reconstructed (R357). -/
def memInjection (s : State) (st u : Nat) : Option (Nat × Nat) :=
  match s.flt.inj with
  | none => none
  | some i =>
    if i.channel = unitChannel s st u ∧ unitRead s st u = .direct ∧ (otherUnits u).all (unitGood s st) = true then
      if i.kind = 0x10 ∧ stripeOf s st = .written then some (0x10, 0xA0)
      else if i.kind = 0x11 ∧ stripeOf s st = .written then some (0x11, 0xA1)
      else none
    else none

/-- The source of the detection of a unit that fails its CRC: the table's, or a burst's (R333). -/
def badSource (s : State) (st u : Nat) : Nat := if s.mem.linkBad.contains (st, u) then 0x21 else 0x20

/-- A unit can be neither read nor reconstructed: where it is the one that failed its CRC, the detection has its record, and the stripe is
POISONED (R239, R333, R352). -/
def loseUnit (source : Nat) (s : State) (part handle st u : Nat) : State :=
  let found := unitBad s st u && !(channelOut s (unitChannel s st u)) && stripeOf s st == .written
  poison (if found then logFault s source 7 0xFF 0xFF (unitChannel s st u) part handle (4096 * st) else s) st

/-- An armed MEM_UNIT or MEM_LINK injection fires at a read of the unit: what it corrupts is reconstructed and rewritten (R239, R358). -/
def fireUnit (s : State) (part handle st u : Nat) : State :=
  match memInjection s st u with
  | some (k, src) => crcRepaired (endInjection s true k 0) src part handle st u
  | none => s

/-- One unit is read from its stack, after `unitRead` has said that the read need not wait: its bytes, or none for OBJECT_LOST,
with the effects of R239 and of an armed injection; `source` is the detection's where the unit has failed its CRC. -/
def fetchUnitBy (source : Nat) (s : State) (part handle st u : Nat) : State × Option (List Byte) :=
  match memInjection s st u with
  | some (k, src) => (crcRepaired (endInjection s true k 0) src part handle st u, some (unitBytes s st u))
  | none =>
    match unitRead s st u with
    | .zero => (s, some (List.replicate 256 0))
    | .direct => (s, some (unitBytes s st u))
    | .rebuilt repair => (if repair then crcRepaired s source part handle st u else s, some (unitBytes s st u))
    | .waits => (s, some (unitBytes s st u))
    | .lost => (loseUnit source s part handle st u, none)

/-- One unit is read from its stack; a failed CRC is one against the table, or a burst's (R236, R239). -/
def fetchUnit (s : State) (part handle st u : Nat) : State × Option (List Byte) := fetchUnitBy (badSource s st u) s part handle st u

/-- A read of the unit is served from its stack as it stands: not reconstructed, for a fault or for an armed injection (R242, R358). -/
def servedDirect (s : State) (st u : Nat) : Bool := unitRead s st u == .direct && (memInjection s st u).isNone

/-- A read of the unit that misses may allocate a line: it is not served by reconstruction; an UNWRITTEN unit's line holds zeros (R235, R242). -/
def allocates (s : State) (st u : Nat) : Bool :=
  (unitRead s st u == .direct || unitRead s st u == .zero) && (memInjection s st u).isNone

/-- The parity unit of a stripe (R232, R237). -/
def parityBytes (s : State) (st : Nat) : List Byte :=
  (List.range 16).foldl (fun p u => List.zipWith (fun a b => a ^^^ b) p (unitBytes s st u)) (List.replicate 256 0)

/-- The entry of the CRC table for a unit: the CRC-32C of what was last written there (R236). -/
def crcEntry (s : State) (st u : Nat) : Nat := crc32c (if u = 16 then parityBytes s st else unitBytes s st u)

/-- A read of this unit must wait: training, a calibration pause or a lane repair (R249, R252, R264). -/
def unitWaits (s : State) (st u : Nat) : Bool := !(s.mem.trained) || unitRead s st u == .waits

/-- The units that [a, a + n) touches, as (stripe, unit). -/
def unitsOf (a n : Nat) : List (Nat × Nat) :=
  if n = 0 then [] else (List.range ((a % 256 + n + 255) / 256)).map (fun i => ((a / 256 + i) / 16, (a / 256 + i) % 16))

/-- The scale of every RATE in percent (R258, R260). -/
def rateScale (s : State) : Nat :=
  if s.mem.stks.any (fun p => p.2.refresh4) then 25 else if s.mem.stks.any (fun p => p.2.hot95) then 75 else 100

/-- Partition `p`'s bucket, full until its first use (R245). -/
def bucketOf (s : State) (p : Nat) : Bucket :=
  s.mem.buckets.get p { level := 409600 * ((partOf s p).burst : Int), at_ := s.time, bytes := 0 }

/-- A level at the present time: it gains its rate up to its depth, in hundredths of a byte. -/
def levelNow (s : State) (b : Bucket) (perNs depth : Nat) : Int := min (depth : Int) (b.level + ((s.time - b.at_) * perNs : Nat))

/-- Partition `p`'s level now (R245, R258, R260). -/
def partLevel (s : State) (p : Nat) : Int := levelNow s (bucketOf s p) ((partOf s p).rate * rateScale s) (409600 * (partOf s p).burst)

/-- An access of the urgent class must wait: the urgent bucket is negative and so is its partition's (R245, R247). -/
def urgentWaits (s : State) (p : Nat) : Bool :=
  decide (levelNow s s.mem.urgent 115000 26214400 < 0) && decide (partLevel s p < 0)

/-- A direct read of [a, a + n) must wait. -/
def devWaits (s : State) (part a n : Nat) : Bool := urgentWaits s part || (unitsOf a n).any (fun p => unitWaits s p.1 p.2)

/-- Charge partition `p`; a negative number of bytes is a refund, up to BURST (R246). -/
def charge (s : State) (p : Nat) (n : Int) : State :=
  let b := bucketOf s p
  let l := min (409600 * ((partOf s p).burst : Int)) (partLevel s p - 100 * n)
  { s with mem := { s.mem with buckets := s.mem.buckets.put p { level := l, at_ := s.time,
                                                                 bytes := ((b.bytes : Int) + n).toNat % 2 ^ 64 } } }

/-- Settle every bucket at the present time, before the scale of the rates changes. -/
def settleBuckets (s : State) : State := (List.range s.ts.bundle.parts.length).foldl (fun s p => charge s p 0) s

/-- The urgent bucket's level now: 1.15 TB/s, 256 KB (R247). -/
def urgentLevel (s : State) : Int := levelNow s s.mem.urgent 115000 26214400

/-- An urgent access of `n` bytes: it draws on the urgent bucket, or, while that is negative, on its partition's (R247). -/
def chargeUrgent (s : State) (p n : Nat) : State :=
  if urgentLevel s < 0 then charge s p n
  else { s with mem := { s.mem with urgent := { level := urgentLevel s - 100 * (n : Int), at_ := s.time,
                                                bytes := s.mem.urgent.bytes } } }

/-- The unit operations of a write that covers these units of a WRITTEN stripe: `w` in all, `part` of them only in part (R237). -/
def writeOps (w part : Nat) : Nat :=
  if w = 0 then 0 else if w = 16 ∧ part = 0 then 17 else if w ≤ 7 then 2 * w + 2 else 16 - w + part + w + 1

/-- The units that a stripe write covers, wholly or in part. -/
def coveredUnits (en : List Bool) : List Nat := (List.range 16).filter (fun u => ((en.drop (256 * u)).take 256).any id)

/-- The units that a stripe write covers whole. -/
def wholeUnits (en : List Bool) : List Nat :=
  (List.range 16).filter (fun u => ((en.drop (256 * u)).take 256).length == 256 && ((en.drop (256 * u)).take 256).all id)

/-- The unit operations of a stripe write. -/
def enableOps (en : List Bool) : Nat := writeOps (coveredUnits en).length ((coveredUnits en).length - (wholeUnits en).length)

/-- The enabled bytes of a write put into a memory. -/
def putEnabled (m : Mem) : Nat → List Byte → List Bool → Mem
  | a, b :: bs, e :: es => putEnabled (if e then m.wr a b else m) (a + 1) bs es
  | _, _, _ => m

/-- The units of a list whose channel is out of service. -/
def outUnits (s : State) (st : Nat) (us : List Nat) : List (Nat × Nat) :=
  (us.filter (fun u => channelOut s (unitChannel s st u))).map (fun u => (st, u))

/-- The journal after a write of these units, those in `keep` staying as unreadable as they were: units in service become good, units
out of service stale (R253). -/
def journal (s : State) (st : Nat) (us keep : List Nat) : State :=
  let fresh := us.filter (fun u => !(channelOut s (unitChannel s st u)) && !(keep.contains u))
  let mended := fresh.foldl (fun s u => unitMended s st u) s
  let out := (outUnits s st us).filter (fun p => !(mended.mem.stale.contains p))
  { mended with mem := { mended.mem with stale := mended.mem.stale ++ out } }

/-- A unit can be read now or by reconstruction. -/
def unitReadable (s : State) (st u : Nat) : Bool := !(unitRead s st u == .lost)

/-- The Stack Controllers apply one write to stripe `st`: 4,096 bytes with their enables. With the parity unit out of service the data is
written as it is and the parity recorded as stale (R235, R237 to R239, R253). -/
def stripeWrite (s : State) (st : Nat) (data : List Byte) (en : List Bool) : State :=
  let cov := coveredUnits en
  let whole := wholeUnits en
  let put := fun (s : State) (x : StripeState) =>
    { s with mem := { s.mem with bytes := putEnabled s.mem.bytes (4096 * st) data en, undef := definedBy (4096 * st) en s.mem.undef,
                                 stripes := s.mem.stripes.put st x } }
  let gust := whole.length == 16
  let partial_ := cov.filter (fun u => !(whole.contains u))
  if cov.isEmpty then s
  else
    match stripeOf s st with
    | .unwritten => journal (put s .written) st (List.range 17) []
    | .written =>
      let delta := decide (cov.length ≤ 7) && cov.all (unitGood s st) && unitGood s st 16
      let bare := channelOut s (unitChannel s st 16) && partial_.all (unitReadable s st)
      let full := ((List.range 16).filter (fun u => !(whole.contains u))).all (unitReadable s st)
      if gust || delta || full || bare then
        journal (put s .written) st (cov ++ [16]) (if full || bare then [] else [16])
      else
        let s := poison s st
        journal (put s .poisoned) st cov (partial_.filter (fun u => !(unitGood s st u)))
    | .poisoned =>
      if gust then journal (put s .written) st (List.range 17) []
      else journal (put s .poisoned) st cov (partial_.filter (fun u => !(unitGood s st u)))

/-- The units of a WRITTEN stripe that a write of it reads: none for a Gust; the old data and the parity where both are updated in place; or
the data units that it does not cover whole (R237). -/
def writeReads (s : State) (st : Nat) (en : List Bool) : List Nat :=
  let cov := coveredUnits en
  let whole := wholeUnits en
  if stripeOf s st != .written || cov.isEmpty || whole.length == 16 then []
  else if decide (cov.length ≤ 7) && cov.all (unitGood s st) && unitGood s st 16 then cov ++ [16]
  else (List.range 16).filter (fun u => !(whole.contains u))

/-- A write of a stripe with the reads that it needs, at which an armed injection can fire (R237, R358). -/
def writeStripe (s : State) (part handle st : Nat) (data : List Byte) (en : List Bool) : State :=
  stripeWrite ((writeReads s st en).foldl (fun s u => fireUnit s part handle st u) s) st data en

/-- The units of a stripe whose lines a write of it updates or allocates: those covered, and the parity where the write has written it (R239,
R242). -/
def writtenUnits (s : State) (st : Nat) (en : List Bool) : List Nat :=
  let parity := if stripeOf s st = .written then [16] else []
  (coveredUnits en ++ parity).filter (unitGood s st)

/-- The record of a POISONED stripe that a work has met (R346, R352). SOURCE of the record is a free value (log 7). -/
def lostRecord (s : State) (h part st : Nat) : State :=
  let (v, s) := drawBytes s 1
  logFault s (leNat v % 0x80) 7 0xFF 0xFF 0xFFFF part h (4096 * st)

/-- OBJECT_LOST ends a work, with its bit in FLT_EVENT (R152, R346, R356). -/
def loseWork (s : State) (h : Nat) : State :=
  let held := match entryOf s h with
    | none => false
    | some e => e.state != EntryState.completing && !(s.flt.unrecoverable)
  abortTask (if held = true then fltEvent s 4 else s) h stObjectLost none

/-- OBJECT_LOST ends a work that has met one lost stripe. -/
def objectLost (s : State) (h part st : Nat) : State := loseWork (lostRecord s h part st) h

/-- One unit more of a read: what has been read so far, none once a unit is lost, and the last stripe recorded as lost. -/
def readUnit (part handle : Nat) (acc : State × Option (List Byte) × Option Nat) (p : Nat × Nat) : State × Option (List Byte) × Option Nat :=
  let (s, b) := fetchUnit acc.1 part handle p.1 p.2
  match acc.2.1, b with
  | some x, some y => (s, some (x ++ y), acc.2.2)
  | none, some _ => (s, none, acc.2.2)
  | _, none => (if acc.2.2 = some p.1 then s else lostRecord s handle part p.1, none, some p.1)

/-- A read of device memory without its charge: the bytes, or none where a unit is lost, each lost stripe with its record (R239,
R346). -/
def rawRead (s : State) (part handle a n : Nat) : State × Option (List Byte) :=
  let r := (unitsOf a n).foldl (readUnit part handle) (s, some [], none)
  (r.1, r.2.1.map (fun b => sub b (a % 256) n))

/-- A direct read of device memory in the urgent class: the bytes, or none where a unit is lost (R239, R247, R346). -/
def devRead (s : State) (part handle a n : Nat) : State × Option (List Byte) :=
  rawRead (chargeUrgent s part (256 * (unitsOf a n).length)) part handle a n

/-- A direct write of a byte string to device memory in the urgent class, stripe by stripe (R237, R247). -/
def devWrite (s : State) (part handle a : Nat) (b : List Byte) : State :=
  if b.isEmpty then s
  else
    let st0 := a / 4096
    let n := (a % 4096 + b.length + 4095) / 4096
    (List.range n).foldl (fun s i =>
      let lead := if i = 0 then a % 4096 else 0
      let piece := sub b (4096 * i + lead - a % 4096) (4096 - lead)
      let data := List.replicate lead 0 ++ piece ++ List.replicate (4096 - lead - piece.length) 0
      let en := List.replicate lead false ++ piece.map (fun _ => true) ++ List.replicate (4096 - lead - piece.length) false
      writeStripe (chargeUrgent s part (256 * enableOps en)) part handle (st0 + i) data en) s

/-- Headers are written in their order, each an access of the urgent class; none while one of them must wait (R205, R247). -/
def headerWrites (s : State) (part handle : Nat) (l : List (Nat × List Byte)) : Option State :=
  l.foldl (fun acc p => match acc with
    | none => none
    | some s => if urgentWaits s part then none else some (devWrite s part handle p.1 p.2)) (some s)

/-- Every stripe of a released range becomes UNWRITTEN, with its lines gone (R235). -/
def releaseRange (s : State) (a n : Nat) : State :=
  let lo := a / 4096
  let hi := (a + n) / 4096
  let keep := fun st => decide (st < lo) || decide (hi ≤ st)
  { s with mem := { s.mem with bytes := s.mem.bytes.clear a n, undef := outsideRange a n s.mem.undef,
                               stripes := s.mem.stripes.filter (fun p => keep p.1),
                               bad := s.mem.bad.filter (fun p => keep p.1), linkBad := s.mem.linkBad.filter (fun p => keep p.1),
                               stale := s.mem.stale.filter (fun p => keep p.1),
                               lines := s.mem.lines.filter (fun l => keep (l.unit / 17)) } }

/-- The slice and set of a unit's line (R240). -/
def lineSet (s : State) (st u : Nat) : Nat × Nat := (unitChannel s st u / 48, localIndex st (unitStack st u) % 1542)

/-- The line that holds a unit. -/
def lineOf (s : State) (k : Nat) : Option Line := s.mem.lines.find? (fun l => l.unit == k)

/-- KEEP_LINES of a partition (R243). -/
def keepLimit (s : State) (p : Nat) : Nat := (partOf s p).keep

/-- The least recently used of some lines; lines stand most recent first. -/
def lruOf (l : List Line) : Option Nat := (l.getLast?).map (fun x => x.unit)

/-- After a switch point: of a partition's KEEP lines beyond its new limit, those touched longest ago become DEFAULT lines (R243; DESIGN
CHOICE, log 51). -/
def trimKeep (s : State) : State :=
  let r := s.mem.lines.foldl (fun (acc : List Line × Tbl Nat) l =>
    if !(l.keep) then (acc.1 ++ [l], acc.2)
    else if acc.2.get l.part 0 < keepLimit s l.part then (acc.1 ++ [l], acc.2.put l.part (acc.2.get l.part 0 + 1))
    else (acc.1 ++ [{ l with keep := false }], acc.2)) ([], [])
  { s with mem := { s.mem with lines := r.1 } }

/-- Put a line first, as DEFAULT or KEEP within R243's limits, evicting as R240 and R243 give. -/
def touchLine (s : State) (st u : Nat) (keep : Bool) (session part : Nat) : State :=
  let k := 17 * st + u
  let others := s.mem.lines.filter (fun l => !(l.unit == k))
  let here := others.filter (fun l => lineSet s (l.unit / 17) (l.unit % 17) == lineSet s st u)
  let kept := (here.filter (fun l => l.keep)).length
  let mine := (others.filter (fun l => l.keep && l.part == part)).length
  let old := lineOf s k
  let wasKeep := match old with
    | some l => l.keep
    | none => false
  let asKeep := if keep then decide (kept < 12) && decide (mine < keepLimit s part) || wasKeep else wasKeep
  let (ses, par) := match old with
    | some l => (l.session, if keep && !l.keep then part else l.part)
    | none => (session, part)
  let victim := if old.isSome || decide (here.length < 17) then none
    else match lruOf (here.filter (fun l => !(l.keep))) with
      | some v => some v
      | none => lruOf here
  let rest := match victim with
    | none => others
    | some v => others.filter (fun l => !(l.unit == v))
  { s with mem := { s.mem with lines := { unit := k, keep := asKeep, session := ses, part := par, used := s.time } :: rest } }

/-- The Stack Cache after a read of a unit under a hint: DEFAULT 0, STREAM 1, KEEP 2, LAST 3 (R242). -/
def cacheRead (s : State) (st u hint session part : Nat) (rebuilt : Bool) : State :=
  match lineOf s (17 * st + u), hint with
  | some _, 3 => { s with mem := { s.mem with lines := s.mem.lines.filter (fun l => !(l.unit == 17 * st + u)) } }
  | some _, h => touchLine s st u (h == 2) session part
  | none, 0 => if rebuilt then s else touchLine s st u false session part
  | none, 2 => if rebuilt then s else touchLine s st u true session part
  | none, _ => s

/-- The Stack Cache after a write of a unit under a hint (R241, R242). -/
def cacheWrite (s : State) (st u hint session part : Nat) : State :=
  match lineOf s (17 * st + u), hint with
  | some _, h => touchLine s st u (h == 2) session part
  | none, 0 => touchLine s st u false session part
  | none, 2 => touchLine s st u true session part
  | none, _ => s

/-- Invalidate every line that a session allocated (R244). -/
def dropLines (s : State) (session : Nat) : State :=
  { s with mem := { s.mem with lines := s.mem.lines.filter (fun l => !(l.session == session)) } }

/-- The first request of the same engine that is still at the port (R245). -/
def firstAtPort (s : State) (r : MemReq) : Bool :=
  match s.mem.reqs.find? (fun m => m.phase == .port && m.tile == r.tile && m.engine == r.engine) with
  | none => false
  | some m => m.id == r.id

/-- Change a request. -/
def setReq (s : State) (r : MemReq) : State :=
  { s with mem := { s.mem with reqs := s.mem.reqs.map (fun m => if m.id == r.id then r else m) } }

/-- The bytes that a request is charged (R246). -/
def reqCharge (r : MemReq) : Nat := if r.write then 256 * enableOps r.enable else 256

/-- BUCKET_RELEASE: a request leaves its tile's port: the partition's bucket is not negative (R245, R246). -/
def execBucketRelease (part req : Nat) (s : State) : Res :=
  match s.mem.reqs.find? (fun m => m.id == req && m.phase == .port) with
  | none => no "BUCKET_RELEASE"
  | some r =>
    if r.part = part ∧ firstAtPort s r = true ∧ 0 ≤ partLevel s part then
      .next (setReq (charge s part (reqCharge r)) { r with phase := .fabric })
    else no "BUCKET_RELEASE"

/-- The handle of the group that a request's tile runs. -/
def reqHandle (s : State) (r : MemReq) : Nat :=
  match tileGroup s r.tile with
  | none => 0
  | some g => g.handle

/-- The unit fails its CRC from now on, or its burst fails every retry (R239). -/
def markBad (s : State) (st u src : Nat) : State :=
  { s with mem := { s.mem with bad := s.mem.bad ++ [(st, u)], linkBad := s.mem.linkBad ++ (if src = 0x21 then [(st, u)] else []) } }

/-- A direct read, of a header, an instruction, an operand of the Public-Key Engine or a transfer, will meet the unit so: with this CRC, or with
none where every retry of a burst fails. The read itself, which follows, finds the unit failing (R236, R239; DESIGN CHOICE, log 28). -/
def meetDirect (s : State) (st u : Nat) (crc : Option Nat) : State :=
  let src := if crc.isNone then 0x21 else 0x20
  if crc = some (crcEntry s st u) ∨ servedDirect s st u = false then s else markBad s st u src

/-- A read has met the stored unit so: its CRC differs from the table's, or every retry of a burst has failed; where the stack serves it,
the unit counts as one that fails its CRC (R236, R239). The source of the detection comes with it. -/
def meetUnit (s : State) (st u : Nat) (met : ReadMet) : State × Option Nat :=
  let fails := match met with
    | .unit c => if c = crcEntry s st u then none else some 0x20
    | .burst => some 0x21
    | _ => none
  match fails with
  | some src =>
    if servedDirect s st u then (markBad s st u src, some src) else (s, none)
  | none => (s, none)

/-- The line that a hit has met fails its stored CRC: its record, and the line goes (R333, R335). -/
def dropLine (s : State) (part handle st u : Nat) : State :=
  let s := logFault s 0x25 0 0xFF 0xFF (unitChannel s st u) part handle (4096 * st)
  { s with mem := { s.mem with lines := s.mem.lines.filter (fun l => !(l.unit == 17 * st + u)) } }

/-- The CRC of a line that a hit has met differs from the one it holds (R240, R333). -/
def lineFails (s : State) (st u : Nat) (met : ReadMet) : Bool :=
  match met with
  | .line c => c != crcEntry s st u
  | _ => false

/-- The unit's line is in the Stack Cache and serves a read (R240, R242). -/
def lineServes (s : State) (st u : Nat) : Bool := (lineOf s (17 * st + u)).isSome && unitReadable s st u && s.mem.trained

/-- A read that misses is served from the stack, reconstructed, or finds its unit lost; none while it must wait (R239, R242, R346). -/
def serveMiss (s : State) (r : MemReq) (met : ReadMet) : Option State :=
  let st := r.addr / 4096
  let u := r.addr / 256 % 16
  let h := reqHandle s r
  let (s, src) := meetUnit s st u met
  if unitWaits s st u then none
  else
    let alloc := allocates s st u
    match fetchUnitBy (src.getD (badSource s st u)) s r.part h st u with
    | (s, some b) => some (setReq (cacheRead s st u r.hint r.session r.part (!alloc)) { r with phase := .served, data := b })
    | (s, none) => some (objectLost s h r.part st)

/-- A read request is served from its line or its stack, reconstructed, or finds its unit lost; `met` is what the checks of the line and of the
stored unit see (R235, R236, R238 to R243, R246, R253, R260, R333, R346). -/
def readUnitOf (req : Nat) (met : ReadMet) (s : State) : Res :=
  match s.mem.reqs.find? (fun m => m.id == req && m.phase == .fabric && !(m.write)) with
  | none => no "MEM_READ"
  | some r =>
    let st := r.addr / 4096
    let u := r.addr / 256 % 16
    if capacity ≤ r.addr then .fault (.noSuchAddress (r.addr / 256))
    else
      let hit := lineServes s st u
      if hit && lineFails s st u met then
        match serveMiss (dropLine s r.part (reqHandle s r) st u) r .clean with
        | some t => .next t
        | none => no "MEM_READ"
      else if hit then
        let s := cacheRead (charge s r.part (-256)) st u r.hint r.session r.part false
        .next (setReq s { r with phase := .served, data := unitBytes s st u })
      else
        match serveMiss s r met with
        | some t => .next t
        | none => no "MEM_READ"

/-- MEM_READ: a Stack Controller serves the read of a stream engine. Where the command names a unit, the read is a direct one, which another
row carries out, and what it will meet there is all that this row gives (R236, R239). -/
def execMemRead (req : ReadEvent) (s : State) : Res :=
  match req.met with
  | .direct unit crc => if s.mem.trained then .next (meetDirect s (unit / 17) (unit % 17) crc) else no "MEM_READ"
  | met => readUnitOf req.req met s

/-- The covered units whose channel is in a calibration pause are held in its write buffer (R252). -/
def buffer (s : State) (st : Nat) (us : List Nat) : State :=
  us.foldl (fun s u =>
    let c := unitChannel s st u
    let x := channelOf s c
    if x.state == .pause then setChannel s c { x with buffered := x.buffered ++ [17 * st + u] } else s) s

/-- MEM_WRITE: the Stack Controllers apply a write to a stripe and acknowledge it (R235 to R243, R252, R253). -/
def execMemWrite (req : Nat) (s : State) : Res :=
  match s.mem.reqs.find? (fun m => m.id == req && m.phase == .fabric && m.write) with
  | none => no "MEM_WRITE"
  | some r =>
    if capacity ≤ r.addr then .fault (.noSuchAddress (r.addr / 256))
    else if !(s.mem.trained) then no "MEM_WRITE"
    else
      let st := r.addr / 4096
      let s := writeStripe s r.part (reqHandle s r) st r.data r.enable
      let us := writtenUnits s st r.enable
      let s := us.foldl (fun s u => cacheWrite s st u r.hint r.session r.part) (buffer s st us)
      .next (setReq s { r with phase := .served, data := [], enable := [] })

/-- KEEP_EXPIRY: a KEEP line that nothing has touched for 100 ms becomes a DEFAULT line (R243). -/
def execKeepExpiry (unit : Nat) (s : State) : Res :=
  match lineOf s unit with
  | none => no "KEEP_EXPIRY"
  | some l =>
    if l.keep && decide (l.used + 100000000 ≤ s.time) then
      .next { s with mem := { s.mem with lines := s.mem.lines.map (fun x => if x.unit == unit then { x with keep := false } else x) } }
    else no "KEEP_EXPIRY"

end Sys2Proof.Machine
end

