-- ==== Sys2Proof/Machine/Rings.lean ====
section
/-! DEFINITION. Doorbells, rings and interrupts: KICK_ALL to DOORBELL_RECORD_ARRIVAL, the ring registers, halts and messages. -/

namespace Sys2Proof.Machine

/-- The function exists and its registers are reachable: the LINK domain runs (R409, R421). -/
def fnReach (s : State) (fn : Nat) : Bool := domainRuns s 1 && (fnRecOf s fn).present

/-- The local numbers of the function's enabled submission rings. -/
def enabledSqs (s : State) (fn : Nat) : List Nat :=
  let r := fnRecOf s fn
  (s.hi.sqs.filter (fun p => p.2.enabled && decide (r.sqBase ≤ p.1) && decide (p.1 < r.sqBase + r.sqCount))).map
    (fun p => p.1 - r.sqBase)

/-- The local numbers of the function's enabled completion rings. -/
def enabledCqs (s : State) (fn : Nat) : List Nat :=
  let r := fnRecOf s fn
  (s.hi.cqs.filter (fun p => p.2.enabled && decide (r.cqBase ≤ p.1) && decide (p.1 < r.cqBase + r.cqCount))).map
    (fun p => p.1 - r.cqBase)

/-- The union of two sets of rings. -/
def union (a b : List Nat) : List Nat := a ++ b.filter (fun x => !(a.contains x))

/-- Request a fetch of doorbell records, merged with one that is pending (R277). -/
def requestFetch (s : State) (fn : Nat) (sqs cqs : List Nat) : State :=
  let p := pageOf s fn
  setPage s fn { p with fetching := true, fetchSq := union p.fetchSq sqs, fetchCq := union p.fetchCq cqs }

/-- A write to HI_KICK (R277, R302). -/
def kick (s : State) (fn : Nat) (v : BitVec 32) : State :=
  if bitAt v.toNat 31 then requestFetch s fn (enabledSqs s fn) (enabledCqs s fn)
  else
    let i := fld v.toNat 0 12
    match sqGlobal s fn i with
    | none => s
    | some g =>
      let q := sqOf s g
      if q.enabled then requestFetch s fn [i] [q.cq - (fnRecOf s fn).cqBase] else s

/-- KICK_ALL (R277). -/
def execKickAll (fn : Nat) (s : State) : Res :=
  if fnReach s fn then .next (kick s fn 0x80000000) else no "KICK_ALL"

/-- KICK_RING (R277). -/
def execKickRing (fn ring : Nat) (s : State) : Res :=
  if fnReach s fn && decide (ring < 4096) then .next (kick s fn (BitVec.ofNat 32 ring)) else no "KICK_RING"

/-- MIN of HI_FN_POLL: values above 100 are taken as 100 (R302). -/
def pollMin (p : FnPage) : Nat := Nat.min (fld p.poll 0 8) 100

/-- MAX of HI_FN_POLL: above 100 taken as 100, below MIN taken as MIN (R278, R302). -/
def pollMax (p : FnPage) : Nat := Nat.max (Nat.min (fld p.poll 8 8) 100) (pollMin p)

/-- The poll timer of the function runs and has expired (R278). -/
def pollDue (s : State) (fn : Nat) : Bool :=
  let p := pageOf s fn
  fnReach s fn && decide (0 < pollMin p) && decide (p.pollAt ≤ s.time)

/-- POLL_TIMER: every enabled ring's record is fetched; the period follows from what the fetch finds (R277, R278). -/
def execPollTimer (fn : Nat) (s : State) : Res :=
  if pollDue s fn then
    let s := requestFetch s fn (enabledSqs s fn) (enabledCqs s fn)
    let p := pageOf s fn
    .next (setPage s fn { p with polled := true, pollAt := s.time + 1000 * p.period })
  else no "POLL_TIMER"

/-- The host address of the doorbell record of a local ring: submission rings first, completion rings after them (R276). -/
def recAddr (s : State) (fn : Nat) (sub : Bool) (i : Nat) : Nat :=
  let p := pageOf s fn
  hostKey p.dbrPasid (p.dbrBase + 64 * (if sub then i else (fnRecOf s fn).sqCount + i))

/-- The TAIL or HEAD that a fetch returned for a ring, bytes 0 to 3 of its record (R276); the old one when the record was not among those
returned. -/
def recValue (s : State) (fn : Nat) (recs : List DbRec) (sub : Bool) (i old : Nat) : Nat :=
  match recs.find? (fun r => r.addr == recAddr s fn sub i) with
  | some r => le r.data 0 4
  | none => old

/-- A fetched TAIL lets a stopped ring go on (R279). -/
def takeTail (fn : Nat) (recs : List DbRec) (s : State) (i : Nat) : State :=
  match sqGlobal s fn i with
  | none => s
  | some g =>
    let q := sqOf s g
    if q.enabled then setSq s g { q with tail := recValue s fn recs true i q.tail, stopped := false } else s

/-- A fetched HEAD (R276, R288). -/
def takeHead (fn : Nat) (recs : List DbRec) (s : State) (i : Nat) : State :=
  match cqGlobal s fn i with
  | none => s
  | some g =>
    let c := cqOf s g
    if c.enabled then setCq s g { c with head := recValue s fn recs false i c.head } else s

/-- The fetched records carry a new TAIL or a new HEAD (R278). -/
def newWork (s : State) (fn : Nat) (recs : List DbRec) : Bool :=
  let p := pageOf s fn
  p.fetchSq.any (fun i => match sqGlobal s fn i with
    | some g => recValue s fn recs true i (sqOf s g).tail != (sqOf s g).tail
    | none => false) ||
  p.fetchCq.any (fun i => match cqGlobal s fn i with
    | some g => recValue s fn recs false i (cqOf s g).head != (cqOf s g).head
    | none => false)

/-- The next period of the poll timer: MIN after new work, doubled up to MAX after a poll that found none (R278). -/
def nextPeriod (p : FnPage) (found : Bool) : Nat :=
  if found then pollMin p else if p.polled then Nat.min (2 * p.period) (pollMax p) else p.period

/-- What a read of host memory for the function returns: an error where the request cannot be sent (R300). -/
def linkData (s : State) (fn : Nat) (data : HostData) : HostData := if linkOpen s fn then data else none

/-- A fetch of doorbell records is pending for the function and may be made: the function is a bus master and the management
core is not restarting (R277, R302, R343). -/
def fetchOpen (s : State) (fn : Nat) : Bool :=
  fnReach s fn && (cfgOf s fn).busMaster && linkOpen s fn && !s.flt.mcRestarting && (pageOf s fn).fetching

/-- When the poll timer fires next, after a fetch (R278): a poll's new period counts from its poll; a KICK that finds new work brings the
next poll to MIN from now at the latest, and one that finds none leaves the timer alone. -/
def nextPoll (s : State) (p : FnPage) (found : Bool) : Nat :=
  if p.polled then p.pollAt - 1000 * p.period + 1000 * nextPeriod p found
  else if found then Nat.min p.pollAt (s.time + 1000 * pollMin p)
  else p.pollAt

/-- The held entries of a partition. -/
def partEntries (s : State) (p : Nat) : Nat := (s.ts.entries.filter (fun e => partOfFn s e.fn == p)).length

/-- The scoreboard, or the partition's share of it, is full (R304, R305). -/
def boardFull (s : State) (fn : Nat) : Bool :=
  decide (16384 ≤ s.ts.entries.length) || decide ((partOf s (partOfFn s fn)).entries ≤ partEntries s (partOfFn s fn))

/-- DOORBELL_RECORD_ARRIVAL; a function that had paused fetching goes on where an entry has become free (R276 to R279, R305). -/
def execDoorbellRecordArrival (fn : Nat) (recs : List DbRec) (s : State) : Res :=
  if fetchOpen s fn then
    let p := pageOf s fn
    let found := newWork s fn recs
    let s1 := p.fetchCq.foldl (takeHead fn recs) s
    let s2 := p.fetchSq.foldl (takeTail fn recs) s1
    let p' := pageOf s2 fn
    .next (setPage s2 fn { p' with fetching := false, polled := false, fetchSq := [], fetchCq := [], paused := p'.paused && boardFull s2 fn,
                                   period := nextPeriod p found, pollAt := nextPoll s p found })
  else no "DOORBELL_RECORD_ARRIVAL"

/-- A submission ring halts with a status: HALTED, HI_SQ_HALT, ERROR and notice 1 (R290, R291). -/
def haltSq (s : State) (fn g status : Nat) : State :=
  let q := sqOf s g
  let s := setSq s g { q with halted := true, halt := status }
  let s := setPage s fn { pageOf s fn with error := true }
  notice s fn 1 status (handleOf g q.epoch q.expect)

/-- HOST_FETCH_ERROR: a descriptor or doorbell fetch of the ring ended with a link error (R290). -/
def execHostFetchError (fn ring : Nat) (s : State) : Res :=
  match sqGlobal s fn ring with
  | none => no "HOST_FETCH_ERROR"
  | some g =>
    let q := sqOf s g
    if fnReach s fn && q.enabled && !q.halted then .next (haltSq s fn g stHostAbort) else no "HOST_FETCH_ERROR"

/-- The entry last written to a ring and not yet consumed, as it is recorded, to be written again (R292): the write that met the
error is the ring's newest (DESIGN CHOICE, log 46). -/
def lastEntry (s : State) (g : Nat) : List HeldEntry :=
  let c := cqOf s g
  match s.hi.recent.find? (fun p => p.ring == g) with
  | some r =>
    if (r.num + 1) % 2 ^ 32 = c.next ∧ 1 ≤ cqUnread c then
      [{ entry := splice r.entry 1 [BitVec.ofNat 8 (le r.entry 1 1 % 0x80)], detail := r.detail, noirq := r.noirq,
         notice := le r.entry 0 1 == 3, done := none }]
    else []
  | none => []

/-- A completion ring halts, as `c` says apart from that: ERROR, AER, and notice 2 unless it is the notice ring (R292). -/
def haltCq (s : State) (cq : Nat) (c : Cq) : State :=
  let fn := cqOwner s cq
  let s := linkError (setCq s cq { c with halted := true }) fn
  if cqGlobal s fn ((pageOf s fn).noticeCq % 512) = some cq then s else notice s fn 2 stHostAbort cq

/-- An entry that met an error counts for no message until it is written again (R289, R292). -/
def uncount (c : Cq) (again : List HeldEntry) : Cq :=
  if again.any (fun e => !e.noirq && !e.notice) then
    { c with count := c.count - 1, firstAt := if c.count ≤ 1 then none else c.firstAt }
  else c

/-- CQ_WRITE_ERROR: the completion ring halts and holds the entry that met the error and every later one (R292). -/
def execCqWriteError (cq : Nat) (s : State) : Res :=
  let c := cqOf s cq
  if domainRuns s 1 && c.enabled && !c.halted then
    let again := lastEntry s cq
    let back := { uncount c again with held := again, next := (c.next + 2 ^ 32 - again.length) % 2 ^ 32 }
    .next (haltCq s cq { back with notices := if again.any (fun e => e.notice) then c.notices.dropLast else c.notices })
  else no "CQ_WRITE_ERROR"

/-- The TIME of HI_CQ_COAL in ns; a value outside 1 to 1,000 is open (R302; log 7). -/
def coalTime (c : Cq) : Nat := 1000 * orOpen 1 (fld c.coal 16 16) 1 1000

/-- MSIX_COALESCE_TIMER (R289). -/
def execMsixCoalesceTimer (cq : Nat) (s : State) : Res :=
  let c := cqOf s cq
  match c.firstAt with
  | none => no "MSIX_COALESCE_TIMER"
  | some t =>
    if domainRuns s 1 && c.enabled && !c.halted && decide (t + coalTime c ≤ s.time) then
      if linkOpen s (cqOwner s cq) then .next (cqSignal s cq) else .next (haltCq s cq c)
    else no "MSIX_COALESCE_TIMER"

/-- A write of HI_SQ_RESET for the selected ring: E, EPOCH, fetched descriptors discarded, a halted ring goes on (R284, R290,
R301, R302, R306). -/
def sqReset (s : State) (fn : Nat) (v : BitVec 32) : State :=
  match sqGlobal s fn (pageOf s fn).sqSel with
  | none => s
  | some g =>
    let q := sqOf s g
    setSq s g { q with expect := v.toNat, epoch := (q.epoch + 1) % 2 ^ 20, halted := false, tail := v.toNat,
                       stopped := false, outcome := [], consumed := 0 }

/-- HI_SQ_RESET. -/
def execHiSqReset (fn : Nat) (v : BitVec 32) (s : State) : Res :=
  if fnReach s fn then .next (sqReset s fn v) else no "HI_SQ_RESET"

/-- A write of HI_SQ_CFG for the selected ring: the fields apply only when ENABLE goes from 0 to 1, which clears the outcome
record; clearing ENABLE stops fetching (R300, R301, R302, R306). -/
def writeSqCfg (s : State) (fn : Nat) (v : BitVec 32) : State :=
  match sqGlobal s fn (pageOf s fn).sqSel with
  | none => s
  | some g =>
    if tdiLocked s fn then s
    else
      let q := sqOf s g
      let x := v.toNat
      let cfg := fld x 31 1 <<< 31 + fld x 16 9 <<< 16 + fld x 0 4
      if bitAt x 31 && !q.enabled then
        setSq s g { q with cfg := cfg, enabled := true, slots := orOpen 2 (fld x 0 4) 4 15,
                           cq := (fnRecOf s fn).cqBase + fld x 16 9, outcome := [], enabledAt := s.ts.accepts }
      else if bitAt x 31 then setSq s g { q with cfg := cfg }
      else setSq s g { q with cfg := cfg, enabled := false }

/-- The selected submission ring of the function, when the selector names one. -/
def selSq (s : State) (fn : Nat) : Option Nat := sqGlobal s fn (pageOf s fn).sqSel

/-- The selected completion ring of the function, when the selector names one. -/
def selCq (s : State) (fn : Nat) : Option Nat := cqGlobal s fn (pageOf s fn).cqSel

/-- SQ_ENABLE: ENABLE from 0 to 1 (R302). -/
def execSqEnable (fn : Nat) (v : BitVec 32) (s : State) : Res :=
  match selSq s fn with
  | none => no "SQ_ENABLE"
  | some g =>
    if fnReach s fn && bitAt v.toNat 31 && !(sqOf s g).enabled then .next (writeSqCfg s fn v) else no "SQ_ENABLE"

/-- SQ_DISABLE: ENABLE cleared while accepted work goes on (R301). -/
def execSqDisable (fn : Nat) (v : BitVec 32) (s : State) : Res :=
  match selSq s fn with
  | none => no "SQ_DISABLE"
  | some g =>
    if fnReach s fn && !(bitAt v.toNat 31) && (sqOf s g).enabled then .next (writeSqCfg s fn v) else no "SQ_DISABLE"

/-- A submission ring uses the completion ring, or a handle awaits an entry in it (R301). -/
def cqInUse (s : State) (g : Nat) : Bool :=
  s.hi.sqs.any (fun p => p.2.enabled && p.2.cq == g) || s.ts.entries.any (fun e => e.cq == g) ||
    (cqOf s g).held.any (fun h => !h.notice)

/-- A write of HI_CQ_CFG for the selected ring (R300, R301, R302). -/
def writeCqCfg (s : State) (fn : Nat) (v : BitVec 32) : State :=
  match cqGlobal s fn (pageOf s fn).cqSel with
  | none => s
  | some g =>
    if tdiLocked s fn then s
    else
      let c := cqOf s g
      let x := v.toNat
      let cfg := fld x 31 1 <<< 31 + fld x 16 11 <<< 16 + fld x 0 5
      if bitAt x 31 && !c.enabled then
        setCq s g { c with cfg := cfg, enabled := true, halted := false, log2 := orOpen 3 (fld x 0 5) 6 16,
                           vector := fld x 16 11, next := 0, head := 0, reserved := 0, notices := [], held := [],
                           count := 0, firstAt := none }
      else if bitAt x 31 then setCq s g { c with cfg := cfg }
      else if c.enabled && cqInUse s g then s
      else setCq s g { c with cfg := cfg, enabled := false }

/-- CQ_ENABLE: ENABLE from 0 to 1; the ring starts at slot 0, pass 0 (R302). -/
def execCqEnable (fn : Nat) (v : BitVec 32) (s : State) : Res :=
  match selCq s fn with
  | none => no "CQ_ENABLE"
  | some g =>
    if fnReach s fn && bitAt v.toNat 31 && !(cqOf s g).enabled then .next (writeCqCfg s fn v) else no "CQ_ENABLE"

/-- CQ_DISABLE: ENABLE cleared, or the write discarded while the ring is in use (R301). -/
def execCqDisable (fn : Nat) (v : BitVec 32) (s : State) : Res :=
  match selCq s fn with
  | none => no "CQ_DISABLE"
  | some g =>
    if fnReach s fn && !(bitAt v.toNat 31) && (cqOf s g).enabled then .next (writeCqCfg s fn v) else no "CQ_DISABLE"

/-- A write of HI_CQ_CTRL for the selected ring: RESUME writes the held entries in order, and halts again where the first cannot be sent
(R300); bit 1 clears NOTICE_LOST (R292,
R302). -/
def writeCqCtrl (s : State) (fn : Nat) (v : BitVec 32) : State :=
  match selCq s fn with
  | none => s
  | some g =>
    let c := cqOf s g
    let s := if bitAt v.toNat 1 then setCq s g { c with lost := false } else s
    let c := cqOf s g
    if bitAt v.toNat 0 && c.halted then
      if linkOpen s fn || c.held.isEmpty then
        c.held.foldl (fun s e => settle (writeEntry s g e) e.done) (setCq s g { c with halted := false, held := [] })
      else linkError s fn
    else s

/-- RESUME. -/
def execResume (fn : Nat) (s : State) : Res :=
  match selCq s fn with
  | none => no "RESUME"
  | some _ => if fnReach s fn then .next (writeCqCtrl s fn 1) else no "RESUME"

/-- CLEAR_NOTICE_LOST. -/
def execClearNoticeLost (fn : Nat) (s : State) : Res :=
  match selCq s fn with
  | none => no "CLEAR_NOTICE_LOST"
  | some _ => if fnReach s fn then .next (writeCqCtrl s fn 2) else no "CLEAR_NOTICE_LOST"

/-- One entry of a function's MSI-X table. -/
def msixOf (s : State) (fn vec : Nat) : MsixEntry := (s.hi.msix.get fn []).get vec msix0

/-- Replace one entry of a function's MSI-X table. -/
def setMsix (s : State) (fn vec : Nat) (e : MsixEntry) : State :=
  { s with hi := { s.hi with msix := s.hi.msix.put fn ((s.hi.msix.get fn []).put vec e) } }

/-- Send the message that is pending for a vector that nothing masks any more (R289). -/
def msixFlush (s : State) (fn vec : Nat) : State :=
  let e := msixOf s fn vec
  if e.pend && !(bitAt e.ctrl 0) && (cfgOf s fn).msix && !((cfgOf s fn).msixMask) then
    msixSend (setMsix s fn vec { e with pend := false }) fn vec
  else s

/-- Clear an MSI-X entry's mask, sending the message that is pending (R289). -/
def msixUnmask (s : State) (fn vec : Nat) : State :=
  msixFlush (setMsix s fn vec { msixOf s fn vec with ctrl := 0 }) fn vec

/-- MSIX_UNMASK (R289). -/
def execMsixUnmask (fn vec : Nat) (s : State) : Res :=
  if fnReach s fn && decide (vec < vectorCount fn) then .next (msixUnmask s fn vec) else no "MSIX_UNMASK"

end Sys2Proof.Machine
end

