-- ==== Sys2Proof/Machine/Rows.lean ====
section
/-! DEFINITION. What the rows of MMA and VE commands read and leave: planes (R69 to R72), MUL rows with their checks (R64 to R74), RUN rows
(R88 to R100); the jobs that are under way, and the writes of an epoch (R83, R166). -/

namespace Sys2Proof.Machine

/-- Split a byte string into little-endian elements of `w` bytes. -/
def lanes (w n : Nat) (l : List Byte) : List Nat := (List.range n).map (fun i => le l (w * i) w)

/-- The weight of a plane row (R72). -/
def rowWeight (r : List Nat) : Nat := (r.foldl (· + ·) 0) % 0x7FFFFFFF

/-- A column sum reduced modulo its column's modulus (R64, R66). -/
def reduceCol (mode q : Nat) (v : Int) : Nat :=
  if 2 ≤ mode ∨ q = 0 then imod v (2 ^ (8 * laneW mode)) else imod v q

/-- The modulus of each column: MQ, or the vector; the low 32 bits in the 32-bit modes; none in the RING modes (R70). -/
def loadModuli (x : Tile) (l : Nat) (w : Cmd) : List Nat :=
  let mode := lMode w
  let cut := fun v => if wide mode then v else v % 2 ^ 32
  if 2 ≤ mode then List.replicate (arrayN mode) 0
  else if lVec w then
    (List.range (arrayN mode)).map (fun (i : Nat) =>
      cut (leNat (spadBytes x (if i < 32 then l else l + 1) (spadMod (lMqAddr w + 8 * i)) 8)))
  else List.replicate (arrayN mode) (cut (lMq w))

/-- The step in cycles between plane rows (R82). -/
def rowStep (mode : Nat) : Nat := if wide mode then 2 else 1

/-- Plane row `k` as MMA.LOAD reads it (R70). -/
def loadRow (x : Tile) (l : Nat) (w : Cmd) (k : Nat) : List Nat :=
  lanes (laneW (lMode w)) (arrayN (lMode w)) (spadBytes x (l + 2 + rowStep (lMode w) * k) (spadMod (lBaddr w + k * lBstride w)) 256)

/-- The plane that MMA.LOAD leaves: rows from ROWS upward zero (R69, R70). -/
def loadPlane (x : Tile) (l : Nat) (w : Cmd) : Plane :=
  let rows := (List.range (lRows w)).map (loadRow x l w)
  { mode := lMode w, rows := rows, moduli := loadModuli x l w, weights := rows.map rowWeight }

/-- The coefficient index e of plane element [k][c] (R71). -/
def toeIndex (w : Cmd) (k c : Nat) : Nat := imod ((ltM0 w : Int) + c - ltJ0 w - k) (2 * ltN w)

/-- A coefficient negated modulo the column's modulus (R71). -/
def negCol (mode q v : Nat) : Nat := if 2 ≤ mode ∨ q = 0 then imod (-(v : Int)) (2 ^ (8 * laneW mode)) else imod (-(v : Int)) q

/-- The words of g that the tile of LOADT depends on, in the order of e (R71). -/
def toeWords (w : Cmd) : List Nat :=
  let k := arrayK (lMode w)
  let n := arrayN (lMode w)
  let first := toeIndex w (k - 1) 0
  ((List.range (n + k - 1)).map (fun i =>
    word64 ((first + i) % ltN w * laneW (lMode w)))).eraseDups.map (fun (o : Nat) => spadMod (ltGaddr w + o))

/-- The cycle in which LOADT reads a word, within L + 2 to L + 5: four a cycle, in the order in which the elements name them (R82; the order is
a DESIGN CHOICE, log 46). -/
def toeCycle (l : Nat) (ws : List Nat) (a : Nat) : Nat := l + 2 + ws.idxOf a / 4

/-- Coefficient `i` of g. -/
def toeCoef (x : Tile) (l : Nat) (w : Cmd) (ws : List Nat) (i : Nat) : Nat :=
  let a := spadMod (ltGaddr w + i * laneW (lMode w))
  leNat (spadBytes x (toeCycle l ws (word64 a)) a (laneW (lMode w)))

/-- The plane that MMA.LOADT leaves (R71). -/
def toePlane (x : Tile) (l : Nat) (w : Cmd) : Plane :=
  let mode := lMode w
  let ms := loadModuli x l w
  let ws := toeWords w
  let el := fun k c =>
    let e := toeIndex w k c
    let v := toeCoef x l w ws (e % ltN w)
    if e < ltN w then v else if ltNeg w then negCol mode (ms.getD c 0) v else v
  let rows := (List.range (arrayK mode)).map (fun k => (List.range (arrayN mode)).map (el k))
  { mode := mode, rows := rows, moduli := ms, weights := rows.map rowWeight }

/-- The commit offset of a MUL (R82). -/
def mulCommit (mode : Nat) : Nat := if wide mode then 214 else 204

/-- The C_in read offset of a MUL (R82). -/
def mulCin (mode : Nat) : Nat := if wide mode then 197 else 193

/-- The elements of an A row: lanes, or signed bytes with AFMT = 1 (R64, R68). -/
def aRow (w : Cmd) (mode : Nat) (l : List Byte) : List Int :=
  if mAfmt w then l.map (fun b => b.toInt)
  else (lanes (laneW mode) (mKlen w mode) l).map (fun (v : Nat) => (v : Int))

/-- One column sum of one row: Σ A[i][k] × B[k][n] (R64). -/
def colSum (a : List Int) (rows : List (List Nat)) (n : Nat) : Int :=
  match a, rows with
  | x :: a, r :: rows => x * (r.getD n 0 : Int) + colSum a rows n
  | _, _ => 0

/-- The bytes that row `i` of a MUL commits, as the tile stands with the rows before it (R64, R66, R82). -/
def mulData (p : Plane) (w : Cmd) (c : Nat) (x : Tile) (i : Nat) : List Byte :=
  let mode := p.mode
  let a := (mAaddr w + i * mAstride w) % spadSize
  let o := (mCaddr w + i * mCstride w) % spadSize
  let av := aRow w mode (spadBytes x (c + i) a (mArow w mode))
  let cin := if mAcc w then lanes (laneW mode) (mNcol w mode) (spadBytes x (c + mulCin mode + i) o (mCrow w mode)) else []
  ((List.range (mNcol w mode)).map (fun k =>
    leBytes (laneW mode) (reduceCol mode (p.moduli.getD k 0) (colSum av p.rows k + (cin.getD k 0 : Int))))).flatten

/-- An exact value reduced modulo `q`; a ring lane reduces modulo 2^w (R90). -/
def modQ (w q : Nat) (v : Int) : Nat := if q = 0 then imod v (2 ^ w) else imod v q

/-- b^e mod q. -/
def powMod (b q : Nat) : Nat → Nat
  | 0 => 1 % q
  | e + 1 => powMod b q e * b % q

/-- R^−1 mod q for odd q, R = 2^w. -/
def invR (w q : Nat) : Nat := powMod ((q + 1) / 2) q w

/-- The Montgomery factor of MULM and MACM: R^−1, or 1 where they compute as MULB and MACB (R90). -/
def montFactor (w q : Nat) : Nat := if q % 2 = 1 then invR w q else 1

/-- Digit `l` of the balanced decomposition of x in base 2^b (R94). -/
def digitLoop (w b x : Nat) : Nat → Nat → Nat → Int → Int
  | 0, _, _, d => d
  | n + 1, i, carry, _ =>
    let u := (if w ≤ b * i then 0 else x / 2 ^ (b * i) % 2 ^ b) + carry
    if 2 ^ (b - 1) ≤ u then digitLoop w b x n (i + 1) 1 ((u : Int) - (2 ^ b : Nat)) else digitLoop w b x n (i + 1) 0 u

/-- DIGIT, written modulo 2^w (R94). -/
def digitOf (w x l b : Nat) : Nat := imod (digitLoop w b x (l + 1) 0 0 0) (2 ^ w)

/-- The condition of CSEL (R93). -/
def cselHolds (w cond x b : Nat) : Bool :=
  match cond % 8 with
  | 0 => x == b
  | 1 => !(x == b)
  | 2 => decide (x < b)
  | 3 => decide (b ≤ x)
  | 4 => decide (sext w x < sext w b)
  | 5 => decide (sext w b ≤ sext w x)
  | _ => false

/-- A stage operation on one lane, apart from the permutations (R93). -/
def laneOp (w : Nat) (g : Stage) (q x b c : Nat) : Nat :=
  let a := (b + g.imm) % w
  match g.op with
  | 0x01 => modQ w q (x + b : Nat)
  | 0x02 => modQ w q ((x : Int) - b)
  | 0x03 => modQ w q (-(x : Int))
  | 0x04 => modQ w q x
  | 0x05 => modQ w q (x * b : Nat)
  | 0x06 => modQ w q (x * b * montFactor w q : Nat)
  | 0x07 => modQ w q (x * b + c : Nat)
  | 0x08 => modQ w q (x * b * montFactor w q + c : Nat)
  | 0x09 => modQ w q ((c : Int) - (x * b : Nat))
  | 0x10 => (x + b) % 2 ^ w
  | 0x11 => imod ((x : Int) - b) (2 ^ w)
  | 0x12 => x * b % 2 ^ w
  | 0x13 => x * b / 2 ^ w
  | 0x14 => x &&& b
  | 0x15 => x ||| b
  | 0x16 => x ^^^ b
  | 0x18 => x * 2 ^ a % 2 ^ w
  | 0x19 => x / 2 ^ a
  | 0x1A => imod (sext w x / (2 ^ a : Nat)) (2 ^ w)
  | 0x1B => if a = 0 then x else (x + 2 ^ (a - 1)) / 2 ^ a % 2 ^ (w - a)
  | 0x20 => if cselHolds w g.imm x b then c else x
  | 0x21 => Nat.min x b
  | 0x22 => Nat.max x b
  | 0x28 => if q = 0 then x else if q < 2 * (x % q) then imod ((x % q : Nat) - (q : Int)) (2 ^ w) else x % q
  | 0x29 => if q = 0 then x else imod (sext w x) q
  | 0x2A => if q = 0 then x else (x * q + 2 ^ (w - 1)) / 2 ^ w % q
  | 0x2B => if q = 0 then x else (x % q * 2 ^ w + q / 2) / q % 2 ^ w
  | 0x2C => digitOf w x g.imm g.imm2
  | _ => x

/-- The stage uses the modulus of its QSEL (R93, R113). -/
def usesQ (op : Nat) : Bool := (decide (0x01 ≤ op) && decide (op ≤ 0x09)) || (decide (0x28 ≤ op) && decide (op ≤ 0x2B))

/-- Scalar `i` in the width of the chain (R92). -/
def scalarOf (l : Latch) (i : Nat) : Nat := (l.scalars.getD (i % 8) 0).toNat % 2 ^ chW l.rec_

/-- The modulus of lane `c` in modulus register `n` (R90). -/
def laneMod (l : Latch) (n c : Nat) : Nat := ((l.qregs.get n []).getD c 0) % 2 ^ chW l.rec_

/-- Operand by source code (R91). -/
def operandOf (l : Latch) (streams : List (List Nat)) (first : List Nat) (g : Stage) (code c : Nat) : Nat :=
  match code with
  | 4 => scalarOf l g.sidx
  | 5 => scalarOf l (g.sidx + 1)
  | 6 => first.getD c 0
  | 7 => 0
  | v => (streams.getD v []).getD c 0

/-- The input lane that a permutation stage puts at output lane `c` (R95). -/
def permLane (l : Latch) (g : Stage) (b0 tag c : Nat) : Nat :=
  let n := chL l.rec_
  match g.op with
  | 0x30 => (l.perms.get (g.imm % 4) []).getD c 0 % n
  | 0x31 => (c + b0 + g.imm) % n
  | 0x32 => n - 1 - c
  | _ => ((l.scalars.getD g.sidx 0).toNat % 2 ^ 32 * c + tag) % n

/-- One stage on a row (R88, R93, R95). -/
def stageRow (l : Latch) (streams : List (List Nat)) (tag : Nat) (x first : List Nat) (g : Stage) : List Nat :=
  let b := fun c => operandOf l streams first g g.srcb c
  (List.range (chL l.rec_)).map (fun c =>
    if 0x30 ≤ g.op ∧ g.op ≤ 0x33 then x.getD (permLane l g (b 0) tag c) 0
    else laneOp (chW l.rec_) g (laneMod l g.qsel c) (x.getD c 0) (b c) (operandOf l streams first g g.srcc c))

/-- The results of the stages of a row, in order. -/
def chainRows (l : Latch) (streams : List (List Nat)) (tag : Nat) : List Nat → List Nat → List Stage → List (List Nat)
  | _, _, [] => []
  | x, first, g :: r =>
    let y := stageRow l streams tag x first g
    y :: chainRows l streams tag y (if first.isEmpty then y else first) r

/-- The RU's operation on values (R99). -/
def ruOp (l : Latch) (vs : List Nat) : Nat :=
  match chRop l.rec_ with
  | 1 => vs.foldl (· ^^^ ·) 0
  | 2 => vs.foldl (· ||| ·) 0
  | 3 => vs.foldl Nat.max 0
  | 4 => vs.foldl Nat.min (2 ^ chW l.rec_ - 1)
  | _ => modQ (chW l.rec_) (laneMod l (chRqsel l.rec_) 0) ((vs.foldl (· + ·) 0 : Nat) : Int)

/-- The address and the tag of row `j` of stream `v` (R96, R110). -/
def rowAddr (l : Latch) (w : Cmd) (v j : Nat) : Nat × Nat :=
  let r := l.rec_
  if v = 0 ∧ chWalk r then
    let n := chWalkR r
    let k := (l.scalars.getD (chWalkSidx r) 0).toNat % 2 ^ 32
    let v : Int := (k * (j % n) : Nat) + ((k : Int) - 1) / 2
    ((vrIaddr w 0 + (j / n * n + imod v n) * chIstride r 0) % spadSize, imod (v / (n : Int)) (chL r))
  else ((vrIaddr w v + j * chIstride r v) % spadSize, 0)

/-- d + 4S of a RUN (R112). -/
def runDepth (w : Cmd) (r : Nat) : Nat := vrD w r + 4 * chS r

/-- The results of the stages on row `j` of a RUN that issued in cycle `i`, as the tile stands with the rows before it (R88, R112). -/
def runStages (l : Latch) (w : Cmd) (i : Nat) (x : Tile) (j : Nat) : List (List Nat) :=
  let r := l.rec_
  let streams := (List.range 4).map (fun k =>
    if chReads r k then lanes (chW r / 8) (chL r) (spadBytes x (i + j) (rowAddr l w k j).1 256) else [])
  chainRows l streams (rowAddr l w 0 j).2 (streams.getD 0 []) [] (chStages r)

/-- The bytes that row `j` commits (R97). -/
def runData (l : Latch) (w : Cmd) (i : Nat) (x : Tile) (j : Nat) : List Byte :=
  ((((runStages l w i x j).getLastD []).take (chLanes l.rec_)).map (leBytes (chOsize l.rec_))).flatten

/-- The RU's value of row `j` (R98, R99). -/
def runTap (l : Latch) (w : Cmd) (i : Nat) (x : Tile) (j : Nat) : Nat :=
  ruOp l (((runStages l w i x j).getD (chRtap l.rec_) []).take (chLanes l.rec_))

/-- The RU's writes of a RUN: cycle, address, bytes (R100, R112). -/
def ruWrites (l : Latch) (w : Cmd) (i : Nat) (vals : List Nat) : List (Nat × Nat × List Byte) :=
  let r := l.rec_
  let n := chL r
  let b := chW r / 8
  let m := vrM w
  let c0 := i + runDepth w r + 8
  match chRmode r with
  | 1 => (List.range (cdiv m n)).map (fun p =>
      (c0 + Nat.min (n * (p + 1) - 1) (m - 1), (vrRaddr w r + 256 * p) % spadSize,
        (((vals.drop (n * p)).take n).map (leBytes b)).flatten))
  | 2 => [(c0 + m, vrRaddr w r, leBytes b (ruOp l vals))]
  | _ => []

/-- A column sum as `Int` for every logical column of row `i` of a MUL, before C_in (R64, R72). -/
def mulSums (p : Plane) (w : Cmd) (c : Nat) (x : Tile) (i : Nat) : List Int :=
  let av := aRow w p.mode (spadBytes x (c + i) ((mAaddr w + i * mAstride w) % spadSize) (mArow w p.mode))
  (List.range (arrayN p.mode)).map (colSum av p.rows)

/-- The C_in row that row `i` of a MUL reads; with ACC = 0 none (R64, R82). -/
def mulCinRow (p : Plane) (w : Cmd) (c : Nat) (x : Tile) (i : Nat) : List Nat :=
  if mAcc w then lanes (laneW p.mode) (mNcol w p.mode)
    (spadBytes x (c + mulCin p.mode + i) ((mCaddr w + i * mCstride w) % spadSize) (mCrow w p.mode)) else []

/-- p_c of the checksum column (R72). -/
def checkPrime : Nat := 0x7FFFFFFF

/-- The checksum column's sum of row `i`: Σ (A[i][k] mod p_c) × w[k] (R72). -/
def checkSum (a : List Int) (weights : List Nat) : Nat :=
  ((a.zip weights).map (fun p => imod p.1 checkPrime * p.2)).foldl (· + ·) 0 % checkPrime

/-- The check of R72: the residues of the column sums add up to the checksum column's sum. -/
def checksumOk (a : List Int) (weights : List Nat) (sums : List Int) : Bool :=
  (sums.map (fun s => imod s checkPrime)).foldl (· + ·) 0 % checkPrime == checkSum a weights

/-- The modulus by which a final reducer divides: q_n, or 2^(8W) in a ring column (R66, R74). -/
def reducerMod (mode q : Nat) : Nat := if 2 ≤ mode ∨ q = 0 then 2 ^ (8 * laneW mode) else q

/-- The quotient that a final reducer computes; in a ring column V shifted right by 8W bits (R74). -/
def reducerQuot (mode q : Nat) (v : Int) : Int := v / (reducerMod mode q : Int)

/-- The check of R74: V mod 7, from the accumulator and from C_in, agrees with t × q_n + r. -/
def reducerOk (mode q : Nat) (sum : Int) (cin : Nat) : Bool :=
  let v := sum + (cin : Int)
  (sum % 7 + ((cin % 7 : Nat) : Int)) % 7 == (reducerQuot mode q v % 7 * (((reducerMod mode q) % 7 : Nat) : Int) + ((reduceCol mode q v % 7 : Nat) : Int)) % 7

/-- Bit `j` of an accumulator flipped (R358). -/
def flipAcc (j : Nat) (v : Int) : Int := if v / (2 ^ j : Nat) % 2 = 0 then v + (2 ^ j : Nat) else v - (2 ^ j : Nat)

/-- The fault of row `i` of a MUL: source 1 where the checksum column fails, 2 where a reducer's check does, none where both pass; `flip` is
the bit of the first accumulator that an armed injection flips (R72, R74, R333, R358). -/
def mulRowFault (p : Plane) (w : Cmd) (c : Nat) (x : Tile) (i : Nat) (flip : Option Nat) : Option Nat :=
  let av := aRow w p.mode (spadBytes x (c + i) ((mAaddr w + i * mAstride w) % spadSize) (mArow w p.mode))
  let sums := match flip, mulSums p w c x i with
    | some j, v :: r => flipAcc j v :: r
    | _, l => l
  let cin := mulCinRow p w c x i
  if !(checksumOk av p.weights sums) then some 1
  else if (sums.zipIdx).all (fun s => reducerOk p.mode (p.moduli.getD s.2 0) s.1 (cin.getD s.2 0)) then none else some 2

/-- The first of `n` rows of a MUL that fails a check, with its source; the injected flip meets row 0 (R73, R358). -/
def mulFault (p : Plane) (w : Cmd) (c : Nat) (x : Tile) (n : Nat) (flip : Option Nat) : Option (Nat × Nat) :=
  (List.range n).findSome? (fun i => (mulRowFault p w c x i (if i = 0 then flip else none)).map (fun f => (i, f)))

/-- The plane that a load leaves, as the tile's writes stand; a plane that nothing loaded is zero (R69 to R71). -/
def planeOf (x : Tile) : Option (Cmd × Nat) → Plane
  | none => plane0
  | some (w, l) => if ekind 0 w = .load then loadPlane x l w else toePlane x l w

/-- One write of the epoch as R83 and R166 have it; of an empty string none. -/
def putWrite (x : Tile) (c a : Nat) (d : List Byte) (unit num pc : Nat) : Tile :=
  if d.isEmpty then x
  else { x with writes := x.writes ++ [{ cyc := c, addr := a % spadSize, data := d, unit := unit, num := num, pc := pc }] }

/-- Row `i` of a MUL commits (R64, R82). -/
def mulRow (p : Plane) (e : QEntry) (c : Nat) (x : Tile) (i : Nat) : Tile :=
  putWrite x (c + mulCommit p.mode + i) ((mCaddr e.word + i * mCstride e.word) % spadSize) (mulData p e.word c x i) 0 e.num e.pc

/-- Row `j` of a RUN commits (R88, R97, R112). -/
def runRow (l : Latch) (e : QEntry) (i : Nat) (x : Tile) (j : Nat) : Tile :=
  putWrite x (i + runDepth e.word l.rec_ + j) ((vrOaddr e.word + j * chOstride l.rec_) % spadSize) (runData l e.word i x j) 1 e.num e.pc

/-- The RU's value of every row of a RUN (R98, R99). -/
def runVals (l : Latch) (w : Cmd) (i : Nat) (x : Tile) : List Nat := (List.range (vrM w)).map (runTap l w i x)

/-- One write of the RU of a RUN, `k` of its list (R100, R112). -/
def ruRow (l : Latch) (e : QEntry) (i : Nat) (x : Tile) (k : Nat) : Tile :=
  match (ruWrites l e.word i (runVals l e.word i x))[k]? with
  | none => x
  | some p => putWrite x p.1 p.2.1 p.2.2 7 e.num e.pc

/-- The commits of a job in order: cycle and what commits. -/
def Job.commits : Job → List (Nat × (Tile → Tile))
  | .mul e c ld => 
    let mode := match ld with
      | none => plane0.mode
      | some (w, _) => lMode w
    (List.range (mM e.word)).map (fun i => (c + mulCommit mode + i, fun x => mulRow (planeOf x ld) e c x i))
  | .run e i l =>
    (List.range (vrM e.word)).map (fun j => (i + runDepth e.word l.rec_ + j, fun x => runRow l e i x j)) ++
      (ruWrites l e.word i []).mapIdx (fun k p => (p.1, fun x => ruRow l e i x k))

/-- The number of a job's command. -/
def Job.num : Job → Nat
  | .mul e _ _ => e.num
  | .run e _ _ => e.num

/-- The reads of a job: cycle, address, length. -/
def Job.reads : Job → List (Nat × Nat × Nat)
  | .mul e c ld =>
    let w := e.word
    let mode := match ld with
      | none => plane0.mode
      | some (v, _) => lMode v
    (List.range (mM w)).map (fun i => (c + i, (mAaddr w + i * mAstride w) % spadSize, mArow w mode)) ++
      (if mAcc w then (List.range (mM w)).map (fun i => (c + mulCin mode + i, (mCaddr w + i * mCstride w) % spadSize, mCrow w mode)) else [])
  | .run e i l =>
    ((chStreams l.rec_).map (fun v => (List.range (vrM e.word)).map (fun j => (i + j, (rowAddr l e.word v j).1, 256)))).flatten

/-- The reads of the last load of each plane. -/
def loadJobReads (x : Tile) : List (Nat × Nat × Nat) :=
  (x.loads.map (fun p =>
    let (w, l) := p.2
    if ekind 0 w = .load then (List.range (lRows w)).map (fun k => (l + 2 + rowStep (lMode w) * k, spadMod (lBaddr w + k * lBstride w), 256))
    else (toeWords w).map (fun a => (toeCycle l (toeWords w) a, a, 64)))).flatten

/-- A row of a load, a MUL or a RUN that has issued reads a byte of [a, a+n) after cycle `c`. -/
def readLater (x : Tile) (c a n : Nat) : Bool :=
  (loadJobReads x ++ (x.jobs.map Job.reads).flatten).any (fun r => decide (c < r.1) && (overlaps r.2.1 r.2.2 (a % spadSize) n ||
    overlaps r.2.1 r.2.2 (a % spadSize + spadSize) n || overlaps (r.2.1 + spadSize) r.2.2 (a % spadSize) n))

/-- The last cycle in which a row of a load, a MUL or a RUN that has issued reads. -/
def lastRead (x : Tile) : Nat := (loadJobReads x ++ (x.jobs.map Job.reads).flatten).foldl (fun m r => Nat.max m r.1) 0

/-- The rows of every job again, in the order of their commits, over the writes of the other units: a row reads what stands in the cycle
of its read, whichever command issued later left it there (R83, R166). -/
def rebuild (x : Tile) : Tile :=
  let nums := x.jobs.map Job.num
  let ext := x.writes.filter (fun w => !(exactUnit w.unit && nums.contains w.num))
  let rows := sortBy (fun (a b : Nat × (Tile → Tile)) => decide (a.1 ≤ b.1)) (x.jobs.map Job.commits).flatten
  let y := rows.foldl (fun y r => r.2 y) { x with writes := ext }
  { y with planes := y.loads.foldl (fun t p => t.put p.1 (planeOf y (some p.2))) y.planes }

/-- A tile that stood as `x`, with the rows of one more job: rows under way that read them later read them. -/
def withRows (x y : Tile) : Tile :=
  if (y.writes.drop x.writes.length).any (fun w => readLater x w.cyc w.addr w.data.length) then rebuild y else y

/-- Add one write to the epoch; the rows under way that read the bytes later read them. -/
def addWrite (x : Tile) (c a : Nat) (d : List Byte) (unit num pc : Nat) : Tile :=
  let y := putWrite x c a d unit num pc
  if readLater x c a d.length then rebuild y else y

end Sys2Proof.Machine
end

