-- ==== Sys2Proof/Machine/Banks.lean ====
section
/-! DEFINITION. The scratchpad's banks: the accesses of an epoch, conflicts of the MMA and the VE (R86, R115), the slots of the lower ranks
(R163, R164, R429) and what moves when a higher rank takes a bank; late checks of marks and holds (R83, R146, R147). -/

namespace Sys2Proof.Machine

/-- The word addresses that a claim uses in cycle `c`. -/
def claimAt (k : Claim) (c : Nat) : List Nat :=
  if k.c0 ≤ c then
    if (c - k.c0) % k.step = 0 then
      match k.addrs[(c - k.c0) / k.step]? with
      | none => []
      | some a => (List.range k.nw).map (fun i => 64 * ((a / 64 + i) % 131072))
    else []
  else []

/-- Ranks of claims: the MMA and the VE lie below 12 in the order of R86 and R115, the core is 12, Q_SP 13, and 14 is rank 5 of R163. -/
def coreRank : Nat := 12
/-- Q_SP (R163). -/
def spRank : Nat := 13
/-- SE0, SE1 and remote accesses (R163). -/
def lowRank : Nat := 14

/-- A claim of a rank below `r` uses the bank in cycle `c` (R163). -/
def bankTaken (x : Tile) (r c bank : Nat) : Bool :=
  x.claims.any (fun k => decide (k.rank < r) && (claimAt k c).any (fun a => bankOf a == bank))

/-- The first cycle from `c` in which a higher rank than `r` takes none of the banks (R133, R163). -/
def freeFrom (x : Tile) (r : Nat) (banks : List Nat) : Nat → Nat → Nat
  | 0, c => c
  | fuel + 1, c => if banks.any (bankTaken x r c) then freeFrom x r banks fuel (c + 1) else c

/-- The cycles in which claims stand, a bound for the search of a slot. -/
def claimFuel (x : Tile) : Nat := x.claims.foldl (fun n k => n + k.addrs.length) 1

/-- The first cycle from `c` in which the words of [a, a+n) are free at rank 3 (R133, R163). -/
def grantFrom (x : Tile) (a n c : Nat) : Nat := freeFrom x coreRank ((wordsOf a n).map bankOf) (claimFuel x) c

/-- The claim of one word of Q_SP, a stream engine or a remote access. -/
def wordClaim (unit rank num pc a : Nat) (write : Bool) : Claim :=
  { num := num, unit := unit, pc := pc, rank := rank, c0 := 0, step := 1, nw := 1, write := write, addrs := [word64 a] }

/-- The bank of a word claim. -/
def claimBank (k : Claim) : Nat := bankOf (k.addrs.headD 0)

/-- The words that a unit reads or writes at most in one ACLK: 16 written by a fill, 8 by a copy and by a stream engine (R167, R429). -/
def wordCap (x : Tile) (k : Claim) : Nat :=
  if k.unit = 4 then
    match x.spBusy with
    | some e => if ekind 4 e.word = .copy then 8 else 16
    | none => 16
  else 8

/-- The unit has made its accesses of this kind in cycle `c`; remote accesses have no limit of their own (R429). -/
def capReached (x : Tile) (k : Claim) (c : Nat) : Bool :=
  !(k.unit == 6) && decide (wordCap x k ≤ (x.claims.filter (fun l => decide (coreRank < l.rank) && l.c0 == c && l.unit == k.unit &&
    l.write == k.write)).length)

/-- The place of a rank-5 requester in the cyclic order SE0, SE1, REMOTE (R164). -/
def cyclicOf (unit : Nat) : Nat := if unit = 6 then 2 else unit - 2

/-- The requester that a bank granted last at rank 5 before cycle `c` (R164). -/
def lastGrant (x : Tile) (bank c : Nat) : Nat :=
  ((x.claims.filter (fun l => l.rank == lowRank && decide (l.c0 < c) && claimBank l == bank)).foldl (fun (b : Nat × Nat) l =>
    if b.1 ≤ l.c0 + 1 then (l.c0 + 1, cyclicOf l.unit) else b) (0, x.rank5.get bank 2)).2

/-- The record of every bank after the epoch (R164). -/
def rankRecord (x : Tile) : Tbl Nat := (List.range 64).map (fun b => (b, lastGrant x b (2 ^ 41)))

/-- Requester `u` comes before requester `v` in the cyclic order after `last` (R164). -/
def beats (last u v : Nat) : Bool := decide ((u + 2 - last) % 3 < (v + 2 - last) % 3)

/-- The low-rank claim that stands in the bank of `k` in cycle `c`. -/
def standing (x : Tile) (k : Claim) (c : Nat) : Option Claim :=
  x.claims.find? (fun l => decide (coreRank < l.rank) && l.c0 == c && claimBank l == claimBank k)

/-- The standing claim gives way to `k`: to a higher rank, to the requester that follows in the cyclic order, and to an earlier access of its
own requester, which keeps its walk or arrival order (R163, R164). -/
def yields (x : Tile) (k l : Claim) (c : Nat) : Bool :=
  decide (k.rank < l.rank) ||
    (k.rank == l.rank && (if k.unit = l.unit then decide (k.seq < l.seq)
      else k.rank == lowRank && beats (lastGrant x (claimBank k) c) (cyclicOf k.unit) (cyclicOf l.unit)))

/-- The words of the copy that Q_SP runs. -/
def copyWords (x : Tile) : Nat :=
  match x.spBusy with
  | some e => if ekind 4 e.word = .copy then scRows e.word * scRowlen e.word else 0
  | none => 0

/-- The write of a word that SP.COPY reads in `k`, where it stands less than four ACLK after the read (R172; that a word whose read is delayed
is written four ACLK after it at the earliest is a DESIGN CHOICE, log 46). -/
def follower (x : Tile) (k : Claim) : Option Claim :=
  if k.unit = 4 ∧ k.write = false then
    x.claims.find? (fun l => l.unit == 4 && l.write && l.num == k.num && l.seq == k.seq + copyWords x && decide (l.c0 < k.c0 + 4))
  else none

/-- `k` stands in its slot; a write that follows it too early leaves its own and requests again. -/
def seat (x : Tile) (k : Claim) : Tile × List (Claim × Nat) :=
  let y := { x with claims := x.claims ++ [k] }
  match follower y k with
  | none => (y, [])
  | some l => ({ y with claims := y.claims.erase l }, [(l, k.c0 + 4)])

/-- Give each low-rank access of a list the first slot from its cycle on. An access that gives way to another waits one ACLK and requests
again (R163, R164, R429). -/
def grantAll : Nat → Tile → List (Claim × Nat) → Tile
  | 0, x, ps => { x with claims := x.claims ++ ps.map (fun p => { p.1 with c0 := p.2 }) }
  | _ + 1, x, [] => x
  | fuel + 1, x, (k, c) :: r =>
    let free := !(bankTaken x k.rank c (claimBank k))
    match standing x k c with
    | none =>
      if free && !(capReached x k c) then
        let (y, f) := seat x { k with c0 := c }
        grantAll fuel y (f ++ r)
      else grantAll fuel x ((k, c + 1) :: r)
    | some l =>
      if free && yields x k l c && (!(capReached x k c) || (l.unit == k.unit && l.write == k.write)) then
        let (y, f) := seat { x with claims := x.claims.erase l } { k with c0 := c }
        grantAll fuel y ((l, c + 1) :: f ++ r)
      else grantAll fuel x ((k, c + 1) :: r)

/-- A bound for the search: every cycle that it passes holds a claim, and every access that gives way moves on. -/
def placeFuel (x : Tile) : Nat := (claimFuel x + 2) * (x.claims.length + 3)

/-- The slot of a low-rank access of `x` in `y`. -/
def slotIn (y : Tile) (k : Claim) : Nat :=
  match y.claims.find? (fun l => decide (coreRank < l.rank) && l.seq == k.seq) with
  | some l => l.c0
  | none => k.c0

/-- The accesses of `x` that stand elsewhere in `y`. -/
def movedClaims (x y : Tile) : List Claim := x.claims.filter (fun k => decide (coreRank < k.rank) && !(slotIn y k == k.c0))

/-- The access of a write of the epoch. -/
def isWriteOf (w : TimedWrite) (k : Claim) : Bool :=
  k.write && w.cyc == k.c0 && w.unit == k.unit && w.num == k.num && word64 w.addr == k.addrs.headD 0

/-- The command copies to scratchpad as an SE.WRITE: its words stay pending until its last write commits (R203). -/
def copiesOut (x : Tile) (num : Nat) : Bool := x.streams.vals.flatten.any (fun st => st.entry.num == num && st.op == 1 && st.dev == 3)

/-- The last cycle in which a command reads (`write` false) or writes words at the lower ranks, `c` for none. -/
def lastAccess (x : Tile) (num : Nat) (write : Bool) (c : Nat) : Nat :=
  (x.claims.filter (fun k => decide (coreRank < k.rank) && k.num == num && !(k.unit == 6) && k.write == write)).foldl
    (fun m k => Nat.max m k.c0) c

/-- What moves with the accesses that have moved: their writes, their marks and the ends of their holds. -/
def resettle (x y : Tile) : Tile :=
  let ks := movedClaims x y
  if ks.isEmpty then y
  else
    { y with
      writes := y.writes.map (fun w => match ks.find? (isWriteOf w) with
        | some k => { w with cyc := slotIn y k }
        | none => w),
      marks := y.marks.map (fun m => match ks.find? (fun k => k.write && m.num == k.num && m.commit.isSome) with
        | none => m
        | some _ =>
          if copiesOut x m.num then { m with commit := some (lastAccess y m.num true 0) }
          else match ks.find? (fun k => k.write && m.num == k.num && m.commit == some k.c0 && touchesWord m.addr m.len (k.addrs.headD 0)) with
            | some k => { m with commit := some (slotIn y k) }
            | none => m),
      holds := y.holds.map (fun h =>
        if !(h.exact) && ks.any (fun k => !(k.write) && k.num == h.num) then { h with release := h.release.map (Nat.max (lastAccess y h.num false 0)) }
        else h) }

/-- The claim of an access that requests from cycle `c` on, the next of all. -/
def nextClaim (x : Tile) (k : Claim) (c : Nat) : Claim := { k with c0 := c, seq := x.claims.foldl (fun n l => Nat.max n (l.seq + 1)) 0 }

/-- Place an access that requests from cycle `c` on; its slot. -/
def placeFrom (x : Tile) (k : Claim) (c : Nat) : Tile × Nat :=
  let k := nextClaim x k c
  let y := grantAll (placeFuel x) x [(k, c)]
  (resettle x y, slotIn y k)

/-- New claims of the MMA, the VE or the core stand; the lower ranks that meet them wait and request again (R163). -/
def addClaims (x : Tile) (ks : List Claim) : Tile :=
  let hit := x.claims.filter (fun l => decide (coreRank < l.rank) && ks.any (fun k => decide (k.rank < l.rank) &&
    (claimAt k l.c0).any (fun a => bankOf a == claimBank l)))
  let y := { x with claims := x.claims.filter (fun l => !(hit.contains l)) ++ ks }
  if hit.isEmpty then y else resettle x (grantAll (placeFuel y * (hit.length + 1)) y (hit.map (fun l => (l, l.c0 + 1))))

/-- The marks of command `num` on the word at `a` that end with cycle `c` end with cycle `z`. -/
def moveMarks (x : Tile) (num a c z : Nat) : Tile :=
  { x with marks := x.marks.map (fun m => if m.num == num && m.commit == some c && touchesWord m.addr m.len a then { m with commit := some z } else m) }

/-- One word written at a low rank in the first slot from cycle `c` on; the command's mark of the word ends with it. -/
def placeWrite (x : Tile) (rank c a : Nat) (d : List (Nat × List Byte)) (unit num pc : Nat) : Tile :=
  let (y, z) := placeFrom x (wordClaim unit rank num pc a true) c
  d.foldl (fun x p => addWrite x z p.1 p.2 unit num pc) (moveMarks y num a c z)

/-- One word read at a low rank from cycle `c` on. -/
def placeRead (x : Tile) (rank c a unit num pc : Nat) : Tile := (placeFrom x (wordClaim unit rank num pc a false) c).1

/-- The core's access to [a, a+n) in cycle `c` takes its banks (R163). -/
def coreClaim (x : Tile) (c a n : Nat) (write : Bool) : Tile :=
  addClaims x [{ num := 0, unit := 5, pc := x.pc, rank := coreRank, c0 := c, step := 1, nw := (wordsOf a n).length, write := write,
                 addrs := [a] }]

/-- The first conflict between two claims (R86, R115): the cycle and the word of the first. -/
def claimClash (k l : Claim) : Option (Nat × Nat) :=
  ((List.range k.addrs.length).filterMap (fun i =>
    let c := k.c0 + i * k.step
    let bs := (claimAt l c).map bankOf
    match (claimAt k c).find? (fun a => bs.contains (bankOf a)) with
    | none => none
    | some a => some (c, a))).head?

/-- BANK_CONFLICT between two claims: UNIT_A is granted the bank, UNIT_B loses it (R86, R115, R150); ADDRESS is the word of the newer
command (DESIGN CHOICE, log 46), also between two set-up reads of the VE in one ACLK, of which the newer wins: R115 gives them no order
(DESIGN CHOICE, log 46). -/
def clashViol (k l : Claim) : Option Detail :=
  match claimClash k l with
  | none => none
  | some (c, a) =>
    let w := if l.rank < k.rank then l else k
    let z := if l.rank < k.rank then k else l
    some { detail0 stBankConflict with unitA := w.unit, unitB := z.unit, bank := bankOf a, cycle := c, address := a,
                                       pc := w.pc }

/-- The conflicts of new claims of the MMA or the VE with those that stand and among themselves. -/
def claimViols (old : List Claim) : List Claim → List Detail
  | [] => []
  | k :: r => ((old.filter (fun l => decide (l.rank < coreRank))) ++ r).filterMap (clashViol k) ++ claimViols old r

/-- Reads of other commands that have a slot and meet a mark of command `num`, now that its commits are known (R83, R114, R146). -/
def lateReads (x : Tile) (num : Nat) : List Detail :=
  ((x.claims.filter (fun k => !(k.write))).map
    (markedReads x (x.marks.filter (fun m => m.num == num && m.commit.isSome)) (2 ^ 41))).flatten

/-- Reads that meet the words of writes which have given way, now that these commit later (R146, R163). -/
def movedViols (x y : Tile) : List Detail :=
  ((((movedClaims x y).filter (fun k => k.write)).map (fun k => k.num)).eraseDups.map (lateReads y)).flatten

/-- Writes of other commands into a range of command `num` while it was held, now that its release is known (R147, R209). -/
def lateWrites (x : Tile) (num : Nat) : List Detail :=
  heldWrites x (x.holds.filter (fun h => h.num == num && h.release.isSome)) (2 ^ 41)

end Sys2Proof.Machine
end

