-- ==== Sys2Proof/Machine/Issue.lean ====
section
/-! DEFINITION. When the head of each queue issues (R81, R84, R111, R113, R172, R202), what is due before a cycle, and the order in which waits
take their counts (R140). -/

namespace Sys2Proof.Machine

/-- The earliest cycle of a load under the structural rules (R84, fifth row). -/
def loadStruct (x : Tile) : Nat := x.mmaHist.foldl (fun m h => if h.mul then m else Nat.max m (h.cyc + 130)) 0

/-- The earliest load into a plane after the last MUL that reads it (R84, second row). -/
def loadPlaneFrom (x : Tile) (p : Nat) : Nat :=
  x.mmaHist.foldl (fun m h => if h.mul && h.plane == p then Nat.max m (h.cyc + h.rows + (if h.wide then 61 else 60)) else m) 0

/-- The earliest cycle of a load under the whole of R84. -/
def loadFull (x : Tile) (e : QEntry) : Nat := Nat.max (loadStruct x) (loadPlaneFrom x (lPlane e.word))

/-- The earliest MUL under the structural rules (R84, third and fourth rows). -/
def mulStruct (x : Tile) (mode : Nat) : Nat :=
  x.mmaHist.foldl (fun m h =>
    if h.mul then Nat.max m (h.cyc + h.rows + (if h.wide && !(wide mode) then 10 else 0)) else m) 0

/-- The earliest MUL after the load of its plane (R84, first row). -/
def mulPlaneFrom (x : Tile) (p : Nat) : Nat :=
  x.mmaHist.foldl (fun m h => if !h.mul && h.plane == p then Nat.max m (h.cyc + 4) else m) 0

/-- The earliest MUL whose C_in reads follow the commits of those rows by earlier MULs (R84, last row). -/
def mulCinFrom (x : Tile) (e : QEntry) (mode : Nat) : Nat :=
  let w := e.word
  if !(mAcc w) then 0
  else
    let rows := (List.range (mM w)).map (fun i => (i, (mCaddr w + i * mCstride w) % spadSize))
    (x.marks.filter (fun m => m.unit == 0 && decide (m.num < e.num))).foldl (fun b m =>
      match m.commit with
      | none => b
      | some k => rows.foldl (fun b r =>
          if (wordsOf r.2 (mCrow w mode)).any (touchesWord m.addr m.len) then Nat.max b (k + 1 - (mulCin mode + r.1)) else b) b) 0

/-- The earliest MUL under the whole of R84. -/
def mulFull (x : Tile) (e : QEntry) : Nat :=
  let mode := (x.planes.get (mPlane e.word) plane0).mode
  Nat.max (mulStruct x mode) (Nat.max (mulPlaneFrom x (mPlane e.word)) (mulCinFrom x e mode))

/-- The modulus registers that a chain uses. -/
def chQregs (r : Nat) : List Nat :=
  ((chStages r).filter (fun g => usesQ g.op)).map (fun g => g.qsel) ++
    (if chRmode r ≠ 0 ∧ chRop r = 0 then [chRqsel r] else [])

/-- The permutation tables that a chain uses. -/
def chTables (r : Nat) : List Nat := ((chStages r).filter (fun g => g.op == 0x30)).map (fun g => g.imm % 4)

/-- The earliest RUN under the structural rules (R113, rows 1 to 3). -/
def runStruct (x : Tile) (w : Cmd) (r : Nat) : Nat :=
  let p := runDepth w r
  x.veHist.foldl (fun m h =>
    if h.kind = 0 then
      Nat.max m (Nat.max (h.cyc + h.rows) (Nat.max (h.cyc + h.rows + h.depth - p)
        (if h.ru && chRmode r != 0 then h.cyc + h.depth + h.rows + 2 - p else 0)))
    else m) 0

/-- The set-up commands whose results the RUN uses, with the cycle from which it may issue and the resource (R113, R151). -/
def runSetups (x : Tile) (w : Cmd) (r : Nat) : List (Nat × Nat) :=
  x.veHist.filterMap (fun h =>
    if h.kind = 1 ∧ h.idx = vrChain w then some (h.cyc + 4, 0x10 + h.idx)
    else if h.kind = 3 ∧ (chTables r).contains h.idx then some (h.cyc + 4, 0x20 + h.idx)
    else if h.kind = 2 ∧ (chQregs r).contains h.idx then some (h.cyc + 20, 0x30 + h.idx)
    else none)

/-- What a RUN latches as it issues (R92, R102). -/
def runLatch (x : Tile) (e : QEntry) : Latch :=
  { rec_ := x.chains.get (vrChain e.word) 0, qregs := x.qregs, perms := x.perms, scalars := e.scalars }

/-- The earliest RUN under the whole of R113. -/
def runFull (x : Tile) (w : Cmd) (r : Nat) : Nat := (runSetups x w r).foldl (fun m p => Nat.max m p.1) (runStruct x w r)

/-- The earliest SETQ after the previous one (R113, last row). -/
def setqStruct (x : Tile) : Nat := x.veHist.foldl (fun m h => if h.kind = 2 then Nat.max m (h.cyc + 20) else m) 0

/-- The cycle in which the head of Q_SP issues: TIMED is ignored, and the command before it has committed its last write
(R172). -/
def spIssue (x : Tile) (e : QEntry) : Option Nat :=
  waitFrom x (hWaitSem e.word) (hWaitN e.word) (Nat.max (headFrom x 4 e) x.spLast)

/-- The streams of engine `e`, oldest first. -/
def streamsOf (x : Tile) (e : Nat) : List Stream := x.streams.get e []

/-- Every request of the engine's commands has left, and none waits in a header check, for SX, for a list or paused (R202). -/
def allSent (x : Tile) (e : Nat) : Bool :=
  (streamsOf x e).all (fun st => st.phase == .active && st.reqs.all (fun r => !(r.phase == .waiting)))

/-- The ACLK after the one in which the last request of a command left, or in which a key found that it needs no more (R202). -/
def sentAll (st : Stream) : Nat := st.reqs.foldl (fun m r => Nat.max m (r.at_ + 1)) st.first

/-- The same of all commands that an engine has issued, those that have signalled included (R202). -/
def sentBy (x : Tile) (e : Nat) : Nat := (streamsOf x e).foldl (fun m st => Nat.max m (sentAll st)) (x.seLast.get e 0)

/-- The bytes of scratchpad from which a write takes its elements have been read by the cycle before this one: each leaves with the block
of its elements (R203, R429). -/
def readBy (x : Tile) (st : Stream) (elems : List (Nat × Nat × Nat)) : Nat :=
  (x.claims.filter (fun k => k.rank == lowRank && k.num == st.entry.num && !(k.write) && !(k.unit == 6) &&
    elems.any (fun p => touchesWord p.2.1 p.2.2 (k.addrs.headD 0)))).foldl (fun m k => Nat.max m (k.c0 + 1)) 0

/-- The condition of R204 is met: every transfer of the command is complete, or for window writes issued. -/
def streamDone (st : Stream) : Bool :=
  st.phase == .active && st.reqs.all (fun r => if st.dev = 2 ∧ st.op = 1 then !(r.phase == .waiting) else r.phase == .done)

/-- The cycle in which the condition of R204 was met: the last word written in its slot, the last acknowledgement, or the last remote write
issued, once its bytes have been read. -/
def doneAt (x : Tile) (st : Stream) : Nat :=
  if st.dev = 2 ∧ st.op = 1 then st.reqs.foldl (fun m r => Nat.max m r.at_) (Nat.max st.last (lastAccess x st.entry.num false 0 + 1))
  else lastAccess x st.entry.num true st.last

/-- The issue cycle of a head of engine `e`; none while its WAIT or the requests of the command before keep it (R202). -/
def seIssue (x : Tile) (e : Nat) (q : QEntry) : Option Nat :=
  let w := q.word
  if allSent x e then
    waitFrom x (hWaitSem w) (hWaitN w) (Nat.max (headFrom x (2 + e) q) (Nat.max (if hTimed w then hAt w else 0) (sentBy x e)))
  else none

/-- The outcome of issue of the head of Q_MMA or Q_VE under the rules of its kind (R84, R113). -/
def exactIssue (x : Tile) (q : Nat) (e : QEntry) : Issue :=
  let mode := (x.planes.get (mPlane e.word) plane0).mode
  let r := (runLatch x e).rec_
  match ekind q e.word with
  | .load => issueOf x q e (loadStruct x) (loadFull x e)
  | .loadt => issueOf x q e (loadStruct x) (loadFull x e)
  | .mul => issueOf x q e (mulStruct x mode) (mulFull x e)
  | .run => issueOf x q e (runStruct x e.word r) (runFull x e.word r)
  | .setq => issueOf x q e (setqStruct x) (setqStruct x)
  | _ => issueOf x q e 0 0

/-- The cycle of an issue. -/
def Issue.cycle : Issue → Option Nat
  | .go c => some c
  | .late c => some c
  | .waiting => none

/-- The cycle in which the head of a queue issues, as the tile stands. -/
def goOf (x : Tile) (q : Nat) : Option Nat :=
  match queueOf x q with
  | [] => none
  | e :: _ =>
    if q < 2 then (exactIssue x q e).cycle
    else if q = 4 then (if x.spBusy.isNone then spIssue x e else none)
    else seIssue x (q - 2) e

/-- The cycle in which a pending core store writes, as the banks stand (R134). -/
def storeSlot (x : Tile) (p : PendStore) : Nat := grantFrom x p.addr p.data.length p.from_

/-- The cycle after the last write of Q_SP's command (R172). -/
def spEnd (x : Tile) (e : QEntry) : Nat := lastAccess x e.num true 0 + 1

/-- The last cycle in which an engine's newest command reads its block list; none when it reads none (R199). -/
def listEnd (x : Tile) (e : Nat) : Option Nat :=
  match (streamsOf x e).getLast? with
  | some st => if st.phase = .list then some (lastAccess x st.entry.num false st.issue) else none
  | none => none

/-- The cycle in which an engine's oldest command signals; none before its condition is met (R204). -/
def signalAt (x : Tile) (e : Nat) : Option Nat :=
  match streamsOf x e with
  | st :: _ => if streamDone st then some (doneAt x st + 1) else none
  | [] => none

/-- The numbers of a tile's own events: the heads of the queues 0 to 4, the core's store 5, the end of Q_SP's command 6, the block lists 7 and
8, the signals of the engines 9 and 10; the core itself is 11. -/
def coreEvent : Nat := 11

/-- The cycle of the next event of this number, as the tile stands. -/
def unitNext (x : Tile) (u : Nat) : Option Nat :=
  if u < 5 then goOf x u
  else match u with
    | 5 => x.store.map (storeSlot x)
    | 6 => x.spBusy.map (spEnd x)
    | 7 => listEnd x 0
    | 8 => listEnd x 1
    | 9 => signalAt x 0
    | 10 => signalAt x 1
    | _ => none

/-- No event of the tile other than `who` comes in a cycle before `c`, the core's instructions apart: what happens in cycle `c` is taken after
it. -/
def caughtUp (x : Tile) (who c : Nat) : Bool :=
  [0, 1, 2, 3, 4, 5, 6, 7, 8, 9, 10].all (fun u => u == who || (match unitNext x u with
    | none => true
    | some k => decide (c ≤ k)))

/-- The last cycle in which a unit of the tile has read what may come from outside it: an issue, or `seen` of the core. What arrives comes no
earlier. -/
def observed (x : Tile) : Nat := (x.issued.vals.flatten).foldl Nat.max x.seen

/-- The core has read a semaphore, the scratchpad, a queue or the checker in cycle `c`. -/
def saw (x : Tile) (c : Nat) : Tile := { x with seen := Nat.max x.seen c }

/-- The instruction at PC; none when PC has left the role's code (R131). -/
def coreWord (x : Tile) : Option Nat := if x.pc + 4 ≤ x.codeLen then some (leNat (x.code.rdN x.pc 4)) else none

/-- The cycle in which an instruction that names these registers issues (R132). -/
def startAt (x : Tile) (named : List Nat) : Nat := named.foldl (fun c n => Nat.max c (x.readyAt.get n 0)) x.cyc

/-- Scalar register `n`; s0 and numbers above 63 read as zero (R127). -/
def regOf (x : Tile) (n : Nat) : Word64 := if n = 0 ∨ 63 < n then 0 else x.regs.get n 0

/-- The window table that an access in cycle `c` meets: the one that stood until a later WIN took effect (R179, R183). -/
def windowsAt (x : Tile) (c : Nat) : Tbl Window :=
  match x.winPast.find? (fun p => decide (c ≤ p.1)) with
  | some p => p.2
  | none => x.windows

/-- The wait of the head of a queue: its semaphore and the cycle in which it takes its count. -/
def headWait (x : Tile) (q : Nat) : Option (Nat × Nat) :=
  match queueOf x q, goOf x q with
  | e :: _, some c => if hWaitN e.word = 0 then none else some (hWaitSem e.word, c)
  | _, _ => none

/-- The wait of the core: its semaphore and the cycle in which it takes its count. -/
def coreWait (x : Tile) : Option (Nat × Nat) :=
  match x.status with
  | .waiting (.sem sem n) => (waitFrom x sem n x.cyc).map (fun c => (sem, c))
  | .running =>
    match coreWord x with
    | none => none
    | some w => if iOp w = 0x21 ∧ iCount w ≠ 0 ∧ iCount w ≤ semAvail x (iA w) x.cyc then some (iA w, x.cyc) else none
  | _ => none

/-- The wait of `who` on a semaphore in cycle `c` is the next to be served: no other takes its count in an earlier cycle, and in the same
cycle Q_MMA, Q_VE, Q_SE0, Q_SE1, Q_SP and then the core come in this order (R140). -/
def waitTurn (x : Tile) (who sem c : Nat) : Bool :=
  [0, 1, 2, 3, 4, 5].all (fun u =>
    u == who || (match if u = 5 then coreWait x else headWait x u with
      | none => true
      | some (sem', k) => !(sem' == sem) || decide (c < k) || (c == k && decide (who < u))))

/-- The turn of the head of a queue that issues in cycle `c`. -/
def headTurn (x : Tile) (q c : Nat) (e : QEntry) : Bool := hWaitN e.word == 0 || waitTurn x q (hWaitSem e.word) c

end Sys2Proof.Machine
end

