-- ==== Sys2Proof/Machine/Jubo.lean ====
section
/-! DEFINITION. The Jubo core: arithmetic, bit fields, loads and stores, arguments, templates, branches, special registers, END. -/

namespace Sys2Proof.Machine

/-- Write register `n`, its result usable from cycle `rdy`; s0 and numbers above 63 discard (R127, R132). -/
def putReg (x : Tile) (n : Nat) (v : Word64) (rdy : Nat) : Tile :=
  if n = 0 ∨ 63 < n then x else { x with regs := x.regs.put n v, readyAt := x.readyAt.put n rdy }

/-- The instruction that issued in cycle `c` occupies the core for `occ` ACLK and goes on at `pc`. -/
def retire (x : Tile) (c occ pc : Nat) : Tile := { x with cyc := c + occ, pc := pc % 2 ^ 64 }

/-- The code of the tile is fetched on demand: streaming mode, with nothing preloaded (R135). -/
def onDemand (s : State) (g : Group) : Bool :=
  match imageOf s g.handle with
  | none => false
  | some i => i.streaming && i.codes.isEmpty

/-- The lines of a set of the instruction cache: 64 KB, 4-way, 256 B lines, so 64 sets (R135). -/
def cacheSet (x : Tile) (line : Nat) : List Nat := x.icache.get (line % 64) []

/-- The 256 B line of the code at offset `a` is held; in locked mode all of it is (R135). -/
def lineHere (s : State) (g : Group) (x : Tile) (a : Nat) : Bool :=
  !(onDemand s g) || decide (x.codeLen ≤ a) || (cacheSet x (a / 256)).contains (a / 256)

/-- The tile with a line of code in its instruction cache, in place of the one of its set that was not used for longest; the core has
stalled for `stall` cycles, and at least until what the tile has observed (R135; which line gives way is a DESIGN CHOICE, log 53). -/
def fillLine (x : Tile) (line stall : Nat) (bytes : List Byte) : Tile :=
  let set := line :: cacheSet x line
  let gone := set.drop 4
  { x with code := (gone.foldl (fun m l => m.clear (256 * l) 256) x.code).wrN (256 * line) bytes,
           icache := x.icache.put (line % 64) (set.take 4), cyc := Nat.max (x.cyc + stall) (observed x) }

/-- Where the role's code starts in device memory (R116). -/
def codeBase (s : State) (g : Group) (x : Tile) : Nat :=
  match imageOf s g.handle with
  | none => 0
  | some i => i.addr + (i.roles.getD x.role { codeOff := 0, codeLen := 0, entry := 0 }).codeOff

/-- What a refill of the instruction cache comes to. -/
inductive Refill where
  | here
  | wait
  | got (s : State)
  | lost (s : State)

/-- The core needs the line of code at offset `a`: on a miss a refill travels in the urgent class of device memory, and the core stalls
for a free number of cycles (R135, R247). -/
def refill (s : State) (g : Group) (t a : Nat) : Refill :=
  let x := tileOf s t
  if lineHere s g x a then .here
  else
    let line := a / 256
    let at_ := codeBase s g x + 256 * line
    let n := Nat.min 256 (x.codeLen - 256 * line)
    if devWaits s g.part at_ n then .wait
    else
      match devRead s g.part g.handle at_ n with
      | (s, none) => .lost (loseWork s g.handle)
      | (s, some b) =>
        let (v, s) := drawBytes s 2
        .got (setTile s t (fillLine x line (leNat v) b))

/-- The offset of the template that CLD reads: PC + 32 × OFF20, rounded down to 32 B (R130). -/
def cldAt (x : Tile) (w : Nat) : Int := ((x.pc : Int) + 32 * iOff20 w) / 32 * 32

/-- The running core of a live tile stands at an instruction with this OP, its code at hand: for CLD the template too. -/
def coreAt (s : State) (t op : Nat) : Option (Group × Tile × Nat) :=
  match live s t with
  | none => none
  | some g =>
    let x := tileOf s t
    match x.status, coreWord x with
    | .running, some w =>
      if iOp w = op && lineHere s g x x.pc && (op != 0x15 || lineHere s g x (cldAt x w).toNat) then some (g, x, w) else none
    | _, _ => none

/-- The core's next line of code that a refill must bring: that of PC, or that of the template of a CLD. -/
def missing (s : State) (t : Nat) : Option (Group × Nat) :=
  match live s t with
  | none => none
  | some g =>
    let x := tileOf s t
    if !(x.status == .running) then none
    else if !(lineHere s g x x.pc) then some (g, x.pc)
    else match coreWord x with
      | some w => if iOp w = 0x15 ∧ lineHere s g x (cldAt x w).toNat = false then some (g, (cldAt x w).toNat) else none
      | none => none

/-- Run `f` once the code at PC, and a template that it names, is at hand: at most two refills come first; a refill that meets a lost unit
ends the task (R135, R239). -/
def fetched : Nat → String → Nat → State → (State → Res) → Res
  | 0, row, _, _, _ => no row
  | n + 1, row, t, s, f =>
    match missing s t with
    | none => f s
    | some (g, a) =>
      match refill s g t a with
      | .here => f s
      | .wait => no row
      | .lost s' => .next s'
      | .got s' => fetched n row t s' f

/-- Run one instruction: it waits for the registers it names and issues before CYC passes 2^40 − 1 (R128, R132). `ok` says what the
row takes. -/
def coreInstrIf (row : String) (op t : Nat) (ok : Tile → Nat → Nat → Bool) (s : State) (named : Nat → List Nat)
    (f : State → Group → Tile → Nat → Nat → State) : Res :=
  fetched 3 row t s (fun s =>
    match coreAt s t op with
    | none => no row
    | some (g, x, w) =>
      let c := startAt x (named w)
      if ok x w c && decide (c < 2 ^ 40) then .next (f s g x w c) else no row)

/-- Run one instruction of a row that takes every word of its OP. -/
def coreInstr (row : String) (op t : Nat) (s : State) (named : Nat → List Nat) (f : State → Group → Tile → Nat → Nat → State) : Res :=
  coreInstrIf row op t (fun _ _ _ => true) s named f

/-- An ALU instruction with its result and latency; an armed CORE injection fires here (R132, R358). -/
def aluInstrIf (row : String) (op t : Nat) (ok : Tile → Nat → Nat → Bool) (s : State) (named : Nat → List Nat) (lat : Nat → Nat)
    (v : Tile → Nat → Word64) : Res :=
  coreInstrIf row op t ok s named (fun s g x w c =>
    match fireTile s g t 4 6 c 5 with
    | some s' => s'
    | none => setTile s t (retire (putReg x (iD w) (v x w) (c + lat w)) c 1 (x.pc + 4)))

/-- An ALU instruction of a row that takes every word of its OP. -/
def aluInstr (row : String) (op t : Nat) (s : State) (named : Nat → List Nat) (lat : Nat → Nat) (v : Tile → Nat → Word64) : Res :=
  aluInstrIf row op t (fun _ _ _ => true) s named lat v

/-- A Boolean as a register value. -/
def flag64 (b : Bool) : Word64 := if b then 1 else 0

/-- The ALU functions by FN (R130). -/
def aluFn (fn : Nat) (x y : Word64) : Word64 :=
  match fn with
  | 0x00 => x + y
  | 0x01 => x - y
  | 0x02 => x &&& y
  | 0x03 => x ||| y
  | 0x04 => x ^^^ y
  | 0x05 => x <<< (y.toNat % 64)
  | 0x06 => x >>> (y.toNat % 64)
  | 0x07 => x.sshiftRight (y.toNat % 64)
  | 0x08 => x * y
  | 0x09 => BitVec.ofNat 64 (x.toNat * y.toNat / 2 ^ 64)
  | 0x0A => flag64 (x.slt y)
  | 0x0B => flag64 (x.ult y)
  | 0x0C => if x.slt y then x else y
  | 0x0D => if x.slt y then y else x
  | 0x0E => if x.ult y then x else y
  | _ => if x.ult y then y else x

/-- ALU (R130, R132); an unlisted FN is the row CORE_NOP. -/
def execAlu (t : Nat) (s : State) : Res :=
  aluInstrIf "ALU" 0x00 t (fun _ w _ => decide (iFn w ≤ 0x0F)) s (fun w => [iD w, iA w, iB w])
    (fun w => if iFn w = 8 ∨ iFn w = 9 then 3 else 1) (fun x w => aluFn (iFn w) (regOf x (iA w)) (regOf x (iB w)))

/-- IMM14 sign-extended to 64 bits. -/
def imm64 (w : Nat) : Word64 := BitVec.ofInt 64 (iImm w)

/-- An immediate form: d ← f x imm (R130). -/
def immInstr (row : String) (op t : Nat) (s : State) (f : Word64 → Word64 → Word64) : Res :=
  aluInstr row op t s (fun w => [iD w, iA w]) (fun _ => 1) (fun x w => f (regOf x (iA w)) (imm64 w))

/-- ADDI. -/
def execAddi (t : Nat) (s : State) : Res := immInstr "ADDI" 0x01 t s (fun x i => x + i)
/-- ANDI. -/
def execAndi (t : Nat) (s : State) : Res := immInstr "ANDI" 0x02 t s (fun x i => x &&& i)
/-- ORI. -/
def execOri (t : Nat) (s : State) : Res := immInstr "ORI" 0x03 t s (fun x i => x ||| i)
/-- XORI. -/
def execXori (t : Nat) (s : State) : Res := immInstr "XORI" 0x04 t s (fun x i => x ^^^ i)
/-- SLLI. -/
def execSlli (t : Nat) (s : State) : Res := immInstr "SLLI" 0x05 t s (fun x i => x <<< (i.toNat % 64))
/-- SRLI. -/
def execSrli (t : Nat) (s : State) : Res := immInstr "SRLI" 0x06 t s (fun x i => x >>> (i.toNat % 64))
/-- SRAI. -/
def execSrai (t : Nat) (s : State) : Res := immInstr "SRAI" 0x07 t s (fun x i => x.sshiftRight (i.toNat % 64))
/-- SLTI. -/
def execSlti (t : Nat) (s : State) : Res := immInstr "SLTI" 0x08 t s (fun x i => flag64 (x.slt i))
/-- SLTIU. -/
def execSltiu (t : Nat) (s : State) : Res := immInstr "SLTIU" 0x09 t s (fun x i => flag64 (x.ult i))

/-- SETH: one 16-bit part of d (R130). -/
def execSeth (t : Nat) (s : State) : Res :=
  aluInstr "SETH" 0x0A t s (fun w => [iD w]) (fun _ => 1)
    (fun x w => BitVec.ofNat 64 (setFld (regOf x (iD w)).toNat (16 * iSh w) 16 (iImm16 w)))

/-- BFI (R130). -/
def execBfi (t : Nat) (s : State) : Res :=
  aluInstr "BFI" 0x0B t s (fun w => [iD w, iA w]) (fun _ => 1)
    (fun x w => BitVec.ofNat 64 (setFld (regOf x (iD w)).toNat (iB w) (iLen w) (regOf x (iA w)).toNat))

/-- BFX (R130). -/
def execBfx (t : Nat) (s : State) : Res :=
  aluInstr "BFX" 0x0C t s (fun w => [iD w, iA w]) (fun _ => 1)
    (fun x w => BitVec.ofNat 64 (fld (regOf x (iA w)).toNat (iB w) (iLen w)))

/-- The scratchpad address x + IMM14 modulo 8 MB (R130). -/
def memAddr (x : Tile) (w : Nat) : Nat := spadMod ((regOf x (iA w)).toNat + iImm w)

/-- The cycle in which a core access of `n` bytes that issues in cycle `c` has its banks: after every earlier store (R133, R134). -/
def loadCycle (x : Tile) (a n c : Nat) : Nat := grantFrom x a n (Nat.max c x.storeAt)

/-- A core load of `n` bytes: it follows every earlier store, waits for its banks, and reads (R132, R133). What the MMA, the VE and Q_SP
issue before it, and whatever else the tile does by then, comes first. -/
def coreLoad (row : String) (op n t : Nat) (s : State) : Res :=
  if (tileOf s t).store.isSome then no row
  else coreInstrIf row op t (fun x w c => caughtUp x coreEvent (loadCycle x (memAddr x w) n c + 1)) s
    (fun w => [iD w, iA w]) (fun s g x w c =>
    let a := memAddr x w
    let k := loadCycle x a n c
    match fireRead s g t a k 5 with
    | some s' => s'
    | none =>
      let lat := if 64 < a % 64 + n then 5 else 4
      let v := BitVec.ofNat 64 (leNat (spadBytes x k a n))
      settleTile s g t (saw (retire (putReg (coreClaim x k a n false) (iD w) v (k + lat)) k 1 (x.pc + 4)) k)
        (readViols (footOf s g.handle) x k a n 5 x.pc 0 false ++ movedViols x (coreClaim x k a n false)))

/-- LD. -/
def execLd (t : Nat) (s : State) : Res := coreLoad "LD" 0x10 8 t s
/-- LW. -/
def execLw (t : Nat) (s : State) : Res := coreLoad "LW" 0x11 4 t s

/-- A core store of `n` bytes: it issues, and requests its bank in the ACLK after (R134). -/
def coreStore (row : String) (op n t : Nat) (s : State) : Res :=
  if (tileOf s t).store.isSome then no row
  else coreInstr row op t s (fun w => [iD w, iA w]) (fun s _ x w c =>
    let k := Nat.max c (x.storeAt - 1)
    setTile s t { retire x k 1 (x.pc + 4) with
      store := some { from_ := k + 1, addr := memAddr x w, data := leBytes n (regOf x (iD w)).toNat, pc := x.pc } })

/-- ST. -/
def execSt (t : Nat) (s : State) : Res := coreStore "ST" 0x12 8 t s
/-- SW. -/
def execSw (t : Nat) (s : State) : Res := coreStore "SW" 0x13 4 t s

/-- CORE_STORE_WRITE: the store writes at the end of the first ACLK in which it is granted (R134, R165, R166). -/
def execCoreStoreWrite (t : Nat) (s : State) : Res :=
  match live s t with
  | none => no "CORE_STORE_WRITE"
  | some g =>
    let x := tileOf s t
    match x.store with
    | none => no "CORE_STORE_WRITE"
    | some p =>
      let k := storeSlot x p
      if !(caughtUp x 5 (k + 1)) then no "CORE_STORE_WRITE"
      else match fireMerge s g t p.addr p.data.length k 5 with
        | some s' => .next s'
        | none =>
          .next (settleTile s g t { addWrite (coreClaim x k p.addr p.data.length true) k p.addr p.data 5 0 p.pc with store := none, storeAt := k + 1 }
            (writeViols (footOf s g.handle) x k p.addr p.data.length 5 p.pc 0 ++ movedViols x (coreClaim x k p.addr p.data.length true)))

/-- ARG: one word of the argument store (R119, R130). -/
def execArg (t : Nat) (s : State) : Res :=
  coreInstr "ARG" 0x14 t s (fun w => [iD w, iA w]) (fun s _ x w c =>
    let i := imod ((regOf x (iA w)).toNat + iImm w) 512
    setTile s t (retire (putReg x (iD w) (x.args.get i 0) (c + 2)) c 1 (x.pc + 4)))

/-- A byte of the role's code; outside it reads as zero (R130). -/
def codeByte (x : Tile) (a : Int) : Byte := if 0 ≤ a ∧ a < x.codeLen then x.code.rd a.toNat else 0

/-- CLD: the 32-byte template at PC + 32 × OFF20, rounded down to 32 B (R130). -/
def execCld (t : Nat) (s : State) : Res :=
  coreInstr "CLD" 0x15 t s (fun w => [iD w, iD w + 1, iD w + 2, iD w + 3]) (fun s _ x w c =>
    let a := cldAt x w
    let word := fun (i : Nat) =>
      BitVec.ofNat 64 (leNat ((List.range 8).map (fun (j : Nat) => codeByte x (a + 8 * (i : Int) + (j : Int)))))
    let x' := (List.range 4).foldl (fun y i => putReg y (iD w + i) (word i) (c + 2)) x
    setTile s t (retire x' c 2 (x.pc + 4)))

/-- A conditional branch (R130, R132). -/
def branch (row : String) (op t : Nat) (s : State) (cond : Word64 → Word64 → Bool) : Res :=
  coreInstr row op t s (fun w => [iD w, iA w]) (fun s _ x w c =>
    setTile s t (if cond (regOf x (iD w)) (regOf x (iA w)) then retire x c 2 (imod (x.pc + 4 * iImm w) (2 ^ 64))
      else retire x c 1 (x.pc + 4)))

/-- BEQ. -/
def execBeq (t : Nat) (s : State) : Res := branch "BEQ" 0x18 t s (fun a b => a == b)
/-- BNE. -/
def execBne (t : Nat) (s : State) : Res := branch "BNE" 0x19 t s (fun a b => !(a == b))
/-- BLT. -/
def execBlt (t : Nat) (s : State) : Res := branch "BLT" 0x1A t s (fun a b => a.slt b)
/-- BGE. -/
def execBge (t : Nat) (s : State) : Res := branch "BGE" 0x1B t s (fun a b => !(a.slt b))
/-- BLTU. -/
def execBltu (t : Nat) (s : State) : Res := branch "BLTU" 0x1C t s (fun a b => a.ult b)
/-- BGEU. -/
def execBgeu (t : Nat) (s : State) : Res := branch "BGEU" 0x1D t s (fun a b => !(a.ult b))

/-- JAL. -/
def execJal (t : Nat) (s : State) : Res :=
  coreInstr "JAL" 0x1E t s (fun w => [iD w]) (fun s _ x w c =>
    setTile s t (retire (putReg x (iD w) (BitVec.ofNat 64 (x.pc + 4)) (c + 2)) c 2 (imod (x.pc + 4 * iOff20 w) (2 ^ 64))))

/-- JALR. -/
def execJalr (t : Nat) (s : State) : Res :=
  coreInstr "JALR" 0x1F t s (fun w => [iD w, iA w]) (fun s _ x w c =>
    let p := imod ((regOf x (iA w)).toNat + iImm w) (2 ^ 64)
    setTile s t (retire (putReg x (iD w) (BitVec.ofNat 64 (x.pc + 4)) (c + 2)) c 2 (p - p % 4)))

/-- ANCHOR: BASE ← (CYC + x + IMM14) mod 2^40, in the cycle in which it retires (R130, R137). -/
def execAnchor (t : Nat) (s : State) : Res :=
  coreInstr "ANCHOR" 0x26 t s (fun w => [iA w]) (fun s _ x w c =>
    setTile s t { retire x c 1 (x.pc + 4) with base := imod (c + (regOf x (iA w)).toNat + iImm w) (2 ^ 40) })

/-- WAITC: at once when CYC has reached x + IMM14, otherwise the core waits (R130). -/
def execWaitc (t : Nat) (s : State) : Res :=
  coreInstr "WAITC" 0x27 t s (fun w => [iA w]) (fun s _ x w c =>
    let k := imod ((regOf x (iA w)).toNat + iImm w) (2 ^ 64)
    setTile s t (if k ≤ c then retire x c 1 (x.pc + 4) else { x with cyc := c, status := .waiting (.until k) }))

/-- WAITC_EXPIRY: CYC has reached the value waited for (R130). -/
def execWaitcExpiry (t : Nat) (s : State) : Res :=
  match live s t with
  | none => no "WAITC_EXPIRY"
  | some _ =>
    let x := tileOf s t
    match x.status with
    | .waiting (.until k) =>
      if k < 2 ^ 40 then .next (setTile s t { retire x k 1 (x.pc + 4) with status := .running }) else no "WAITC_EXPIRY"
    | _ => no "WAITC_EXPIRY"

/-- The commands that a queue holds in cycle `c`: an entry frees at its issue cycle (R138). -/
def queueUse (x : Tile) (q c : Nat) : Nat :=
  (queueOf x q).length + ((x.issued.get q []).filter (fun i => decide (c < i))).length

/-- The range-holding entries in use in cycle `c` (R147). -/
def holdUse (x : Tile) (c : Nat) : Nat := (x.holds.filter (fun h => match h.release with
  | none => true
  | some k => decide (c ≤ k))).length

/-- QFREE (R128). -/
def qfree (x : Tile) (c : Nat) : Nat :=
  (List.range 5).foldl (fun v q => v + (32 - queueUse x q c) * 2 ^ (6 * q)) 0

/-- Special register `n` in cycle `c` (R128). -/
def specialReg (s : State) (g : Group) (t : Nat) (x : Tile) (n c : Nat) : Nat :=
  match n with
  | 0 => c
  | 1 => x.base
  | 2 => x.index
  | 3 => t
  | 4 => g.gw
  | 5 => g.gh
  | 6 => x.role
  | 7 => g.epoch
  | 8 => b2n (streamingOf s g.handle)
  | 9 => qfree x c
  | 10 => 16 - holdUse x c
  | _ => 0

/-- Special register `n` depends on what the queues and the checker have done: QFREE and HOLDFREE (R128). -/
def watches (n : Nat) : Bool := n == 9 || n == 10

/-- CSRR: QFREE and HOLDFREE are read after everything that the tile does by then (R128). -/
def execCsrr (t : Nat) (s : State) : Res :=
  coreInstrIf "CSRR" 0x28 t (fun x w c => !(watches (imod (iImm w) 256)) || caughtUp x coreEvent (c + 1)) s (fun w => [iD w]) (fun s g x w c =>
    let n := imod (iImm w) 256
    let y := retire (putReg x (iD w) (BitVec.ofNat 64 (specialReg s g t x n c)) (c + 1)) c 1 (x.pc + 4)
    setTile s t (if watches n then saw y c else y))

/-- END, or PC outside the role's code: the core stops for the rest of the task (R130, R131). -/
def execEndCore (t : Nat) (s : State) : Res :=
  fetched 3 "END" t s (fun s =>
    match live s t with
    | none => no "END"
    | some _ =>
      let x := tileOf s t
      let ends := match coreWord x with
        | none => true
        | some w => iOp w == 0x2C
      match x.status with
      | .running => if ends && decide (x.cyc < 2 ^ 40) then .next (setTile s t { x with status := .ended, cyc := x.cyc + 1 }) else no "END"
      | _ => no "END")

/-- OP values that R130 lists. -/
def opListed (op : Nat) : Bool := decide (op ≤ 0x0C) || (decide (0x10 ≤ op) && decide (op ≤ 0x15)) ||
  (decide (0x18 ≤ op) && decide (op ≤ 0x2C))

/-- CORE_NOP: an unlisted OP, or ALU with an unlisted FN (R131). -/
def execCoreNop (t : Nat) (s : State) : Res :=
  fetched 3 "CORE_NOP" t s (fun s =>
    match live s t with
    | none => no "CORE_NOP"
    | some _ =>
      let x := tileOf s t
      match x.status, coreWord x with
      | .running, some w =>
        if (!(opListed (iOp w)) || (iOp w == 0 && decide (0x0F < iFn w))) && decide (x.cyc < 2 ^ 40) then
          .next (setTile s t (retire x x.cyc 1 (x.pc + 4)))
        else no "CORE_NOP"
      | _, _ => no "CORE_NOP")

/-- The registers that an instruction names (R130, R132). -/
def namedOf (w : Nat) : List Nat :=
  let op := iOp w
  if op = 0 then (if iFn w ≤ 0x0F then [iD w, iA w, iB w] else [])
  else if op ≤ 9 ∨ op = 0x0B ∨ op = 0x0C ∨ (0x10 ≤ op ∧ op ≤ 0x14) ∨ (0x18 ≤ op ∧ op ≤ 0x1D) ∨ op = 0x1F ∨ op = 0x29 then [iD w, iA w]
  else if op = 0x0A ∨ op = 0x1E ∨ op = 0x23 ∨ op = 0x24 ∨ op = 0x28 then [iD w]
  else if op = 0x15 ∨ op = 0x20 then [iD w, iD w + 1, iD w + 2, iD w + 3]
  else if op = 0x26 ∨ op = 0x27 ∨ op = 0x2A then [iA w]
  else []

/-- An epoch that began at `since` can have lasted 2^40 ACLK by `now`: 3 ACLK a nanosecond at most (R26, R128). -/
def cycleSpan (since now : Nat) : Bool := decide (2 ^ 40 ≤ 3 * (now - since))

/-- The core's next event would come after CYC passes 2^40 − 1; where nothing that is known ends its wait, the epoch has lasted as long
(R128). -/
def overflowDue (s : State) (g : Group) (x : Tile) : Bool :=
  match x.status with
  | .running => match coreWord x with
    | none => decide (2 ^ 40 ≤ x.cyc)
    | some w => decide (2 ^ 40 ≤ startAt x (namedOf w))
  | .waiting (.until k) => decide (2 ^ 40 ≤ k)
  | .waiting (.sem sem n) => match waitFrom x sem n x.cyc with
    | some c => decide (2 ^ 40 ≤ c)
    | none => cycleSpan g.epochAt s.time
  | _ => cycleSpan g.epochAt s.time

/-- CYC_OVERFLOW: CYC would pass 2^40 − 1 within the epoch; the task aborts with TIMEOUT (R128). -/
def execCycOverflow (t : Nat) (s : State) : Res :=
  match live s t with
  | none => no "CYC_OVERFLOW"
  | some g => if overflowDue s g (tileOf s t) then .next (abortTask s g.handle stTimeout none) else no "CYC_OVERFLOW"

end Sys2Proof.Machine
end

