-- ==== Sys2Proof/Machine/Layout.lean ====
section
/-! DEFINITION. Regions and tensor descriptors: what a region id names (R188), the checks of R191 to R193, and DESC.MAKE. -/

namespace Sys2Proof.Machine

/-- What a region id names (R188). -/
inductive Place where
  | dev (base len : Nat)
  | host (pasid base len : Nat)
  | slot (n base len : Nat)
  | window (tile w : Nat)
  | loc
  deriving DecidableEq, Repr

/-- Region `r` for a task with these session regions, declared slots and argument words (R188). -/
def placeOf (rs : List Region) (slots : List Nat) (args : Tbl Word64) (r : Nat) : Option Place :=
  if 1 ≤ r ∧ r ≤ 0x0FFF then
    match rs.find? (fun x => x.id == r) with
    | none => none
    | some x => some (if x.host then .host x.pasid x.base x.len else .dev x.base x.len)
  else if 0x1000 ≤ r ∧ r < 0x1020 then
    let n := r - 0x1000
    if slots.contains n then some (.slot n (args.get (64 + n) 0).toNat (args.get (96 + n) 0).toNat) else none
  else if 0x2000 ≤ r ∧ r < 0x2200 then some (.window ((r - 0x2000) / 8) ((r - 0x2000) % 8))
  else if r = 0xFFFF then some .loc
  else none

/-- The region length that check 4 of R193 uses. -/
def placeLen : Place → Nat
  | .dev _ n => n
  | .host _ _ n => n
  | .slot _ _ n => n
  | .window _ _ => spadSize
  | .loc => spadSize

/-- Access width A (R188). -/
def accessWidth (p : Place) (d : Desc) : Nat :=
  match p with
  | .loc => Nat.max 4 (tdE d)
  | _ => 64

/-- The dimensions below DIMS. -/
def tdRange (d : Desc) : List Nat := List.range (tdDims d)

/-- The elements of the walk: with a block list, of every listed block (R193). -/
def tdCount (d : Desc) : Nat :=
  if tdBdims d = 0 then (tdRange d).foldl (fun n i => n * tdSize d i) 1
  else (List.range (tdBdims d)).foldl (fun n i => n * tdSize d i) (tdBcount d)

/-- HOST and PASID agree with the region (check 1 of R193). -/
def hostOk (p : Place) (d : Desc) : Bool :=
  match p with
  | .host pasid _ _ =>
    tdHost d && (dfld d 0x60 4 == if bitAt pasid 31 then pasid % 2 ^ 20 else 0)
  | _ => !(tdHost d) && dfld d 0x60 4 == 0

/-- Reserved fields are zero (check 1 of R193). -/
def tdReserved (d : Desc) : Bool :=
  dfld d 4 1 / 4 == 0 && dfld d 7 1 == 0 && dfld d 0x0E 2 == 0 && dfld d 0x5E 2 == 0 && dfld d 0x64 28 == 0 &&
    (if tdBdims d = 0 then dfld d 0x58 4 == 0 && dfld d 0x5C 2 == 0 else dfld d 0x58 4 / 2 ^ 23 == 0)

/-- The shape part of check 1 of R193. -/
def tdShape (d : Desc) : Bool :=
  decide (tdEsizeCode d ≤ 3) && decide (1 ≤ tdDims d) && decide (tdDims d ≤ 6) && decide (tdHint d ≤ 3) &&
    (tdRange d).all (fun i => decide (1 ≤ tdSize d i)) &&
    (tdBdims d == 0 || (decide (tdBdims d < tdDims d) && decide (tdDims d - tdBdims d ≤ 4) &&
      decide (1 ≤ tdBcount d) && decide (tdBcount d ≤ 1024))) &&
    decide (tdCount d * tdE d ≤ 2 ^ 32)

/-- `a` divides the integer `x`. -/
def divides (a : Nat) (x : Int) : Bool := x % (a : Int) == 0

/-- Alignment (R191). -/
def tdAligned (p : Place) (d : Desc) : Bool :=
  let a := accessWidth p d
  let contiguous := (tdStride d 0).natAbs == tdE d
  decide (tdBase d % a = 0) && (divides a (tdStride d 0) || contiguous) &&
    (!contiguous || decide (tdSize d 0 * tdE d % a = 0)) &&
    (tdRange d).all (fun i => i == 0 || decide (tdSize d i ≤ 1) || divides a (tdStride d i)) &&
    (tdBdims d == 0 || (decide (tdBlist d % 64 = 0) && decide (tdBlist d + 16 * tdBcount d ≤ spadSize)))

/-- The strides of the dimensions whose SIZE exceeds 1, with that SIZE, ascending by magnitude (R192). -/
def tdSpans (d : Desc) : List (Nat × Nat) :=
  sortBy (fun a b => decide (a.1 ≤ b.1))
    (((tdRange d).filter (fun i => decide (1 < tdSize d i))).map (fun i => ((tdStride d i).natAbs, tdSize d i)))

/-- Each stride clears the span of those before it. -/
def spansOk : Nat → List (Nat × Nat) → Bool
  | _, [] => true
  | need, (st, n) :: r => decide (0 < st) && decide (need ≤ st) && spansOk (need + (n - 1) * st) r

/-- Injective (R192). -/
def tdInjective (d : Desc) : Bool := spansOk (tdE d) (tdSpans d)

/-- The extent lies within the region (check 4 of R193). -/
def tdInside (p : Place) (d : Desc) : Bool := decide (0 ≤ tdLow d) && decide (tdHigh d < placeLen p)

/-- The status of R193, 0 when every check passes. -/
def tdCheck (p : Option Place) (d : Desc) : Nat :=
  match p with
  | none => stDescRange
  | some p =>
    if !(tdShape d && tdReserved d && hostOk p d) then stDescRange
    else if !(tdAligned p d) then stDescAlign
    else if tdWr d && !(tdInjective d) then stDescAlias
    else if !(tdInside p d) then stDescRange
    else 0

/-- The slots that the declarations of an image cover. -/
def slotsOf (i : Image) : List Nat := i.objs.map (fun o => o.slot)

/-- The regions that serve a held handle: those of its session at its acceptance (R315). -/
def regionsOf (s : State) (h : Nat) : List Region :=
  match entryOf s h with
  | none => []
  | some e => e.regions

/-- The place that a descriptor names for the task on tile `t` (R188). -/
def placeIn (s : State) (g : Group) (x : Tile) (d : Desc) : Option Place :=
  match imageOf s g.handle with
  | none => none
  | some i => placeOf (regionsOf s g.handle) (slotsOf i) x.args (tdRegion d)

/-- The cycles of the two word reads of DESC.MAKE (R132, R133). -/
def descCycles (x : Tile) (w c : Nat) : Nat × Nat :=
  let a := word64 (spadMod (regOf x (iA w)).toNat)
  let r0 := loadCycle x a 64 c
  (r0, grantFrom x (spadMod (a + 64)) 64 (r0 + 1))

/-- DESC.MAKE: two word reads, the checks of R193, the entry installed as it retires (R194). -/
def execDescMake (t : Nat) (s : State) : Res :=
  if (tileOf s t).store.isSome then no "DESC.MAKE"
  else coreInstrIf "DESC.MAKE" 0x2A t (fun x w c => caughtUp x coreEvent ((descCycles x w c).2 + 1)) s (fun w => [iA w]) (fun s g x w c =>
    let a := word64 (spadMod (regOf x (iA w)).toNat)
    let c0 := Nat.max c x.storeAt
    let (r0, r1) := descCycles x w c
    match fireRead s g t a r0 5 with
    | some s' => s'
    | none =>
      let img := leNat (spadBytes x r0 a 64 ++ spadBytes x r1 (a + 64) 64)
      let d : Desc := BitVec.ofNat 1024 img
      let foot := footOf s g.handle
      let done := r1 + 3
      let st := tdCheck (placeIn s g x d) d
      let bad := if st = 0 then []
        else [{ detail0 st with unitA := 5, cycle := done - 1, address := a, pc := x.pc }]
      settleTile s g t { saw (retire (coreClaim (coreClaim x r0 a 64 false) r1 (spadMod (a + 64)) 64 false) c0 (done - c0) (x.pc + 4)) r1 with
        descs := x.descs.put (imod (iImm w) 1024) d }
        (readViols foot x r0 a 64 5 x.pc 0 false ++ readViols foot x r1 (spadMod (a + 64)) 64 5 x.pc 0 false ++
          movedViols x (coreClaim (coreClaim x r0 a 64 false) r1 (spadMod (a + 64)) 64 false) ++ bad))

end Sys2Proof.Machine
end

