-- ==== Sys2Proof/Machine/Push.lean ====
section
/-! DEFINITION. PUSH: the command that is appended, its pending marks, its range-holding entries, and the stall (R136 to R138, R146 to R148). -/

namespace Sys2Proof.Machine

/-- The addresses and lengths of `n` rows. -/
def rowsOf (base step n len : Nat) : List (Nat × Nat) :=
  if len = 0 then [] else (List.range n).map (fun i => ((base + i * step) % spadSize, len))

/-- The words of `n` rows, one entry each. -/
def rowWords (base step n len : Nat) : List (Nat × Nat) :=
  ((rowsOf base step n len).map (fun p => (wordsOf p.1 p.2).map (fun w => (w, 64)))).flatten

/-- A held extent from its lowest byte to its highest, strides signed; one that leaves the scratchpad holds all of it (R85,
R110). -/
def extentOf (base step n len : Nat) : Nat × Nat :=
  let far := ((n : Int) - 1) * stride step
  let lo := (base : Int) + min 0 far
  let hi := (base : Int) + max 0 far + len - 1
  if lo < 0 ∨ (spadSize : Int) ≤ hi then (0, spadSize - 1) else (lo.toNat, hi.toNat)

/-- MODE of a plane as a MUL pushed now will find it: that of the last load of it that waits in Q_MMA, or its present one. -/
def planeMode (x : Tile) (p : Nat) : Nat :=
  match ((queueOf x 0).filter (fun e => (ekind 0 e.word == .load || ekind 0 e.word == .loadt) && lPlane e.word == p)).getLast? with
  | some e => lMode e.word
  | none => (x.planes.get p plane0).mode

/-- The chain that a RUN pushed in cycle `c` will latch (R428). -/
def chainAt (x : Tile) (slot c : Nat) : Nat :=
  match ((queueOf x 1).filter (fun e => ekind 1 e.word == .setchain && vcSlot e.word == slot)).getLast? with
  | some e => leNat (spadBytes x c (vcAddr e.word) 64)
  | none => x.chains.get slot 0

/-- The rows of the walk that a packed row holds: E elements of dimension PERM[0] (R198). -/
def packE (c : Cmd) (d : Desc) : Nat := tdSize d (sePerm c 0)

/-- The packed rows of SE.READ or SE.WRITE: their count. -/
def packRows (c : Cmd) (d : Desc) : Nat := tdCount d / Nat.max 1 (packE c d)

/-- The extent of a LOCAL descriptor in scratchpad. -/
def localExtent (d : Desc) : Nat × Nat := ((tdLow d).toNat, (tdHigh d).toNat)

/-- The words that a command marks pending from its push cycle (R146, R114, R203), in the order of their commits. -/
def marksOf (x : Tile) (k : EKind) (c : Nat) (w : Cmd) (d : Option Desc) : List (Nat × Nat) :=
  match k with
  | .mul => let mode := planeMode x (mPlane w); rowsOf (mCaddr w) (mCstride w) (mM w) (mCrow w mode)
  | .run =>
    let r := chainAt x (vrChain w) c
    let out := rowsOf (vrOaddr w) (chOstride r) (vrM w) (chLanes r * chOsize r)
    let ru := match chRmode r with
      | 1 => (List.range (cdiv (vrM w) (chL r))).map (fun p =>
          ((vrRaddr w r + 256 * p) % spadSize, Nat.min (chL r) (vrM w - p * chL r) * (chW r / 8)))
      | 2 => [(vrRaddr w r, chW r / 8)]
      | _ => []
    out ++ ru
  | .fill => rowWords (spDaddr w) (sfDstride w) (sfRows w) (64 * sfRowlen w)
  | .copy => rowWords (spDaddr w) (scDstride w) (scRows w) (64 * scRowlen w)
  | .seRead =>
    match d with
    | none => []
    | some d => rowWords (seSaddr w) (seSstride w) (packRows w d) (packE w d * tdE d)
  | .seWrite =>
    match d with
    | none => []
    | some d =>
      if tdLocal d then
        let (lo, hi) := localExtent d
        rowWords lo 0 1 (hi + 1 - lo)
      else []
  | .seKey =>
    let a := rowWords (skXaddr w) 0 1 (8 * skJcount w)
    match d with
    | none => a
    | some d => if seDesc w = 0x3FF then a
      else a ++ rowWords (skSaddr w) (skSstride w) (tdCount d / Nat.max 1 (tdSize d 0)) (tdSize d 0 * tdE d)
  | _ => []

/-- The output rows that a RUN marks before its RU rows. -/
def outRows (x : Tile) (c : Nat) (w : Cmd) : Nat :=
  let r := chainAt x (vrChain w) c
  if chLanes r * chOsize r = 0 then 0 else vrM w

/-- One range from the lowest byte to the highest of several. -/
def hull : List (Nat × Nat) → List (Nat × Nat)
  | [] => []
  | p :: r => [r.foldl (fun q x => (Nat.min q.1 x.1, Nat.max q.2 x.2)) p]

/-- The block list of a descriptor as a range. -/
def blistRange (d : Desc) : List (Nat × Nat) :=
  if tdBdims d = 0 then [] else [(tdBlist d, tdBlist d + 16 * tdBcount d - 1)]

/-- The ranges that a command holds from its push cycle, one range-holding entry each (R147). -/
def holdsOf (x : Tile) (k : EKind) (c : Nat) (w : Cmd) (d : Option Desc) : List (Nat × Nat) :=
  match k with
  | .mul => let mode := planeMode x (mPlane w); [extentOf (mAaddr w) (mAstride w) (mM w) (mArow w mode)]
  | .load => extentOf (lBaddr w) (lBstride w) (lRows w) 256 ::
      (if lVec w then [extentOf (lMqAddr w) 0 1 (lVecLen w)] else [])
  | .loadt => extentOf (ltGaddr w) 0 1 (ltN w * laneW (lMode w)) ::
      (if lVec w then [extentOf (lMqAddr w) 0 1 (lVecLen w)] else [])
  | .setchain => [extentOf (vcAddr w) 0 1 64]
  | .setperm => [extentOf (vpAddr w) 0 1 64]
  | .setq => if vqVec w then [extentOf (vqAddr w) 0 1 512] else []
  | .run =>
    let r := chainAt x (vrChain w) c
    (chStreams r).map (fun v =>
      if v = 0 ∧ chWalk r then extentOf (vrIaddr w 0) (chIstride r 0) (cdiv (vrM w) (chWalkR r) * chWalkR r) 256
      else extentOf (vrIaddr w v) (chIstride r v) (vrM w) 256)
  | .copy => [extentOf (scSaddr w) (scSstride w) (scRows w) (64 * scRowlen w)]
  | .seRead =>
    match d with
    | none => []
    | some d => hull ((if tdLocal d then [localExtent d] else []) ++ blistRange d)
  | .seWrite =>
    match d with
    | none => [extentOf (seSaddr w) 0 1 1]
    | some d => hull (extentOf (seSaddr w) (seSstride w) (packRows w d) (packE w d * tdE d) :: blistRange d)
  | _ => []

/-- The unit code of a queue (R151). -/
def unitOf (q : Nat) : Nat := q

/-- The 256-bit command of PUSH (R136). -/
def pushWord (x : Tile) (n : Nat) : Cmd := (regOf x (n + 3)) ++ (regOf x (n + 2)) ++ (regOf x (n + 1)) ++ (regOf x n)

/-- The command as appended: streaming mode clears TIMED (R135); REL moves AT by BASE (R137). -/
def pushed (streaming : Bool) (x : Tile) (rel : Bool) (w : Cmd) : Cmd :=
  if streaming then BitVec.ofNat 256 (setFld w.toNat 244 1 0)
  else if rel && hTimed w then BitVec.ofNat 256 (setFld w.toNat 204 40 ((hAt w + x.base) % 2 ^ 40))
  else w

/-- The descriptor that a stream command names (R195). -/
def pushDesc (x : Tile) (q : Nat) (w : Cmd) : Option Desc := if q = 2 ∨ q = 3 then x.descs.find (seDesc w) else none

/-- The two conditions of R138 are clear in cycle `c`. -/
def pushClear (x : Tile) (q c need : Nat) : Bool := decide (queueUse x q c < 32) && decide (need ≤ 16 - holdUse x c)

/-- The command that the PUSH at word `w` appends (R135 to R137). -/
def pushCmd (s : State) (g : Group) (x : Tile) (w : Nat) : Cmd := pushed (streamingOf s g.handle) x (iRel w) (pushWord x (iD w))

/-- The marks that it makes, from the push cycle on (R146). -/
def pushMarks (x : Tile) (q : Nat) (cmd : Cmd) (c : Nat) : List Mark :=
  (marksOf x (ekind q cmd) c cmd (pushDesc x q cmd)).mapIdx (fun i p =>
    { num := x.num + 1, unit := if ekind q cmd = .run ∧ outRows x c cmd ≤ i then 7 else unitOf q, pc := x.pc, start := c,
      addr := p.1, len := p.2, commit := none : Mark })

/-- The range-holding entries that it takes, from the push cycle on (R147). -/
def pushHolds (x : Tile) (q : Nat) (cmd : Cmd) (c : Nat) : List Hold :=
  (holdsOf x (ekind q cmd) c cmd (pushDesc x q cmd)).map (fun p =>
    { num := x.num + 1, unit := unitOf q, pc := x.pc, start := c, lo := p.1, hi := p.2, release := none, exact := decide (q < 2),
      record := ekind q cmd == .setchain : Hold })

/-- The queue entry: a RUN takes its scalar snapshot, a stream command its descriptor (R92, R136, R195). A register of the snapshot whose
result is not yet usable gives the new value without a stall (DESIGN CHOICE, log 46). -/
def pushEntry (x : Tile) (q : Nat) (cmd : Cmd) (c : Nat) : QEntry :=
  { word := cmd, pushed := c, pc := x.pc, num := x.num + 1,
    scalars := if ekind q cmd = .run then (List.range 8).map (fun i => regOf x (vrSbase cmd + i)) else [],
    desc := pushDesc x q cmd }

/-- The violation that the push raises: LATE_ISSUE (R137). Accesses of other commands that meet its marks and holds are compared when its
commits and releases are known. -/
def pushViols (x : Tile) (q : Nat) (cmd : Cmd) (c : Nat) : List Detail :=
  if q < 4 && hTimed cmd && decide (hAt cmd ≤ c + 15) then [lateViol c (unitOf q) (pushEntry x q cmd c)] else []

/-- The command is accepted in cycle `c` (R136, R137, R146, R147). -/
def acceptPush (s : State) (g : Group) (t : Nat) (x : Tile) (w c : Nat) : State :=
  let q := iQueue w
  let cmd := pushCmd s g x w
  settleTile s g t
    { retire x c 1 (x.pc + 4) with
      num := x.num + 1, status := .running, queues := x.queues.put q (queueOf x q ++ [pushEntry x q cmd c]),
      marks := x.marks ++ pushMarks x q cmd c, holds := x.holds ++ pushHolds x q cmd c }
    (pushViols x q cmd c)

/-- The range-holding entries that the PUSH needs in cycle `c`. -/
def pushNeed (s : State) (g : Group) (x : Tile) (w c : Nat) : Nat := (pushHolds x (iQueue w) (pushCmd s g x w) c).length

/-- PUSH: it finds the queue and the range-holding table as everything that the tile does by then leaves them (R136, R138). -/
def execPush (t : Nat) (s : State) : Res :=
  coreInstrIf "PUSH" 0x20 t (fun x w c => decide (4 < iQueue w) || caughtUp x coreEvent (c + 1)) s
    (fun w => [iD w, iD w + 1, iD w + 2, iD w + 3]) (fun s g x w c =>
    if 4 < iQueue w then setTile s t (retire x c 1 (x.pc + 4))
    else if pushClear x (iQueue w) c (pushNeed s g x w c) then acceptPush s g t x w c
    else setTile s t { x with cyc := c, status := .waiting .pushing })

/-- The first cycle in which a stalled PUSH finds both conditions of R138 clear; none while nothing that is known clears them. -/
def pushFree (s : State) (g : Group) (x : Tile) : Option Nat :=
  match coreWord x with
  | none => none
  | some w =>
    let q := iQueue w
    let cs := (x.cyc + 1) :: (x.holds.filterMap (fun h => h.release.map (· + 1)) ++ x.issued.get q [])
    (sortBy (fun (a b : Nat) => decide (a ≤ b)) (cs.filter (fun c => decide (x.cyc < c)))).find? (fun c => pushClear x q c (pushNeed s g x w c))

/-- The cycle in which an instruction issues, or a load or a store makes its access, as the tile stands (R132 to R134). -/
def coreIssue (x : Tile) (w : Nat) : Nat :=
  let c := startAt x (namedOf w)
  let after := match x.store with
    | some p => Nat.max c (storeSlot x p)
    | none => c
  if iOp w = 0x10 then loadCycle x (memAddr x w) 8 (if x.store.isSome then after + 1 else c)
  else if iOp w = 0x11 then loadCycle x (memAddr x w) 4 (if x.store.isSome then after + 1 else c)
  else if iOp w = 0x12 ∨ iOp w = 0x13 then after
  else if iOp w = 0x2A then (descCycles x w (if x.store.isSome then after + 1 else c)).1
  else c

/-- The cycle in which the core does what comes next; none where nothing that is known ends its stall. -/
def coreNext (s : State) (g : Group) (t : Nat) (x : Tile) : Option Nat :=
  match x.status with
  | .running =>
    if (missing s t).isSome then none
    else match coreWord x with
      | none => some x.cyc
      | some w => some (coreIssue x w)
  | .waiting (.until k) => some k
  | .waiting (.sem sem n) => waitFrom x sem n x.cyc
  | .waiting .pushing => pushFree s g x
  | _ => none

/-- An event of a tile in cycle `c` comes next: no other of its units, nor its core, does anything in an earlier one, as far as is known. -/
def due (s : State) (g : Group) (t : Nat) (x : Tile) (who c : Nat) : Bool :=
  caughtUp x who c && (match coreNext s g t x with
    | none => true
    | some k => decide (c ≤ k))

/-- What comes from outside the tile can come in cycle `c`: nothing that the tile has read or does before depends on it. -/
def arrives (s : State) (g : Group) (t : Nat) (x : Tile) (c : Nat) : Bool :=
  decide (c < 2 ^ 40) && decide (observed x ≤ c) && due s g t x coreEvent c

/-- The head of queue `q` issues next, in cycle `c`: its wait and its cycle are the first (R81, R111, R140, R172, R202). -/
def inTurn (s : State) (g : Group) (t : Nat) (x : Tile) (q c : Nat) (e : QEntry) : Bool := headTurn x q c e && due s g t x q c

/-- PUSH_STALL_END: the first cycle in which both conditions of R138 are clear. -/
def execPushStallEnd (t cyc : Nat) (s : State) : Res :=
  match live s t with
  | none => no "PUSH_STALL_END"
  | some g =>
    let x := tileOf s t
    match x.status, coreWord x with
    | .waiting .pushing, some w =>
      if decide (x.cyc < cyc) && decide (cyc < 2 ^ 40) && pushClear x (iQueue w) cyc (pushNeed s g x w cyc) &&
          !(pushClear x (iQueue w) (cyc - 1) (pushNeed s g x w (cyc - 1))) && caughtUp x coreEvent (cyc + 1) then
        .next (acceptPush s g t x w cyc)
      else no "PUSH_STALL_END"
    | _, _ => no "PUSH_STALL_END"

end Sys2Proof.Machine
end

