-- ==== Sys2Proof/Machine/Sync.lean ====
section
/-! DEFINITION. Semaphores, remote signals, barriers, the end of an epoch in the core, and Eddy (R139 to R145, R153 to R156). -/

namespace Sys2Proof.Machine

/-- SEMW: at once when the count suffices, otherwise the core waits; a wait that comes before it is served first (R130, R139, R140). -/
def execSemw (t : Nat) (s : State) : Res :=
  coreInstrIf "SEMW" 0x21 t (fun x w c => iCount w == 0 || decide (semAvail x (iA w) c < iCount w) ||
      (waitTurn x 5 (iA w) c && caughtUp x coreEvent (c + 1))) s (fun _ => [])
    (fun s g x w c =>
    let n := iCount w
    if n = 0 then setTile s t (retire x c 1 (x.pc + 4))
    else if n ≤ semAvail x (iA w) c then
      let (y, v) := takeSem x (iA w) n c
      settleTile s g t (saw (retire y c 1 (x.pc + 4)) c) v
    else setTile s t { x with cyc := c, status := .waiting (.sem (iA w) n) })

/-- SEMW_SATISFIED: the first cycle in which the wait finds its count (R139, R140). -/
def execSemwSatisfied (t : Nat) (s : State) : Res :=
  match live s t with
  | none => no "SEMW_SATISFIED"
  | some g =>
    let x := tileOf s t
    match x.status with
    | .waiting (.sem sem n) =>
      match waitFrom x sem n x.cyc with
      | none => no "SEMW_SATISFIED"
      | some c =>
        if c < 2 ^ 40 ∧ waitTurn x 5 sem c = true ∧ caughtUp x coreEvent (c + 1) = true then
          let (y, v) := takeSem x sem n c
          .next (settleTile s g t { saw (retire y c 1 (x.pc + 4)) c with status := .running } v)
        else no "SEMW_SATISFIED"
    | _ => no "SEMW_SATISFIED"

/-- A signal of the core to its own tile, added at the end of cycle `c` (R139, R141). -/
def ownSignal (s : State) (g : Group) (t : Nat) (x : Tile) (sem n c : Nat) : State :=
  let y := addSig x c sem n 5 x.pc
  settleTile s g t (retire y c 1 (x.pc + 4)) (overViols (overBy y (c + 1)))

/-- SEMS (R130, R139). -/
def execSems (t : Nat) (s : State) : Res :=
  coreInstr "SEMS" 0x22 t s (fun _ => []) (fun s g x w c => ownSignal s g t x (iA w) (iCount w) c)

/-- SEMR: the count after everything that the tile does by then (R130, R139). -/
def execSemr (t : Nat) (s : State) : Res :=
  coreInstrIf "SEMR" 0x23 t (fun x _ c => caughtUp x coreEvent (c + 1)) s (fun w => [iD w]) (fun s _ x w c =>
    setTile s t (saw (retire (putReg x (iD w) (BitVec.ofNat 64 (semAvail x (iA w) c)) (c + 1)) c 1 (x.pc + 4)) c))

/-- The logical tile at the low log2(GW × GH) bits of a group-relative number (R143). -/
def groupTarget (g : Group) (n : Nat) : Nat := groupTile g (n % (g.gw * g.gh))

/-- A message of the Tile Network with nothing in it. -/
def msg0 : Msg :=
  { src := 0, dst := 0, kind := 0, unit := 0, stream := 0, req := 0, window := 0, offset := 0, data := [], enable := [],
    sem := 0, count := 0 }

/-- RSIG: a signal to another tile of the group, or to the own tile as SEMS (R143); a count of 0 does nothing (R139). The remote writes that the
tile's units issue by then go before it (R144). -/
def execRsig (t : Nat) (s : State) : Res :=
  coreInstrIf "RSIG" 0x24 t (fun x _ c => caughtUp x coreEvent (c + 1)) s (fun w => [iD w]) (fun s g x w c =>
    let dst := groupTarget g (regOf x (iD w)).toNat
    if dst = t then ownSignal s g t x (iA w) (iCount w) c
    else
      let s1 := setTile s t (retire x c 1 (x.pc + 4))
      if iCount w = 0 then s1
      else setGroup s1 { g with msgs := g.msgs ++ [{ msg0 with src := t, dst := dst, kind := 2, unit := 5, sem := iA w,
                                                               count := iCount w }] })

/-- The first signal message from `src` to `dst` that no remote write of `src` to `dst` precedes, with the messages that
remain (R144). -/
def takeSignal (src dst : Nat) : List Msg → Option (Msg × List Msg)
  | [] => none
  | m :: r =>
    if m.src = src ∧ m.dst = dst ∧ m.kind = 2 then some (m, r)
    else if m.src = src ∧ m.dst = dst ∧ m.kind = 0 then none
    else match takeSignal src dst r with
      | none => none
      | some (n, r') => some (n, m :: r')

/-- What arrives from tile `src` in cycle `cyc` comes after what arrived from it before, as it was issued (R144, R185). -/
def hears (x : Tile) (src cyc : Nat) : Bool := decide (x.heard.get src 0 ≤ cyc)

/-- The last cycle of a message from `src` is `cyc`. -/
def hear (x : Tile) (src cyc : Nat) : Tile := { x with heard := x.heard.put src cyc }

/-- REMOTE_SIGNAL_ARRIVAL: the signal is applied at the target at the end of its cycle `cyc`, no earlier than the writes that it follows
(R139, R140, R141, R144). -/
def execRemoteSignalArrival (t src cyc : Nat) (s : State) : Res :=
  match live s t with
  | none => no "REMOTE_SIGNAL_ARRIVAL"
  | some g =>
    match takeSignal src t g.msgs with
    | none => no "REMOTE_SIGNAL_ARRIVAL"
    | some (m, rest) =>
      if cyc < 2 ^ 40 ∧ hears (tileOf s t) src cyc = true ∧ observed (tileOf s t) ≤ cyc then
        let y := addSig (hear (tileOf s t) src cyc) cyc m.sem m.count 6 0xFFFFFFFF
        let g' := { g with msgs := rest }
        .next (settleTile (setGroup s g') g' t y (overViols (overBy y (cyc + 1))))
      else no "REMOTE_SIGNAL_ARRIVAL"

/-- BAR: the core stalls and its arrival leaves for the router of group-relative tile 0 (R145). -/
def execBar (t : Nat) (s : State) : Res :=
  coreInstr "BAR" 0x25 t s (fun _ => []) (fun s g x w c =>
    let id := imod (iImm w) 256
    setGroup (setTile s t { x with cyc := c, status := .waiting (.bar id) }) { g with barSent := g.barSent ++ [(t, id)] })

/-- BARRIER_ARRIVAL: an arrival reaches the router of tile 0; when every tile has arrived under one identifier the release is
broadcast (R145). -/
def execBarrierArrival (t : Nat) (s : State) : Res :=
  match live s t with
  | none => no "BARRIER_ARRIVAL"
  | some g =>
    match g.barSent.find? (fun p => p.1 == t) with
    | none => no "BARRIER_ARRIVAL"
    | some p =>
      let here := g.barHere ++ [p]
      let all := (groupTiles g).all (fun k => here.contains (k, p.2))
      let sent := g.barSent.filter (fun q => !(q.1 == t))
      .next (setGroup s (if all then
          { g with barSent := sent, barHere := here.filter (fun q => !(q.2 == p.2)), release := g.release ++ groupTiles g }
        else { g with barSent := sent, barHere := here }))

/-- BARRIER_RELEASE: the release has reached the tile's router and its core continues in cycle `cyc` (R145). -/
def execBarrierRelease (t cyc : Nat) (s : State) : Res :=
  match live s t with
  | none => no "BARRIER_RELEASE"
  | some g =>
    let x := tileOf s t
    match x.status with
    | .waiting (.bar _) =>
      if g.release.contains t && decide (x.cyc < cyc) && decide (observed x ≤ cyc) && decide (cyc < 2 ^ 40) then
        .next (setGroup (setTile s t { retire x cyc 0 (x.pc + 4) with status := .running })
          { g with release := g.release.filter (fun k => !(k == t)) })
      else no "BARRIER_RELEASE"
    | _ => no "BARRIER_RELEASE"

/-- EPOCH: the core stalls while its tile quiesces and joins the group barrier (R156). -/
def execEpoch (t : Nat) (s : State) : Res :=
  coreInstr "EPOCH" 0x2B t s (fun _ => []) (fun s _ x _ c => setTile s t { x with cyc := c, status := .waiting .quiesce })

/-- The head of a queue has a WAIT that no known signal satisfies (R153). -/
def headWaits (x : Tile) (q : Nat) : Bool :=
  match queueOf x q with
  | [] => false
  | e :: _ => (waitFrom x (hWaitSem e.word) (hWaitN e.word) 0).isNone

/-- No stream, fill, copy or core store of the tile is under way (R126, R153). -/
def enginesIdle (x : Tile) : Bool :=
  x.spBusy.isNone && x.store.isNone && (x.streams.vals.all (fun l => l.isEmpty))

/-- The five queues are empty. -/
def queuesEmpty (x : Tile) : Bool := (List.range 5).all (fun q => (queueOf x q).isEmpty)

/-- No remote write, read or signal from or to the tile and no answer to it is in flight. -/
def quietLinks (g : Group) (t : Nat) : Bool :=
  g.msgs.all (fun m => !(m.src == t) && !(m.dst == t)) && g.answers.all (fun a => !(a.dst == t))

/-- The core has an unsatisfied wait (R153). -/
def coreWaits (g : Group) (t : Nat) (x : Tile) : Bool :=
  match x.status with
  | .waiting (.sem sem n) => (waitFrom x sem n 0).isNone
  | .waiting (.bar _) => !(g.release.contains t)
  | .waiting .quiesce => true
  | _ => false

/-- The core is stalled as R153 lists, or has ended. -/
def coreStalled (g : Group) (t : Nat) (x : Tile) : Bool :=
  match x.status with
  | .ended => true
  | .waiting .pushing =>
    match coreWord x with
    | none => false
    | some w => decide (32 ≤ (queueOf x (iQueue w)).length) && headWaits x (iQueue w)
  | _ => coreWaits g t x

/-- A tile is stalled (R153). -/
def tileStalled (s : State) (g : Group) (t : Nat) : Bool :=
  let x := tileOf s t
  (List.range 5).all (fun q => (queueOf x q).isEmpty || headWaits x q) && coreStalled g t x && enginesIdle x &&
    quietLinks g t && !(g.barSent.any (fun p => p.1 == t))

/-- The waiters of a tile: bit of WAITERS, semaphore, count (R150). -/
def waitersOf (g : Group) (t : Nat) (x : Tile) : List (Nat × Nat × Nat) :=
  ((List.range 5).filter (headWaits x)).map (fun q => match queueOf x q with
    | [] => (q, 0xFF, 0)
    | e :: _ => (q, hWaitSem e.word, hWaitN e.word)) ++
  (if coreWaits g t x then
    match x.status with
    | .waiting (.sem sem n) => [(5, sem, n)]
    | _ => [(5, 0xFF, 0)]
  else [])

/-- The tile has quiesced at the end of its epoch (R156). An answer to a remote write that is still on its way back is no remote write in
flight (DESIGN CHOICE, log 46). -/
def quiesced (s : State) (g : Group) (t : Nat) : Bool :=
  let x := tileOf s t
  x.status == .waiting .quiesce && queuesEmpty x && enginesIdle x && g.msgs.all (fun m => !(m.src == t))

/-- Every tile of the group has started, waits at EPOCH and has quiesced, so the checkpoint follows (R156). -/
def allJoined (s : State) (g : Group) : Bool :=
  (groupTiles g).all (fun t => g.started.contains t && quiesced s g t)

/-- Six entries, the listed ones first and then the fill. -/
def six (l : List Nat) (fill : Nat) : List Nat := (l ++ List.replicate 6 fill).take 6

/-- Eddy's condition (R154). -/
def deadlocked (s : State) (g : Group) : Bool :=
  g.fault.isNone && (groupTiles g).all (fun t => g.started.contains t && tileStalled s g t) && !(allJoined s g) &&
    (groupTiles g).any (fun t => !((waitersOf g t (tileOf s t)).isEmpty))

/-- The first tile of a group with a signal that takes a semaphore past 255, a read of a row whose command never issues, or a write into its
held range (R83, R114, R141, R147, R428). -/
def closeViols (s : State) (g : Group) : Option (Nat × Detail) :=
  (groupTiles g).findSome? (fun t =>
    (firstViol (overViols (overBy (tileOf s t) (2 ^ 41)) ++ openViols (tileOf s t) (2 ^ 41))).map (fun v => (t, v)))

/-- Where the tiles of a group stand: the cycle of each core and the entries in its queues. -/
def stallKey (s : State) (g : Group) : List (Nat × Nat) :=
  (groupTiles g).map (fun t => ((tileOf s t).cyc, (List.range 5).foldl (fun n q => n + (queueOf (tileOf s t) q).length) 0))

/-- Eddy looks at a group: since when it has been in the present stall (R154). -/
def noteStall (s : State) (g : Group) : Group :=
  if deadlocked s g then
    match g.stalled with
    | some (_, key) => if key = stallKey s g then g else { g with stalled := some (s.time, stallKey s g) }
    | none => { g with stalled := some (s.time, stallKey s g) }
  else { g with stalled := none }

/-- What an empty queue does: a nanosecond passes, and Eddy looks at every group (R154, log 4). -/
def idleStep (s : State) : State :=
  let s := idleTick s
  { s with groups := s.groups.map (noteStall s) }

/-- The stall has held for 4,096 FCLK, 2,048 ns (R154). -/
def stallHeld (s : State) (g : Group) : Bool :=
  match g.stalled with
  | some (at_, key) => key == stallKey s g && decide (at_ + 2048 ≤ s.time)
  | none => false

/-- SEMAPHORE_DEADLOCK: every tile of the group is stalled, some wait can never be satisfied, and this has held for 2,048 ns; a signal that
overflows its semaphore, and a read or a write that a command which never issues forbids, come first (R83, R141, R147, R153 to R155). UNIT_A and the cycle of the tile at detection are free values (log 7). -/
def execSemaphoreDeadlock (h : Nat) (s : State) : Res :=
  match groupOf s h with
  | none => no "SEMAPHORE_DEADLOCK"
  | some g =>
    if deadlocked s g && stallHeld s g then
      match closeViols s g with
      | some (t, d) => .next (tileAbort s g t d)
      | none =>
      let waiting := (groupTiles g).filter (fun t => !((waitersOf g t (tileOf s t)).isEmpty))
      let t := minL waiting 64
      let ws := waitersOf g t (tileOf s t)
      let (v, s1) := drawBytes s 6
      .next (tileAbort s1 g t { detail0 stSemaphoreDeadlock with
        unitA := le v 0 1, cycle := le v 1 5, waiters := ws.foldl (fun b p => b + 2 ^ p.1) 0,
        tilesWaiting := waiting.length, waitSem := six (ws.map (fun p => p.2.1)) 0xFF,
        waitCount := six (ws.map (fun p => p.2.2)) 0 })
    else no "SEMAPHORE_DEADLOCK"

end Sys2Proof.Machine
end

