-- ==== Sys2Proof/Machine/Streams.lean ====
section
/-! DEFINITION. The stream engines: issue and its checks, block lists, requests and trackers, data, signals (R195 to R206, R429). -/

namespace Sys2Proof.Machine

/-- Replace the streams of engine `e`. -/
def setStreams (x : Tile) (e : Nat) (l : List Stream) : Tile := { x with streams := x.streams.put e l }

/-- The dimensions of the walk, slowest first (R198). -/
def walkDims (c : Cmd) (d : Desc) : List Nat := ((List.range (tdWalk d)).map (sePerm c)).reverse

/-- The offsets of a walk over these dimensions, slowest first (R190, R198). -/
def walkOffsets (d : Desc) : List Nat → List Int
  | [] => [0]
  | i :: r => ((List.range (tdSize d i)).map (fun (k : Nat) => (walkOffsets d r).map (fun o => o + (k : Int) * tdStride d i))).flatten

/-- The offset of a block by its coordinates (R199). -/
def outerOffset (d : Desc) (coords : List Nat) : Int :=
  (coords.mapIdx (fun (k c : Nat) => (c : Int) * tdStride d (tdBdims d + k))).foldl (· + ·) 0

/-- The elements of a walk: memory address, packed address, size (R190, R198). -/
def walkElems (base : Nat) (d : Desc) (dims : List Nat) (outers : List (List Nat)) (saddr sstride : Nat) : List (Nat × Nat × Nat) :=
  let inner := walkOffsets d dims
  let e := tdE d
  let per := Nat.max 1 (tdSize d (dims.getLastD 0))
  let offs := (outers.map (fun o => inner.map (fun k => k + outerOffset d o))).flatten
  offs.mapIdx (fun n o => (((base : Int) + tdBase d + o).toNat, saddr + n / per * sstride + n % per * e, e))

/-- PERM names each dimension of the walk once (R198). -/
def permOk (c : Cmd) (d : Desc) : Bool :=
  let p := walkDims c d
  p.all (fun i => decide (i < tdWalk d)) && decide (p.eraseDups.length = p.length)

/-- PERM is the identity. -/
def permId (c : Cmd) (d : Desc) : Bool := walkDims c d == (List.range (tdWalk d)).reverse

/-- Bytes of a packed row. -/
def packRow (c : Cmd) (d : Desc) : Nat := packE c d * tdE d

/-- The packed extent: first byte and length. -/
def packedExtent (c : Cmd) (d : Desc) : Nat × Nat := (seSaddr c, (packRows c d - 1) * seSstride c + packRow c d)

/-- The walk of a LOCAL descriptor visits ascending addresses (R200). -/
def ascending (d : Desc) : Bool :=
  ((List.range (tdDims d)).foldl (fun (p : Bool × Int) i =>
    if tdSize d i ≤ 1 then p else (p.1 && decide (p.2 ≤ tdStride d i), p.2 + ((tdSize d i : Int) - 1) * tdStride d i))
    (true, (tdE d : Int))).1

/-- A plain copy (R200). -/
def plainCopy (c : Cmd) (d : Desc) : Bool :=
  tdBdims d == 0 && permId c d && ascending d && (decide (packRow c d ≤ seSstride c) || packRows c d == 1)

/-- Where the memory side of a descriptor begins, and its kind as in StreamReq. -/
def placeBase (p : Place) : Nat × Nat :=
  match p with
  | .dev b _ => (b, 0)
  | .slot _ b _ => (b, 0)
  | .host _ b _ => (b, 1)
  | .window _ _ => (0, 2)
  | .loc => (0, 3)

/-- A failure of a stream command (R214). -/
def streamViol (st c unit addr pc : Nat) : Detail :=
  { detail0 st with unitA := unit, cycle := c, address := addr % 2 ^ 32, pc := pc }

/-- The first element that leaves the epoch's intervals or touches the header unit of a declared slot (R124, R188). -/
def badElem (i : Image) (args : Tbl Word64) (epoch dir : Nat) (elems : List (Nat × Nat × Nat)) : Option Nat :=
  let rs := rangesIn i args epoch dir
  let hs := (slotsOf i).map (fun n => (args.get n 0).toNat)
  (elems.find? (fun p => !(rs.any (fun r => within p.1 p.2.2 r.1 r.2)) || hs.any (fun h => overlaps p.1 p.2.2 h 256))).map
    (fun p => p.1)

/-- The base of window `w` of the own tile in cycle `cyc`, for R201's use of R200. -/
def selfWindow (x : Tile) (w cyc : Nat) : Nat := ((windowsAt x cyc).get w window0).base

/-- R200: a transforming copy whose extents overlap. -/
def overlapBad (c : Cmd) (d : Desc) (shift : Nat) : Bool :=
  let p := packedExtent c d
  !(plainCopy c d) && overlaps ((tdLow d).toNat + shift) (tdHigh d - tdLow d + 1).toNat p.1 p.2

/-- The checks at issue that need no memory access, in the order of R202: R195, R198, R200, R124, WR. -/
def issueCheck (s : State) (g : Group) (t : Nat) (x : Tile) (unit cyc : Nat) (e : QEntry) (write : Bool) : Option Detail :=
  let c := e.word
  let bad := fun st a => some (streamViol st cyc unit a e.pc)
  match e.desc with
  | none => bad stDescRange (seSaddr c)
  | some d =>
    match placeIn s g x d with
    | none => bad stDescRange (seSaddr c)
    | some p =>
      let al := Nat.max 4 (tdE d)
      let (a, n) := packedExtent c d
      let foot := footOf s g.handle
      if !(permOk c d) then bad stDescRange a
      else if a % al ≠ 0 ∨ seSstride c % al ≠ 0 then bad stDescAlign a
      else if spadSize < a + n then bad stDescRange a
      else if !write && decide (seSstride c < packRow c d) && decide (1 < packRows c d) then bad stDescAlias a
      else
        match firstOutside foot a n with
        | some r => bad stDescRange r
        | none =>
          let clash := match p with
            | .loc => overlapBad c d 0
            | .window k w => groupTarget g k == t && overlapBad c d (selfWindow x w cyc)
            | _ => false
          if clash then bad stLayoutOverlap a
          else
            let (base, dev) := placeBase p
            let range := if dev = 0 ∧ tdBdims d = 0 then
                match imageOf s g.handle with
                | none => none
                | some i => badElem i x.args g.epoch (b2n write) (walkElems base d (walkDims c d) [[]] a (seSstride c))
              else none
            match range with
            | some r => bad stDescRange r
            | none => if write && !(tdWr d) then bad stDescAlias a else none

/-- The size of a block of the memory side: a 256 B unit, for a device-memory write the 4 KB stripe, a 64 B window word, or the
whole copy (R205, R237). -/
def blockLen (dev op : Nat) : Nat :=
  if dev = 0 ∧ op = 1 then 4096 else if dev < 2 then 256 else if dev = 2 then 64 else spadSize

/-- The memory-side blocks that the elements touch, in walk order. -/
def blocksOf (dev size : Nat) (elems : List (Nat × Nat × Nat)) : List Nat :=
  if dev < 3 then (elems.map (fun p => p.1 / size * size)).eraseDups
  else if elems.isEmpty then [] else [0]

/-- A run of elements: its first position in the walk, its elements, how many packed words they fill so far, and the last of these. -/
structure Window64 where
  lo    : Nat
  elems : List (Nat × Nat × Nat)
  words : Nat
  last  : Nat

/-- The run with one more element; none where that would begin a 65th packed word (R205). -/
def Window64.add (v : Window64) (p : Nat × Nat × Nat) : Option Window64 :=
  let w := word64 (p.2.1 + p.2.2 - 1)
  let n := v.words + (if w = v.last then 0 else 1)
  if n ≤ 64 then some { v with elems := v.elems ++ [p], words := n, last := w } else none

/-- The elements in runs that complete 64 consecutive packed words, in walk order (R205). -/
def windowLoop : List (Nat × Nat × Nat) → Window64 → List Window64
  | [], v => [v]
  | p :: r, v =>
    match v.add p with
    | some v' => windowLoop r v'
    | none => v :: windowLoop r { lo := v.lo + v.elems.length, elems := [p], words := 1, last := word64 (p.2.1 + p.2.2 - 1) }

/-- The same with their first positions. -/
def windowsOf (elems : List (Nat × Nat × Nat)) : List (Nat × List (Nat × Nat × Nat)) :=
  ((windowLoop elems { lo := 0, elems := [], words := 0, last := spadSize }).filter (fun v => !(v.elems.isEmpty))).map (fun v => (v.lo, v.elems))

/-- The memory-side runs, in 256 B units, that complete 64 consecutive packed words total at most the 64 KB of the transpose buffer
(R205). -/
def bufferFits (elems : List (Nat × Nat × Nat)) : Bool :=
  (windowsOf elems).all (fun p => decide (256 * ((p.2.map (fun k => k.1 / 256)).eraseDups).length ≤ 65536))

/-- The 256 B units that the elements touch in a block, for which it holds trackers (R206). -/
def unitsIn (elems : List (Nat × Nat × Nat)) (addr len : Nat) : Nat :=
  (((elems.filter (fun p => decide (addr ≤ p.1) && decide (p.1 < addr + len))).map (fun p => p.1 / 256)).eraseDups).length

/-- One request of elements from position `lo` up to `hi` of the walk; numbers and trackers are given when it leaves. -/
def reqOf (dev a lo hi : Nat) : StreamReq := { id := 0, dev := dev, addr := a, lo := lo, hi := hi, held := 0, at_ := 0, phase := .waiting }

/-- The size of a request's block: a transfer that overflows the transpose buffer writes partial stripes (R205). -/
def reqLen (dev op : Nat) (elems : List (Nat × Nat × Nat)) : Nat := if dev = 0 ∧ op = 1 ∧ bufferFits elems = false then 256 else blockLen dev op

/-- The requests of a list of elements that starts at position `n` of the walk: each block once, but where a device-memory transfer
overflows the transpose buffer each block once for every 64 packed words (R205). -/
def reqsOf (dev op : Nat) (elems : List (Nat × Nat × Nat)) (n : Nat) : List StreamReq :=
  let len := reqLen dev op elems
  if dev = 0 ∧ bufferFits elems = false then
    ((windowsOf elems).map (fun p => (blocksOf dev len p.2).map (fun a => reqOf dev a (n + p.1) (n + p.1 + p.2.length)))).flatten
  else (blocksOf dev len elems).map (fun a => reqOf dev a n (n + elems.length))

/-- The head of an engine's queue as a kind, when it issues in cycle `cyc`: the first in which its WAIT is satisfied, AT has come and the
requests of the command before have left; what the tile does before comes first (R140, R202). -/
def streamHead (s : State) (t e cyc : Nat) (k : EKind) : Option (Group × Tile × QEntry) :=
  match headIs s t (2 + e) k with
  | none => none
  | some (g, x, q) =>
    if decide (e < 2) && decide (cyc < 2 ^ 40) && seIssue x e q == some cyc && inTurn s g t x (2 + e) cyc q then some (g, x, q)
    else none

/-- The limit of an engine's trackers: Breeze or Tailwind (R116, R206). -/
def trackerLimit (s : State) (g : Group) (e : Nat) : Nat :=
  match imageOf s g.handle with
  | none => 8
  | some i => if bitAt i.semode e then 384 else 8

/-- The engine may take `n` more trackers: its own 8, then shared ones (R206). -/
def trackerFree (s : State) (g : Group) (x : Tile) (e n : Nat) : Bool :=
  let h := x.trackers.get e 0 + n
  let o := x.trackers.get (1 - e) 0
  decide (h ≤ trackerLimit s g e) && (decide (h ≤ 8) || decide ((h - 8) + (o - 8) ≤ 376))

/-- The elements of a stream that a request serves in its block of `len` bytes. -/
def elemsIn (st : Stream) (r : StreamReq) (len : Nat) : List (Nat × Nat × Nat) :=
  ((st.elems.take r.hi).drop r.lo).filter (fun p => decide (r.addr ≤ p.1) && decide (p.1 < r.addr + len))

/-- The bytes that a write carries to a block, with their enables; a later element wins (R198, R199). -/
def blockData (x : Tile) (st : Stream) (r : StreamReq) (len : Nat) : List Byte × List Bool :=
  ((elemsIn st r len).map (fun p => (p.1 - r.addr, spadBytes x st.issue p.2.1 p.2.2))).foldl
    (fun acc p => (splice acc.1 p.1 p.2, acc.2.take p.1 ++ p.2.map (fun _ => true) ++ acc.2.drop (p.1 + p.2.length)))
    (List.replicate len 0, List.replicate len false)

/-- The PASID of the descriptor's host region. -/
def hostPasid (s : State) (g : Group) (x : Tile) (d : Desc) : Nat :=
  match placeIn s g x d with
  | some (.host p _ _) => p
  | _ => 0

/-- The cycle in which a request can leave, from `cyc` on: a write once the bytes of its block have been read (R203, R429). -/
def leaveAt (x : Tile) (st : Stream) (r : StreamReq) (cyc : Nat) : Nat :=
  if st.op = 1 ∧ r.dev < 3 then Nat.max cyc (readBy x st (elemsIn st r (reqLen r.dev 1 st.elems))) else cyc

/-- One request leaves in cycle `cyc` or later if it can: a tracker, and for host memory a translation (R206, R211, R212); a miss sends a
request for a translation. The answer is the request as it left, none where it waits. A translation, and a page request, covers 4,096 B:
R211 and R212 give no size (DESIGN CHOICE, log 46). -/
def sendReq (s : State) (g : Group) (t e cyc : Nat) (st : Stream) (r : StreamReq) : State × Stream × Option StreamReq :=
    let x := tileOf s t
    let write := st.op == 1
    let cyc := leaveAt x st r cyc
    let d := st.entry.desc.getD 0
    let keep := (s, st, none)
    match r.dev with
    | 0 =>
      let n := Nat.min (unitsIn (elemsIn st r 4096) r.addr 4096) (trackerLimit s g e)
      if !(trackerFree s g x e n) then keep
      else
        let id := s.mem.nextReq
        let lead := r.addr % 4096
        let (data, en) := if write then blockData x st { r with addr := r.addr - lead } 4096 else ([], [])
        let whole := reqLen 0 1 st.elems == 4096
        let en := en.mapIdx (fun i b => b && (whole || (decide (lead ≤ i) && decide (i < lead + 256))))
        let m : MemReq := { id := id, write := write, addr := if write then r.addr - lead else r.addr, hint := tdHint d, part := g.part, session := g.session,
                            tile := t, engine := e, phase := .port, data := data, enable := en }
        let s := { s with mem := { s.mem with reqs := s.mem.reqs ++ [m], nextReq := id + 1 } }
        (setTile s t { x with trackers := x.trackers.put e (x.trackers.get e 0 + n) }, st,
          some { r with id := id, held := n, at_ := cyc, phase := .sent })
    | 1 =>
      let space := spaceOf (hostPasid s g x d)
      let page := r.addr / 4096
      let ok := !((cfgOf s g.fn).ats) || grants s g.fn space page write
      if !(linkOpen s g.fn) || !(trackerFree s g x e 1) then keep
      else if ok then
        let id := s.mem.nextReq
        (setTile { s with mem := { s.mem with nextReq := id + 1 } } t
          { x with trackers := x.trackers.put e (x.trackers.get e 0 + 1) }, st,
          some { r with id := id, held := 1, at_ := cyc, phase := .sent })
      else if st.asked.contains page then keep
      else
        ({ s with out := { s.out with link := s.out.link ++ [.atsRequest g.fn space page] } },
          { st with asked := page :: st.asked }, none)
    | 2 =>
      let id := s.mem.nextReq
      let (k, w) := ((tdRegion d - 0x2000) / 8, tdRegion d % 8)
      let (data, en) := if write then blockData x st r 64 else ([], [])
      let at_ := Nat.max cyc (st.first + (st.reqs.filter (fun k => !(k.phase == .waiting))).length / 8)
      let m : Msg := { msg0 with src := t, dst := groupTarget g k, kind := if write then 0 else 1, unit := 2 + e,
                                 stream := st.entry.num, req := id, window := w, offset := r.addr, data := data, enable := en }
      let s := { s with mem := { s.mem with nextReq := id + 1 } }
      (match groupOf s g.handle with
        | none => s
        | some g => setGroup s { g with msgs := g.msgs ++ [m] }, st, some { r with id := id, at_ := at_, phase := .sent })
    | _ => (s, st, some { r with at_ := cyc, phase := .sent })

/-- The stream with its first waiting request in this form. -/
def reqLeft (n : StreamReq) : List StreamReq → List StreamReq
  | [] => []
  | r :: l => if r.phase == .waiting then n :: l else r :: reqLeft n l

/-- The newest command of an engine sends its next request in cycle `cyc` or later, or the read of a key header, if it can (R202, R206,
R208); the Boolean says that one has left. -/
def pumpOne (s : State) (g : Group) (t e cyc : Nat) : State × Bool :=
  let x := tileOf s t
  match (streamsOf x e).getLast? with
  | none => (s, false)
  | some st =>
    let put := fun (s : State) (st : Stream) => let x := tileOf s t; setTile s t (setStreams x e ((streamsOf x e).dropLast ++ [st]))
    if st.phase = .header then
      if st.asking = 0 ∧ trackerFree s g x e 1 = true then
        (put (setTile s t { x with trackers := x.trackers.put e (x.trackers.get e 0 + 1) }) { st with asking := Nat.max cyc st.first + 1 }, true)
      else (s, false)
    else if st.phase = .active then
      match st.reqs.find? (fun r => r.phase == .waiting) with
      | none => (s, false)
      | some r =>
        match sendReq s g t e (Nat.max cyc st.first) st r with
        | (s, st, none) => (put s st, false)
        | (s, st, some n) => (put s { st with reqs := reqLeft n st.reqs }, true)
    else (s, false)

/-- The engine holds shared trackers, more than its own 8 (R206). -/
def holdsShared (s : State) (t e : Nat) : Bool := decide (8 < (tileOf s t).trackers.get e 0)

/-- Both engines send, one request at a time in turn: the one that did not take the last shared tracker goes first (R206). -/
def pumpLoop : Nat → State → Group → Nat → Nat → State
  | 0, s, _, _, _ => s
  | n + 1, s, g, t, cyc =>
    let first := 1 - (tileOf s t).lastShared
    let note := fun (s : State) e => if holdsShared s t e then setTile s t { tileOf s t with lastShared := e } else s
    match pumpOne s g t first cyc with
    | (s, true) => pumpLoop n (note s first) g t cyc
    | (s, false) =>
      match pumpOne s g t (1 - first) cyc with
      | (s, true) => pumpLoop n (note s (1 - first)) g t cyc
      | (s, false) => s

/-- The requests that wait at a tile. -/
def waitingReqs (x : Tile) : Nat := x.streams.vals.flatten.foldl (fun n st => n + st.reqs.length + 1) 1

/-- Both engines of a tile send what they can in cycle `cyc` (R202, R206). -/
def pumpBoth (s : State) (g : Group) (t cyc : Nat) : State := pumpLoop (waitingReqs (tileOf s t)) s g t cyc

/-- A stream command with nothing requested yet. -/
def stream0 (op : Nat) (e : QEntry) (cyc : Nat) (phase : StreamPhase) : Stream :=
  { op := op, entry := e, issue := cyc, phase := phase, dev := 4, elems := [], reqs := [], header := [], asking := 0,
    first := cyc + 4, sxUnit := 0, sxEnd := 0, last := cyc, firstPri := 0, asked := [] }

/-- SE_NOP: WAIT and SIGNAL at issue, the signal after those of the engine's earlier commands (R196, R202, R204). -/
def execSeNop (t e cyc : Nat) (s : State) : Res :=
  match streamHead s t e cyc .nop with
  | none => no "SE_NOP"
  | some (g, x, q) =>
    let (y, v) := popIssue x (2 + e) cyc q
    if (streamsOf x e).isEmpty then .next (settleTile s g t (cmdSig y cyc (2 + e) q) v)
    else .next (settleTile s g t (setStreams y e (streamsOf y e ++ [{ stream0 3 q cyc .active with first := cyc, last := cyc - 1 }])) v)

/-- The words of a list of scratchpad pieces, each once, in their order. -/
def wordsRead (l : List (Nat × Nat)) : List Nat := ((l.map (fun p => wordsOf p.1 p.2)).flatten).eraseDups

/-- Words that a stream command reads, eight an ACLK from cycle `c` on, each in its slot of rank 5 (R163, R203, R429). -/
def readWords (x : Tile) (e : Nat) (q : QEntry) (c : Nat) (ws : List Nat) : Tile :=
  (ws.mapIdx (fun i a => (c + i / 8, a))).foldl (fun x p => placeRead x lowRank p.1 p.2 (2 + e) q.num q.pc) x

/-- What a command's reads of scratchpad violate, each in its cycle (R146, R149). -/
def streamReadViols (foot : Nat) (x : Tile) (e : Nat) (q : QEntry) (own : Bool) : List Detail :=
  ((x.claims.filter (fun k => k.rank == lowRank && k.num == q.num && !(k.write))).map (fun k =>
    readViols foot x k.c0 (k.addrs.headD 0) 64 (2 + e) q.pc q.num own)).flatten

/-- The elements and requests of a command over these blocks (R198, R205). -/
def startStream (st : Stream) (d : Desc) (p : Place) (outers : List (List Nat)) : Stream :=
  let c := st.entry.word
  let (base, dev) := placeBase p
  let elems := walkElems base d (walkDims c d) outers (seSaddr c) (seSstride c)
  { st with dev := dev, elems := elems, reqs := reqsOf dev st.op elems 0, phase := .active }

/-- What a command reads in scratchpad beside a block list: packed rows on a write, a LOCAL source on a read (R203). -/
def sourceOf (st : Stream) : List (Nat × Nat) :=
  if st.op = 1 then st.elems.map (fun k => (k.2.1, k.2.2)) else if st.dev = 3 then st.elems.map (fun k => (k.1, k.2.2)) else []

/-- The reads of its own destination words are prior contents: a plain LOCAL copy, and a plain copy over the own window (R200, R201). -/
def ownReads (g : Group) (t : Nat) (st : Stream) (d : Desc) (p : Place) : Bool :=
  plainCopy st.entry.word d && (match p with
    | .loc => true
    | .window k _ => groupTarget g k == t
    | _ => false)

/-- The tile with the reads of a command's source from cycle `c` on; its hold ends with the last of its reads (R203). -/
def readSource (x : Tile) (e c : Nat) (st : Stream) : Tile :=
  let y := readWords x e st.entry c (wordsRead (sourceOf st))
  setReleases y st.entry.num [lastAccess y st.entry.num false st.issue]

/-- The block list's words (R199). -/
def listWords (d : Desc) : List Nat := wordsOf (tdBlist d) (16 * tdBcount d)

/-- The tile after the issue: the command has left its queue and is the engine's newest stream; it reads its block list first, or its source
(R199, R203). -/
def issuedTile (x : Tile) (e cyc : Nat) (q : QEntry) (write : Bool) (d : Desc) (p : Place) : Tile :=
  let y := (popIssue x (2 + e) cyc q).1
  let st := stream0 (b2n write) q cyc .list
  if tdBdims d = 0 then
    let st := startStream st d p [[]]
    readSource (setStreams y e (streamsOf y e ++ [st])) e cyc st
  else readWords (setStreams y e (streamsOf y e ++ [st])) e q cyc (listWords d)

/-- What an issue violates: its WAIT's overflow, and the reads that it makes (R141, R146, R147). -/
def issueViols (foot : Nat) (x y : Tile) (g : Group) (t e cyc : Nat) (q : QEntry) (d : Desc) (p : Place) : List Detail :=
  let st := stream0 0 q cyc .list
  (popIssue x (2 + e) cyc q).2 ++ streamReadViols foot y e q (tdBdims d == 0 && ownReads g t st d p) ++
    lateWrites y q.num ++ movedViols x y

/-- The address that a command reads first in scratchpad. -/
def firstRead (q : QEntry) (write : Bool) (d : Desc) : Option Nat :=
  if tdBdims d ≠ 0 then some (tdBlist d) else if write then some (seSaddr q.word) else if tdLocal d then some (tdLow d).toNat else none

/-- SE.READ or SE.WRITE issues in cycle `cyc` (R195, R198, R200, R202). -/
def issueStream (row : String) (k : EKind) (t e cyc : Nat) (s : State) : Res :=
  match streamHead s t e cyc k with
  | none => no row
  | some (g, x, q) =>
    let write := k == .seWrite
    match issueCheck s g t x (2 + e) cyc q write with
    | some d => .next (tileAbort s g t d)
    | none =>
      match q.desc with
      | none => no row
      | some d =>
        match placeIn s g x d with
        | none => no row
        | some p =>
          match (match firstRead q write d with
            | some a => fireRead s g t a cyc (2 + e)
            | none => none) with
          | some s' => .next s'
          | none =>
            let y := issuedTile x e cyc q write d p
            match firstViol (issueViols (footOf s g.handle) x y g t e cyc q d p) with
            | some v => .next (tileAbort (setTile s t y) g t v)
            | none => .next (pumpBoth (setTile s t y) g t cyc)

/-- SE_READ (R196 to R202). -/
def execSeRead (t e cyc : Nat) (s : State) : Res := issueStream "SE_READ" .seRead t e cyc s

/-- SE_WRITE (R196 to R202). -/
def execSeWrite (t e cyc : Nat) (s : State) : Res := issueStream "SE_WRITE" .seWrite t e cyc s

/-- The coordinates of block-list entry `b` as read in cycle `c` (R199). -/
def blockCoords (x : Tile) (d : Desc) (c b : Nat) : List Nat :=
  (List.range (tdDims d - tdBdims d)).map (fun k => leNat (spadBytes x c (tdBlist d + 16 * b + 4 * k) 4))

/-- The coordinates of every listed block. -/
def blockOuters (x : Tile) (d : Desc) (cyc : Nat) : List (List Nat) := (List.range (tdBcount d)).map (blockCoords x d cyc)

/-- The first listed block whose coordinates leave its dimensions (R199). -/
def badBlock (x : Tile) (d : Desc) (cyc : Nat) : Option Nat :=
  (List.range (tdBcount d)).find? (fun b =>
    ((blockCoords x d cyc b).mapIdx (fun k c => decide (tdSize d (tdBdims d + k) ≤ c))).any id)

/-- The first element outside the epoch's intervals, for a command over device memory (R124). -/
def badRange (s : State) (g : Group) (x : Tile) (st : Stream) : Option Nat :=
  match imageOf s g.handle with
  | some i => if st.dev = 0 then badElem i x.args g.epoch st.op st.elems else none
  | none => none

/-- What the block list violates: the first block or element out of range (R124, R199). -/
def blockViols (s : State) (g : Group) (x : Tile) (e cyc : Nat) (st : Stream) (d : Desc) (p : Place) : List Detail :=
  match badBlock x d cyc, badRange s g x (startStream st d p (blockOuters x d cyc)) with
  | some b, _ => [streamViol stDescRange cyc (2 + e) (tdBlist d + 16 * b) st.entry.pc]
  | none, some a => [streamViol stDescRange cyc (2 + e) a st.entry.pc]
  | none, none => []

/-- The tile once the list has been read in cycle `cyc`: the walk starts, its source is read, its requests leave from the next ACLK on
(R199, R202). -/
def listedTile (x : Tile) (e cyc : Nat) (st : Stream) (d : Desc) (p : Place) : Tile :=
  let st' := { startStream st d p (blockOuters x d cyc) with first := Nat.max st.first (cyc + 1), last := Nat.max st.last cyc }
  readSource (setStreams x e ((streamsOf x e).dropLast ++ [st'])) e cyc st'

/-- BLOCK_LIST_READ: the last word of the list is read in cycle `cyc`; what the tile does before comes first, and may still take its bank
(R163, R199, R429). The source is read next, checked as R162 has it. -/
def execBlockListRead (t e cyc : Nat) (s : State) : Res :=
  match live s t, (streamsOf (tileOf s t) e).getLast? with
  | some g, some st =>
    let x := tileOf s t
    match st.entry.desc with
    | none => no "BLOCK_LIST_READ"
    | some d =>
      if st.phase == .list && lastAccess x st.entry.num false st.issue == cyc && decide (cyc < 2 ^ 40) && caughtUp x (7 + e) (cyc + 1) &&
          due s g t x (7 + e) cyc then
        match placeIn s g x d with
        | none => .next (tileAbort s g t (streamViol stDescRange cyc (2 + e) (tdBlist d) st.entry.pc))
        | some p =>
          match (sourceOf (startStream st d p (blockOuters x d cyc))).head?.bind (fun k => fireRead s g t k.1 cyc (2 + e)) with
          | some s' => .next s'
          | none =>
          let y := listedTile x e cyc st d p
          match firstViol (blockViols s g x e cyc st d p ++ streamReadViols (footOf s g.handle) y e st.entry false ++
            lateWrites y st.entry.num ++ movedViols x y) with
          | some v => .next (tileAbort s g t v)
          | none => .next (pumpBoth (setTile s t y) g t cyc)
      else no "BLOCK_LIST_READ"
  | _, _ => no "BLOCK_LIST_READ"

/-- Bytes by the word that they lie in: the words in the order of their first bytes, each with its pieces. -/
def byWord (l : List (Nat × List Byte)) : List (Nat × List (Nat × List Byte)) :=
  let parts := (l.map (fun p => (partsOf p.1 p.2.length).foldl (fun (acc : List (Nat × List Byte) × List Byte) q =>
    (acc.1 ++ [(q.1, acc.2.take q.2)], acc.2.drop q.2)) ([], p.2))).map (·.1) |>.flatten
  ((parts.map (fun p => word64 p.1)).eraseDups).map (fun a => (a, parts.filter (fun p => word64 p.1 == a)))

/-- The marks of command `num` on the word at `a` end with a write in cycle `c`. -/
def endMark (x : Tile) (num a c : Nat) : Tile :=
  { x with marks := x.marks.map (fun (m : Mark) => if m.num == num && m.commit.isNone && touchesWord m.addr m.len a then { m with commit := some c } else m) }

/-- Bytes arrive in cycle `cyc` for elements of a stream: each word that they complete ends its mark, requests its bank at rank 5 and is written
in its slot, eight words an ACLK at most (R163, R164, R203, R429). -/
def landElems (x : Tile) (e cyc : Nat) (q : QEntry) (l : List (Nat × List Byte)) (complete : Nat → Bool) : Tile :=
  (byWord l).foldl (fun x p =>
    placeWrite (if complete p.1 then endMark x q.num p.1 cyc else x) lowRank cyc p.1 p.2 (2 + e) q.num q.pc) x

/-- Every element of the word at `a` has arrived (R203). -/
def wordComplete (st : Stream) (a : Nat) : Bool :=
  let open_ := st.reqs.filter (fun r => !(r.phase == .done))
  !(open_.any (fun r => (elemsIn st r (reqLen r.dev st.op st.elems)).any (fun p => touchesWord p.2.1 p.2.2 a)))

/-- The bytes that a block gives to the elements that its request serves. -/
def elemData (st : Stream) (r : StreamReq) (data : List Byte) : List (Nat × List Byte) :=
  (elemsIn st r (blockLen r.dev st.op)).map (fun p => (p.2.1, sub data (p.1 - r.addr) p.2.2))

/-- Mark one request of a stream done. -/
def reqDone (st : Stream) (id cyc : Nat) : Stream :=
  { st with reqs := st.reqs.map (fun r => if r.id == id && r.phase == .sent then { r with phase := .done } else r),
            last := Nat.max st.last cyc }

/-- Replace the stream of a command. -/
def putStream (x : Tile) (e : Nat) (st : Stream) : Tile :=
  setStreams x e ((streamsOf x e).map (fun o => if o.entry.num == st.entry.num then st else o))

/-- What the new writes of a command at rank 5 violate, each in its slot, and what they make others violate (R146, R147, R149). -/
def landViols (foot : Nat) (x y : Tile) (e : Nat) (q : QEntry) : List Detail :=
  ((y.writes.filter (fun w => w.num == q.num && !(x.writes.contains w))).map (fun w =>
    writeViols foot y w.cyc w.addr w.data.length (2 + e) q.pc q.num)).flatten ++ movedViols x y

/-- A partial write among these bytes checks the prior contents (R165). -/
def fireLand (s : State) (g : Group) (t e cyc : Nat) (l : List (Nat × List Byte)) : Option State :=
  l.findSome? (fun p => fireMerge s g t p.1 p.2.length cyc (2 + e))

/-- Read data of one block reaches the engine in cycle `cyc`: its elements land, and what they violate ends the task (R147, R166, R203). -/
def readLands (s : State) (g : Group) (t e cyc : Nat) (st : Stream) (r : StreamReq) (data : List Byte) : State :=
  let x := tileOf s t
  let st' := reqDone st r.id cyc
  let l := elemData st r data
  let y := landElems (putStream x e st') e cyc st.entry l (wordComplete st')
  let y := { y with trackers := y.trackers.put e (y.trackers.get e 0 - r.held) }
  match fireLand s g t e cyc l with
  | some s' => s'
  | none =>
    match firstViol (landViols (footOf s g.handle) x y e st.entry ++ lateReads y st.entry.num) with
    | some d => tileAbort (setTile s t y) g t d
    | none => pumpBoth (setTile s t y) g t cyc

/-- A write of one block is acknowledged or accepted (R204). -/
def writeLands (s : State) (g : Group) (t e cyc : Nat) (st : Stream) (r : StreamReq) : State :=
  let x := tileOf s t
  let y := putStream x e (reqDone st r.id cyc)
  pumpBoth (setTile s t { y with trackers := y.trackers.put e (y.trackers.get e 0 - r.held) }) g t cyc

/-- The bytes that a LOCAL copy moves, each element where it goes (R200). -/
def localData (x : Tile) (st : Stream) : List (Nat × List Byte) :=
  (st.elems.filter (fun p => decide (p.1 < spadSize))).map (fun p =>
    if st.op = 1 then (p.1, spadBytes x st.issue p.2.1 p.2.2) else (p.2.1, spadBytes x st.issue p.1 p.2.2))

/-- A LOCAL copy moves from cycle `cyc` on: the values held at issue are written, eight words an ACLK at most; every word of the extent of an
SE.WRITE is pending until its last write commits (R171, R200, R203, R429). -/
def localMoves (s : State) (g : Group) (t e cyc : Nat) (st : Stream) : State :=
  let x := tileOf s t
  let l := localData x st
  let st' := { st with reqs := st.reqs.map (fun r => if r.dev == 3 then { r with phase := .done } else r),
                       last := Nat.max st.last cyc }
  let y := landElems (putStream x e st') e cyc st.entry l (fun _ => true)
  let y := { y with marks := y.marks.map (fun m =>
    if m.num == st.entry.num && (m.commit.isNone || st.op == 1) then { m with commit := some (lastAccess y st.entry.num true cyc) } else m) }
  match fireLand s g t e cyc l with
  | some s' => s'
  | none =>
    match firstViol (landViols (footOf s g.handle) x y e st.entry ++ lateReads y st.entry.num) with
    | some d => tileAbort (setTile s t y) g t d
    | none => pumpBoth (setTile s t y) g t cyc

/-- The stream of an engine that has the sent request. -/
def streamWith (x : Tile) (e req : Nat) : Option (Stream × StreamReq) :=
  (streamsOf x e).findSome? (fun st =>
    match st.reqs.find? (fun r => r.phase == .sent && ((r.dev == 3 && req == 0) || (!(r.dev == 3) && r.id == req))) with
    | none => none
    | some r => some (st, r))

/-- STREAM_DATA_ARRIVAL: read data or an acknowledgement for a sent request reaches the engine in cycle `cyc`: from device
memory what the Stack Controllers served, from host memory the bytes of the command (log 6), in a LOCAL copy the copy itself
(R203, R204, R206). -/
def execStreamDataArrival (t e req cyc : Nat) (data : HostData) (s : State) : Res :=
  match live s t, streamWith (tileOf s t) e req with
  | some g, some (st, r) =>
    if decide (leaveAt (tileOf s t) st r r.at_ ≤ cyc) && arrives s g t (tileOf s t) cyc then
      match r.dev with
      | 0 =>
        match s.mem.reqs.find? (fun m => m.id == req && m.phase == .served) with
        | none => no "STREAM_DATA_ARRIVAL"
        | some m =>
          let s1 := { s with mem := { s.mem with reqs := s.mem.reqs.filter (fun k => !(k.id == req)) } }
          if m.write then .next (writeLands s1 g t e cyc st r)
          else
            match fireTile s1 g t 5 0x0A cyc (2 + e) with
            | some s' => .next s'
            | none => .next (readLands s1 g t e cyc st r m.data)
      | 1 =>
        let d := st.entry.desc.getD 0
        if st.op = 1 then
          let x := tileOf s t
          let (bytes, en) := blockData x st r 256
          let key := hostKey (hostPasid s g x d) r.addr
          let host := ((bytes.zip en).mapIdx (fun i p => (i, p))).foldl (fun h p =>
            if p.2.2 then h.wr (key + p.1) p.2.1 else h) s.out.host
          .next (writeLands { s with out := { s.out with host := host } } g t e cyc st r)
        else
          match data with
          | none => no "STREAM_DATA_ARRIVAL"
          | some bytes => .next (readLands s g t e cyc st r bytes)
      | 3 => .next (localMoves s g t e cyc st)
      | _ => no "STREAM_DATA_ARRIVAL"
    else no "STREAM_DATA_ARRIVAL"
  | _, _ => no "STREAM_DATA_ARRIVAL"

/-- STREAM_SIGNAL: the oldest command of the engine has met its condition and signals in the ACLK after, in queue order; what the tile does
before comes first, and may still take the banks of its words (R139, R204). -/
def execStreamSignal (t e cyc : Nat) (s : State) : Res :=
  match live s t, streamsOf (tileOf s t) e with
  | some g, st :: rest =>
    let x := tileOf s t
    let last := doneAt x st
    if streamDone st && decide (cyc = last + 1) && decide (cyc < 2 ^ 40) && due s g t x (9 + e) cyc then
      let rest := match rest with
        | [] => []
        | n :: r => { n with last := Nat.max n.last (cyc - 1) } :: r
      let y := { setStreams x e rest with seLast := x.seLast.put e (Nat.max (x.seLast.get e 0) (sentAll st)) }
      let y := { y with marks := y.marks.map (fun (m : Mark) =>
        if m.num == st.entry.num && m.commit.isNone then { m with commit := some last } else m) }
      let z := cmdSig y cyc (2 + e) st.entry
      .next (settleTile s g t z (overViols (overBy z (cyc + 1)) ++ lateReads y st.entry.num))
    else no "STREAM_SIGNAL"
  | _, _ => no "STREAM_SIGNAL"

end Sys2Proof.Machine
end

