-- ==== Sys2Proof/Machine/Remote.lean ====
section
/-! DEFINITION. Remote windows and host paging: WIN, remote accesses and their answers, NACKs, translations, page requests and
host errors (R178 to R185, R211 to R214). -/

namespace Sys2Proof.Machine

/-- The window tables of the past with that of a WIN which retires in cycle `c`: a close, and an open that replaces an open window, takes
effect from the ACLK after; the open of a closed window in its own cycle (R179, R183). -/
def windowPast (x : Tile) (c : Nat) (was : Bool) : List (Nat × Tbl Window) :=
  if was then x.winPast ++ [(c, x.windows)] else if c = 0 then x.winPast else x.winPast ++ [(c - 1, x.windows)]

/-- WIN: open, replace or close a window of the executing tile (R179, R180, R183). It occupies one ACLK and its d is usable in the next, as of
an instruction that R132 lists under neither (DESIGN CHOICE, log 46). -/
def execWin (t : Nat) (s : State) : Res :=
  coreInstr "WIN" 0x29 t s (fun w => [iD w, iA w]) (fun s g x w c =>
    let imm := imod (iImm w) (2 ^ 14)
    let n := imm % 8
    let v := (regOf x (iA w)).toNat
    let base := word64 (fld v 0 23)
    let len := fld v 32 18
    let was := (x.windows.get n window0).open_
    let closes := bitAt imm 13 || len == 0
    let win := if closes then window0
      else { open_ := true, base := base, words := Nat.min len 131072, rd := bitAt imm 3, wr := bitAt imm 4 }
    let y := retire (putReg x (iD w) (if was then 1 else 0) (c + 1)) c 1 (x.pc + 4)
    let foot := footOf s g.handle
    let bad := !closes && (decide (spadSize < base + 64 * len) || (wordsOf base (64 * len)).any (outside foot))
    settleTile s g t { y with windows := y.windows.put n win, winPast := windowPast x c was } (if bad then [rangeViol c base 5 x.pc] else []))

/-- The first remote access from `src` to `dst` of any unit, with the messages that remain (R185). -/
def takeAccess (src dst : Nat) : List Msg → Option (Msg × List Msg)
  | [] => none
  | m :: r =>
    if m.src = src ∧ m.dst = dst ∧ m.kind < 2 then some (m, r)
    else match takeAccess src dst r with
      | none => none
      | some (n, r') => some (n, m :: r')

/-- The window reference as ADDRESS carries it (R184). -/
def windowRef (target w off : Nat) : Nat := target * 2 ^ 26 + w * 2 ^ 23 + off

/-- The window that an access meets in cycle `cyc`. -/
def windowOf (x : Tile) (m : Msg) (cyc : Nat) : Window := (windowsAt x cyc).get m.window window0

/-- The target accepts the access in cycle `cyc`: the window is open, the kind permitted, the word within WLEN (R182, R183). -/
def accessOk (x : Tile) (m : Msg) (cyc : Nat) : Bool :=
  let w := windowOf x m cyc
  w.open_ && (if m.kind = 0 then w.wr else w.rd) && decide (m.offset / 64 < w.words)

/-- The enabled bytes of a remote write, as runs of one byte. -/
def enabledBytes (m : Msg) : List (Nat × Byte) :=
  (((m.data.zip m.enable).mapIdx (fun i p => (i, p))).filter (fun p => p.2.2)).map (fun p => (p.1, p.2.1))

/-- The word that the access names. -/
def accessWord (x : Tile) (m : Msg) (cyc : Nat) : Nat := word64 (spadMod ((windowOf x m cyc).base + m.offset))

/-- A remote access can be granted the bank of the word `a` in cycle `cyc`: no higher rank takes it, and a stream engine that stands in it
gives way (R163, R164). -/
def remoteSlot (x : Tile) (a cyc : Nat) : Bool :=
  let k := nextClaim x (wordClaim 6 lowRank 0 0xFFFFFFFF a false) cyc
  !(bankTaken x lowRank cyc (bankOf a)) && (match standing x k cyc with
    | none => true
    | some l => yields x k l cyc)

/-- The plain copy over its own window that this access belongs to: its reads return the values held at issue, and its own words and held
range are not compared (R200, R201). -/
def ownCopy (s : State) (g : Group) (t : Nat) (x : Tile) (m : Msg) : Option Stream :=
  if m.src = t then
    match (streamsOf x (m.unit - 2)).find? (fun st => st.entry.num == m.stream) with
    | none => none
    | some st =>
      match placeIn s g x (st.entry.desc.getD 0) with
      | none => none
      | some p => if ownReads g t st (st.entry.desc.getD 0) p then some st else none
  else none

/-- The 32-bit words that a remote write covers in part, whose prior contents are read (R165). -/
def mergedWords (m : Msg) (a : Nat) : List Nat :=
  ((List.range 16).filter (fun k => let l := (m.enable.drop (4 * k)).take 4; l.any id && !(l.all id))).map (fun k => a + 4 * k)

/-- A remote write with its claim: its enabled bytes in its slot, the cycle `cyc` (R165, R166). -/
def remoteWrite (x : Tile) (m : Msg) (a cyc num : Nat) : Tile :=
  placeWrite x lowRank cyc a ((enabledBytes m).map (fun p => (a + p.1, [p.2]))) 6 num 0xFFFFFFFF

/-- What a remote access violates at the target (R146, R147, R182). -/
def accessViols (foot : Nat) (x : Tile) (m : Msg) (a cyc num : Nat) (own : Bool) : List Detail :=
  if m.kind = 0 then ((enabledBytes m).map (fun p => writeViols foot x cyc (spadMod (a + p.1 : Nat)) 1 6 0xFFFFFFFF num)).flatten
  else readViols foot x cyc a 64 6 0xFFFFFFFF num own

/-- The target's answer: data, an acknowledgement, or a NACK (R182, R184). -/
def answerTo (g : Group) (t : Nat) (m : Msg) (ok : Bool) (data : List Byte) : Answer :=
  { dst := m.src, unit := m.unit, stream := m.stream, req := m.req, nack := !ok, read := m.kind == 1,
    ref := windowRef ((groupTiles g).idxOf t) m.window m.offset, data := if ok && m.kind == 1 then data else [] }

/-- The parity checks of an access: the word read, or the prior contents of a merge (R162, R165). -/
def fireAccess (s : State) (g : Group) (t : Nat) (m : Msg) (a cyc : Nat) : Option State :=
  if m.kind = 0 then (mergedWords m a).findSome? (fun w => fireRead s g t w cyc 6) else fireRead s g t a cyc 6

/-- The access may be granted its slot in cycle `cyc`: after what arrived before it, and with everything done that the tile does in this cycle
and before, so that its slot is final (R163, R183, R185). -/
def accessDue (s : State) (g : Group) (t : Nat) (x : Tile) (src cyc : Nat) : Bool :=
  hears x src cyc && arrives s g t x cyc && due s g t x coreEvent (cyc + 1)

/-- REMOTE_ACCESS_ARRIVAL: a remote access wins its bank slot at the target in cycle `cyc`: applied and answered, or answered
with a NACK (R164 to R166, R182, R183, R185). -/
def execRemoteAccessArrival (t src cyc : Nat) (s : State) : Res :=
  match live s t with
  | none => no "REMOTE_ACCESS_ARRIVAL"
  | some g =>
    match takeAccess src t g.msgs with
    | none => no "REMOTE_ACCESS_ARRIVAL"
    | some (m, rest) =>
      let x := tileOf s t
      let a := accessWord x m cyc
      if accessDue s g t x src cyc && remoteSlot x a cyc then
        let ok := accessOk x m cyc
        let own := ownCopy s g t x m
        let num := if own.isSome then m.stream else 0
        let from_ := match own with
          | none => cyc
          | some st => st.issue
        let y := hear (if !ok then x else if m.kind = 0 then remoteWrite x m a cyc num
          else placeRead x lowRank cyc a 6 num 0xFFFFFFFF) src cyc
        let v := if ok then accessViols (footOf s g.handle) x m a cyc num own.isSome ++ movedViols x y else []
        let g' := { g with msgs := rest, answers := g.answers ++ [answerTo g t m ok (spadBytes x from_ a 64)] }
        match if ok then fireAccess s g' t m a cyc else none with
        | some s' => .next s'
        | none => .next (settleTile (setGroup s g') g' t y v)
      else no "REMOTE_ACCESS_ARRIVAL"

/-- The first answer for a tile, with those that remain. -/
def takeAnswer (t : Nat) : List Answer → Option (Answer × List Answer)
  | [] => none
  | a :: r =>
    if a.dst = t then some (a, r)
    else match takeAnswer t r with
      | none => none
      | some (b, r') => some (b, a :: r')

/-- The request of a stream that an answer belongs to; an answer that reaches it in cycle `cyc` came after it left. -/
def answered (s : State) (g : Group) (t : Nat) (x : Tile) (a : Answer) (cyc : Nat) : Bool :=
  match streamWith x (a.unit - 2) a.req with
  | none => true
  | some (_, r) => decide (r.at_ ≤ cyc) && arrives s g t x cyc

/-- REMOTE_RESPONSE_ARRIVAL: read data or an acknowledgement reaches the issuing tile in cycle `cyc` (R182, R187, R203). -/
def execRemoteResponseArrival (t cyc : Nat) (s : State) : Res :=
  match live s t with
  | none => no "REMOTE_RESPONSE_ARRIVAL"
  | some g =>
    match takeAnswer t g.answers with
    | none => no "REMOTE_RESPONSE_ARRIVAL"
    | some (a, rest) =>
      if a.nack || decide (2 ^ 40 ≤ cyc) || !(answered s g t (tileOf s t) a cyc) then no "REMOTE_RESPONSE_ARRIVAL"
      else
        let g' := { g with answers := rest }
        let s1 := setGroup s g'
        if a.read then
          match streamWith (tileOf s t) (a.unit - 2) a.req with
          | none => .next s1
          | some (st, r) => .next (readLands s1 g' t (a.unit - 2) cyc st r a.data)
        else .next s1

/-- The byte offset of the PUSH of a stream command, when it has not signalled. -/
def pcOfStream (x : Tile) (e num : Nat) : Nat :=
  match (streamsOf x e).find? (fun st => st.entry.num == num) with
  | some st => st.entry.pc
  | none => 0xFFFFFFFF

/-- WINDOW_NACK: the task aborts with WINDOW_CLOSED, naming the issuing tile and unit and the window reference (R184). The
cycle of the issuing tile is a free value (log 7). -/
def execWindowNack (t : Nat) (s : State) : Res :=
  match live s t with
  | none => no "WINDOW_NACK"
  | some g =>
    match takeAnswer t g.answers with
    | none => no "WINDOW_NACK"
    | some (a, _) =>
      if a.nack then
        let (v, s1) := drawBytes s 5
        .next (tileAbort s1 g t { detail0 stWindowClosed with
          unitA := a.unit, cycle := leNat v, address := a.ref, pc := pcOfStream (tileOf s t) (a.unit - 2) a.stream })
      else no "WINDOW_NACK"

/-- A host access that ends a task: PAGE_FAULT or HOST_ABORT with the host address and the PASID (R212 to R214). The cycle of
the tile is a free value (log 7). -/
def hostFail (s : State) (g : Group) (t e status : Nat) (st : Stream) (addr : Nat) : State :=
  let x := tileOf s t
  let p := hostPasid s g x (st.entry.desc.getD 0)
  let (v, s) := drawBytes s 5
  tileAbort s g t { (streamViol status (leNat v) (2 + e) addr st.entry.pc) with
                    hostHi := addr / 2 ^ 32, pasid := if bitAt p 31 then p % 2 ^ 20 else 0 }

/-- The first waiting host request of the engine's newest command: where the walk stands (R212). -/
def hostWaiting (x : Tile) (e : Nat) : Option (Stream × StreamReq) :=
  match (streamsOf x e).getLast? with
  | none => none
  | some st =>
    match st.reqs.find? (fun r => r.phase == .waiting) with
    | none => none
    | some r => if r.dev = 1 then some (st, r) else none

/-- The command waits for an ATS completion of its page. -/
def askedFor (s : State) (t e : Nat) : Option (Stream × StreamReq × Nat × Nat) :=
  let x := tileOf s t
  match live s t, hostWaiting x e with
  | some g, some (st, r) =>
    let space := spaceOf (hostPasid s g x (st.entry.desc.getD 0))
    if st.phase == .active && st.asked.contains (r.addr / 4096) then some (st, r, space, g.fn) else none
  | _, _ => none

/-- The watchdog of the group does not count the time in which a stream of it is paused (R337). -/
def notePause (s : State) (h : Nat) : State :=
  match groupOf s h with
  | none => s
  | some g =>
    let any := (groupTiles g).any (fun t => [0, 1].any (fun e => (streamsOf (tileOf s t) e).any (fun st => st.firstPri != 0)))
    if any && g.pausedAt == 0 then setGroup s { g with pausedAt := s.time + 1 }
    else if !any && g.pausedAt != 0 then setGroup s { g with pausedAt := 0, exempt := g.exempt + (s.time + 1 - g.pausedAt) }
    else s

/-- A tile sends what it can when the host has answered: a free number of ACLK after the last request that left (log 7). -/
def pumpLater (s : State) (g : Group) (t e : Nat) : State :=
  let (v, s) := drawBytes s 4
  pumpBoth s g t (sentBy (tileOf s t) e + leNat v)

/-- An answer of the host to a request that the engine has abandoned is taken and discarded (R213). -/
def staleAnswer (row : String) (s : State) : Res := if domainRuns s 1 then .next s else no row

/-- The page requests that a function may have outstanding: its allocation, and 512 device-wide (R272). -/
def priRoom (s : State) (fn : Nat) : Bool :=
  decide ((s.hi.pris.filter (fun r => r.fn == fn)).length < (cfgOf s fn).prAlloc) && decide (s.hi.pris.length < 512)

/-- The first outstanding page request of an engine, and those that remain: the host answers the requests of an engine in their order (DESIGN
CHOICE, log 46). -/
def priAnswered (t e : Nat) : List PageReq → Option PageReq × List PageReq
  | [] => (none, [])
  | r :: l =>
    if r.tile = t ∧ r.engine = e then (some r, l)
    else ((priAnswered t e l).1, r :: (priAnswered t e l).2)

/-- ATS_TRANSLATION_COMPLETION: a translation is granted for the direction of the request, or grants no access (R211). `req` is
the address of the page's block that waits; an answer that nothing waits for is discarded (R213). -/
def execAtsTranslationCompletion (t e req : Nat) (grant : Bool) (s : State) : Res :=
  match live s t, askedFor s t e with
  | some g, some (st, r, space, fn) =>
    if r.addr = req then
      let page := r.addr / 4096
      let s1 := cacheTranslation s fn space page (grant && st.op != 1) (grant && st.op == 1)
      let x := tileOf s t
      if grant then
        .next (pumpLater (notePause (setTile s1 t (putStream x e { st with asked := st.asked.filter (fun p => !(p == page)),
                                                                            firstPri := 0 })) g.handle) g t e)
      else .next s1
    else staleAnswer "ATS_TRANSLATION_COMPLETION" s
  | _, _ => staleAnswer "ATS_TRANSLATION_COMPLETION" s

/-- TRANSLATION_MISS: the translation of the page where the walk stands grants no access in the direction needed: the command
pauses and a page request leaves, once the function's allocation has room for it, or with PRI disabled the task aborts (R212,
R272). -/
def execTranslationMiss (t e req : Nat) (s : State) : Res :=
  match live s t, askedFor s t e with
  | some g, some (st, r, space, fn) =>
    let page := r.addr / 4096
    match cached s fn space page with
    | none => no "TRANSLATION_MISS"
    | some a =>
      if r.addr = req ∧ (if st.op = 1 then a.wr else a.rd) = false then
        if (cfgOf s fn).pri && !(priRoom s fn) then no "TRANSLATION_MISS"
        else if (cfgOf s fn).pri then
          let s1 := { s with out := { s.out with link := s.out.link ++ [.pageRequest fn space page (st.op == 1)] },
                             hi := { s.hi with pris := s.hi.pris ++ [{ fn := fn, tile := t, engine := e, num := s.mem.nextReq + 1 }] },
                             mem := { s.mem with nextReq := s.mem.nextReq + 1 } }
          let first := if st.firstPri = 0 then s.time + 1 else st.firstPri
          .next (notePause (setTile s1 t (putStream (tileOf s t) e { st with
            phase := .paused, firstPri := first, pri := s.mem.nextReq + 1, asked := st.asked.filter (fun p => !(p == page)) })) g.handle)
        else .next (hostFail s g t e stPageFault st r.addr)
      else no "TRANSLATION_MISS"
  | _, _ => no "TRANSLATION_MISS"

/-- The paused command of an engine with the request where it stands. -/
def pausedOf (s : State) (t e : Nat) : Option (Group × Stream × StreamReq) :=
  match live s t, hostWaiting (tileOf s t) e with
  | some g, some (st, r) => if st.phase == .paused then some (g, st, r) else none
  | _, _ => none

/-- PRI_RESPONSE: Success makes the engine translate again; the others abort with PAGE_FAULT (R212). The pause ends when the page
is translated, so its first page request stays the one that the timeout counts from. An answer to a request that its command has abandoned, by
abort or by replay, is discarded (R213). -/
def execPriResponse (t e : Nat) (resp : PriCode) (s : State) : Res :=
  let (q, rest) := priAnswered t e s.hi.pris
  let s := { s with hi := { s.hi with pris := rest } }
  match pausedOf s t e with
  | none => staleAnswer "PRI_RESPONSE" s
  | some (g, st, r) =>
    if q.any (fun p => p.num == st.pri) = false then staleAnswer "PRI_RESPONSE" s
    else
    match resp with
    | .success =>
      let x := tileOf s t
      let space := spaceOf (hostPasid s g x (st.entry.desc.getD 0))
      let page := r.addr / 4096
      let ats := s.hi.ats.filter (fun a => !(a.fn == g.fn && a.space == space && a.page == page))
      let s1 := { s with hi := { s.hi with ats := ats } }
      .next (pumpLater (setTile s1 t (putStream x e { st with phase := .active, pri := 0 })) g t e)
    | _ => .next (hostFail s g t e stPageFault st r.addr)

/-- PAGE_REQUEST_TIMEOUT: 100 ms since the first page request of the pause (R212). -/
def execPageRequestTimeout (t e : Nat) (s : State) : Res :=
  match pausedOf s t e with
  | none => no "PAGE_REQUEST_TIMEOUT"
  | some (g, st, r) =>
    if st.firstPri - 1 + 100000000 ≤ s.time then .next (hostFail s g t e stPageFault st r.addr)
    else no "PAGE_REQUEST_TIMEOUT"

/-- HOST_ABORT: a host-memory request of a stream ends with a link error (R213), or cannot be sent for want of an IDE stream (R300). -/
def execHostAbort (t e req : Nat) (s : State) : Res :=
  match live s t with
  | none => no "HOST_ABORT"
  | some g =>
    match streamWith (tileOf s t) e req with
    | some (st, r) => if r.dev = 1 then .next (hostFail s g t e stHostAbort st r.addr) else no "HOST_ABORT"
    | none =>
      match linkOpen s g.fn, hostWaiting (tileOf s t) e with
      | false, some (st, r) => .next (hostFail s g t e stHostAbort st r.addr)
      | _, _ => no "HOST_ABORT"

end Sys2Proof.Machine
end

