-- ==== Sys2Proof/Machine/Epoch.lean ====
section
/-! DEFINITION. The start of a task on a tile (R125, R174), the end of an epoch with its checkpoint (R156 to R158), triples (R430) and the
restore of a replay (R159). -/

namespace Sys2Proof.Machine

/-- The argument words of a task: the block with the words that the device writes from the recorded headers (R119). -/
def argTable (e : Entry) (i : Image) : Tbl Word64 :=
  let words := (List.range (e.arg.length / 8)).map (fun k => (k, BitVec.ofNat 64 (le e.arg (8 * k) 8)))
  let base := words.filter (fun p => !(p.2 == 0))
  (i.objs.filter (fun d => d.role != 3)).foldl (fun t d =>
    let h := headerAt e.headers d.slot
    let (a, n) := if d.role = 2 then (khData h, khLength h) else (ohData h, ohLength h)
    (Tbl.put (Tbl.put t (64 + d.slot) (BitVec.ofNat 64 a)) (96 + d.slot) (BitVec.ofNat 64 n))) base

/-- The descriptor table of an image in entries 0 to DESCS − 1 (R195). -/
def descTable (i : Image) : Tbl Desc := i.descs.mapIdx (fun k d => (k, d))

/-- The power states at task start: FOOTPRINT On, every other group in the idle state of the session at its dispatch, 1 Penumbra or 2
Umbra (R125, R174, R313). -/
def startPower (foot idle : Nat) : Tbl GroupPower :=
  groupList.map (fun k => (k, if bitAt foot k then .on else if idle = 1 then .penumbra else .umbra))

/-- A tile as R156 gives it at the start of an epoch, with the contents, registers and semaphores it holds. -/
def freshEpoch (i : Image) (x : Tile) : Tile :=
  { x with status := .running, cyc := 0, num := 0, readyAt := [], store := none, storeAt := 0, queues := [], semAt := [], sigs := [],
           marks := [], holds := [], rank5 := rankRecord x, claims := [], writes := [], planes := [], loads := [], mmaHist := [],
           veHist := [], chains := [], qregs := [], perms := [], jobs := [], descs := descTable i, streams := [], trackers := [],
           winPast := [], heard := [], spBusy := none, spLast := 0, veLast := 0, issued := [], seen := 0, seLast := [] }

/-- A tile at CYC = 0 of a task (R125). -/
def startTile (g : Group) (e : Entry) (i : Image) (t : Nat) (x : Tile) : Tile :=
  let idx := (groupTiles g).idxOf t
  let r := i.roleMap.getD idx 0
  let role := i.roles.getD r { codeOff := 0, codeLen := 0, entry := 0 }
  let power := startPower i.footprint g.idle
  let kept := { x with spad := (spadKept x power).filter (fun p => !(bitAt i.footprint (spadGroup p.1))), power := power }
  freshEpoch i { kept with regs := [], pc := role.entry, base := 0, group := g.handle, index := idx, code := i.codes.getD r [], icache := [],
                           codeLen := role.codeLen, role := r, args := argTable e i, sems := [], windows := [], rank5 := [] }

/-- What a checkpoint saves of a tile that waits in EPOCH (R157). -/
def saveTile (foot t : Nat) (x : Tile) : TileSave :=
  { tile := t, spad := x.spad.filter (fun p => bitAt foot (spadGroup p.1)), regs := x.regs, base := x.base, pc := x.pc + 4,
    sems := x.sems, windows := x.windows }

/-- What the groups outside FOOTPRINT hold: all but those in Umbra keep their contents (R173). -/
def outsideKept (foot : Nat) (x : Tile) : Mem :=
  (spadKept x x.power).filter (fun p => !(bitAt foot (spadGroup p.1)))

/-- A tile restored from its checkpoint; a group outside FOOTPRINT keeps what its power state keeps (R159, R173). -/
def restoreTile (i : Image) (v : TileSave) (x : Tile) : Tile :=
  freshEpoch i { x with spad := (outsideKept i.footprint x).foldl (fun m p => m.wr p.1 p.2) v.spad, regs := v.regs, base := v.base, pc := v.pc, sems := v.sems, windows := v.windows }

/-- The slots whose triples epoch `k` is the first to read, among those not consumed yet (R430). -/
def triplesDue (e : Entry) (i : Image) (k : Nat) (done : List Nat) : List Nat :=
  let args := argTable e i
  let reads := rangesIn i args k 0
  ((i.objs.filter (fun d => d.role == 4 && !(done.contains d.slot) &&
    reads.any (meets (dataRange args e.headers d)))).map (fun d => d.slot)).eraseDups

/-- The header address of a slot. -/
def slotAddr (e : Entry) (i : Image) (slot : Nat) : Nat := ((argTable e i).get slot 0).toNat

/-- One triple's header is read again and written not-VALID: the status, 0 for none; none while the read or the write must wait (R63,
R247, R430). -/
def consumeOne (s : State) (g : Group) (e : Entry) (i : Image) (n : Nat) : Option (State × Nat) :=
  let a := slotAddr e i n
  if devWaits s g.part a 256 then none
  else
    match devRead s g.part g.handle a 256 with
    | (s, none) => some (loseWork s g.handle, stObjectLost)
    | (s, some h) =>
      let was := headerAt e.headers n
      if intactCt h && ohValid h && ohGen h == ohGen was then
        (headerWrites s g.part g.handle [(a, sealHeader (splice was 6 (leBytes 2 (ohFlags was / 2 * 2))))]).map (fun s =>
          (match groupOf s g.handle with
            | none => s
            | some g => setGroup s { g with triples := g.triples ++ [n] }, 0))
      else some (abortTask s g.handle stHeaderInvalid none, stHeaderInvalid)

/-- TRIPLE_CONSUME: the triples that epoch `k` is the first to read, one after the other; the status of the first failure, 0 for none (R63,
R430). None while device memory must be waited for. -/
def consumeTriples (s : State) (g : Group) (e : Entry) (i : Image) (k : Nat) : Option (State × Nat) :=
  (triplesDue e i k g.triples).foldl (fun acc n => match acc with
    | some (s, 0) => consumeOne s g e i n
    | r => r) (some (s, 0))

/-- A tile at the end of its epoch: every write applied and every signal added. -/
def closeEpoch (x : Tile) : Tile := (foldSigs { x with spad := flushWrites x, writes := [] } (2 ^ 41) (fun _ => true)).1

/-- Epoch `k` may follow: a macro has as many epochs as its plan gives (R221); a TASK's plan is empty. -/
def epochPlanned (i : Image) (k : Nat) : Bool := i.plan.isEmpty || decide (k < i.plan.length)

/-- EPOCH_CHECKPOINT: every tile of the group has quiesced and joined: the checkpoint is written, the release broadcast, and
each tile begins the next epoch (R156 to R158, R221, R430). -/
def execEpochCheckpoint (h : Nat) (s : State) : Res :=
  match groupOf s h, entryOf s h with
  | some g, some e =>
    match e.image with
    | none => no "EPOCH_CHECKPOINT"
    | some i =>
      let k := g.epoch + 1
      if g.fault.isNone && allJoined s g && epochPlanned i k then
        match closeViols s g with
        | some (t, d) => .next (tileAbort s g t d)
        | none =>
          let closed := (groupTiles g).map (fun t => (t, closeEpoch (tileOf s t)))
          let saves := closed.map (fun p => saveTile i.footprint p.1 p.2)
          let s1 := closed.foldl (fun s p => setTile s p.1 (freshEpoch i { p.2 with pc := p.2.pc + 4 })) s
          let g1 := { g with epoch := k, epochAt := s.time, saves := ((k, saves) :: g.saves).take 2, barHere := [],
                             release := [], lastFault := none, watched := false, exempt := 0, pausedAt := 0, stalled := none }
          match consumeTriples (setGroup s1 g1) g1 e i k with
          | none => no "EPOCH_CHECKPOINT"
          | some r => .next r.1
      else no "EPOCH_CHECKPOINT"
  | _, _ => no "EPOCH_CHECKPOINT"

/-- Steps 1 to 4 of R159: the group's work in flight is discarded, its checkpoint restored and its epoch restarted. -/
def restoreGroup (s : State) (g : Group) (e : Entry) (i : Image) : State :=
  let s := dropReqs s (groupTiles g)
  let saves := match g.saves.find? (fun p => p.1 == g.epoch) with
    | none => []
    | some p => p.2
  let s := g.started.foldl (fun s t =>
    let x := tileOf s t
    setTile s t (if g.epoch = 0 then startTile g e i t x
      else match saves.find? (fun v => v.tile == t) with
        | none => startTile g e i t x
        | some v => restoreTile i v x)) s
  setGroup s { g with fault := none, epochAt := s.time, barSent := [], barHere := [], release := [], msgs := [],
                      answers := [], exempt := 0, pausedAt := 0, stalled := none }

end Sys2Proof.Machine
end

