-- ==== Sys2Proof/Machine/Stacks.lean ====
section
/-! DEFINITION. Lanes, calibration, loss, rebuild, resynchronisation and patrol scrub of device memory (R248 to R257, R264). -/

namespace Sys2Proof.Machine

/-- The channels of a stack. -/
def stackChannels (n : Nat) : List Nat := (List.range 48).map (fun c => 48 * n + c)

/-- The channels of a stack that are lost, all of them where the stack is (R254, R268). -/
def lostChannels (s : State) (n : Nat) : Nat := ((stackChannels n).filter (channelIsLost s)).length

/-- Every lost channel of the device, a lost stack's among them. -/
def allLost (s : State) : List Nat := (List.range 960).filter (channelIsLost s)

/-- Two channels hold units of one stripe group of the CRC table or the device-reserved area, which covers every residue (R232 to
R234). -/
def shareGroup (a b : Nat) : Bool :=
  let x := a / 48
  let y := b / 48
  x != y && (List.range 20).any (fun r =>
    let rx := (r + 36 - x) % 20
    let ry := (r + 36 - y) % 20
    decide (rx < 17) && decide (ry < 17) && (a % 48 + 96 - rx) % 48 == (b % 48 + 96 - ry) % 48)

/-- After a loss in service, a stripe of the CRC table or the device-reserved area may have become POISONED: where the lost channels share a
group with channels lost before, and the rebuild of that area, which comes first, was not complete. How far it was is a free value
(R255, R256, R264; log 7). -/
def metadataLoss (s : State) (before new : List Nat) : State :=
  if s.mgt.ready && before.any (fun a => new.any (shareGroup a)) && ((s.mem.rebuilding && !(s.mem.metaDone)) || s.mem.noReserve) then
    let (v, s) := drawBytes s 1
    if leNat v % 2 = 1 then goUnrecoverable s 2 else s
  else s

/-- The units of WRITTEN and POISONED stripes whose place is one of these channels. -/
def unitsOn (s : State) (chs : List Nat) : List (Nat × Nat) :=
  ((s.mem.stripes.filter (fun p => !(p.2 == .unwritten))).map (fun p =>
    ((List.range 17).filter (fun u => chs.contains (unitChannel s p.1 u))).map (fun u => (p.1, u)))).flatten

/-- A rebuild begins, unless the reserve is used up (R255, R256). -/
def beginRebuild (s : State) : State :=
  if s.mem.noReserve then s else { s with mem := { s.mem with rebuilding := true, metaDone := false, rebuilt := 0 } }

/-- The write buffer and any repair or pause of a lost channel end with it. -/
def loseChannel (s : State) (c : Nat) : State := setChannel s c { channelOf s c with state := .lost, mend := none, buffered := [] }

/-- A stack is lost (R254, R352): its event and record, and the rebuild of its units. -/
def loseStack (s : State) (n src : Nat) : State :=
  let before := allLost s
  let s := setStack s n { stackOf s n with state := 2 }
  let s := { s with mem := { s.mem with lostStack := s.mem.lostStack.orElse (fun _ => some n),
                                        paused := if s.mem.paused = some n then none else s.mem.paused } }
  let s := absorbed (logFault (memEvent s 3) src 5 0xFF 0xFF (48 * n) 0xFF 0 0)
  beginRebuild (metadataLoss s before (stackChannels n))

/-- A channel is lost; with eight of its stack lost, the stack is (R254). -/
def loseChannelFull (s : State) (c src : Nat) : State :=
  let before := allLost s
  let s := loseChannel s c
  let s := absorbed (logFault (memEvent s 2) src 5 0xFF 0xFF c 0xFF 0 0)
  let s := beginRebuild (metadataLoss s before [c])
  if 8 ≤ lostChannels s (c / 48) ∧ (stackOf s (c / 48)).state ≠ 2 then loseStack s (c / 48) 0x24 else s

/-- The channel is trained, not lost, and its stack is not lost. -/
def channelLives (s : State) (c : Nat) : Bool :=
  s.mem.trained && !(channelIsLost s c) && !((channelOf s c).state == .notTrained)

/-- CHANNEL_LOST (R254). -/
def execChannelLost (ch : Nat) (s : State) : Res :=
  if channelLives s ch then .next (loseChannelFull s ch 0x23) else no "CHANNEL_LOST"

/-- STACK_LOST (R254). -/
def execStackLost (stk : Nat) (s : State) : Res :=
  if s.mem.trained && (stackOf s stk).state != 2 then .next (loseStack s stk 0x24) else no "STACK_LOST"

/-- A lane of a channel fails: a free spare of its kind is calibrated while the channel is out of service, or the channel is lost
(R250); the lane is a detection of its own (R333, R352). -/
def laneFails (s : State) (ch : Nat) (ca : Bool) (lane src : Nat) : State :=
  let x := channelOf s ch
  if (if ca then x.caFree else x.dqFree) = 0 then loseChannelFull (logFault s src 5 0xFF 0xFF ch 0xFF 0 0) ch 0x23
  else
    let spare := (if ca then x.caSpares else x.dqSpares).headD 0
    logFault (setChannel s ch { x with state := .repair, mend := some (ca, lane, spare), buffered := [],
                                       caSpares := if ca then x.caSpares.tail else x.caSpares,
                                       dqSpares := if ca then x.dqSpares else x.dqSpares.tail }) src 4 0xFF 0xFF ch 0xFF 0 0

/-- The lanes of a kind that are in service: neither free nor failed (R251). -/
def liveLanes (x : Channel) (ca : Bool) : List Nat :=
  if ca then (List.range 8).filter (fun l => !(x.caSpares.contains l) && l != x.failCa)
  else (List.range 18).filter (fun l => !(x.dqSpares.contains l) && l != x.failA && l != x.failB)

/-- LANE_REPAIR: 16 link-CRC failures within 1 s on a lane in service (R250). -/
def execLaneRepair (ch : Nat) (ca : Bool) (lane : Nat) (s : State) : Res :=
  if channelLives s ch && (channelOf s ch).state == .inService && (liveLanes (channelOf s ch) ca).contains lane then
    .next (laneFails s ch ca lane 0x22)
  else no "LANE_REPAIR"

/-- LANE_REPAIR_DONE: the spare, calibrated now, is switched in and the channel returns to service (R250, R251, R267, R269). -/
def execLaneRepairDone (ch : Nat) (s : State) : Res :=
  let x := channelOf s ch
  match x.mend with
  | none => no "LANE_REPAIR_DONE"
  | some (ca, lane, spare) =>
    if channelLives s ch && x.state == .repair then
      let y := if ca then { x with failCa := lane, caCal := x.caCal.set spare s.time }
        else if x.failA = 31 then { x with failA := lane, dqCal := x.dqCal.set spare s.time }
        else { x with failB := lane, dqCal := x.dqCal.set spare s.time }
      .next (memEvent (setChannel s ch { y with state := .inService, mend := none }) 1)
    else no "LANE_REPAIR_DONE"

/-- When a lane of a kind last calibrated. -/
def calAt (x : Channel) (ca : Bool) (l : Nat) : Nat := (if ca then x.caCal else x.dqCal).getD l 0

/-- The first lane of a list that calibrated longest ago. -/
def oldestOf (x : Channel) (ca : Bool) (l : List Nat) : Option Nat :=
  l.foldl (fun b l => match b with
    | none => some l
    | some k => if calAt x ca l < calAt x ca k then some l else some k) none

/-- The lane in service that calibrated longest ago, the lowest of several (R251). -/
def oldestLane (x : Channel) (ca : Bool) : Option Nat := oldestOf x ca (liveLanes x ca)

/-- The lane of a kind that calibrates next: the free one that calibrated longest ago, or, where none is free, the one in service (R251,
R252). -/
def calLane (x : Channel) (ca : Bool) : Option Nat :=
  (oldestOf x ca (if ca then x.caSpares else x.dqSpares)).orElse (fun _ => oldestLane x ca)

/-- The calibration interval of the lane that calibrates next has passed (R251, R252). -/
def calDue (s : State) (x : Channel) (ca : Bool) : Bool :=
  match calLane x ca with
  | none => false
  | some l => decide (calAt x ca l + 1000000 * s.mem.calInterval ≤ s.time)

/-- One rotation: the free lane that is due has calibrated and takes the data bit of the lane that calibrated longest ago, which becomes free (R251). -/
def rotateLane (x : Channel) (ca : Bool) (now : Nat) : Channel :=
  match calLane x ca, oldestLane x ca with
  | some l, some k =>
    if ca then { x with caCal := x.caCal.set l now, caSpares := x.caSpares.filter (· ≠ l) ++ [k] }
    else { x with dqCal := x.dqCal.set l now, dqSpares := x.dqSpares.filter (· ≠ l) ++ [k] }
  | _, _ => x

/-- CAL_INTERVAL: the free lane of a kind is due: it calibrates and a rotation follows. A pass over the lanes of the kind is one such
command for each (R251). -/
def execCalInterval (ch : Nat) (ca : Bool) (s : State) : Res :=
  let x := channelOf s ch
  if channelLives s ch && x.state == .inService && calDue s x ca && decide (0 < if ca then x.caFree else x.dqFree) then
    .next (setChannel s ch (rotateLane x ca s.time))
  else no "CAL_INTERVAL"

/-- CAL_PAUSE: a channel with no free spare of a kind pauses to calibrate that kind (R252). -/
def execCalPause (ch : Nat) (s : State) : Res :=
  let x := channelOf s ch
  let dq := x.dqFree == 0 && calDue s x false
  let ca := x.caFree == 0 && calDue s x true
  if channelLives s ch && x.state == .inService && (dq || ca) then
    .next (setChannel s ch { x with state := .pause, pauses := satInc x.pauses 8191,
                                    dqCal := if dq then List.replicate 18 s.time else x.dqCal,
                                    caCal := if ca then List.replicate 8 s.time else x.caCal })
  else no "CAL_PAUSE"

/-- CAL_PAUSE_END: the write buffer drains and the channel goes on (R241, R252). -/
def execCalPauseEnd (ch : Nat) (s : State) : Res :=
  let x := channelOf s ch
  if x.state == .pause then .next (setChannel s ch { x with state := .inService, buffered := [] }) else no "CAL_PAUSE_END"

/-- The place in the reserve of a rebuilt unit: on one of its stripe's free stacks that is not lost, as the placement table gives;
the next channel of that stack where the one given is lost (R255; log 17). -/
def reserveChannel (s : State) (st u : Nat) : Option Nat :=
  let free := ([17, 18, 19].map (fun k => (st % 20 + k) % 20)).filter (fun n => (stackOf s n).state != 2)
  let k := Config.reservePlace st u
  match free[k % free.length]? with
  | none => none
  | some n => ((List.range 48).map (fun i => 48 * n + (k / 3 + i) % 48)).find? (fun c => !(channelIsLost s c))

/-- One unit of a lost channel is rebuilt into the reserve, or its stripe is found POISONED (R239, R255, R256). Only the slice of its new
stack may hold it from then on, so a line of the old one goes (R240, R241). -/
def rebuildUnit (s : State) (p : Nat × Nat) : State :=
  let (st, u) := p
  if unitRead s st u == .lost then poison s st
  else
    match reserveChannel s st u with
    | none => s
    | some c =>
      let s := { s with mem := { s.mem with placed := (st, u, c) :: s.mem.placed.filter (fun q => !(q.1 == st && q.2.1 == u)),
                                            reserveUsed := s.mem.reserveUsed + 1,
                                            lines := s.mem.lines.filter (fun l => !(l.unit == 17 * st + u)) } }
      let s := unitMended s st u
      if channelOut s c then { s with mem := { s.mem with stale := s.mem.stale ++ [(st, u)] } } else s

/-- The reserve in units (R265). -/
def reserveUnits : Nat := 4096 * 0x12000

/-- The units of the CRC table and the device-reserved area are placed, before any other: what they take of the reserve is an open value
within the share of the lost channels (R255; log 7). -/
def rebuildMeta (s : State) : State :=
  if s.mem.metaDone then s
  else
    let table := openIn 3 s.mem.reserveUsed 0 (cdiv ((allLost s).length * 14976) 480)
    { s with mem := { s.mem with metaDone := true, reserveUsed := Nat.min reserveUnits (s.mem.reserveUsed + 4096 * table) } }

/-- MEM_RESERVE_FREE, the free amount rounded down to whole MB (DESIGN CHOICE, log 58), and NO_RESERVE as the units placed leave them (R255,
R256, R265). -/
def countReserve (s : State) (short : Bool) : State :=
  let free := 0x12000 - cdiv s.mem.reserveUsed 4096
  { s with mem := { s.mem with reserveFree := free, noReserve := s.mem.noReserve || free == 0 || short } }

/-- The units of lost channels that rebuild can place now, in ascending order: not one of a POISONED stripe that cannot be reconstructed, nor
one whose reconstruction waits for a lane repair or a pause (R239, R255, R264). -/
def rebuildUnits (s : State) : List (Nat × Nat) :=
  (unitsOn s (allLost s)).filter (fun p =>
    unitRead s p.1 p.2 != .waits && !(unitRead s p.1 p.2 == .lost && stripeOf s p.1 == .poisoned))

/-- The next `n` units of a rebuild are placed, in ascending order, as far as there are such and the reserve has room (R255, R256). -/
def rebuildSome (n : Nat) (s : State) : State :=
  let us := rebuildUnits s
  let room := reserveUnits - s.mem.reserveUsed
  countReserve ((us.take (Nat.min room n)).foldl rebuildUnit s) (decide (room ≤ n) && decide (room < us.length))

/-- A rebuild goes on while time passes: it places what comes first, one unit or none at a time as a free value has it, and MEM_REBUILD shows
an open share of the units until all are placed (R255; DESIGN CHOICE, log 28). -/
def rebuildTick (s : State) : State :=
  if s.mem.rebuilding && !((allLost s).isEmpty) then
    let (v, s) := drawBytes s 1
    if leNat v % 2 = 0 then s
    else
      let s := if s.mem.metaDone then rebuildSome 1 s else countReserve (rebuildMeta s) false
      { s with mem := { s.mem with rebuilt := openIn 4 s.mem.reserveUsed s.mem.rebuilt 999 } }
  else s

/-- REBUILD_DONE: every unit that is left has been placed, and the rebuild is complete (R255, R256, R264). -/
def execRebuildDone (s : State) : Res :=
  if s.mem.rebuilding && !((allLost s).isEmpty) && !((unitsOn s (allLost s)).any (fun p => unitRead s p.1 p.2 == .waits)) then
    let s0 := rebuildMeta s
    let s1 := rebuildSome (rebuildUnits s0).length s0
    .next (memEvent { s1 with mem := { s1.mem with rebuilding := false, rebuilt := 1000 } } 4)
  else no "REBUILD_DONE"

/-- RESYNC: the paused stack, cooled below 102 °C, returns to service and its stale units are resynchronised (R257, R258, R268). -/
def execResync (stk : Nat) (s : State) : Res :=
  let x := stackOf s stk
  if x.state == 1 && !x.hot105 then
    .next { (setStack s stk { x with state := 3 }) with mem := { (setStack s stk { x with state := 3 }).mem with paused := none } }
  else no "RESYNC"

/-- A stale unit can be reconstructed once a lane repair of another unit's channel is complete (R264). -/
def resyncWaits (s : State) (st u : Nat) : Bool := (otherUnits u).all (unitSoon s st) && !((otherUnits u).all (unitDirect s st))

/-- RESYNC_DONE: every stale unit of the stack that can be reconstructed is rewritten in place; in a POISONED stripe, whose parity partial writes
have left as it was, none can (R239, R257). -/
def execResyncDone (stk : Nat) (s : State) : Res :=
  let x := stackOf s stk
  let mine := s.mem.stale.filter (fun p => unitChannel s p.1 p.2 / 48 == stk && stripeOf s p.1 == .written)
  if x.state == 3 && !(mine.any (fun p => resyncWaits s p.1 p.2)) then
    let s1 := mine.foldl (fun s p =>
      if (otherUnits p.2).all (unitDirect s p.1) then unitMended s p.1 p.2
      else poison s p.1) s
    .next (setStack s1 stk { x with state := 0 })
  else no "RESYNC_DONE"

/-- One unit that patrol scrub found to fail its CRC: reconstructed and rewritten, or its stripe POISONED (R239, R248). -/
def scrubUnit (st : Nat) (s : State) (u : Nat) : State :=
  if unitRead s st u == .lost then (if stripeOf s st == .written then loseUnit 0x20 s 0xFF 0 st u else s)
  else crcRepaired s 0x20 0xFF 0 st u

/-- PATROL_SCRUB: a WRITTEN stripe is read, at which an armed injection can fire (R358); CRC mismatches are repaired, and parity that disagrees with intact data is rewritten
(R248, R264). -/
def execPatrolScrub (stripe : Nat) (badUnits : List Nat) (badParity : Bool) (s : State) : Res :=
  if s.mem.trained && stripeOf s stripe == .written && decide (stripe < capacity / 4096) then
    let s := (List.range 17).foldl (fun s u => fireUnit s 0xFF 0 stripe u) s
    let bad := (badUnits.filter (fun u => decide (u < 17) && unitDirect s stripe u)).eraseDups
    let s1 := { s with mem := { s.mem with bad := s.mem.bad ++ (bad.filter (fun u => !(unitBad s stripe u))).map (fun u => (stripe, u)) } }
    let s2 := ((List.range 17).filter (unitBad s1 stripe)).foldl (scrubUnit stripe) s1
    .next (if badParity && bad.isEmpty then memEvent s2 0 else s2)
  else no "PATROL_SCRUB"

/-- MEM_STATUS.DEGRADED (R266). -/
def degraded (s : State) : Bool :=
  s.mem.channels.any (fun p => p.2.state == .lost || p.2.state == .repair) ||
    s.mem.stks.any (fun p => p.2.state == 1 || p.2.state == 2 || p.2.state == 3) || s.mem.rebuilding || !(s.mem.stale.isEmpty)

end Sys2Proof.Machine
end

