-- ==== Sys2Proof/Machine/Thermal.lean ====
section
/-! DEFINITION. Temperatures, throttle steps and the power limit (R258 to R260, R263, R395 to R397, R402, R420). -/

namespace Sys2Proof.Machine

/-- A physical position lies in a rectangle of the die. -/
def inBox (x0 x1 y0 y1 pos : Nat) : Bool :=
  decide (x0 ≤ pos % 8) && decide (pos % 8 ≤ x1) && decide (y0 ≤ pos / 8) && decide (pos / 8 ≤ y1)

/-- The first columns of the neighbourhoods along the north edge (R259). -/
def northCols : List Nat := [0, 1, 2, 4, 5, 6]

/-- A position lies in a stack's neighbourhood (R259). -/
def nearStack (n pos : Nat) : Bool :=
  if n < 6 then let x := northCols.getD n 0; inBox x (x + 1) 0 1 pos
  else if n < 10 then inBox 6 7 (2 * (n - 6)) (2 * (n - 6) + 2) pos
  else if n < 16 then let x := northCols.getD (15 - n) 0; inBox x (x + 1) 7 8 pos
  else inBox 0 1 (2 * (19 - n)) (2 * (19 - n) + 2) pos

/-- A position lies below a Mirror zone (R263). -/
def nearZone (z pos : Nat) : Bool := inBox (2 * (z % 4)) (2 * (z % 4) + 1) (2 * (z / 4)) (2 * (z / 4) + 2) pos

/-- Steps requested by stack heat: one for each hot neighbourhood, three while a second stack is above 105 °C (R258, R260). -/
def stackSteps (s : State) (pos : Nat) : Nat :=
  if s.mem.stks.any (fun p => p.2.refresh4) then 3
  else Nat.min 3 (s.mem.stks.filter (fun p => p.2.hot95 && nearStack p.1 pos)).length

/-- Steps requested by Mirror zone heat (R263). -/
def mirrorSteps (s : State) (pos : Nat) : Nat := Nat.min 3 (s.mir.zones.filter (fun p => p.2.throttle && nearZone p.1 pos)).length

/-- The power step, the fast step counted in and capped at 3 (R402; DEDUCED, log 42). -/
def powerTotal (c : Clk) : Nat := Nat.min 3 (c.powerStep + c.fastStep)

/-- Steps requested by the power limit (R402). -/
def powerSteps (s : State) : Nat := powerTotal s.clk

/-- The step count that the causes request of a position (R395). -/
def wantedSteps (s : State) (pos : Nat) : Nat := Nat.min 3 (stackSteps s pos + mirrorSteps s pos + powerSteps s)

/-- The clock of a position. -/
def clockOf (s : State) (pos : Nat) : TileClock := s.clk.positions.get pos tileClock0

/-- Replace the clock of a position. -/
def setClock (s : State) (pos : Nat) (x : TileClock) : State :=
  { s with clk := { s.clk with positions := s.clk.positions.put pos x } }

/-- The step count that a position is on its way to. -/
def aimOf (x : TileClock) : Nat := (x.command.orElse (fun _ => x.settling)).getD x.steps

/-- Send a throttle command to every position whose requested count has changed (R396, R416). -/
def sendThrottles (s : State) : State :=
  (List.range 72).foldl (fun s pos =>
    let x := clockOf s pos
    if aimOf x = wantedSteps s pos then s else setClock s pos { x with command := some (wantedSteps s pos) }) s

/-- Requested counts before and after a change of the causes differ at some position. -/
def stepsMoved (a b : State) : Bool := (List.range 72).any (fun pos => wantedSteps a pos != wantedSteps b pos)

/-- A thermal cause has changed: THERMAL_STEP when some tile's steps did, and the commands (R396, R420). -/
def thermalChange (before after : State) : State :=
  if stepsMoved before after then sendThrottles (clkEvent after 2) else after

/-- A threshold with hysteresis: set above the first, cleared below the second. -/
def hyst (was : Bool) (temp hi lo : Int) : Bool := if hi < temp then true else if temp < lo then false else was

/-- Another stack is paused and has not fallen below 102 °C (R258, R260). -/
def pausedHot (s : State) (stk : Nat) : Bool :=
  match s.mem.paused with
  | some n => n != stk && (stackOf s n).hot105
  | none => false

/-- A sample of the hottest die of a stack, with the thresholds of R258 and the case of a further hot stack while one is paused: its
measures end when it, or the paused stack, falls below 102 °C (R260). -/
def stackSample (stk : Nat) (temp : Int) (s : State) : State :=
  let x := stackOf s stk
  let y := { x with temp := temp, hot85 := hyst x.hot85 temp 85 82, hot95 := hyst x.hot95 temp 95 92,
                    hot105 := hyst x.hot105 temp 105 102 }
  let s0 := settleBuckets s
  let pauses := y.hot105 && (x.state == 0 || x.state == 3) && s.mem.paused.isNone
  let second := y.hot105 && !x.hot105 && pausedHot s stk
  let cools := x.hot105 && !y.hot105 && s.mem.paused == some stk
  let s1 := setStack s0 stk { y with state := if pauses then 1 else x.state, refresh4 := (x.refresh4 || second) && y.hot105 }
  let s1 := if cools then { s1 with mem := { s1.mem with stks := s1.mem.stks.map (fun p => (p.1, { p.2 with refresh4 := false })) } }
    else s1
  let s1 := if pauses then { s1 with mem := { s1.mem with paused := some stk } } else s1
  let s2 := if y.hot95 && !x.hot95 then memEvent s1 5 else s1
  let s3 := if y.hot105 && !x.hot105 then memEvent s2 6 else s2
  thermalChange s s3

/-- MIRROR_ZONE_TEMP (R263, R271). -/
def execMirrorZoneTemp (z : Nat) (temp : Int) (s : State) : Res :=
  let x := s.mir.zones.get z zone0
  if domainRuns s 2 && decide (-128 ≤ temp) && decide (temp < 128) then
    let y := { x with temp := temp, throttle := hyst x.throttle temp 95 92 }
    .next (thermalChange s { s with mir := { s.mir with zones := s.mir.zones.put z y } })
  else no "MIRROR_ZONE_TEMP"

/-- THROTTLE_COMMAND: the command reaches its tile and applies at a command boundary: a rise changes the divider at once, a fall
waits for the voltage (R396, R397). -/
def execThrottleCommand (pos : Nat) (s : State) : Res :=
  let x := clockOf s pos
  match x.command with
  | none => no "THROTTLE_COMMAND"
  | some w =>
    .next (setClock s pos (if w < x.steps then { x with command := none, settling := some w }
      else { steps := w, command := none, settling := none }))

/-- VOLT_SETTLED: the higher voltage has settled and the divider changes (R397). -/
def execVoltSettled (pos : Nat) (s : State) : Res :=
  let x := clockOf s pos
  match x.settling with
  | none => no "VOLT_SETTLED"
  | some w => .next (setClock s pos { x with steps := w, settling := none })

/-- The power step after a sample: up 1 when the average passes POWER_W and again after each further 1 ms above it; down 1 after
10 ms below 0.95 × POWER_W, and again after each further 10 ms (R402). -/
def powerStepRule (s : State) (avg : Nat) : Clk :=
  let c := s.clk
  let raise := { c with powerStep := Nat.min 3 (c.powerStep + 1), overSince := some s.time, underSince := none }
  if c.powerW < avg then
    match c.overSince with
    | none => raise
    | some t => if t + 1000000 ≤ s.time then raise else { c with underSince := none }
  else if 100 * avg < 95 * c.powerW then
    match c.underSince with
    | none => { c with overSince := none, underSince := some s.time }
    | some t =>
      if t + 10000000 ≤ s.time then { c with powerStep := c.powerStep - 1, overSince := none, underSince := some s.time }
      else { c with overSince := none }
  else { c with overSince := none, underSince := none }

/-- The fast steps: one more at once above 1.1 × POWER_W, once per event, which ends with a sample at or below POWER_W (DEDUCED, log 42); released after
1 ms in which every sample stays below POWER_W (R402). -/
def fastStepRule (c : Clk) (now watts : Nat) : Clk :=
  if 11 * c.powerW < 10 * watts then
    if c.fastArmed then { c with fastStep := Nat.min 3 (c.fastStep + 1), fastArmed := false, calmSince := none }
    else { c with calmSince := none }
  else
    let c := if watts ≤ c.powerW then { c with fastArmed := true } else c
    if c.fastStep = 0 then c
    else if c.powerW ≤ watts then { c with calmSince := none }
    else
      match c.calmSince with
      | none => { c with calmSince := some now }
      | some t => if t + 1000000 ≤ now then { c with fastStep := 0, calmSince := none } else c

/-- POWER_SAMPLE: a sample of the input power with its 1 ms average (R402). -/
def execPowerSample (watts avg : Nat) (s : State) : Res :=
  if s.clk.mainUp && decide (watts < 2 ^ 16) && decide (avg < 2 ^ 16) then
    let c1 := powerStepRule s avg
    let c2 := fastStepRule c1 s.time watts
    let rises := (powerTotal c1 - powerTotal s.clk) + (powerTotal c2 - powerTotal c1)
    let c2 := { c2 with avgPower := avg, stepRises := Nat.min 0xFFFF (s.clk.stepRises + rises) }
    let s1 := { s with clk := c2 }
    let s2 := if c1.powerStep != s.clk.powerStep then clkEvent s1 0 else s1
    let s3 := if c2.fastStep != c1.fastStep then clkEvent s2 1 else s2
    .next (sendThrottles s3)
  else no "POWER_SAMPLE"

end Sys2Proof.Machine
end

