-- ==== Sys2Proof/Machine/Recovery.lean ====
section
/-! DEFINITION. Replay, the epoch watchdog, retirement, link halving, the management core and the Mirror layer's repairs (file 12). -/

namespace Sys2Proof.Machine

/-- FACTORY_USED as the fuses give it: the spare positions that the factory repair map uses and those that failed their test (R338). -/
def fuseUsed (f : Fuses) : Nat := (f.repair.vals.filter (fun p => decide (64 ≤ p))).length + ((List.range 8).filter (bitAt f.failed)).length

/-- SPARES_FREE (R338, R355). -/
def sparesFree (s : State) : Nat := 8 - s.flt.factoryUsed - s.flt.fieldRetired.length - s.flt.tempRetired.length

/-- The spare positions that are free: neither used by the factory repair or by the present map, nor failed, nor retired (R338, R340). -/
def freeSpares (s : State) : List Nat :=
  [64, 65, 66, 67, 68, 69, 70, 71].filter (fun p =>
    !(s.flt.map.vals.contains p) && !(s.mgt.fuses.repair.vals.contains p) && !(bitAt s.mgt.fuses.failed (p - 64)) && !(s.flt.fieldRetired.contains p) && !(s.flt.tempRetired.contains p))

/-- Physical hops between two positions (R21). -/
def hops (a b : Nat) : Nat := ((a % 8 : Nat) - (b % 8 : Nat) : Int).natAbs + ((a / 8 : Nat) - (b / 8 : Nat) : Int).natAbs

/-- The logical neighbours of a tile in the mesh of R22. -/
def neighbours (t : Nat) : List Nat :=
  (if 0 < t % 8 then [t - 1] else []) ++ (if t % 8 < 7 then [t + 1] else []) ++ (if 8 ≤ t then [t - 8] else []) ++
    (if t + 8 < 64 then [t + 8] else [])

/-- The sum of hops from a position to the neighbours of a tile (R340). -/
def spareCost (s : State) (t p : Nat) : Nat := (neighbours t).foldl (fun n k => n + hops p (physOf s k)) 0

/-- The spare that R340 chooses for a tile. -/
def chooseSpare (s : State) (t : Nat) : Option Nat :=
  (freeSpares s).foldl (fun best p => match best with
    | none => some p
    | some q => if spareCost s t p < spareCost s t q then some p else some q) none

/-- A spare fails its self-test and is retired, with its record and its absorbed fault event; a spare has no logical number (R333, R340,
R351, R352). -/
def dropSpare (s : State) (p : Nat) : State :=
  let s := { s with flt := { s.flt with fieldRetired := s.flt.fieldRetired ++ [p] } }
  absorbed (fltEvent (logFault s 0x40 2 0xFF p 0xFFFF 0xFF 0 0) 1)

/-- Spares that fail their self-test are retired, and the choice is made again (R340). -/
def dropSpares (t : Nat) : Nat → State → State
  | 0, s => s
  | n + 1, s =>
    match chooseSpare s t with
    | none => s
    | some p => dropSpares t n (dropSpare s p)

/-- PARTITION of the record of a retirement: of the work on the tile, 0xFF for none (R352). -/
def workPart (s : State) (t : Nat) : Nat :=
  match tileGroup s t with
  | none => 0xFF
  | some g => g.part

/-- A tile is retired and a spare takes its logical number (R339, R340); with no spare the device is unrecoverable (R347). `temp`
for a retirement that an injection triggers. -/
def retireTile (s : State) (t src : Nat) (temp : Bool) (handle detail badSpares : Nat) : State :=
  let p := physOf s t
  let s := if temp then { s with flt := { s.flt with tempRetired := s.flt.tempRetired ++ [p] } }
    else { s with flt := { s.flt with fieldRetired := s.flt.fieldRetired ++ [p] } }
  let s := absorbed (fltEvent (logFault s src 2 t p 0xFFFF (workPart s t) handle detail) 1)
  let s := dropSpares t badSpares s
  match chooseSpare s t with
  | none => goUnrecoverable s 1
  | some q =>
    let saved := if temp || s.flt.saved.get t t != p then s.flt.saved else s.flt.saved.put t q
    let s := { s with flt := { s.flt with map := s.flt.map.put t q, saved := saved } }
    let i := infoOf s t
    let s := setInfo s t { i with fails := 0, lull := false }
    if i.state = 2 ∧ (i.fails = 2 ∨ i.fails = 3) then
      offerTile (setInfo s t { i with fails := 0, version := s.ts.bundle.version, dirty := false, lull := false }) t
    else s

/-- A retirement finds a spare: the retired one counts (R347). -/
def retireNow (s : State) (t src : Nat) (temp : Bool) (handle detail badSpares : Nat) : State :=
  if sparesFree s = 0 then
    goUnrecoverable (absorbed (fltEvent (logFault s src 2 t (physOf s t) 0xFFFF (workPart s t) handle detail) 1)) 1
  else retireTile s t src temp handle detail badSpares

/-- The sources that are attributed to a tile and lead to replay (R333, R334). -/
def attributed (src : Nat) : Bool := decide (1 ≤ src) && decide (src ≤ 0x0B)

/-- The fault counts toward retirement: an injected one only while two spares are free (R339). -/
def counts (s : State) (injected : Bool) : Bool := !injected || decide (2 ≤ sparesFree s)

/-- Faults attributed to a position within the last hour that count (R339). -/
def recentFaults (s : State) (p : Nat) : Nat :=
  (s.flt.faults.filter (fun f => f.1 == p && decide (s.time < f.2.1 + 3600000000000) && counts s f.2.2)).length

/-- The position to which the fault is attributed that caused the first replay of the epoch, where it counts; 0xFF for none (R339). -/
def firstBlamed (s : State) (g : Group) : Option Nat :=
  match g.lastFault with
  | some (p, injected) => if counts s injected then some p else none
  | none => none

/-- The fault retires the tile under criterion 1 or 2 of R339. -/
def retires (s : State) (g : Group) (f : GFault) : Bool :=
  attributed f.source && counts s f.injected &&
    (firstBlamed s g == some (physOf s f.tile) || decide (4 ≤ recentFaults s (physOf s f.tile) + 1))

/-- DETAIL of a tile source (R352). -/
def tileDetail (g : Group) (f : GFault) : Nat := f.cyc % 2 ^ 40 + g.epoch % 256 * 2 ^ 40 + f.unit % 256 * 2 ^ 48

/-- SOURCE with bit 7 for an injected event (R352). -/
def sourceCode (f : GFault) : Nat := f.source + (if f.injected then 0x80 else 0)

/-- The record of a detection, unless it stands already; one on a link names the link (R334, R352). -/
def logGroupFault (s : State) (g : Group) (f : GFault) (action : Nat) : State :=
  if f.logged then s
  else if f.source = 0x10 ∨ f.source = 0x11 then logFault s (sourceCode f) action 0xFF 0xFF f.link g.part g.handle 0
  else logFault s (sourceCode f) action f.tile (physOf s f.tile) 0xFFFF g.part g.handle (tileDetail g f)

/-- The fault is attributed and remembered for R339, before any retirement changes the map. An injected fault that counts toward no
criterion is not remembered. -/
def blame (s : State) (g : Group) (f : GFault) : State :=
  if !(counts s f.injected) then s
  else
    let s := if attributed f.source then
        { s with flt := { s.flt with faults := (physOf s f.tile, s.time, f.injected) ::
                                       s.flt.faults.filter (fun k => decide (s.time < k.2.1 + 3600000000000)) } }
      else s
    match firstBlamed s g with
    | some _ => s
    | none => setGroup s { g with lastFault := some (if attributed f.source then physOf s f.tile else 0xFF, f.injected) }

/-- The group replays its epoch: counters, events, and the restore of R159 (R345, R351, R356). -/
def replayGroup (s : State) (h : Nat) (watch : Bool) : State :=
  match groupOf s h, entryOf s h with
  | some g, some e =>
    match e.image with
    | none => s
    | some i =>
      let s := { s with flt := { s.flt with replays := (s.flt.replays + 1) % 2 ^ 64 } }
      let s := absorbed (fltEvent s 0)
      let s := setEntry s { e with replayed := true, state := .running }
      restoreGroup s { g with watched := g.watched || watch } e i
  | _, _ => s

/-- A tile of the group must be retired before it can replay (R337). -/
def retirePending (s : State) (g : Group) : Bool := (groupTiles g).any (fun t => decide (2 ≤ (infoOf s t).fails))

/-- The unit code of a detection in DETAIL [55:48], from its source: MMA, VE, CORE; a port fault names SE0 or SE1, one of the two, and
another source any unit (R333, R352; log 7). -/
def unitOfSource (src v : Nat) : Nat :=
  if src = 1 ∨ src = 2 then 0
  else if src = 3 ∨ src = 4 then 1
  else if src = 6 ∨ src = 7 then 5
  else if src = 9 ∨ src = 0xA then 2 + v % 2
  else v % 8

/-- The fault of a REPLAY or a TILE_RETIRE: the one that the group waits with, or a detection that comes with the command; for a
detection on a link `t` is the number of the link. The cycle of a detection in a tile is a free value, and its unit one where the source
leaves it open (log 7). -/
def faultNow (s : State) (g : Group) (src t : Nat) : Option (State × GFault) :=
  match g.fault with
  | some f => if f.source = src ∧ (f.tile = t ∨ 0x10 ≤ src) then some (s, f) else none
  | none =>
    if (src = 0x10 ∨ src = 0x11) ∧ t < 0xFFFF ∧ g.started.isEmpty = false then
      some (s, { source := src, tile := groupTile g 0, link := t, cyc := 0, unit := 0, injected := false, logged := false })
    else if g.started.contains t && decide (1 ≤ src) && decide (src ≤ 0x0A) then
      let (v, s) := drawBytes s 6
      some (s, { source := src, tile := t, link := 0xFFFF, cyc := le v 0 5, unit := unitOfSource src (le v 5 1), injected := false,
                 logged := false })
    else none

/-- REPLAY: after a fault the group stops, discards its work in flight, restores its checkpoint and restarts the epoch (R159,
R335, R349). -/
def execReplay (h src t : Nat) (s : State) : Res :=
  match groupOf s h with
  | none => no "REPLAY"
  | some g =>
    match faultNow s g src t with
    | none => no "REPLAY"
    | some (s1, f) =>
      if s.flt.mcRestarting || retirePending s g || retires s g f then no "REPLAY"
      else .next (replayGroup (blame (logGroupFault s1 g f 1) g f) h (src == 0x0B))

/-- The tile has reached the end of its epoch or of its task (R337). -/
def reachedEnd (x : Tile) : Bool := x.status == .ended || x.status == .waiting .quiesce

/-- EPOCH_WATCHDOG: 250 ms without every tile at EPOCH or END: the group replays, and the second time its tiles test themselves:
those of `failing` are retired, and with none failing the task ends with TIMEOUT (R337). -/
def execEpochWatchdog (h : Nat) (failing : List Nat) (s : State) : Res :=
  match groupOf s h with
  | none => no "EPOCH_WATCHDOG"
  | some g =>
    match (groupTiles g).find? (fun t => !(reachedEnd (tileOf s t))) with
    | none => no "EPOCH_WATCHDOG"
    | some t =>
      if g.fault.isNone && g.pausedAt == 0 && !s.flt.mcRestarting && decide (g.epochAt + g.exempt + 250000000 ≤ s.time) then
        let (v, s1) := drawBytes s 6
        let f : GFault := { source := 0x0B, tile := t, link := 0xFFFF, cyc := le v 0 5, unit := le v 5 1 % 8, injected := false,
                            logged := false }
        if !g.watched then .next (setGroup s1 { g with fault := some f })
        else
          let bad := (groupTiles g).filter (fun k => failing.contains k)
          if bad.isEmpty then .next (abortTask s h stTimeout none)
          else
            let s2 := bad.foldl (fun s k => setInfo s k { infoOf s k with fails := 3 }) s1
            .next (setGroup s2 { g with fault := some { f with source := 0x40, logged := true } })
      else no "EPOCH_WATCHDOG"

/-- A task runs on the tile: its group is not stopped for a replay, whose start is the boundary at which the map may change (R23,
R340). -/
def tileRuns (s : State) (t : Nat) : Bool :=
  match tileGroup s t with
  | none => false
  | some g => g.fault.isNone

/-- TILE_RETIRE: a tile that failed its self-test or its reconfiguration twice, or whose fault meets a criterion of R339, is
retired; in the last case the epoch then replays on the spare (R339, R340). -/
def execTileRetire (t code badSpares : Nat) (s : State) : Res :=
  let i := infoOf s t
  if ((code = 0x41 ∧ i.fails = 2) ∨ (code = 0x40 ∧ i.fails = 3)) ∧ tileRuns s t = false ∧ s.flt.mcRestarting = false then
    let h := match tileGroup s t with
      | none => 0
      | some g => g.handle
    .next (retireNow s t code false h 0 badSpares)
  else
    match tileGroup s t with
    | none => no "TILE_RETIRE"
    | some g =>
      match faultNow s g code t with
      | none => no "TILE_RETIRE"
      | some (s1, f) =>
        if f.tile = t ∧ retires s g f = true ∧ s.flt.mcRestarting = false then
          .next (replayGroup (retireNow (blame s1 g f) t (sourceCode f) f.injected g.handle (tileDetail g f) badSpares) g.handle (code == 0x0B))
        else no "TILE_RETIRE"

/-- LINK_HALVING: a flit has failed all its retries and one half of the link fails its test: it runs on the other half and the
group replays; a link that loses both halves ends the device's service (R341, R347). -/
def execLinkHalving (net : Net) (link h : Nat) (s : State) : Res :=
  match groupOf s h with
  | none => no "LINK_HALVING"
  | some g =>
    if g.fault.isSome || s.flt.mcRestarting then no "LINK_HALVING"
    else
      let (src, halved) := match net with
        | .tileNetwork => (0x10, s.flt.tnHalved)
        | .memoryFabric => (0x11, s.flt.mfHalved)
      if halved.contains link then
        .next (goUnrecoverable (logFault { s with flt := { s.flt with tnLost := true } } src 8 0xFF 0xFF link g.part h 0) 3)
      else
        let flt := match net with
          | .tileNetwork => { s.flt with tnHalved := s.flt.tnHalved ++ [link] }
          | .memoryFabric => { s.flt with mfHalved := s.flt.mfHalved ++ [link] }
        let s1 := logFault { s with flt := flt } src 9 0xFF 0xFF link g.part h 0
        let f : GFault := { source := src, tile := groupTile g 0, link := link, cyc := 0, unit := 0, injected := false, logged := true }
        .next (setGroup (absorbed (fltEvent s1 3)) { g with fault := some f })

/-- A long operation of the Public-Key Engine begins again after the restart (R389). -/
def pkeRestart (s : State) : State :=
  match s.pke.long with
  | none => s
  | some r =>
    let s := { s with pke := { s.pke with long := some { r with done := 0 } } }
    match entryOf s r.handle with
    | none => s
    | some e => setEntry s { e with replayed := true }

/-- The management core restarts: fetching and every group stop, the installer context closes, each running group waits for its
replay, and an operation of the Public-Key Engine begins again (R343, R373, R389). -/
def mcRestartNow (s : State) (src : Nat) : State :=
  let s := absorbed (fltEvent { s with flt := { s.flt with mcRestarting := true, suppressed := false,
                                                           mcRestarts := satInc s.flt.mcRestarts 0xFFFF } } 2)
  let s := pkeRestart s
  let s := { s with mgt := { s.mgt with context := none },
                    clk := { s.clk with run := s.clk.run - (s.clk.run &&& 16), inReset := s.clk.inReset ||| 16 } }
  s.groups.foldl (fun s g =>
    if g.fault.isSome then s
    else setGroup s { g with fault := some { source := src, tile := groupTile g 0, link := 0xFFFF, cyc := 0, unit := 0, injected := false,
                                             logged := true } }) s

/-- MC_RESTART: no heartbeat for 20 ms, or control-strip parity (R343). -/
def execMcRestart (parity : Bool) (s : State) : Res :=
  if domainRuns s 4 && !s.flt.mcRestarting && (parity || decide (s.flt.lastBeat + 20000000 ≤ s.time)) then
    let src := if parity then 0x31 else 0x30
    let code := src + (if s.flt.suppressed && !parity then 0x80 else 0)
    .next (mcRestartNow (logFault s code 6 0xFF 0xFF 0xFFFF 0xFF 0 0) src)
  else no "MC_RESTART"

end Sys2Proof.Machine
end

