-- ==== Sys2Proof/Machine/ImageParse.lean ====
section
/-! DEFINITION. What acceptance reads of device memory, and the checks of a task image and its tables (R116 to R122, R311, R319). -/

namespace Sys2Proof.Machine

/-- Reads of device memory by the scheduler: some unit must be waited for, or the state after them with what each returned, none
where a unit is lost (R346). -/
inductive Got where
  | wait
  | got (s : State) (b : Option (List (List Byte)))

/-- Read several ranges of device memory in the urgent class (R247). -/
def readAll (s : State) (part handle : Nat) (l : List (Nat × Nat)) : Got :=
  if l.any (fun p => devWaits s part p.1 p.2) then .wait
  else
    let r := l.foldl (fun (acc : State × Option (List (List Byte))) p =>
      match acc.2 with
      | none => acc
      | some x =>
        match devRead acc.1 part handle p.1 p.2 with
        | (s, some b) => (s, some (x ++ [b]))
        | (s, none) => (loseWork s handle, none)) (s, some [])
    .got r.1 r.2

/-- The DEST declarations of an image with their header addresses, in declaration order. -/
def destHeads (e : Entry) (i : Image) : List (Nat × Nat) :=
  (declsOf i.objs 3).map (fun d => (d.slot, slotAddr e i d.slot))

/-- The generation of an existing destination header (R43). An intact IGKY header that stands there counts as intact too, with its GEN at
0x50 (DEDUCED, log 46). -/
def prevGenOf (h : List Byte) : Nat := if intactCt h || intactKy h then genOf h else 0

/-- The not-VALID headers of some destinations, each with what its unit held (R27, R43). -/
def clearedHeads (s : State) (l : List ((Nat × Nat) × List Byte)) : State × List (Nat × List Byte) :=
  l.foldl (fun acc p =>
    let (v, s) := drawBytes acc.1 256
    (s, acc.2 ++ [(p.1.2, notValid v (prevGenOf p.2))])) (s, [])

/-- The first tile of a task starts: every destination header is read once and written not-VALID (R27, R43, R247). None while one must be
waited for; the second component is false where the work has ended. -/
def clearDests (s : State) (g : Group) (e : Entry) (i : Image) : Option (State × Bool) :=
  if !(e.prevGen.isEmpty) then some (s, true)
  else
    match readAll s g.part g.handle ((destHeads e i).map (fun p => (p.2, 256))) with
    | .wait => none
    | .got s none => some (s, false)
    | .got s (some bs) =>
      let l := (destHeads e i).zip bs
      let r := clearedHeads s l
      (headerWrites r.1 g.part g.handle r.2).map (fun s =>
        (setEntry s { e with prevGen := l.map (fun p => (p.1.1, prevGenOf p.2)) }, true))

/-- The destination headers are written not-VALID at once, for a task that a CANCEL stops before any tile has started: a header that
cannot be read counts as not intact (R43, R296; DEDUCED, log 46). They are charged at once, without a wait (DESIGN CHOICE, log 20). -/
def clearNow (s : State) (g : Group) (e : Entry) (i : Image) : State :=
  (destHeads e i).foldl (fun s p =>
    let (s, h) := devRead s g.part g.handle p.2 256
    let (v, s) := drawBytes s 256
    devWrite s g.part g.handle p.2 (notValid v (prevGenOf (h.getD [])))) s

/-- A device range lies wholly within one device region (R316). -/
def inRegion (rs : List Region) (a n : Nat) : Bool := rs.any (fun r => !r.host && within a n r.base r.len)

/-- The answer of a descriptor's own acceptance checks: it must wait for device memory, or the status with the image of its
work. -/
inductive Own where
  | wait
  | done (s : State) (st : Nat) (img : Option Image)

/-- Magic of a task image. -/
def magicTi : Nat := 0x49544749

/-- GW and GH are powers of two up to 8. -/
def sideOk (n : Nat) : Bool := n == 1 || n == 2 || n == 4 || n == 8

/-- Section `off` of `n` bytes lies within LENGTH. -/
def sectionOk (h : List Byte) (off n : Nat) : Bool := decide (off + n ≤ le h 0x38 8)

/-- Check 5 of R118, but for the epoch table. -/
def imageHeadOk (h : List Byte) (tiles arglen : Nat) : Bool :=
  decide (le h 5 1 ≤ 1) && decide (1 ≤ le h 6 1) && decide (le h 6 1 ≤ 64) && decide (1 ≤ le h 7 1) && sideOk (le h 0x0C 1) &&
    sideOk (le h 0x0D 1) && decide (le h 0x0F 1 < 4) && decide (le h 0x10 2 ≤ 1024) && decide (le h 0x12 2 ≤ 32) &&
    le h 0x14 4 % 8 == 0 && decide (le h 0x14 4 ≤ 4096) && zeros (sub h 0x80 124) && tiles == le h 0x0C 1 * le h 0x0D 1 &&
    arglen == le h 0x14 4 && sectionOk h (le h 0x18 8) (32 * le h 6 1) && sectionOk h (le h 0x20 8) (128 * le h 0x10 2) &&
    sectionOk h (le h 0x28 8) (32 * le h 0x12 2)

/-- A role-table entry (R117). -/
def parseRole (b : List Byte) : Role := { codeOff := le b 0 8, codeLen := le b 8 4, entry := le b 12 4 }

/-- Check 6 of R118 on one role. -/
def roleOk (h b : List Byte) : Bool :=
  let r := parseRole b
  r.codeLen % 4 == 0 && decide (r.codeLen ≤ if le h 5 1 = 0 then 65536 else 4194304) && sectionOk h r.codeOff r.codeLen &&
    zeros (sub b 16 16)

/-- Check 6 of R118 on ROLE_MAP. -/
def roleMapOk (h : List Byte) : Bool :=
  let n := le h 0x0C 1 * le h 0x0D 1
  (List.range 64).all (fun t => if t < n then decide (le h (0x40 + t) 1 < le h 6 1) else le h (0x40 + t) 1 == 0)

/-- An object declaration (R120). -/
def parseObj (b : List Byte) : ObjDecl :=
  { slot := le b 0 1, role := le b 1 1, kind := le b 2 1, drop := le b 3 1, srcmask := le b 4 4, galois := le b 8 4,
    scaleRule := le b 0x0C 1, target := le b 0x0D 1, dec := le b 0x0E 2, ptScale := le b 0x10 4, targetArg := le b 0x14 2,
    polys := le b 0x16 2 }

/-- The SRCMASK rule of R121 for a DEST: it names at least one declaration, and only sources. -/
def srcmaskOk (decls : List ObjDecl) (d : ObjDecl) : Bool :=
  d.role != 3 || (d.srcmask != 0 && decide (d.srcmask < 2 ^ decls.length) &&
    (decls.mapIdx (fun i o => (i, o))).all (fun p => !(bitAt d.srcmask p.1) || p.2.role == 1))

/-- Check 7 of R118 on one declaration. -/
def objOk (decls : List ObjDecl) (b : List Byte) : Bool :=
  let d := parseObj b
  decide (d.slot ≤ 31) && decide (1 ≤ d.role) && decide (d.role ≤ 4) && decide (d.target ≤ 1) &&
    (d.target == 0 || decide (d.targetArg ≤ 510)) && zeros (sub b 0x18 8) && srcmaskOk decls d

/-- A range record (R122). -/
def parseRange (b : List Byte) : RangeRec := { slot := le b 0 1, kind := le b 1 1, dir := le b 2 1, len := le b 4 4, off := le b 8 8 }

/-- Check 8 of R118 on one range record. -/
def rangeOk (b : List Byte) : Bool :=
  let r := parseRange b
  decide (r.slot ≤ 31) && decide (r.kind ≤ 2) && decide (r.dir ≤ 1) && le b 3 1 == 0 && (r.kind != 2 || r.off % 256 == 0)

/-- The records of `n` items of `w` bytes. -/
def pieces (w n : Nat) (b : List Byte) : List (List Byte) := (List.range n).map (fun i => sub b (w * i) w)

/-- The epoch table being read. -/
inductive EpochRead where
  | wait
  | lost (s : State)
  | bad (s : State)
  | ok (s : State) (off : Nat) (l : List (List RangeRec))

/-- Read one epoch record at its offset (check 8 of R118, and check 5 for the table's own extent). -/
def readEpoch (part addr : Nat) (h : List Byte) (r : EpochRead) : EpochRead :=
  match r with
  | .ok s off l =>
    if !(sectionOk h off 8) then .bad s
    else
      match readAll s part 0 [(addr + off, 8)] with
      | .wait => .wait
      | .got s none => .lost s
      | .got s (some bs) =>
        let hd := bs.headD []
        let n := le hd 0 2
        if 256 < n ∨ zeros (sub hd 2 6) = false ∨ sectionOk h (off + 8) (16 * n) = false then .bad s
        else
          match readAll s part 0 [(addr + off + 8, 16 * n)] with
          | .wait => .wait
          | .got s none => .lost s
          | .got s (some rs) =>
            let recs := pieces 16 n (rs.headD [])
            if recs.all rangeOk then .ok s (off + 8 + 16 * n) (l ++ [recs.map parseRange]) else .bad s
  | r => r

/-- The epoch table of an image. -/
def readEpochs (s : State) (part addr : Nat) (h : List Byte) : EpochRead :=
  (List.range (le h 7 1)).foldl (fun r _ => readEpoch part addr h r) (.ok s (le h 0x30 8) [])

/-- The tiles of a rectangle. -/
def rectangle (x0 y0 gw gh : Nat) : List Nat := (List.range (gw * gh)).map (fun i => 8 * (y0 + i / gw) + x0 + i % gw)

/-- The aligned origins of a shape on the logical mesh (R311). -/
def origins (gw gh : Nat) : List (Nat × Nat) :=
  (List.range (8 / gh)).flatMap (fun j => (List.range (8 / gw)).map (fun i => (gw * i, gh * j)))

/-- Logical tile `t` belongs to partition `p` (R321). -/
def inPart (s : State) (p t : Nat) : Bool := bitAt (partOf s p).tiles t

/-- The shape fits an aligned rectangle of the partition (R319). -/
def fits (s : State) (p gw gh : Nat) : Bool :=
  (origins gw gh).any (fun o => (rectangle o.1 o.2 gw gh).all (inPart s p))

/-- A descriptor over a slot region, which is validated at readiness (R193). -/
def overSlot (d : Desc) : Bool := decide (0x1000 ≤ tdRegion d) && decide (tdRegion d < 0x1020)

/-- The image of a header and its tables; the code is read when the image is dispatched. -/
def imageOfTables (addr : Nat) (h : List Byte) (roles : List Role) (descs : List Desc) (objs : List ObjDecl)
    (epochs : List (List RangeRec)) : Image :=
  { addr := addr, streaming := le h 5 1 == 1, gw := le h 0x0C 1, gh := le h 0x0D 1, footprint := le h 0x0E 1,
    semode := le h 0x0F 1, roles := roles, roleMap := (sub h 0x40 64).map (fun b => b.toNat), descs := descs, objs := objs,
    epochs := epochs, codes := [], plan := [] }

/-- Checks 9 and 10 of R118. -/
def lastChecks (s : State) (part : Nat) (rs : List Region) (i : Image) : Nat :=
  if !(fits s part i.gw i.gh) then stQuota
  else firstBad ((i.descs.filter (fun d => !(overSlot d))).map (fun d => tdCheck (placeOf rs (slotsOf i) [] (tdRegion d)) d))

/-- The sections of an image at `addr`: roles, descriptors and declarations. -/
def imageSections (addr : Nat) (h : List Byte) : List (Nat × Nat) :=
  [(addr + le h 0x18 8, 32 * le h 6 1), (addr + le h 0x20 8, 128 * le h 0x10 2), (addr + le h 0x28 8, 32 * le h 0x12 2)]

/-- Checks 6 to 10 of R118, once the header has passed. -/
def checkTables (s : State) (part : Nat) (rs : List Region) (addr : Nat) (h : List Byte) : Own :=
  match readAll s part 0 (imageSections addr h) with
  | .wait => .wait
  | .got s none => .done s stObjectLost none
  | .got s (some bs) =>
    let roles := pieces 32 (le h 6 1) (bs.getD 0 [])
    let descs := (pieces 128 (le h 0x10 2) (bs.getD 1 [])).map (fun b => BitVec.ofNat 1024 (leNat b))
    let objs := pieces 32 (le h 0x12 2) (bs.getD 2 [])
    if !(roleMapOk h && roles.all (roleOk h) && objs.all (objOk (objs.map parseObj))) then .done s stBadOpcode none
    else
      match readEpochs s part addr h with
      | .wait => .wait
      | .lost s => .done s stObjectLost none
      | .bad s => .done s stBadOpcode none
      | .ok s _ eps =>
        let i := imageOfTables addr h (roles.map parseRole) descs (objs.map parseObj) eps
        .done s (lastChecks s part rs i) (some i)

/-- TASK: the checks of R118 in their order. -/
def ownTask (s : State) (part : Nat) (rs : List Region) (d : Desc) : Own :=
  let a := dfld d 0x30 8
  if !(inRegion rs a 256) then .done s stDescRange none
  else
    match readAll s part 0 [(a, 256)] with
    | .wait => .wait
    | .got s none => .done s stObjectLost none
    | .got s (some bs) =>
      let h := bs.headD []
      if !(le h 0 4 == magicTi && le h 4 1 == 1 && crcOk h) then .done s stBadOpcode none
      else if le h 8 4 ≠ Config.contract then .done s stContractVersion none
      else if !(inRegion rs a (le h 0x38 8)) then .done s stDescRange none
      else if !(imageHeadOk h (dfld d 0x44 4) (dfld d 0x40 4)) then .done s stBadOpcode none
      else checkTables s part rs a h

/-- The ranges that dispatch reads of an image in device memory: each role's code and the descriptor table (R24, R125, R195). -/
def dispatchReads (h : List (Nat × Nat)) (i : Image) : List (Nat × Nat) :=
  h ++ i.roles.map (fun r => (i.addr + r.codeOff, r.codeLen))

end Sys2Proof.Machine
end

