-- ==== Sys2Proof/Machine/Macros.lean ====
section
/-! DEFINITION. Firmware macros: the descriptor (R216, R217, R219), the internal declarations and the outputs that follow from them (R220,
R224, R225), and the checks that macros add (R220, R226). -/

namespace Sys2Proof.Machine

/-- MCODE. -/
def mcCode (d : Desc) : Nat := dfld d 0x48 1
/-- MVER. -/
def mcVer (d : Desc) : Nat := dfld d 0x49 1
/-- COUNT. -/
def mcCount (d : Desc) : Nat := dfld d 0x4C 4
/-- P0. -/
def mcP0 (d : Desc) : Nat := dfld d 0x50 8
/-- P1. -/
def mcP1 (d : Desc) : Nat := dfld d 0x58 8
/-- P2. -/
def mcP2 (d : Desc) : Nat := dfld d 0x60 8
/-- TILES. -/
def sdTiles (d : Desc) : Nat := dfld d 0x44 4

/-- The shape of a tile count (R311). -/
def macroShape (t : Nat) : Nat × Nat :=
  match t with
  | 2 => (2, 1)
  | 4 => (2, 2)
  | 8 => (4, 2)
  | 16 => (4, 4)
  | 32 => (8, 4)
  | 64 => (8, 8)
  | _ => (1, 1)

/-- A tile count that R219 admits for some set. -/
def macroTilesOk (m t : Nat) : Bool := if m = 1 then [16, 32, 64].contains t else [1, 2, 4, 8, 16, 32, 64].contains t

/-- COUNT, P0, P1 and P2 in the part of their range that no header bears on (R219). -/
def macroParamsOk (d : Desc) : Bool :=
  let n := mcCount d
  let none_ := mcP0 d == 0 && mcP1 d == 0 && mcP2 d == 0
  match mcCode d with
  | 1 | 5 => n == 1 && none_
  | 2 => decide (1 ≤ n) && decide (n ≤ 2 ^ 17) && decide (1 ≤ mcP1 d) && mcP2 d == 0
  | 3 => decide (1 ≤ n) && decide (1 ≤ mcP1 d) && mcP2 d == 0
  | 4 => decide (1 ≤ n) && decide (n ≤ 256 * sdTiles d) && none_
  | 6 => decide (1 ≤ n) && decide (n ≤ 15) && none_
  | 7 => decide (1 ≤ n) && decide (n ≤ 16) && none_
  | 8 => n == 0 && decide (1 ≤ mcP2 d) && decide (mcP2 d ≤ 63)
  | 9 => n == 0 && mcP2 d == 0
  | _ => false

/-- The header of slot 0 as it stands at acceptance, where nothing that the descriptor depends on can still write it: its parameter set
and POLYS are the ones that R217 and R219 speak of (DEDUCED, log 32). -/
def acceptHeader (s : State) (rs : List Region) (d : Desc) (arg : List Byte) : Option (List Byte) :=
  let a := le arg 0 8
  let h := memBytes s.mem a 256
  if dfld d 3 1 = 0 ∧ a % 256 = 0 ∧ inRegion rs a 256 = true ∧ stripeOf s (a / 4096) ≠ .unwritten ∧ intactCt h = true ∧ ohValid h = true
  then some h else none

/-- The ranges of R219 that depend on the source, as its header gives it at acceptance. A CKKS set other than CK-16 and CK-17, for which the
table names no tile count, takes 16, 32 or 64 (DESIGN CHOICE, log 58): the tile count that REFRESH needs for CK-17, and
COUNT. -/
def sourceRangesOk (x : Session) (d : Desc) (h : List Byte) : Bool :=
  match mcCode d with
  | 1 => ohPset h != 0xFFFF0002 || decide (32 ≤ sdTiles d)
  | 2 => match psetOf x (ohPset h) with
    | some p => decide (mcCount d ≤ psN p)
    | none => true
  | 3 | 4 => mcCount d == ohPolys h
  | _ => true

/-- The ranges of R219 and R220 that depend on the target set of the target words: P0 and P1 of REPACK, and the shift of MPC_TRUNC. -/
def targetRangesOk (x : Session) (d : Desc) (arg : List Byte) : Bool :=
  match psetOf x (le arg 0x108 4) with
  | none => true
  | some t =>
    match mcCode d with
    | 3 => decide (mcP0 d ≤ psMaxLevel t) && decide (mcCount d * mcP1 d ≤ psN t)
    | 8 => decide (mcP2 d < 8 * psWidth t)
    | _ => true

/-- The part of R217 and R219 that the session's sets bear on. -/
def macroRangesOk (s : State) (x : Option Session) (rs : List Region) (d : Desc) (arg : List Byte) : Bool :=
  match x with
  | none => true
  | some y =>
    targetRangesOk y d arg && (match acceptHeader s rs d arg with
      | none => true
      | some h => sourceRangesOk y d h)

/-- The rules of R217 on a descriptor. -/
def macroFormOk (d : Desc) : Bool :=
  dfld d 0x30 8 == 0 && dfld d 0x40 4 == 1024 && dfld d 0x4A 2 == 0 && dfld d 0x68 16 == 0 && decide (1 ≤ mcVer d) &&
    Config.macroProvided (mcCode d) (mcVer d) && macroTilesOk (mcCode d) (sdTiles d) && macroParamsOk d

/-- A declaration. -/
def decl (slot role kind srcmask galois : Nat) : ObjDecl :=
  { slot := slot, role := role, kind := kind, drop := 0, srcmask := srcmask, galois := galois, scaleRule := 0, target := 0, dec := 0,
    ptScale := 0, targetArg := 0, polys := 0 }

/-- A DEST under the target words 32 and 33 (R219). -/
def targetDecl (slot srcmask : Nat) : ObjDecl := { decl slot 3 0 srcmask 0 with target := 1, targetArg := 32 }

/-- Rounds of a protocol over elements of `w` bytes (R224). -/
def mpcRounds (m w : Nat) : Nat := if m = 8 then 2 else log2 (8 * w) + 2

/-- The slots of 2 to 16 that name an incoming message (R225). -/
def messageSlots (args : Tbl Word64) (round : Nat) : List Nat :=
  if round = 0 then [] else ((List.range 15).map (· + 2)).filter (fun n => !(args.get n 0 == 0))

/-- The decrement of a key switch, and of a rescale, by scheme (R60). -/
def schemeDec (h : List Byte) : Nat := if ohScheme h = 1 then 8 else 16

/-- The key declared at a slot of KEYSWITCH or ROTATE_MANY: of kind 1, 2 or 3, or 2 or 3, as its header gives (R219, R220). -/
def anyKey (kinds : List Nat) (slot : Nat) (h : List Byte) : ObjDecl :=
  if kinds.contains (khKind h) then decl slot 2 (khKind h) 1 (khGalois h) else decl slot 2 (kinds.headD 0) 1 0

/-- The declarations of REFRESH: the keys beyond the first follow from the source's set (R219). -/
def refreshDecls (x : Session) (h : List Byte) : List ObjDecl :=
  let rot := (List.range (Nat.min (Config.refreshSlots (ohPset h)) 20)).map (fun i =>
    decl (3 + i) 2 2 1 (Config.refreshGalois (ohPset h) (3 + i)))
  let conj := match psetOf x (ohPset h) with
    | some p => if ohScheme h = 1 then [decl 2 2 3 1 (2 * psN p - 1)] else []
    | none => []
  [decl 0 1 0 0 0, decl 1 2 1 1 0] ++ (if h.isEmpty then [] else conj ++ rot) ++ [{ decl 31 3 0 1 0 with dec := 0xFFFF }]

/-- The declarations of an MPC round (R225, R226). Before slot 0's header is read only slot 0 is known: the round's triple, its last round
and with it the use of slot 31 follow from its WIDTH. -/
def mpcDecls (d : Desc) (args : Tbl Word64) (h : List Byte) : List ObjDecl :=
  let w := ohWidth h
  let triple := if Config.roundLocal (mcCode d) (mcVer d) w (mcP0 d) then [] else [decl 1 4 0 0 0]
  let state := { targetDecl 30 1 with polys := Config.mpcPolys (mcCode d) (mcVer d) w (mcP0 d) % 2 ^ 16 }
  let out := if mcP0 d + 1 = mpcRounds (mcCode d) w then [] else [{ targetDecl 31 1 with polys := 1 }]
  [decl 0 1 0 0 0] ++ (if h.isEmpty then []
    else (messageSlots args (mcP0 d)).map (fun n => decl n 1 0 0 0) ++ triple ++ [state] ++ out)

/-- The internal declarations of a macro, as far as the headers read so far fix them (R219, R220, R225). -/
def macroDecls (x : Session) (d : Desc) (args : Tbl Word64) (hs : List (Nat × List Byte)) : List ObjDecl :=
  let h := headerAt hs 0
  let n := mcCount d
  match mcCode d with
  | 1 => refreshDecls x h
  | 2 => [decl 0 1 0 0 0, decl 1 2 4 1 0, { targetDecl 31 1 with dec := 16 }]
  | 3 => [decl 0 1 0 0 0, decl 1 2 6 1 0, { targetDecl 31 1 with dec := 64 }]
  | 4 => [decl 0 1 0 0 0, decl 3 1 0 0 0, decl 1 2 5 1 0, decl 2 2 4 2 0, { decl 31 3 0 1 0 with dec := 0xFFFF }]
  | 5 => [decl 0 1 0 0 0, anyKey [1, 2, 3] 1 (headerAt hs 1), { decl 31 3 0 1 0 with dec := schemeDec h, polys := 2 }]
  | 6 => [decl 0 1 0 0 0] ++ (List.range n).map (fun i => anyKey [2, 3] (1 + i) (headerAt hs (1 + i))) ++
      (List.range n).map (fun i => { decl (16 + i) 3 0 1 0 with dec := schemeDec h, polys := 2 })
  | 7 => (List.range n).map (fun i => { decl i 1 0 0 0 with drop := 1 }) ++
      (List.range n).map (fun i => { decl (16 + i) 3 0 (2 ^ i) 0 with drop := 1, scaleRule := 4, dec := schemeDec (headerAt hs i) })
  | _ => mpcDecls d args h

/-- The schemes of a macro's ciphertext sources (R219). -/
def macroSchemes (m : Nat) : List Nat :=
  match m with
  | 1 | 2 | 5 | 6 => [1, 2, 3]
  | 3 | 4 => [4]
  | 7 => [1, 2]
  | _ => [6]

/-- The key kinds whose sets a macro compares by R220 instead of check 2. -/
def macroBridge (m : Nat) : List Nat :=
  match m with
  | 2 => [4]
  | 3 => [6]
  | _ => []

/-- The set of the target words. -/
def targetSet (x : Session) (args : Tbl Word64) : Option Pset := psetOf x ((args.get 33 0).toNat % 2 ^ 32)

/-- What R219 and R220 require of a macro's sets and counts, and check 2 of R56 of the operands of an MPC round, which name slot 0's
set; a violation is PARAM_MISMATCH. -/
def macroSetsOk (x : Session) (d : Desc) (args : Tbl Word64) (hs : List (Nat × List Byte)) : Bool :=
  let h := headerAt hs 0
  let k := headerAt hs 1
  match mcCode d, psetOf x (ohPset h) with
  | 1, some p => p.refresh != 0 && (decide (p.scheme = 3) || decide (p.top < psMaxLevel p))
  | 2, some p =>
    match psetOf x (ohPset k), targetSet x args with
    | some q, some t => q.scheme == 5 && q.logN == p.logN && q.glweK == 1 && q.lweN == t.lweN && psServes t 4
    | _, _ => false
  | 3, some _ =>
    match targetSet x args with
    | some t => ohPset k == t.id && decide (1 ≤ t.scheme) && decide (t.scheme ≤ 3) && decide (mcP0 d ≤ psMaxLevel t) &&
        decide (mcCount d * mcP1 d ≤ psN t)
    | none => false
  | 4, some _ =>
    let v := headerAt hs 3
    ohScheme v == 5 && ohLayout v == 0x12 && ohPolys v == 2 && ohPset v == ohPset h
  | 5, some _ => if khKind k = 1 then ohPolys h == 3 else ohPolys h == 2
  | 6, some _ => ohPolys h == 2
  | 7, some _ => true
  | _, _ => (hs.filter (fun p => p.1 != 0)).all (fun p => ohPset p.2 == ohPset h)

/-- The sources a macro names have its source scheme (R219). -/
def macroSourcesOk (m : Nat) (decls : List ObjDecl) (hs : List (Nat × List Byte)) : Bool :=
  (declsOf decls 1).all (fun o => (m == 4 && o.slot == 3) || (macroSchemes m).contains (ohScheme (headerAt hs o.slot)))

/-- Check 2 of R56 for a macro: the plain comparison, and R220's. -/
def macroCheck2 (x : Session) (d : Desc) (decls : List ObjDecl) (args : Tbl Word64) (hs : List (Nat × List Byte)) : Nat :=
  let m := mcCode d
  let plain := decls.filter (fun o => !((m == 2 || m == 3) && o.role == 3))
  firstBad [check2 x (macroBridge m) plain args hs, unlessOk (macroSourcesOk m decls hs && macroSetsOk x d args hs) stParamMismatch]

/-- The element count of each vector of a share object (R46). -/
def shareElems (h : List Byte) : Nat := ohLength h / (Nat.max 1 (ohPolys h) * Nat.max 1 (ohWidth h))

/-- The party that the `i`-th incoming message comes from (R225). -/
def senderOf (own i : Nat) : Nat := if i < own then i else i + 1

/-- The checks of R226 in their order. -/
def mpcCheck (d : Desc) (decls : List ObjDecl) (args : Tbl Word64) (hs : List (Nat × List Byte)) : Nat :=
  let h := headerAt hs 0
  let own := le h 0x24 1
  let parties := le h 0x25 1
  let set := (args.get 32 0).toNat
  let tri := (declsOf decls 4).map (fun o => headerAt hs o.slot)
  let msgs := ((declsOf decls 1).filter (fun o => o.slot != 0)).map (fun o => headerAt hs o.slot)
  let c1 := tri.all (fun t => ohParty t == ohParty h && ohWidth t == ohWidth h) && (mcP0 d == 0 || ohKeyid h == set)
  let c2 := mcP0 d == 0 || ((msgs.mapIdx (fun i k => ohKeyid k == set && le k 0x25 1 == parties && le k 0x24 1 == senderOf own i)).all id &&
    msgs.length + 1 == parties)
  let outs := declsOf decls 3
  let c3 := (tri ++ msgs).all (fun k => shareElems k == shareElems h) &&
    outs.all (fun o => (args.get (96 + o.slot) 0).toNat == shareElems h * destPolys o h * ohWidth h) &&
    (mcCode d != 8 || decide (mcP2 d < 8 * ohWidth h))
  firstBad [unlessOk c1 stKeyMismatch, unlessOk c2 stKeyMismatch, unlessOk c3 stParamMismatch,
    unlessOk (decide (mcP0 d < mpcRounds (mcCode d) (ohWidth h))) stParamMismatch]

/-- SCALE of the output of REPACK: no rule gives it where the target set is CKKS, so it is a free value of 32 bits there (R58, R220;
DESIGN CHOICE, log 10). -/
def repackScale (p : Pset) (d : Desc) : Int :=
  if p.scheme = 1 then ((Config.repackScale (mcVer d) p.id (mcP0 d) % 2 ^ 32 : Nat) : Int) else 0

/-- The outputs of a macro (R58, R61, R220). -/
def macroOuts (x : Session) (d : Desc) (decls : List ObjDecl) (args : Tbl Word64) (hs : List (Nat × List Byte)) : List OutSpec :=
  (declsOf decls 3).filterMap (fun o =>
    let src := srcHeaders decls hs o.srcmask
    match psetOf x (destPset args o (src.headD [])), psetOf x (ohPset (src.headD [])) with
    | some p, some q =>
      let t := taskOut p q args o src
      some (match mcCode d with
      | 1 => { t with level := p.top, limbs := psLimbs p p.top }
      | 2 => { t with scheme := 4, layout := 0x10, width := psWidth p, polys := mcCount d, level := 0, limbs := 0, scale := 0 }
      | 3 => { t with scheme := p.scheme, layout := 1, width := psWidth p, polys := 2, level := mcP0 d, limbs := psLimbs p (mcP0 d),
                      scale := repackScale p d }
      | 4 => { t with budget := destBudget p.refresh o (src ++ [headerAt hs 3]) }
      | _ => t)
    | _, _ => none)

/-- An image without code, for a macro of which the firmware lists none. -/
def emptyImage : Image :=
  { addr := 0, streaming := false, gw := 1, gh := 1, footprint := 0, semode := 0, roles := [], roleMap := [], descs := [], objs := [],
    epochs := [], codes := [], plan := [] }

/-- The levels of REFRESH for CK-16 and CK-17: after ModRaise, and those that CoeffToSlot, EvalMod and SlotToCoeff consume (R222). -/
def refreshLevels (pset : Nat) : Option (Nat × Nat × Nat × Nat) :=
  if pset = 0xFFFF0001 then some (29, 3, 8, 3) else if pset = 0xFFFF0002 then some (47, 4, 12, 8) else none

/-- The epochs of REFRESH (R221, R222): three for CK-16; four for CK-17, whose EvalMod two epochs share, and for BGV and BFV sets; none
stated for any other CKKS set. -/
def refreshPlan (p : Pset) : List (List MacroStage) :=
  match refreshLevels p.id with
  | some (r, c, m, t) =>
    let head := [MacroStage.lower, .modRaise r, .coeffToSlot (some (r, r - c))]
    let tail := [[MacroStage.slotToCoeff (some (r - c - m, r - c - m - t))]]
    if p.id = 0xFFFF0001 then [head, [.evalMod (r - c) (r - c - m)]] ++ tail
    else [head, [.evalModHalf 1], [.evalModHalf 2]] ++ tail
  | none =>
    if p.scheme = 2 ∨ p.scheme = 3 then [[.coeffToSlot none], [.digits 1], [.digits 2], [.slotToCoeff none]] else []

/-- The pieces of `n` items in epochs of `w` each: the first item and the count of each epoch. -/
def epochPieces (n w : Nat) : List (Nat × Nat) := (List.range (cdiv n w)).map (fun k => (k * w, Nat.min w (n - k * w)))

/-- The 20 epochs of PBS: the set-up, 17 epochs of 37 blind-rotation steps and one of 7, each ending between two steps, and the
extraction with the key switch (R221, R223). -/
def pbsPlan : List (List MacroStage) :=
  [[.accumulate]] ++ (List.range 18).map (fun k => [MacroStage.rotate (37 * k) (if k < 17 then 37 else 7)]) ++ [[.extractSwitch]]

/-- The epochs of a macro, with what each does, as far as the spec fixes it (R220 to R224). -/
def macroPlan (p : Pset) (d : Desc) : List (List MacroStage) :=
  match mcCode d with
  | 1 => refreshPlan p
  | 2 => (epochPieces (mcCount d) (256 * sdTiles d)).map (fun q => [MacroStage.extract (mcP0 d) (mcP1 d) (psN p) q.1 q.2])
  | 3 => (epochPieces (mcCount d) (64 * sdTiles d)).map (fun q => [MacroStage.merge (mcP1 d) q.1 q.2])
  | 4 => pbsPlan
  | m => [[.whole m]]

/-- A list of epochs of the given length: the shipped ones, cut or filled up with epochs that name no range. -/
def fitEpochs (n : Nat) (l : List (List RangeRec)) : List (List RangeRec) := (l ++ List.replicate n []).take n

/-- A FOOTPRINT of at least five scratchpad groups: the checkpoint of PBS holds 66 segments of 64 KB a tile (R223). -/
def fitFootprint (foot : Nat) : Nat := if 5 ≤ ((List.range 8).filter (bitAt foot)).length then foot % 256 else foot % 256 ||| 0x1F
/-- The image of a macro with its declarations, the shape of its tile count and the epochs that its plan gives it (R216, R221, R223,
R311; log 10). -/
def macroImageOf (x : Session) (d : Desc) (decls : List ObjDecl) (h : List Byte) : Image :=
  let (w, n) := macroShape (sdTiles d)
  let set := psetOf x (ohPset h)
  let i := (Config.macroImage [mcCode d, mcVer d, sdTiles d, mcCount d, mcP0 d, mcP1 d, mcP2 d] set).getD emptyImage
  let plan := match set with
    | some p => macroPlan p d
    | none => []
  { i with gw := w, gh := n, objs := decls, addr := 0, plan := plan,
           epochs := if plan.isEmpty then i.epochs else fitEpochs plan.length i.epochs,
           footprint := if mcCode d = 4 then fitFootprint i.footprint else i.footprint }

/-- MACRO: its acceptance checks (R217, R219, R319). -/
def ownMacro (s : State) (part : Nat) (x : Option Session) (rs : List Region) (d : Desc) (arg : List Byte) : Own :=
  if !(macroFormOk d && macroRangesOk s x rs d arg) then .done s stBadOpcode none
  else
    let (w, n) := macroShape (sdTiles d)
    .done s (if fits s part w n then stOk else stQuota) none

end Sys2Proof.Machine
end

