-- ==== Sys2Proof/Machine/Transfers.lean ====
section
/-! DEFINITION. MOVE and EXCHANGE: their acceptance checks, TRANSFER_START and TRANSFER_COMPLETE (R227 to R230, R293, R294, R308). -/

namespace Sys2Proof.Machine

/-- The source descriptor of a MOVE's argument block (R293). -/
def moveSrc (arg : List Byte) : Desc := BitVec.ofNat 1024 (leNat (sub arg 0 128))

/-- The destination descriptor of a MOVE's argument block (R293). -/
def moveDst (arg : List Byte) : Desc := BitVec.ofNat 1024 (leNat (sub arg 128 128))

/-- The walk of PERM over the source's dimensions, slowest first (R197, R198, R293). -/
def moveWalk (d src : Desc) : List Nat := ((List.range (tdDims src)).map (fun i => fld (dfld d 0x48 4) (3 * i) 3)).reverse

/-- A walk names each dimension of the tensor once (R198). -/
def walkOk (dims : List Nat) (n : Nat) : Bool :=
  dims.all (fun i => decide (i < n)) && decide (dims.eraseDups.length = dims.length)

/-- The rules of R293. -/
def moveFormOk (d : Desc) : Bool :=
  dfld d 0x30 8 == 0 && dfld d 0x44 4 == 0 && dfld d 0x40 4 == 256 && dfld d 0x48 4 / 2 ^ 18 == 0 && dfld d 0x4C 44 == 0

/-- REGION is a session region and BDIMS is 0 (check 1 of R294). -/
def moveRegionOk (d : Desc) : Bool := decide (1 ≤ tdRegion d) && decide (tdRegion d ≤ 0x0FFF) && tdBdims d == 0

/-- MOVE: its acceptance checks (R293, R294). -/
def ownMove (rs : List Region) (d : Desc) (arg : List Byte) : Nat :=
  let a := moveSrc arg
  let b := moveDst arg
  if !(moveFormOk d) then stBadOpcode
  else firstBad [tdCheck (placeOf rs [] [] (tdRegion a)) a, tdCheck (placeOf rs [] [] (tdRegion b)) b,
    unlessOk (moveRegionOk a && moveRegionOk b) stDescRange, unlessOk (tdHost a != tdHost b) stBadOpcode,
    unlessOk (tdWr b) stDescAlias,
    unlessOk (tdE a == tdE b && tdCount a == tdCount b && walkOk (moveWalk d a) (tdDims a)) stDescRange]

/-- DIR of an EXCHANGE: 1 EXPORT, 2 IMPORT. -/
def xgDir (d : Desc) : Nat := dfld d 0x48 1
/-- PEER. -/
def xgPeer (d : Desc) : Nat := dfld d 0x49 1
/-- HREGION. -/
def xgRegion (d : Desc) : Nat := dfld d 0x4A 2
/-- HLEN. -/
def xgLen (d : Desc) : Nat := dfld d 0x4C 4
/-- HOFF. -/
def xgOff (d : Desc) : Nat := dfld d 0x50 8
/-- OBJ. -/
def xgObj (d : Desc) : Nat := dfld d 0x58 8
/-- DATA. -/
def xgData (d : Desc) : Nat := dfld d 0x60 8
/-- SELF. -/
def xgSelf (d : Desc) : Nat := dfld d 0x6B 1
/-- The four bytes MCODE, MVER, ROUND and SELF. -/
def xgProto (d : Desc) : Nat := dfld d 0x68 4

/-- The rules of R227 on the fields of an EXCHANGE; each gives 0x0101, also those on alignment, on a reserved field and on DATA of an EXPORT,
for which R227 names no status (DESIGN CHOICE, log 58). -/
def exchangeFormOk (d : Desc) : Bool :=
  let imp := xgDir d == 2
  dfld d 0x30 8 == 0 && dfld d 0x38 8 == 0 && dfld d 0x40 4 == 0 && dfld d 0x44 4 == 0 && (xgDir d == 1 || imp) &&
    decide (xgPeer d ≤ 15) && (if imp then decide (xgSelf d ≤ 15) && xgData d % 4096 == 0 else xgSelf d == 0 && xgData d == 0) &&
    xgLen d % 64 == 0 && xgOff d % 64 == 0 && xgObj d % 256 == 0 && (dfld d 0x68 1 == 8 || dfld d 0x68 1 == 9) && dfld d 0x6C 4 == 0

/-- The host region that an EXCHANGE names. -/
def hostRegion (rs : List Region) (n : Nat) : Option Region := rs.find? (fun r => r.id == n && r.host)

/-- EXCHANGE: its acceptance checks (R227). -/
def ownExchange (rs : List Region) (d : Desc) : Nat :=
  if !(exchangeFormOk d) then stBadOpcode
  else
    match hostRegion rs (xgRegion d) with
    | none => stDescRange
    | some r => unlessOk (decide (xgOff d + xgLen d ≤ r.len)) stDescRange

/-- One side of a transfer: the kind of its memory, the host address space, and its base. -/
structure Side where
  host : Bool
  key  : Nat
  base : Nat

/-- The side that a session region is. -/
def sideOf (rs : List Region) (region : Nat) : Side :=
  match placeOf rs [] [] region with
  | some (.host pasid base _) => { host := true, key := hostKey pasid 0, base := base }
  | some (.dev base _) => { host := false, key := 0, base := base }
  | _ => { host := false, key := 0, base := 0 }

/-- The addresses of a tensor's elements in a walk (R190, R198). -/
def elemAddrs (base : Nat) (d : Desc) (dims : List Nat) : List Nat := (walkElems base d dims [[]] 0 0).map (fun e => e.1)

/-- The identity walk. -/
def plainWalk (d : Desc) : List Nat := (List.range (tdDims d)).reverse

/-- The addresses of a MOVE's source and of its destination, in transfer order. -/
def moveAddrs (e : Entry) : List Nat × List Nat :=
  let a := moveSrc e.arg
  let b := moveDst e.arg
  (elemAddrs (sideOf e.regions (tdRegion a)).base a (moveWalk e.desc a), elemAddrs (sideOf e.regions (tdRegion b)).base b (plainWalk b))

/-- Bytes written to device memory, by stripe: the data and which bytes are written. -/
abbrev Scatter := Tbl (List Byte × List Bool)

/-- Add one element to a scatter. -/
def Scatter.add (t : Scatter) (a : Nat) (b : List Byte) : Scatter :=
  let (d, en) := Tbl.get t (a / 4096) (List.replicate 4096 0, List.replicate 4096 false)
  let o := a % 4096
  Tbl.put t (a / 4096) (splice d o b, en.take o ++ b.map (fun _ => true) ++ en.drop (o + b.length))

/-- Write elements to device memory as whole stripe operations under a hint (R205, R237, R241, R246, R294). -/
def devScatter (s : State) (part session hint handle : Nat) (l : List (Nat × List Byte)) : State :=
  let t := l.foldl (fun (t : Scatter) p => t.add p.1 p.2) []
  t.foldl (fun s p =>
    let s := writeStripe (charge s part (256 * enableOps p.2.2)) part handle p.1 p.2.1 p.2.2
    (writtenUnits s p.1 p.2.2).foldl (fun s u => cacheWrite s p.1 u hint session part) s) s

/-- The stored units, rising, that some addresses lie in. -/
def unitsAt (l : List Nat) : List (Nat × Nat) :=
  (sortBy (fun a b => decide (a ≤ b)) (l.map (fun a => a / 256))).eraseDups.map (fun u => (u / 16, u % 16))

/-- Read the units of some elements: none where one is lost (R239, R242, R246, R346). -/
def devGather (s : State) (part session hint handle : Nat) (l : List Nat) : State × Bool :=
  (unitsAt l).foldl (fun (acc : State × Bool) p =>
    if !acc.2 then acc
    else
      if lineServes acc.1 p.1 p.2 then (cacheRead acc.1 p.1 p.2 hint session part false, true)
      else
        let s := charge acc.1 part 256
        let direct := allocates s p.1 p.2
        match fetchUnit s part handle p.1 p.2 with
        | (s, some _) => (cacheRead s p.1 p.2 hint session part (!direct), true)
        | (s, none) => (objectLost s handle part p.1, false)) (s, true)

/-- A read of the units of some elements must wait: one that no line holds (R242, R249, R252, R264). -/
def gatherWaits (s : State) (l : List Nat) : Bool := (unitsAt l).any (fun p => !(lineServes s p.1 p.2) && unitWaits s p.1 p.2)

/-- Write host memory (R287; log 6). -/
def hostPut (s : State) (key : Nat) (l : List (Nat × List Byte)) : State :=
  { s with out := { s.out with host := l.foldl (fun m p => m.wrN (key + p.1 % 2 ^ 64) p.2) s.out.host } }

/-- The first 256 bytes of a MOVE's device destination, when they are a unit (R44). -/
def headUnit (e : Entry) : Option Nat :=
  let side := sideOf e.regions (tdRegion (moveDst e.arg))
  let a := (((side.base : Nat) : Int) + tdLow (moveDst e.arg)).toNat
  if side.host || a % 256 != 0 then none else some a

/-- The header at the start of a MOVE's device destination, when it is intact (R294). -/
def moveHeader (s : State) (e : Entry) : Option (Nat × List Byte) :=
  match headUnit e with
  | none => none
  | some a =>
    let h := memBytes s.mem a 256
    if (intactCt h || intactKy h) && stripeOf s (a / 4096) != .unwritten then some (a, h) else none

/-- Step 2 of R294: an intact header is rewritten with VALID clear and GEN unchanged; none while the write must wait (R247). -/
def clearHeader (s : State) (e : Entry) : Option State :=
  match moveHeader s e with
  | none => some s
  | some (a, h) => headerWrites s (partOfFn s e.fn) e.handle [(a, sealHeader (splice h 6 (leBytes 2 (ohFlags h / 2 * 2))))]

/-- An element lies in the unit at `a`. -/
def inUnit (a : Nat) (p : Nat × List Byte) : Bool := decide (a ≤ p.1) && decide (p.1 < a + 256)

/-- Some elements put the MAGIC of a header of either kind at the start of the unit at `a` (R44). -/
def startsHeader (a : Nat) (l : List (Nat × List Byte)) : Bool :=
  let t := l.foldl (fun (t : Scatter) p => t.add p.1 p.2) []
  let m := le ((Tbl.get t (a / 4096) ([], [])).1) (a % 4096) 4
  m == magicCt || m == magicKy

/-- Write an upload: where its first unit is a header, that unit comes after all the others (R44). -/
def uploadScatter (s : State) (e : Entry) (l : List (Nat × List Byte)) : State :=
  let put := fun s l => devScatter s (partOfFn s e.fn) (e.tag % 4096) (tdHint (moveDst e.arg)) e.handle l
  match headUnit e with
  | none => put s l
  | some a =>
    if startsHeader a (l.filter (inUnit a)) then put (put s (l.filter (fun p => !(inUnit a p)))) (l.filter (inUnit a)) else put s l

/-- Bytes of undefined content for `n` elements of `w` bytes (log 7). -/
def freeElems (s : State) (w : Nat) (addrs : List Nat) : List (Nat × List Byte) × State :=
  let (v, s) := drawBytes s (w * addrs.length)
  (addrs.mapIdx (fun i a => (a, sub v (w * i) w)), s)

/-- A MOVE that fails or is stopped: its destination range is undefined, and a header that it begins with stays not-VALID (R294,
R296). Where no intact header stood there, the upload's own header, its last write, has not been written: the unit keeps what it held,
or holds undefined bytes that are no header (R44). -/
def spoilMove (s : State) (e : Entry) : State :=
  let b := moveDst e.arg
  let side := sideOf e.regions (tdRegion b)
  let (l, s1) := freeElems s (tdE b) (moveAddrs e).2
  if side.host then hostPut s1 side.key l
  else
    let keep := match moveHeader s e, headUnit e with
      | some (a, _), _ => l.filter (fun p => !(overlaps p.1 p.2.length a 256))
      | none, some a => if startsHeader a (l.filter (inUnit a)) then l.filter (fun p => !(overlaps p.1 p.2.length a 256)) else l
      | none, none => l
    devScatter s1 (partOfFn s e.fn) (e.tag % 4096) (tdHint b) e.handle keep

/-- The buffer of an EXCHANGE: its address space and address. -/
def buffer_ (e : Entry) : Nat × Nat :=
  match hostRegion e.regions (xgRegion e.desc) with
  | none => (0, 0)
  | some r => (hostKey r.pasid 0, r.base + xgOff e.desc)

/-- An EXPORT whose buffer is left undefined (R296). -/
def spoilExport (s : State) (e : Entry) : State :=
  let (k, a) := buffer_ e
  let (v, s) := drawBytes s (xgLen e.desc)
  hostPut s k [(a, v)]

/-- The payload range of an IMPORT that is left undefined: whole stripes of DATA that a buffer of HLEN could fill (R296). -/
def spoilImport (s : State) (e : Entry) : State :=
  let n := (xgLen e.desc - 128) / 4096 * 4096
  let a := xgData e.desc
  if inRegion e.regions a n && !(overlaps a n (xgObj e.desc) 256) then
    let (v, s) := drawBytes s n
    devScatter s (partOfFn s e.fn) (e.tag % 4096) 0 e.handle ((List.range (n / 256)).map (fun i => (a + 256 * i, sub v (256 * i) 256)))
  else s

/-- A transfer stopped at one of its 256 B units (R296). -/
def spoilTransfer (s : State) (e : Entry) : State :=
  if e.row = "MOVE" then spoilMove s e else if e.row = "EXPORT" then spoilExport s e else spoilImport s e

/-- The work is a MOVE or an EXCHANGE. -/
def isTransfer (e : Entry) : Bool := e.row == "MOVE" || e.row == "EXPORT" || e.row == "IMPORT"

/-- Effective priority (R309). -/
def effPrio (s : State) (e : Entry) : Nat :=
  Nat.min 7 (Nat.min (dfld e.desc 2 1) (partOf s (partOfFn s e.fn)).prioCap + e.boost)

/-- The order of R309 between two READY entries. -/
def before (s : State) (a b : Entry) : Bool :=
  decide (effPrio s b < effPrio s a) || (effPrio s a == effPrio s b && decide (a.acceptAt ≤ b.acceptAt))

/-- The READY entries of a kind, in the order of R309; entries stand in the order of their acceptance. -/
def readyOrder (s : State) (p : Entry → Bool) : List Entry :=
  sortBy (before s) (s.ts.entries.filter (fun e => e.state == .ready && p e))

/-- The entry's version is not the active one (R327). -/
def isStale (s : State) (e : Entry) : Bool := e.version != s.ts.bundle.version

/-- TRANSFER_START: the first READY transfer begins, or ends as stale (R308, R309, R327). -/
def execTransferStart (s : State) : Res :=
  if s.hi.xfers.length < 8 ∧ domainRuns s 1 = true then
    match readyOrder s isTransfer with
    | [] => no "TRANSFER_START"
    | e :: _ =>
      if isStale s e then .next (tsEvent (complete s e.handle stConfigStale 0 none false) 5)
      else
        let s1 := setEntry s { e with state := .running }
        let s2 := { s1 with hi := { s1.hi with xfers := s1.hi.xfers ++ [e.handle] } }
        match (if e.row = "MOVE" then clearHeader s2 e else some s2) with
        | none => no "TRANSFER_START"
        | some t => .next t
  else no "TRANSFER_START"

/-- What a transfer leaves after a failure on its host side: an IMPORT has written nothing then (R230, R294). -/
def failTransfer (s : State) (e : Entry) : State := if e.row = "IMPORT" then s else spoilTransfer s e

/-- A transfer leaves the engine with its status. -/
def endTransfer (s : State) (h st : Nat) : State :=
  complete { s with hi := { s.hi with xfers := s.hi.xfers.filter (· ≠ h) } } h st 0 none false

/-- The reruns of a transfer: each a record of source 0x33 and REPLAYED (R335, R345, R352). -/
def noteReruns (s : State) (e : Entry) (source n : Nat) : State :=
  if n = 0 then s
  else
    let s := (List.range n).foldl (fun s _ => logFault s source 10 0xFF 0xFF 0xFFFF (partOfFn s e.fn) e.handle 0) s
    setEntry s { e with replayed := true }

/-- The device units that a transfer reads must be waited for. -/
def moveWaits (s : State) (e : Entry) : Bool :=
  let side := sideOf e.regions (tdRegion (moveSrc e.arg))
  !side.host && gatherWaits s (moveAddrs e).1

/-- A MOVE from device memory to host memory (R294). -/
def moveOut (s : State) (e : Entry) : State :=
  let a := moveSrc e.arg
  let (src, dst) := moveAddrs e
  let part := partOfFn s e.fn
  match devGather s part (e.tag % 4096) (tdHint a) e.handle src with
  | (s, false) => spoilMove { s with hi := { s.hi with xfers := s.hi.xfers.filter (· ≠ e.handle) } } e
  | (s, true) =>
    let l := (dst.zip src).map (fun p => (p.1, memBytes s.mem p.2 (tdE a)))
    endTransfer (hostPut s (sideOf e.regions (tdRegion (moveDst e.arg))).key l) e.handle stOk

/-- A MOVE from host memory to device memory; its header unit is written last (R44, R294). -/
def moveIn (s : State) (e : Entry) (bytes : List Byte) : State :=
  let b := moveDst e.arg
  let dst := (moveAddrs e).2
  let w := tdE b
  let l := dst.mapIdx (fun i a => (a, sub bytes (w * i) w))
  endTransfer (uploadScatter s e l) e.handle stOk

/-- An exchange header (R228). -/
def exchangeHeader (d : Desc) (h payload : List Byte) : List Byte :=
  let b := leBytes 4 0x4D584749 ++ leBytes 1 1 ++ leBytes 3 (xgProto d) ++ leBytes 4 Config.contract ++ leBytes 1 (le h 0x24 1) ++
    leBytes 1 (xgPeer d) ++ leBytes 1 (le h 0x25 1) ++ leBytes 1 (ohWidth h) ++ leBytes 8 (ohKeyid h) ++ leBytes 8 (dfld d 0x70 8) ++
    leBytes 8 (ohLength h) ++ leBytes 4 (crc32c payload) ++ List.replicate 80 0
  b ++ leBytes 4 (crc32c b)

/-- The object of an EXPORT (R229). -/
def exportOk (d : Desc) (h : List Byte) : Bool :=
  intactCt h && ohValid h && ohScheme h == 6 && ohPolys h == 1 && decide (xgPeer d < le h 0x25 1) && xgPeer d != le h 0x24 1

/-- The units of an EXPORT's payload: of whole stripes (R43, R229). -/
def exportAddrs (h : List Byte) : List Nat := (unitsOf (ohData h) (ohLength h)).map (fun p => 4096 * p.1 + 256 * p.2)

/-- An EXPORT, its payload read under the DEFAULT hint (R229, R242, R246, R316): none while a unit must be waited for. -/
def runExport (s : State) (e : Entry) : Option State :=
  let part := partOfFn s e.fn
  let fail := fun (s : State) st => some (endTransfer s e.handle st)
  match readAll s part e.handle [(xgObj e.desc, 256)] with
  | .wait => none
  | .got s none => some { s with hi := { s.hi with xfers := s.hi.xfers.filter (· ≠ e.handle) } }
  | .got s (some hs) =>
    let h := hs.headD []
    if !(exportOk e.desc h) then fail s stHeaderInvalid
    else if xgLen e.desc < 128 + ohLength h then fail s stDescRange
    else if !(inRegion e.regions (ohData h) (ohLength h)) then fail s stDescRange
    else if gatherWaits s (exportAddrs h) then none
    else
      match devGather s part (e.tag % 4096) 0 e.handle (exportAddrs h) with
      | (s, false) => some { s with hi := { s.hi with xfers := s.hi.xfers.filter (· ≠ e.handle) } }
      | (s, true) =>
        let p := memBytes s.mem (ohData h) (ohLength h)
        let (k, a) := buffer_ e
        fail (hostPut s k [(a, exchangeHeader e.desc h p ++ p)]) stOk

/-- The checks of R230 on a buffer, in their order. -/
def importCheck (d : Desc) (b : List Byte) : Nat :=
  let n := le b 0x20 8
  firstBad [unlessOk (le b 0 4 == 0x4D584749 && le b 4 1 == 1 && le b 0x7C 4 == crc32c (sub b 0 0x7C) && zeros (sub b 0x2C 80) &&
      decide (128 + n ≤ xgLen d)) stHeaderInvalid,
    unlessOk (le b 5 2 == dfld d 0x68 2 && le b 8 4 == Config.contract) stExchangeVersion,
    unlessOk (le b 7 1 == dfld d 0x6A 1 && le b 0x18 8 == dfld d 0x70 8 && le b 0x0C 1 == xgPeer d && le b 0x0D 1 == xgSelf d &&
      decide (xgPeer d < le b 0x0E 1) && decide (xgSelf d < le b 0x0E 1) && xgPeer d != xgSelf d &&
      (le b 0x0F 1 == 4 || le b 0x0F 1 == 8) && n != 0 && n % 4096 == 0) stHeaderInvalid,
    unlessOk (le b 0x28 4 == crc32c (sub b 128 n)) stHeaderInvalid]

/-- The share header that an IMPORT writes (R230). -/
def importHeader (d : Desc) (b : List Byte) (gen : Nat) : List Byte :=
  let w := le b 0x0F 1
  withGen (leBytes 4 magicCt ++ leBytes 1 1 ++ leBytes 1 6 ++ leBytes 2 1 ++ leBytes 4 (if w = 4 then 0xFFFF0005 else 0xFFFF0006) ++
    leBytes 1 0x20 ++ leBytes 1 w ++ leBytes 2 1 ++ leBytes 8 (le b 0x10 8) ++ leBytes 2 0 ++ leBytes 2 0 ++ leBytes 2 0xFFFF ++
    leBytes 2 0 ++ leBytes 4 0 ++ leBytes 1 (le b 0x0C 1) ++ leBytes 1 (le b 0x0E 1) ++ leBytes 2 0 ++ leBytes 8 (xgData d) ++
    leBytes 8 (le b 0x20 8) ++ List.replicate 196 0) gen

/-- An IMPORT (R230, R316): none while the old header must be waited for. -/
def runImport (s : State) (e : Entry) (b : List Byte) : Option State :=
  let d := e.desc
  let part := partOfFn s e.fn
  let n := le b 0x20 8
  let st := firstBad [importCheck d b, unlessOk (inRegion e.regions (xgData d) n && inRegion e.regions (xgObj d) 256) stDescRange,
    unlessOk (!(overlaps (xgData d) n (xgObj d) 256)) stInPlaceForbidden]
  if st ≠ 0 then some (endTransfer s e.handle st)
  else
    match readAll s part e.handle [(xgObj d, 256)] with
    | .wait => none
    | .got s none => some { s with hi := { s.hi with xfers := s.hi.xfers.filter (· ≠ e.handle) } }
    | .got s (some hs) =>
      let old := hs.headD []
      let gen := if intactCt old then ohGen old + 1 else if intactKy old then khGen old + 1 else 1
      let s := devScatter s part (e.tag % 4096) 0 e.handle ((List.range (n / 256)).map (fun i => (xgData d + 256 * i, sub b (128 + 256 * i) 256)))
      (headerWrites s part e.handle [(xgObj d, importHeader d b gen)]).map (fun s => endTransfer s e.handle stOk)

/-- The host pages of a transfer: its address space, its direction and the pages in the order of their first use (R191, R211). -/
def hostPages (e : Entry) : Nat × Bool × List Nat :=
  if e.row = "MOVE" then
    let write := !(tdHost (moveSrc e.arg))
    let d := if write then moveDst e.arg else moveSrc e.arg
    let l := if write then (moveAddrs e).2 else (moveAddrs e).1
    ((sideOf e.regions (tdRegion d)).key / 2 ^ 64, write, (l.map (fun a => a / 4096)).eraseDups)
  else
    let (k, a) := buffer_ e
    (k / 2 ^ 64, e.row == "EXPORT", (List.range ((a % 4096 + xgLen e.desc + 4095) / 4096)).map (fun i => a / 4096 + i))

/-- One page of a transfer is translated: a request leaves unless the cache grants the access already. A page of `missing` is not there
at first: its page request leaves and is answered with Success, and the device translates it again (R211, R212). -/
def translatePage (fn space : Nat) (write : Bool) (missing : List Nat) (s : State) (page : Nat) : State :=
  if grants s fn space page write then s
  else
    let ats := LinkMsg.atsRequest fn space page
    let msgs := if missing.contains page then [ats, .pageRequest fn space page write, ats] else [ats]
    cacheTranslation { s with out := { s.out with link := s.out.link ++ msgs } } fn space page (!write) write

/-- The translations of a transfer whose host side ended well, where its function has ATS enabled (R211, R294). -/
def translateAll (s : State) (e : Entry) (missing : List Nat) : State :=
  let (space, write, pages) := hostPages e
  if (cfgOf s e.fn).ats then pages.foldl (translatePage e.fn space write missing) s else s

/-- The pages of a transfer can have been requested: its function has ATS and PRI enabled and may have one more page request outstanding;
a transfer has one at a time, which its answer ends (R212, R272). -/
def mayAsk (s : State) (fn : Nat) : Bool := (cfgOf s fn).ats && (cfgOf s fn).pri && priRoom s fn

/-- The first page of a transfer without an access that the cache grants: where it can end with a page fault (R212). -/
def missingPage (s : State) (e : Entry) : Option Nat :=
  let (space, write, pages) := hostPages e
  if (cfgOf s e.fn).ats then pages.find? (fun p => !(grants s e.fn space p write)) else none

/-- What leaves for a missing page: a translation request, and with PRI enabled a page request (R211, R212). -/
def askPage (s : State) (e : Entry) (page : Nat) : State :=
  let (space, write, _) := hostPages e
  let pri := if (cfgOf s e.fn).pri then [LinkMsg.pageRequest e.fn space page write] else []
  { s with out := { s.out with link := s.out.link ++ [.atsRequest e.fn space page] ++ pri } }

/-- A transfer whose host side ended well, with the bytes that its host reads returned; none while device memory must be waited for. -/
def goodTransfer (s : State) (x : Entry) (l : List Byte) : Option State :=
  if x.row = "MOVE" then
    if moveWaits s x then none
    else if tdHost (moveSrc x.arg) then some (moveIn s x l)
    else some (moveOut s x)
  else if x.row = "EXPORT" then runExport s x
  else runImport s x l

/-- TRANSFER_COMPLETE: a transfer finishes, with its host side as `e` gives, after `reruns` runs that its checks threw away (R44,
R229, R230, R287, R294, R335). It can end with a page fault only where its function has ATS enabled and a page is missing: with PRI
disabled at the first miss, with PRI enabled after a failed answer or 100 ms of paging (R211, R212). -/
def execTransferComplete (h : Nat) (e : HostEnd) (reruns : Nat) (s : State) : Res :=
  match entryOf s h with
  | none => no "TRANSFER_COMPLETE"
  | some x =>
    if !(s.hi.xfers.contains h) || !(domainRuns s 1) then no "TRANSFER_COMPLETE"
    else
      let s0 := noteReruns s x 0x33 reruns
      let good := fun (missing : List Nat) (l : List Byte) =>
        match goodTransfer (translateAll s0 x missing) x l with
        | none => no "TRANSFER_COMPLETE"
        | some t => .next t
      match (if linkOpen s x.fn then e else .linkError) with
      | .linkError => .next (endTransfer (failTransfer s0 x) h stHostAbort)
      | .pageFault =>
        match missingPage s x with
        | some p =>
          if (cfgOf s x.fn).pri && !(priRoom s x.fn) then no "TRANSFER_COMPLETE"
          else .next (endTransfer (failTransfer (askPage s0 x p) x) h stPageFault)
        | none => no "TRANSFER_COMPLETE"
      | .bytes l => good [] l
      | .paged missing l => if missing.isEmpty || mayAsk s x.fn then good missing l else no "TRANSFER_COMPLETE"

end Sys2Proof.Machine
end

