-- ==== Sys2Proof/Machine/Sessions.lean ====
section
/-! DEFINITION. SESSION descriptors: their acceptance checks and SESSION_OP_RUN (R312 to R315, R426). -/

namespace Sys2Proof.Machine

/-- SOP. -/
def ssSop (d : Desc) : Nat := dfld d 0x48 1
/-- IDLE. -/
def ssIdle (d : Desc) : Nat := dfld d 0x49 1
/-- MEM. -/
def ssMem (d : Desc) : Nat := dfld d 0x4A 1
/-- REGION. -/
def ssRegion (d : Desc) : Nat := dfld d 0x4C 2
/-- PSET. -/
def ssPset (d : Desc) : Nat := dfld d 0x50 4
/-- PASID. -/
def ssPasid (d : Desc) : Nat := dfld d 0x54 4
/-- BASE. -/
def ssBase (d : Desc) : Nat := dfld d 0x58 8
/-- LENGTH. -/
def ssLength (d : Desc) : Nat := dfld d 0x60 8
/-- QENTRIES. -/
def ssQEntries (d : Desc) : Nat := dfld d 0x68 4
/-- QBYTES. -/
def ssQBytes (d : Desc) : Nat := dfld d 0x70 8

/-- A field that an SOP may use is zero unless the SOP is one of those that do (R313). -/
def usedBy (sop : Nat) (sops : List Nat) (v : Nat) : Bool := sops.contains sop || v == 0

/-- The rules of R313 on the fields of a SESSION descriptor; the bits of PASID that no field takes are zero like its reserved bytes
(DEDUCED, log 30). -/
def sessionFormOk (d : Desc) : Bool :=
  let o := ssSop d
  decide (1 ≤ o) && decide (o ≤ 7) && dfld d 0x30 8 == 0 && dfld d 0x38 8 == 0 && dfld d 0x40 4 == 0 && dfld d 0x44 4 == 0 &&
    dfld d 0x4B 1 == 0 && dfld d 0x4E 2 == 0 && dfld d 0x6C 4 == 0 && decide (ssIdle d ≤ 2) && usedBy o [1, 7] (ssIdle d) &&
    decide (ssMem d ≤ 1) && usedBy o [5] (ssMem d) && usedBy o [5, 6] (ssRegion d) && usedBy o [3, 4] (ssPset d) &&
    (o == 5 && ssMem d == 1 && fld (ssPasid d) 20 11 == 0 || ssPasid d == 0) && usedBy o [3, 5] (ssBase d) && usedBy o [3, 5] (ssLength d) &&
    usedBy o [1] (ssQEntries d) && usedBy o [1] (ssQBytes d) &&
    (!(o == 5 || o == 6) || (decide (1 ≤ ssRegion d) && decide (ssRegion d ≤ 0x0FFF))) &&
    (o != 5 || (ssBase d % 4096 == 0 && ssLength d % 4096 == 0 && ssLength d != 0))

/-- Check 1 of R426. -/
def loadFormOk (d : Desc) : Bool :=
  ssPset d == 0 ||
    (if 0xFFFF0000 ≤ ssPset d then ssBase d == 0 && ssLength d == 0
      else ssBase d != 0 && decide (64 ≤ ssLength d) && decide (ssLength d ≤ 4160) && (ssLength d - 64) % 32 == 0)

/-- BASE of a LOAD_PSET is a device address (R313). -/
def loadFromDevice (d : Desc) : Bool := ssBase d != 0 && !(bitAt (ssBase d) 63)

/-- SESSION: its acceptance checks (R313, R315, R426). `x` is the session of the tag, if it is open. -/
def ownSession (x : Option Session) (rs : List Region) (d : Desc) : Nat :=
  if !(sessionFormOk d) then stBadOpcode
  else if ssSop d = 3 then
    if !(loadFormOk d) then stBadOpcode
    else unlessOk (!(loadFromDevice d) || inRegion rs (ssBase d) (ssLength d)) stDescRange
  else if ssSop d = 6 then
    match x with
    | none => stOk
    | some y => unlessOk (!(y.regions.any (fun r => r.id == ssRegion d && r.removed))) stDescRange
  else stOk

/-- What the acceptance of a SESSION descriptor changes at once: a CLOSE ends the tag, a REMOVE_REGION the region (R314, R315). -/
def acceptSession (s : State) (tag : Nat) (d : Desc) : State :=
  let n := tag % 4096
  match s.ts.sessions.find n with
  | none => s
  | some x =>
    if ssSop d = 2 then setSession s n { x with closing := true }
    else if ssSop d = 6 then
      setSession s n { x with regions := x.regions.map (fun r => if r.id == ssRegion d then { r with removed := true } else r) }
    else s

/-- The entry is a SESSION operation. -/
def isSession (e : Entry) : Bool :=
  ["OPEN", "CLOSE", "LOAD_PSET", "UNLOAD_PSET", "ADD_REGION", "REMOVE_REGION", "POLICY"].contains e.row

/-- A REMOVE_REGION of the session for region `id` has been accepted and is still to run, apart from the entry `h` (R315). -/
def removePending (s : State) (tag id h : Nat) : Bool :=
  s.ts.entries.any (fun e => e.handle != h && e.row == "REMOVE_REGION" && e.tag == tag && ssRegion e.desc == id)

/-- A SESSION operation that ends without having run leaves its tag and its region as before its acceptance (log 21). -/
def undoSession (s : State) (e : Entry) : State :=
  if isSession e then
    let n := e.tag % 4096
    match s.ts.sessions.find n with
    | none => s
    | some x =>
      if e.row = "CLOSE" then setSession s n { x with closing := false }
      else if e.row = "REMOVE_REGION" then
        setSession s n { x with regions := x.regions.map (fun r => if r.id == ssRegion e.desc then { r with removed := removePending s e.tag r.id e.handle } else r) }
      else s
  else s

/-- A held entry ends without having run. -/
def endUnrun (s : State) (e : Entry) (st : Nat) : State := complete (undoSession s e) e.handle st 0 none false

/-- CONFIG_STALE for work that has not started (R327). -/
def endStale (s : State) (e : Entry) : State := tsEvent (endUnrun s e stConfigStale) 5

/-- Open sessions of a partition. -/
def openIn_ (s : State) (p : Nat) : Nat := (s.ts.sessions.filter (fun x => x.2.part == p)).length

/-- The lowest free session number (R312). -/
def freeNumber (s : State) : Option Nat :=
  ((List.range 4095).map (· + 1)).find? (fun n => (s.ts.sessions.find n).isNone)

/-- The idle state that IDLE names in a partition (R313, R321). -/
def idleOf (s : State) (p v : Nat) : Nat := if v = 0 then (partOf s p).idle else v

/-- OPEN; one that was accepted before a diagnostic unlock is refused while the device is unlocked (R312, R314, R376). -/
def runOpen (s : State) (e : Entry) : State :=
  let p := partOfFn s e.fn
  let r := partOf s p
  if diagOpen s then complete s e.handle stPermission 0 none false
  else match freeNumber s with
  | none => complete s e.handle stQuota 0 none false
  | some n =>
    if r.sessions ≤ openIn_ s p then complete s e.handle stQuota 0 none false
    else
      let gen := (s.ts.gens.get n 0 + 1) % 2 ^ 20
      let qe := if ssQEntries e.desc = 0 then r.defEntries else Nat.min (ssQEntries e.desc) r.entries
      let qb := if ssQBytes e.desc = 0 then r.defBytes else Nat.min (ssQBytes e.desc) r.memLen
      let x : Session := { gen := gen, fn := e.fn, part := p, qEntries := qe, qBytes := qb, idle := idleOf s p (ssIdle e.desc),
                           closing := false, regions := [], psets := [], openAt := s.time }
      let s := setSession s n x
      complete { s with ts := { s.ts with gens := s.ts.gens.put n gen } } e.handle stOk (gen * 4096 + n) none false

/-- The device regions of a session are released with their lines, after every line of the session is gone (R235, R244), and the
session ends; the tiles that it used last belong to no open session, marked by 4096 added to its number, and keep its idle state (R176,
R177). -/
def closeNow (s : State) (n : Nat) (x : Session) : State :=
  let s := dropLines s n
  let s := (x.regions.filter (fun r => !r.host)).foldl (fun s r => releaseRange s r.base r.len) s
  let tiles := s.ts.tiles.map (fun p => if p.2.session % 8192 = n then (p.1, { p.2 with session := p.2.session + 4096, idle := x.idle }) else p)
  { s with ts := { s.ts with sessions := s.ts.sessions.del n, tiles := tiles }, pke := { s.pke with slots := s.pke.slots.del n } }

/-- The shipped profiles (R39): the fixed part, with the prime entries that the release notes list (log 11). -/
def profile (id : Nat) : Option Pset :=
  let base : Pset := { id := id, scheme := 6, logN := 0, flags := 0, l := 0, k := 0, dnum := 0, top := 0, lweN := 0, glweK := 0,
                       t := 0, decLog := 0, decLevels := 0, refresh := 0, primes := [] }
  let ring := { base with primes := Config.profilePrimes id }
  match id with
  | 0xFFFF0001 => some { ring with scheme := 1, logN := 16, flags := 2, l := 60, k := 12, dnum := 5, top := 15, refresh := 400 }
  | 0xFFFF0002 => some { ring with scheme := 1, logN := 17, flags := 2, l := 96, k := 32, dnum := 3, top := 23, refresh := 400 }
  | 0xFFFF0003 => some { ring with scheme := 2, logN := 15, l := 20, k := 8, dnum := 3, top := 7, t := 65537, refresh := 480 }
  | 0xFFFF0004 => some { base with scheme := 5, logN := 10, lweN := 636, glweK := 1, decLog := 7, decLevels := 3, refresh := 320 }
  | 0xFFFF0005 => some base
  | 0xFFFF0006 => some { base with flags := 4 }
  | _ => none

/-- The bytes of the descriptor that a LOAD_PSET names: none while device memory must be waited for; otherwise the state after the
read and the bytes or the status of check 6 of R426. -/
def psetBytes (s : State) (e : Entry) (data : HostData) : Option (State × Option (List Byte) × Nat) :=
  if loadFromDevice e.desc then
    match readAll s (partOfFn s e.fn) e.handle [(ssBase e.desc, ssLength e.desc)] with
    | .wait => none
    | .got s none => some (s, none, stObjectLost)
    | .got s (some b) => some (s, some (b.headD []), stOk)
  else
    match data with
    | none => some (s, none, stHostAbort)
    | some b => some (s, some b, stOk)

/-- LOAD_PSET: checks 3 to 8 of R426; none while device memory must be waited for. -/
def runPset (s : State) (e : Entry) (n : Nat) (x : Session) (data : HostData) : Option State :=
  let id := ssPset e.desc
  let fail := fun (s : State) st => some (complete s e.handle st 0 none false)
  let shipped := decide (0xFFFF0000 ≤ id)
  if id = 0 ∨ (shipped && (profile id).isNone) then fail s stParamMismatch
  else if (psetOf x id).isSome then fail s stParamMismatch
  else if 16 ≤ x.psets.length then fail s stQuota
  else if shipped then
    match profile id with
    | none => fail s stParamMismatch
    | some p => fail (setSession s n { x with psets := x.psets ++ [p] }) stOk
  else
    match psetBytes s e data with
    | none => none
    | some (s, none, st) => fail s st
    | some (s, some b, _) =>
      let k := (ssLength e.desc - 64) / 32
      let p := parsePset b k
      if p.id ≠ id ∨ p.l + p.k ≠ k ∨ psetOk b k = false then fail s stParamMismatch
      else fail (setSession s n { x with psets := x.psets ++ [p] }) stOk

/-- The region that an ADD_REGION registers, before any REMOVE_REGION accepted meanwhile counts. -/
def newRegion (d : Desc) : Region :=
  { id := ssRegion d, host := ssMem d == 1, pasid := if bitAt (ssPasid d) 31 then 2 ^ 31 + ssPasid d % 2 ^ 20 else 0, base := ssBase d,
    len := ssLength d, removed := false }

/-- A device region of an open session other than `n` shares a byte with [a, a + len) (R315). -/
def foreignOverlap (s : State) (n a len : Nat) : Bool :=
  s.ts.sessions.any (fun p => p.1 != n && p.2.regions.any (fun r => !r.host && overlaps a len r.base r.len))

/-- The device bytes that a session has registered. -/
def deviceBytes (x : Session) : Nat := (x.regions.filter (fun r => !r.host)).foldl (fun k r => k + r.len) 0

/-- ADD_REGION: the status of R315. -/
def addCheck (s : State) (e : Entry) (n : Nat) (x : Session) : Nat :=
  let r := newRegion e.desc
  let p := partOf s x.part
  if x.regions.any (fun q => q.id == r.id) then stDescRange
  else if 64 ≤ x.regions.length then stQuota
  else if r.host then unlessOk (!(bitAt r.pasid 31) || (cfgOf s e.fn).pasid) stDescRange
  else if !(within r.base r.len p.memBase p.memLen) then stDescRange
  else if foreignOverlap s n r.base r.len then stPermission
  else unlessOk (decide (r.len + deviceBytes x ≤ x.qBytes)) stQuota

/-- REMOVE_REGION (R314, R315). -/
def runRemove (s : State) (e : Entry) (n : Nat) (x : Session) : State :=
  match x.regions.find? (fun r => r.id == ssRegion e.desc) with
  | none => complete s e.handle stDescRange 0 none false
  | some r =>
    let s := if r.host then s else releaseRange s r.base r.len
    complete (setSession s n { x with regions := x.regions.filter (fun q => !(q.id == r.id)) }) e.handle stOk 0 none false

/-- What a SESSION operation does when it runs; none while device memory must be waited for (R314). -/
def runSession (s : State) (e : Entry) (data : HostData) : Option State :=
  let n := e.tag % 4096
  if e.row = "OPEN" then some (runOpen s e)
  else
    match s.ts.sessions.find n with
    | none => some (complete s e.handle stSessionInvalid 0 none false)
    | some x =>
      match e.row with
      | "CLOSE" => some (complete (closeNow s n x) e.handle stOk 0 none false)
      | "LOAD_PSET" => runPset s e n x data
      | "UNLOAD_PSET" =>
        some (match psetOf x (ssPset e.desc) with
          | none => complete s e.handle stParamMismatch 0 none false
          | some _ => complete (setSession s n { x with psets := x.psets.filter (fun p => !(p.id == ssPset e.desc)) }) e.handle stOk 0
              none false)
      | "ADD_REGION" =>
        let st := addCheck s e n x
        let r := { newRegion e.desc with removed := removePending s e.tag (ssRegion e.desc) e.handle }
        some (complete (if st = 0 then setSession s n { x with regions := x.regions ++ [r] } else s) e.handle st 0 none false)
      | "REMOVE_REGION" => some (runRemove s e n x)
      | _ => some (complete (setSession s n { x with idle := idleOf s x.part (ssIdle e.desc) }) e.handle stOk 0 none false)

/-- SESSION_OP_RUN: the first READY SESSION operation whose earlier work has completed runs in the management core, with the bytes
that a host read returned, or ends as stale (R309, R314, R327). -/
def execSessionOpRun (h : Nat) (data : HostData) (s : State) : Res :=
  match readyOrder s (fun e => isSession e && e.before.isEmpty) with
  | [] => no "SESSION_OP_RUN"
  | e :: _ =>
    if e.handle = h ∧ domainRuns s 4 = true ∧ s.flt.mcRestarting = false then
      if isStale s e then .next (endStale s e)
      else
        match runSession s e (linkData s e.fn data) with
        | none => no "SESSION_OP_RUN"
        | some t => .next t
    else no "SESSION_OP_RUN"

end Sys2Proof.Machine
end

