-- ==== Sys2Proof/Machine/Pke.lean ====
section
/-! DEFINITION. The Public-Key Engine: PK descriptors (R382), operations and their results (R385 to R388), PKE_OP_START and PKE_YIELD_POINT
(R384). -/

namespace Sys2Proof.Machine

/-- POP. -/
def pkPop (d : Desc) : Nat := dfld d 0x48 2
/-- SLOTKEY. -/
def pkSlotKey (d : Desc) : Bool := bitAt (dfld d 0x4A 1) 0
/-- KEEP. -/
def pkKeep (d : Desc) : Bool := bitAt (dfld d 0x4A 1) 1
/-- SLOT. -/
def pkSlot (d : Desc) : Nat := dfld d 0x4B 1
/-- DATA. -/
def pkData (d : Desc) : Nat := dfld d 0x50 8
/-- DATALEN. -/
def pkLen (d : Desc) : Nat := dfld d 0x58 8
/-- OUT. -/
def pkOut (d : Desc) : Nat := dfld d 0x60 8
/-- OUTLEN. -/
def pkOutLen (d : Desc) : Nat := dfld d 0x68 4

/-- The operations and their rows (R385). -/
def popTable : List (Nat × String) :=
  [(0x01, "SHA_256"), (0x02, "SHA_384"), (0x03, "SHA_512"), (0x04, "SHAKE_128"), (0x05, "SHAKE_256"), (0x10, "RSA_3072_QUOTE"),
   (0x11, "RSA_4096_QUOTE"), (0x12, "RSA_3072_PSS_VERIFY"), (0x13, "RSA_4096_PSS_VERIFY"), (0x20, "P_256_KEY_PAIR"),
   (0x21, "P_256_ECDSA_SIGN"), (0x22, "P_256_ECDSA_VERIFY"), (0x23, "P_256_ECDH"), (0x24, "P_384_KEY_PAIR"), (0x25, "P_384_ECDSA_SIGN"),
   (0x26, "P_384_ECDSA_VERIFY"), (0x27, "P_384_ECDH"), (0x30, "X25519_KEY_PAIR"), (0x31, "X25519"), (0x32, "ED25519_KEY_PAIR"),
   (0x33, "ED25519_SIGN"), (0x34, "ED25519_VERIFY"), (0x40, "ML_KEM_768_KEY_PAIR"), (0x41, "ML_KEM_768_ENCAPSULATE"),
   (0x42, "ML_KEM_768_DECAPSULATE"), (0x44, "ML_KEM_1024_KEY_PAIR"), (0x45, "ML_KEM_1024_ENCAPSULATE"), (0x46, "ML_KEM_1024_DECAPSULATE"),
   (0x50, "SLOT_LOAD"), (0x51, "SLOT_CLEAR")]

/-- POP is listed. -/
def popListed (p : Nat) : Bool := popTable.any (fun x => x.1 == p)

/-- A hash operation, which reads DATA. -/
def popHash (p : Nat) : Bool := decide (1 ≤ p) && decide (p ≤ 5)

/-- The curve of an operation. -/
def popCurve (p : Nat) : Curve := if p < 0x24 then p256 else p384

/-- The parameters of an ML-KEM operation. -/
def popKem (p : Nat) : Kem := if p < 0x44 then kem768 else kem1024

/-- Bytes of an encapsulation key. -/
def ekLen (k : Kem) : Nat := 384 * k.k + 32

/-- Bytes of a decapsulation key. -/
def dkLen (k : Kem) : Nat := 768 * k.k + 96

/-- Bytes of a ciphertext. -/
def ctLen (k : Kem) : Nat := 32 * (k.du * k.k + k.dv)

/-- The operation generates a key pair. -/
def popPair (p : Nat) : Bool := [0x20, 0x24, 0x30, 0x32, 0x40, 0x44].contains p

/-- The operation takes a private key that SLOTKEY may name. -/
def popPrivate (p : Nat) : Bool := [0x21, 0x23, 0x25, 0x27, 0x31, 0x33, 0x42, 0x46].contains p

/-- The key kinds numbered 1 to 6 in the order of R383. -/
def kindOf (n : Nat) : Option KeyKind :=
  match n with
  | 1 => some .p256
  | 2 => some .p384
  | 3 => some .x25519
  | 4 => some .ed25519
  | 5 => some .mlKem768
  | 6 => some .mlKem1024
  | _ => none

/-- Bytes of a private key of a kind (R383, R385). -/
def kindLen : KeyKind → Nat
  | .p384 => 48
  | .mlKem768 => dkLen kem768
  | .mlKem1024 => dkLen kem1024
  | _ => 32

/-- The kind of key that an operation generates or uses. -/
def popKind (p : Nat) : KeyKind :=
  if p < 0x24 then .p256 else if p < 0x30 then .p384 else if p < 0x32 then .x25519 else if p < 0x40 then .ed25519
  else if p < 0x44 then .mlKem768 else .mlKem1024

/-- ARGLEN is an input size that the operation takes (R382, R385). -/
def pkArgOk (d : Desc) (arg : List Byte) : Bool :=
  let p := pkPop d
  let n := dfld d 0x40 4
  let c := (popCurve p).len
  let own := fun k => if pkSlotKey d then 0 else k
  match p with
  | 0x10 | 0x11 => n == 32
  | 0x12 => n == 804 || n == 820 || n == 836
  | 0x13 => n == 1060 || n == 1076 || n == 1092
  | 0x21 | 0x25 => n == c + own c
  | 0x22 | 0x26 => n == 5 * c
  | 0x23 | 0x27 => n == 2 * c + own c
  | 0x31 => n == 32 + own 32
  | 0x33 => decide (own 32 ≤ n) && decide (n ≤ 4000 + own 32)
  | 0x34 => decide (96 ≤ n) && decide (n ≤ 4096)
  | 0x41 | 0x45 => n == ekLen (popKem p)
  | 0x42 | 0x46 => n == ctLen (popKem p)
  | 0x50 =>
    match kindOf (Config.slotKind (le arg 0 4)) with
    | some k => n == 4 + kindLen k
    | none => decide (36 ≤ n) && decide (n ≤ 3172)
  | _ => n == 0

/-- The bytes that an operation puts out (R385). -/
def pkOutSize (d : Desc) : Nat :=
  let p := pkPop d
  let c := (popCurve p).len
  let priv := fun k => if pkKeep d then 0 else k
  match p with
  | 0x01 => 32
  | 0x02 => 48
  | 0x03 => 64
  | 0x04 | 0x05 => pkOutLen d
  | 0x10 => 464
  | 0x11 => 592
  | 0x20 | 0x24 => 2 * c + priv c
  | 0x21 | 0x25 => 2 * c
  | 0x23 | 0x27 => c
  | 0x30 | 0x32 => 32 + priv 32
  | 0x31 => 32
  | 0x33 => 64
  | 0x40 | 0x44 => ekLen (popKem p) + priv (dkLen (popKem p))
  | 0x41 | 0x45 => ctLen (popKem p) + 32
  | 0x42 | 0x46 => 32
  | _ => 0

/-- PK: its acceptance checks (R382, R385). -/
def ownPk (d : Desc) (arg : List Byte) : Nat :=
  let p := pkPop d
  let f := dfld d 0x4A 1
  unlessOk (dfld d 0x30 8 == 0 && dfld d 0x44 4 == 0 && popListed p && dfld d 0x4C 4 == 0 && dfld d 0x6C 12 == 0 && decide (f < 4) &&
    (!(pkSlotKey d) || popPrivate p) && (!(pkKeep d) || popPair p) && (pkSlotKey d || !(p == 0x42 || p == 0x46)) &&
    decide (pkSlot d ≤ 15) && (!(popHash p) || decide (pkLen d ≤ 2 ^ 32)) && pkArgOk d arg && decide (pkOutSize d ≤ pkOutLen d) &&
    (!(p == 4 || p == 5) || (decide (1 ≤ pkOutLen d) && decide (pkOutLen d ≤ 65536)))) stBadOpcode

/-- The entry is a PK operation. -/
def isPk (e : Entry) : Bool := popTable.any (fun x => x.2 == e.row)

/-- Engine time in ns, by the operation and its lengths alone (R385, R386). -/
def pkTime (d : Desc) : Nat :=
  let n := pkLen d
  match pkPop d with
  | 0x01 => 1000 + 32 * ((n + 8) / 64 + 1)
  | 0x02 | 0x03 => 1000 + 40 * ((n + 16) / 128 + 1)
  | 0x04 => 1000 + 24 * (n / 168 + 1 + cdiv (pkOutLen d) 168)
  | 0x05 => 1000 + 24 * (n / 136 + 1 + cdiv (pkOutLen d) 136)
  | 0x10 => 1400000
  | 0x11 => 3100000
  | 0x12 => 35000
  | 0x13 => 60000
  | 0x20 => 95000
  | 0x24 => 210000
  | 0x21 => 190000
  | 0x25 => 420000
  | 0x22 => 110000
  | 0x26 => 250000
  | 0x23 => 110000
  | 0x27 => 240000
  | 0x30 | 0x31 => 80000
  | 0x32 => 70000
  | 0x33 => 150000 + 60 * cdiv (dfld d 0x40 4 - if pkSlotKey d then 0 else 32) 128
  | 0x34 => 95000 + 20 * cdiv (dfld d 0x40 4 - 96) 128
  | 0x40 => 45000
  | 0x44 => 70000
  | 0x41 => 55000
  | 0x45 => 80000
  | 0x42 => 65000
  | 0x46 => 95000
  | 0x50 => 5000
  | _ => 1000

/-- The operation is long (R384). -/
def pkLong (d : Desc) : Bool := decide (200000 < pkTime d)

/-- What an operation releases: its status, its output, and the key for its slot. -/
structure PkOut where
  st   : Nat
  out  : List Byte
  slot : Option SlotKey

/-- A failure. -/
def pkFail (st : Nat) : PkOut := { st := st, out := [], slot := none }

/-- An output. -/
def pkGives (out : List Byte) : PkOut := { st := stOk, out := out, slot := none }

/-- An output unless a check fails, in the order of R386. -/
def pkChecked (checks : List Nat) (out : List Byte) : PkOut :=
  let r := firstBad checks
  if r = 0 then pkGives out else pkFail r

/-- The private key of an operation: from its slot, or the last `n` bytes of its inputs; none where the slot holds none of the
kind (R383). -/
def pkPrivate (s : State) (e : Entry) (n : Nat) : Option (List Byte) :=
  if pkSlotKey e.desc then
    match ((s.pke.slots.get (e.tag % 4096) []).find (pkSlot e.desc)) with
    | some k => if k.kind = popKind (pkPop e.desc) then some k.key else none
    | none => none
  else some (e.arg.drop (e.arg.length - n))

/-- A generated key pair: the private key goes to the slot under KEEP and follows the public key otherwise (R382). -/
def pkPairOut (d : Desc) (pub priv : List Byte) : PkOut :=
  if pkKeep d then { st := stOk, out := pub, slot := some { kind := popKind (pkPop d), key := priv } } else pkGives (pub ++ priv)

/-- The hash operations. -/
def pkHash (d : Desc) (m : List Byte) : PkOut :=
  match pkPop d with
  | 1 => pkGives (sha256 m)
  | 2 => pkGives (sha384 m)
  | 3 => pkGives (sha512 m)
  | 4 => pkGives (shake128 (pkOutLen d) m)
  | _ => pkGives (shake256 (pkOutLen d) m)

/-- A quote under IDK-3072 or IDK-4096 (R385, R388). -/
def pkQuote (s : State) (e : Entry) (salt : List Byte) : PkOut :=
  let big := pkPop e.desc == 0x11
  let body := leBytes 4 0x54514749 ++ leBytes 1 (b2n big) ++ leBytes 3 0 ++ leBytes 8 s.mgt.fuses.serial ++ e.arg.take 32 ++ mdigest s
  let k := if big then Config.idk4096 (burnedWords s.mgt.fuses 9) else Config.idk3072 (burnedWords s.mgt.fuses 8)
  pkGives (body ++ pssSign (if big then 512 else 384) k.1 k.2.2 (sha256 body) salt)

/-- An RSA-PSS verification (R386). -/
def pkRsaVerify (e : Entry) : PkOut :=
  let len := if pkPop e.desc = 0x12 then 384 else 512
  let m := beNat (e.arg.take len)
  let x := beNat (sub e.arg len 4)
  let sig := sub e.arg (len + 4) len
  let h := e.arg.drop (2 * len + 4)
  let v := beNat sig
  pkChecked [unlessOk (m % 2 == 1 && m.testBit (8 * len - 1) && x % 2 == 1 && decide (3 ≤ x) && v != 0 && decide (v < m)) stInputRange,
    unlessOk (pssVerify len h.length m x h sig) stVerifyFail] []

/-- ECDSA signing (R386). -/
def pkEcSign (s : State) (e : Entry) : PkOut :=
  let c := popCurve (pkPop e.desc)
  match pkPrivate s e c.len with
  | none => pkFail stInputRange
  | some k =>
    let d := beNat k
    pkChecked [unlessOk (decide (d < c.n)) stInputRange, unlessOk (d != 0) stScalarZero] (ecdsaSign c d (e.arg.take c.len))

/-- ECDSA verification (R386). -/
def pkEcVerify (e : Entry) : PkOut :=
  let c := popCurve (pkPop e.desc)
  let (x, y) := ptOf c e.arg
  let h := sub e.arg (2 * c.len) c.len
  let r := beNat (sub e.arg (3 * c.len) c.len)
  let t := beNat (sub e.arg (4 * c.len) c.len)
  pkChecked [unlessOk (decide (x < c.p) && decide (y < c.p) && decide (r < c.n) && decide (t < c.n)) stInputRange,
    unlessOk (onCurve c x y) stPointInvalid, unlessOk (r != 0 && t != 0) stScalarZero,
    unlessOk (ecdsaOk c (some (x, y)) h r t) stVerifyFail] []

/-- ECDH (R386). -/
def pkEcdh (s : State) (e : Entry) : PkOut :=
  let c := popCurve (pkPop e.desc)
  match pkPrivate s e c.len with
  | none => pkFail stInputRange
  | some k =>
    let d := beNat k
    let (x, y) := ptOf c e.arg
    let z := ecMul c d (some (x, y))
    pkChecked [unlessOk (decide (x < c.p) && decide (y < c.p) && decide (d < c.n)) stInputRange,
      unlessOk (onCurve c x y) stPointInvalid, unlessOk (d != 0) stScalarZero, unlessOk z.isSome stPointInvalid] (beBytes c.len (ptX z))

/-- X25519 (R386). -/
def pkX25519 (s : State) (e : Entry) : PkOut :=
  match pkPrivate s e 32 with
  | none => pkFail stInputRange
  | some k =>
    let z := x25519 k (e.arg.take 32)
    pkChecked [unlessOk (!(zeros z)) stPointInvalid] z

/-- Ed25519 signing. -/
def pkEdSign (s : State) (e : Entry) : PkOut :=
  match pkPrivate s e 32 with
  | none => pkFail stInputRange
  | some k => pkGives (edSign k (e.arg.take (e.arg.length - if pkSlotKey e.desc then 0 else 32)))

/-- Ed25519 verification (R386). -/
def pkEdVerify (e : Entry) : PkOut :=
  let pub := e.arg.take 32
  let rb := sub e.arg 32 32
  let t := leNat (sub e.arg 64 32)
  match edDecode pub, edDecode rb with
  | some a, some r => pkChecked [unlessOk (decide (t < edL)) stInputRange, unlessOk (edOk pub a r rb t (e.arg.drop 96)) stVerifyFail] []
  | _, _ => pkFail (if t < edL then stPointInvalid else stInputRange)

/-- ML-KEM encapsulation (R386, R387). -/
def pkEncaps (e : Entry) (m : List Byte) : PkOut :=
  let k := popKem (pkPop e.desc)
  if !(kemKeyOk k e.arg) then pkFail stInputRange
  else
    match kemEncaps k e.arg m with
    | none => pkFail stExpansionShort
    | some (c, z) => pkGives (c ++ z)

/-- ML-KEM decapsulation (R386, R387). -/
def pkDecaps (s : State) (e : Entry) : PkOut :=
  let k := popKem (pkPop e.desc)
  match pkPrivate s e 0 with
  | none => pkFail stInputRange
  | some dk =>
    if !(kemSecretOk k dk) then pkFail stInputRange
    else
      match kemDecaps k dk e.arg with
      | none => pkFail stExpansionShort
      | some z => pkGives z

/-- The input checks of a private key that is loaded (R385, R386). -/
def keyChecks_ (k : KeyKind) (b : List Byte) : Nat :=
  match k with
  | .p256 => firstBad [unlessOk (decide (beNat b < p256.n)) stInputRange, unlessOk (beNat b != 0) stScalarZero]
  | .p384 => firstBad [unlessOk (decide (beNat b < p384.n)) stInputRange, unlessOk (beNat b != 0) stScalarZero]
  | .x25519 | .ed25519 => stOk
  | .mlKem768 => unlessOk (kemSecretOk kem768 b) stInputRange
  | .mlKem1024 => unlessOk (kemSecretOk kem1024 b) stInputRange

/-- SLOT_LOAD (R383, R385). -/
def pkLoad (e : Entry) : PkOut :=
  match kindOf (Config.slotKind (le e.arg 0 4)) with
  | none => pkFail stInputRange
  | some k =>
    let b := e.arg.drop 4
    let r := keyChecks_ k b
    if r = 0 then { st := stOk, out := [], slot := some { kind := k, key := b } } else pkFail r

/-- A key pair from random bytes (R385). -/
def pkGenerate (d : Desc) (r : List Byte) : PkOut :=
  let p := pkPop d
  let c := popCurve p
  match p with
  | 0x20 | 0x24 =>
    let k := beNat r % (c.n - 1) + 1
    pkPairOut d (ptBytes c (ecMul c k (ecBase c))) (beBytes c.len k)
  | 0x30 => pkPairOut d (x25519 (r.take 32) x25519Base) (r.take 32)
  | 0x32 => pkPairOut d (edPublic (r.take 32)) (r.take 32)
  | _ =>
    match kemKeys (popKem p) (r.take 32) (sub r 32 32) with
    | none => pkFail stExpansionShort
    | some (ek, dk) => pkPairOut d ek dk

/-- What an operation computes from its inputs, the bytes at DATA and random bytes. -/
def pkCompute (s : State) (e : Entry) (m r : List Byte) : PkOut :=
  match pkPop e.desc with
  | 0x10 | 0x11 => pkQuote s e (r.take 32)
  | 0x12 | 0x13 => pkRsaVerify e
  | 0x21 | 0x25 => pkEcSign s e
  | 0x22 | 0x26 => pkEcVerify e
  | 0x23 | 0x27 => pkEcdh s e
  | 0x31 => pkX25519 s e
  | 0x33 => pkEdSign s e
  | 0x34 => pkEdVerify e
  | 0x41 | 0x45 => pkEncaps e (r.take 32)
  | 0x42 | 0x46 => pkDecaps s e
  | 0x50 => pkLoad e
  | 0x51 => pkGives []
  | p => if popHash p then pkHash e.desc m else pkGenerate e.desc r

/-- The operation and the bytes at DATA: none while device memory must be waited for; otherwise the state and the status of the
read with its bytes (R290, R346). -/
def pkInput (s : State) (e : Entry) (data : HostData) : Option (State × Nat × List Byte) :=
  let a := pkData e.desc
  if !(popHash (pkPop e.desc)) || pkLen e.desc == 0 then some (s, stOk, [])
  else if bitAt a 63 then
    match data with
    | none => some (s, stHostAbort, [])
    | some b => some (s, stOk, b)
  else
    match readAll s (partOfFn s e.fn) e.handle [(a, pkLen e.desc)] with
    | .wait => none
    | .got s none => some (s, stObjectLost, [])
    | .got s (some b) => some (s, stOk, b.headD [])

/-- The host region that covers a host address of a PK descriptor (R316, R382). -/
def pkHostRegion (rs : List Region) (a n : Nat) : Option Region :=
  rs.find? (fun r => r.host && within (a % 2 ^ 63) n r.base r.len)

/-- A range of a PK descriptor lies in a region of the session (R382). -/
def pkRangeOk (rs : List Region) (a n : Nat) : Bool :=
  n == 0 || (if bitAt a 63 then (pkHostRegion rs a n).isSome else inRegion rs a n)

/-- Release: the output at OUT, the key in its slot, the COMPLETE entry with the output's length (R382, R383). -/
def pkRelease (s : State) (e : Entry) (o : PkOut) : State :=
  let o := if bitAt (pkOut e.desc) 63 && !o.out.isEmpty && !(linkOpen s e.fn) then pkFail stHostAbort else o
  let n := e.tag % 4096
  let slots := s.pke.slots.get n []
  let slots := match o.slot with
    | some k => slots.put (pkSlot e.desc) k
    | none => if e.row = "SLOT_CLEAR" then slots.del (pkSlot e.desc) else slots
  let a := pkOut e.desc
  let s := { s with pke := { s.pke with slots := s.pke.slots.put n slots, ops := (s.pke.ops + 1) % 2 ^ 64 } }
  let s := if o.out.isEmpty then s
    else if bitAt a 63 then
      match pkHostRegion e.regions a o.out.length with
      | none => s
      | some r => hostPut s (hostKey r.pasid 0) [(a % 2 ^ 63, o.out)]
    else devWrite s (partOfFn s e.fn) e.handle a o.out
  complete s e.handle o.st (if o.st = 0 then o.out.length else 0) none false

/-- The release must wait: its output goes to device memory, an access of the urgent class (R247). -/
def pkOutWaits (s : State) (e : Entry) (o : PkOut) : Bool :=
  !(o.out.isEmpty) && !(bitAt (pkOut e.desc) 63) && urgentWaits s (partOfFn s e.fn)

/-- The reruns of an operation (R335, R388, R392). -/
def pkReruns (s : State) (e : Entry) (n : Nat) : State :=
  let s := noteReruns s e 0x32 n
  { s with pke := { s.pke with reruns := Nat.min (s.pke.reruns + n) 0xFFFFFFFF } }

/-- One operation is taken: after 4 failed checks in a row the engine resets, and the management core restarts as for its parity
(R388); otherwise a short one runs to its release and a long one begins. None while device memory must be waited for. -/
def pkTake (s : State) (e : Entry) (data : HostData) (fails : Nat) : Option State :=
  if isStale s e then some (endStale s e)
  else if 4 ≤ fails then some (mcRestartNow (logFault (pkReruns s e 4) 0x31 6 0xFF 0xFF 0xFFFF 0xFF 0 0) 0x31)
  else
    match pkInput s e (linkData s e.fn data) with
    | none => none
    | some (s, st, m) =>
      if st = stObjectLost then some s
      else
        let s := pkReruns s e fails
        let (r, s) := drawBytes s 64
        let o := if st = 0 then pkCompute s e m r else pkFail st
        if pkLong e.desc then
          let s := setEntry s { e with state := .running, replayed := e.replayed || decide (0 < fails) }
          some { s with pke := { s.pke with long := some { handle := e.handle, done := 0, total := pkTime e.desc, status := o.st,
                                                           output := o.out, slot := o.slot } } }
        else if pkOutWaits s e o then none else some (pkRelease s e o)

/-- The waiting short operations, then the waiting long ones, each in the order of R309 (R384). -/
def pkWaiting (s : State) : List Entry :=
  readyOrder s (fun e => isPk e && !(pkLong e.desc)) ++ readyOrder s (fun e => isPk e && pkLong e.desc)

/-- PKE_OP_START: the engine is free and takes the next operation, with the bytes that a host read of DATA returned and the number
of its checks that failed (R309, R327, R384, R388). -/
def execPkeOpStart (data : HostData) (fails : Nat) (s : State) : Res :=
  if s.pke.long.isSome || !(domainRuns s 1) || s.flt.mcRestarting then no "PKE_OP_START"
  else
    match pkWaiting s with
    | [] => no "PKE_OP_START"
    | e :: _ =>
      match pkTake s e data fails with
      | none => no "PKE_OP_START"
      | some t => .next t

/-- Up to `n` waiting short operations run, with what `ops` gives each (R384). -/
def pkShorts : Nat → List (HostData × Nat) → State → Option State
  | 0, _, s => some s
  | n + 1, ops, s =>
    match readyOrder s (fun e => isPk e && !(pkLong e.desc)) with
    | [] => some s
    | e :: _ =>
      if s.flt.mcRestarting then some s
      else
        let (data, fails) := ops.headD (some [], 0)
        match pkTake s e data fails with
        | none => none
        | some t => pkShorts n ops.tail t

/-- PKE_YIELD_POINT: the long operation has run 50 µs more and lets up to 4 waiting short operations run, or it has run its whole
engine time and is released (R384). -/
def execPkeYieldPoint (ops : List (HostData × Nat)) (s : State) : Res :=
  match s.pke.long with
  | none => no "PKE_YIELD_POINT"
  | some r =>
    if !(domainRuns s 1) || s.flt.mcRestarting then no "PKE_YIELD_POINT"
    else if r.total ≤ r.done + 50000 then
      let s := { s with pke := { s.pke with long := none } }
      match entryOf s r.handle with
      | none => .next s
      | some e =>
        let o : PkOut := { st := r.status, out := r.output, slot := r.slot }
        if pkOutWaits s e o then no "PKE_YIELD_POINT" else .next (pkRelease s e o)
    else
      match pkShorts 4 ops { s with pke := { s.pke with long := some { r with done := r.done + 50000 } } } with
      | none => no "PKE_YIELD_POINT"
      | some t => .next t

end Sys2Proof.Machine
end

