-- ==== Sys2Proof/Machine/Accept.lean ====
section
/-! DEFINITION. The acceptance of a submission descriptor: sequence, the checks of R282, dependencies (R306, R431), the scoreboard entry,
and FENCE, CANCEL and QUERY (R279 to R297, R304 to R307). -/

namespace Sys2Proof.Machine

/-- OPCODE. -/
def sdOpcode (d : Desc) : Nat := dfld d 0 1
/-- FLAGS. -/
def sdFlags (d : Desc) : Nat := dfld d 1 1
/-- SEQ. -/
def sdSeq (d : Desc) : Nat := dfld d 4 4
/-- SESSION. -/
def sdTag (d : Desc) : Nat := dfld d 8 4
/-- DEP0 to DEP3, as many as DEPS gives. -/
def sdDeps (d : Desc) : List Nat := (List.range (dfld d 3 1)).map (fun i => dfld d (0x10 + 8 * i) 8)
/-- ARG. -/
def sdArg (d : Desc) : Nat := dfld d 0x38 8
/-- ARGLEN. -/
def sdArgLen (d : Desc) : Nat := dfld d 0x40 4
/-- The target handle of a CANCEL or a QUERY. -/
def sdTarget (d : Desc) : Nat := dfld d 0x48 8

/-- The rows of the macros by MCODE (R217). -/
def macroRow (m : Nat) : String :=
  match m with
  | 2 => "SWITCH_TO_LWE"
  | 3 => "REPACK"
  | 4 => "PBS"
  | 5 => "KEYSWITCH"
  | 6 => "ROTATE_MANY"
  | 7 => "RESCALE"
  | 8 => "MPC_TRUNC"
  | 9 => "MPC_COMPARE"
  | _ => "REFRESH"

/-- The rows of the SESSION operations by SOP (R313). -/
def sopRow (n : Nat) : String :=
  match n with
  | 2 => "CLOSE"
  | 3 => "LOAD_PSET"
  | 4 => "UNLOAD_PSET"
  | 5 => "ADD_REGION"
  | 6 => "REMOVE_REGION"
  | 7 => "POLICY"
  | _ => "OPEN"

/-- The rows of the PK operations by POP (R385). -/
def popRow (p : Nat) : String :=
  match popTable.find? (fun x => x.1 == p) with
  | some x => x.2
  | none => "SHA_256"

/-- The row of a descriptor; one whose opcode or operation is not listed, which acceptance refuses, counts as the first row of its
kind. -/
def rowOf (d : Desc) : String :=
  match sdOpcode d with
  | 2 => macroRow (mcCode d)
  | 3 => "MOVE"
  | 4 => popRow (pkPop d)
  | 5 => "FENCE"
  | 6 => "CANCEL"
  | 7 => "QUERY"
  | 8 => sopRow (ssSop d)
  | 9 => if xgDir d = 2 then "IMPORT" else "EXPORT"
  | _ => "TASK"

/-- The descriptor opens a session. -/
def opensSession (d : Desc) : Bool := sdOpcode d == 8 && ssSop d == 1

/-- (a − b) mod 2^32. -/
def seqDiff (a b : Nat) : Nat := (a % 2 ^ 32 + 2 ^ 32 - b % 2 ^ 32) % 2 ^ 32

/-- A descriptor of the ring may be fetched now (R277, R279, R288, R290, R301, R302, R343). -/
def mayFetch (s : State) (fn g : Nat) : Bool :=
  let q := sqOf s g
  let lag := seqDiff q.tail q.expect
  fnReach s fn && domainRuns s 3 && q.enabled && !q.halted && !q.stopped && decide (1 ≤ lag) && decide (lag < 2 ^ 31) &&
    (cfgOf s fn).busMaster && linkOpen s fn && !s.flt.mcRestarting && !(pageOf s fn).paused && (cqOf s q.cq).enabled &&
    decide (2 ≤ cqFree (cqOf s q.cq))

/-- How R306 judges a dependency. -/
inductive Judged where
  | pending
  | satisfied
  | failed
  deriving DecidableEq, Repr

/-- Judgement of a handle at acceptance, before E increases (R306). -/
def judge (s : State) (h : Nat) : Judged :=
  let q := sqOf s (h / 2 ^ 52)
  let ep := (h / 2 ^ 32) % 2 ^ 20
  let seq := h % 2 ^ 32
  let age := seqDiff q.expect seq
  let later := (ep + 2 ^ 20 - q.epoch) % 2 ^ 20
  if (entryOf s h).isSome then .pending
  else if ep = q.epoch ∧ 1 ≤ age ∧ age ≤ q.outcome.length then
    match q.outcome.find? (fun o => o.seq == seq) with
    | some o => if o.taken && o.result == some true then .satisfied else .failed
    | none => .failed
  else if (ep = q.epoch ∧ seqDiff seq q.expect < 2 ^ 31) ∨ (1 ≤ later ∧ later < 2 ^ 19) then .failed
  else .satisfied

/-- The handles of a set that are pending. -/
def pendingOf (s : State) (l : List Nat) : List Nat := l.filter (fun h => judge s h == .pending)

/-- How many handles of a set are judged failed. -/
def failedOf (s : State) (l : List Nat) : Nat := (l.filter (fun h => judge s h == .failed)).length

/-- A FENCE has SCOPE = 1. -/
def fenceWide (d : Desc) : Bool := bitAt (sdFlags d) 1

/-- The handles that a ring's outcome record keeps of accepted descriptors. -/
def recorded (s : State) (p : Outcome → Bool) : List Nat :=
  (s.hi.sqs.map (fun r => (r.2.outcome.filter (fun o => o.taken && p o)).map (fun o => handleOf r.1 r.2.epoch o.seq))).flatten

/-- The acceptance number after which the scope of a FENCE begins (R431). -/
def scopeFrom (s : State) (g tag : Nat) (wide : Bool) : Nat :=
  if wide then s.ts.fences.get tag 0
  else
    match s.ts.fences.find (2 ^ 32 + g) with
    | some n => n
    | none => (sqOf s g).enabledAt

/-- The handles in the scope of a FENCE that can be pending or failed: those held, and those in an outcome record (R431). -/
def scopeOf (s : State) (g tag : Nat) (wide : Bool) : List Nat :=
  let lo := scopeFrom s g tag wide
  let mine := fun (h t : Nat) => if wide then t == tag else h / 2 ^ 52 == g
  let held := (s.ts.entries.filter (fun e => mine e.handle e.tag && decide (lo < e.no))).map (fun e => e.handle)
  let past := (recorded s (fun o => decide (lo < o.no) && (!wide || o.tag == tag))).filter (fun h => wide || h / 2 ^ 52 == g)
  union held past

/-- The FENCE becomes the last of its ring, and under SCOPE = 1 of its session (R431). -/
def stampFence (s : State) (g tag no : Nat) (wide : Bool) : State :=
  let f := s.ts.fences.put (2 ^ 32 + g) no
  { s with ts := { s.ts with fences := if wide then f.put tag no else f } }

/-- Check 1 of R282. -/
def checkForm (d : Desc) : Bool :=
  decide (1 ≤ sdOpcode d) && decide (sdOpcode d ≤ 9) && decide (sdFlags d < 8) && (sdOpcode d == 5 || decide (sdFlags d < 2)) &&
    decide (dfld d 2 1 ≤ 7) && decide (dfld d 3 1 ≤ 4) && decide (sdArgLen d ≤ 4096)

/-- The global ring belongs to the function. -/
def ownsRing (s : State) (fn g : Nat) : Bool :=
  let r := fnRecOf s fn
  r.present && decide (r.sqBase ≤ g) && decide (g < r.sqBase + r.sqCount)

/-- Check 3 of R282, with R322's PK bit, and no session opened under diagnostic unlock (R376). -/
def checkRight (s : State) (fn : Nat) (d : Desc) : Bool :=
  (sdOpcode d != 4 || (fnRecOf s fn).pk) && !(opensSession d && s.mgt.diag.isSome) &&
    (sdDeps d).all (fun h => ownsRing s fn (h / 2 ^ 52))

/-- The held entries of a session. -/
def tagEntries (s : State) (tag : Nat) : Nat := (s.ts.entries.filter (fun e => e.tag == tag)).length

/-- Checks 1 to 5 of R282, and 0x07FF on an unrecoverable device (R347). -/
def checkFirst (s : State) (fn : Nat) (x : Option Session) (d : Desc) : Nat :=
  if s.flt.unrecoverable then stUnrecoverable
  else firstBad [unlessOk (checkForm d) stBadOpcode, unlessOk (opensSession d || x.isSome) stSessionInvalid,
    unlessOk (checkRight s fn d) stPermission, unlessOk (dfld d 0x0C 4 == 0 || dfld d 0x0C 4 == s.ts.bundle.version) stConfigStale,
    unlessOk (match x with
      | some y => decide (tagEntries s (sdTag d) < y.qEntries) || opensSession d
      | none => true) stQuota]

/-- The argument block: the bytes that the host read returned, or those read of device memory (check 6 of R282). -/
inductive ArgRead where
  | wait
  | done (s : State) (st : Nat) (b : List Byte)

/-- Check 6 of R282. -/
def readArg (s : State) (part h : Nat) (rs : List Region) (d : Desc) (arg : HostData) : ArgRead :=
  let n := sdArgLen d
  if n = 0 then .done s stOk []
  else if bitAt (sdArg d) 63 then
    match arg with
    | none => .done s stHostAbort []
    | some b => .done s stOk (b.take n ++ List.replicate (n - b.length) 0)
  else if !(inRegion rs (sdArg d) n) then .done s stDescRange []
  else
    match readAll s part h [(sdArg d, n)] with
    | .wait => .wait
    | .got s none => .done s stObjectLost []
    | .got s (some b) => .done s stOk (b.headD [])

/-- The form of a FENCE (R295). -/
def fenceFormOk (d : Desc) : Bool :=
  dfld d 0x30 8 == 0 && sdArg d == 0 && sdArgLen d == 0 && dfld d 0x44 4 == 0 && dfld d 0x48 48 == 0

/-- The form of a CANCEL or QUERY (R296, R297). -/
def targetFormOk (d : Desc) : Bool :=
  dfld d 0x30 8 == 0 && sdArg d == 0 && sdArgLen d == 0 && dfld d 0x44 4 == 0 && dfld d 0x50 40 == 0

/-- Check 7 of R282: the opcode's own checks. -/
def checkOwn (s : State) (fn part : Nat) (x : Option Session) (rs : List Region) (d : Desc) (arg : List Byte) : Own :=
  let st := fun n => Own.done s n none
  match sdOpcode d with
  | 1 => ownTask s part rs d
  | 2 => ownMacro s part x rs d arg
  | 3 => st (ownMove rs d arg)
  | 4 => st (ownPk d arg)
  | 5 => st (unlessOk (fenceFormOk d) stBadOpcode)
  | 8 => st (ownSession x rs d)
  | 9 => st (ownExchange rs d)
  | _ => st (firstBad [unlessOk (targetFormOk d) stBadOpcode, unlessOk (ownsRing s fn (sdTarget d / 2 ^ 52)) stPermission])

/-- What acceptance finds of a descriptor: a wait for device memory, or its status, argument and image. -/
inductive Found where
  | wait
  | done (s : State) (st : Nat) (arg : List Byte) (img : Option Image)

/-- The checks of R282 in their order. -/
def checkAll (s : State) (fn h : Nat) (x : Option Session) (rs : List Region) (d : Desc) (arg : HostData) : Found :=
  let part := partOfFn s fn
  let st := checkFirst s fn x d
  if st ≠ 0 then .done s st [] none
  else
    match readArg s part h rs d arg with
    | .wait => .wait
    | .done s st b =>
      if st ≠ 0 then .done s st [] none
      else
        match checkOwn s fn part x rs d b with
        | .wait => .wait
        | .done s st img => .done s st b img

/-- Work that runs after all earlier work of its session (R314). -/
def afterEarlier (row : String) : Bool := row == "CLOSE" || row == "UNLOAD_PSET" || row == "REMOVE_REGION"

/-- FENCE, CANCEL and QUERY, which complete in the scheduler and pass a barrier (R295, R308). -/
def inScheduler (row : String) : Bool := row == "FENCE" || row == "CANCEL" || row == "QUERY"

/-- The open barriers of a ring (R295). -/
def barriersOf (s : State) (g : Nat) : List Nat :=
  (s.ts.entries.filter (fun e => e.row == "FENCE" && bitAt (sdFlags e.desc) 2 && e.handle / 2 ^ 52 == g)).map (fun e => e.handle)

/-- The scoreboard entry of a descriptor accepted with 0x0000, its dependencies judged (R304, R306, R431). -/
def newEntry (s : State) (fn g h tag : Nat) (rs : List Region) (d : Desc) (arg : List Byte) (img : Option Image) : Entry :=
  let row := rowOf d
  let deps := (sdDeps d).eraseDups
  let scope := if row = "FENCE" then (scopeOf s g tag (fenceWide d)).filter (fun k => !(deps.contains k)) else []
  { handle := h, fn := fn, tag := tag, row := row, desc := d, arg := arg, version := s.ts.bundle.version, state := .waiting,
    deps := pendingOf s deps, scope := pendingOf s scope, failed := failedOf s deps + failedOf s scope,
    barriers := if inScheduler row then [] else barriersOf s g, no := s.ts.accepts + 1, acceptAt := s.time, readyAt := 0, boost := 0,
    replayed := false, cq := (sqOf s g).cq, image := img, headers := [], finals := [], prevGen := [],
    before := if afterEarlier row then (s.ts.entries.filter (fun e => e.tag == tag)).map (fun e => e.handle) else [],
    regions := rs }

/-- E increases, and the outcome record takes the descriptor (R279, R306). -/
def consumeSeq (s : State) (g tag : Nat) (taken : Bool) : State :=
  let q := sqOf s g
  let o : Outcome := { seq := q.expect, no := s.ts.accepts + 1, tag := tag, taken := taken, result := if taken then none else some false }
  let s := setSq s g { q with expect := (q.expect + 1) % 2 ^ 32, outcome := (o :: q.outcome).take (2 ^ q.slots),
                              consumed := q.consumed + 1 }
  { s with ts := { s.ts with accepts := s.ts.accepts + 1 } }

/-- The ACCEPT entry (R282, R285). -/
def postAccept (s : State) (g h st : Nat) (d : Desc) : State :=
  postEntry s (sqOf s g).cq
    { entry := entryBytes 1 0 st 0 h s.time (dfld d 0x78 8), detail := [], noirq := (sdFlags d).testBit 0, notice := false,
      done := none }

/-- The entry joins the scoreboard and its COMPLETE entry's place is reserved (R288, R304). -/
def insertEntry (s : State) (e : Entry) : State :=
  let c := cqOf s e.cq
  let s := setCq s e.cq { c with reserved := c.reserved + 1 }
  { s with ts := { s.ts with entries := s.ts.entries ++ [e] } }

/-- The target was consumed on the current epoch and is not known to have been refused (R296, R297); of a descriptor older than the
outcome record the ring no longer knows a refusal (DEDUCED, log 46). -/
def wasAccepted (s : State) (h : Nat) : Bool :=
  let q := sqOf s (h / 2 ^ 52)
  let age := seqDiff q.expect (h % 2 ^ 32)
  (h / 2 ^ 32) % 2 ^ 20 == q.epoch && decide (1 ≤ age) && decide (age ≤ q.consumed) &&
    (match q.outcome.find? (fun o => o.seq == h % 2 ^ 32) with
      | some o => o.taken
      | none => true)

/-- A handle is of its ring's current epoch; one from before a write of HI_SQ_RESET is on another (R284, R296, R297). -/
def onEpoch (s : State) (h : Nat) : Bool := (h / 2 ^ 32) % 2 ^ 20 == (sqOf s (h / 2 ^ 52)).epoch

/-- What a CANCEL does to its target, and its INFO (R296). A task that is dispatched and has not started on any tile leaves its destination
headers not-VALID too; one that waits for its replay carries REPLAYED (R350). -/
def cancelTarget (s : State) (self h : Nat) : State × Nat :=
  match entryOf s h with
  | none => (s, if wasAccepted s h then 2 else 3)
  | some e =>
    if !(onEpoch s h) then (s, 3)
    else if h = self ∨ e.state = .completing then (s, 2)
    else if e.state = .waiting ∨ e.state = .ready then (endUnrun s e stCancelled, 0)
    else if isTransfer e then (endTransfer (spoilTransfer s e) h stCancelled, 1)
    else
      match groupOf s h with
      | none => (s, 2)
      | some g =>
        let s := match e.image with
          | some i => if e.prevGen.isEmpty then clearNow s g e i else s
          | none => s
        let s := if g.fault.isSome then setEntry s { e with replayed := true } else s
        (abortTask s h stCancelled none, 1)

/-- The state code of a held entry (R297); work that has ended while its COMPLETE entry waits counts as RUNNING (DEDUCED, log 46). -/
def stateCode (s : State) (e : Entry) : Nat :=
  match e.state with
  | .waiting => 1
  | .ready => 2
  | .replaying => 4
  | .completing => 3
  | .running =>
    match groupOf s e.handle with
    | some g => if g.fault.isSome then 4 else 3
    | none => 3

/-- INFO of a QUERY (R297). -/
def queryInfo (s : State) (self h : Nat) : Nat :=
  match entryOf s h with
  | none => if wasAccepted s h then 5 else 0
  | some e => if !(onEpoch s h) then 0 else if h = self then 3 else stateCode s e

/-- CANCEL and QUERY with every dependency settled (R296, R297, R307). -/
def runDirect (s : State) (e : Entry) : State :=
  if 0 < e.failed then complete s e.handle stDependencyFailed 0 none false
  else if e.row = "CANCEL" then
    let (s, info) := cancelTarget s e.handle (sdTarget e.desc)
    complete s e.handle stOk info none false
  else complete s e.handle stOk (queryInfo s e.handle (sdTarget e.desc)) none false

/-- What an acceptance with 0x0000 brings about: the entry, what it changes at once, and the run of a CANCEL or QUERY that waits for
nothing. -/
def take0 (s : State) (g tag : Nat) (e : Entry) : State :=
  let s := insertEntry s e
  let s := if sdOpcode e.desc = 8 then acceptSession s tag e.desc else s
  let s := if e.row = "FENCE" then stampFence s g tag e.no (fenceWide e.desc) else s
  if (e.row == "CANCEL" || e.row == "QUERY") && e.deps.isEmpty then runDirect s e else s

/-- One descriptor with the expected SEQ is validated, given a handle and acknowledged (R279, R282 to R284). -/
def acceptOne (row : String) (fn g : Nat) (d : Desc) (arg : HostData) (s : State) : Res :=
  let q := sqOf s g
  let h := handleOf g q.epoch q.expect
  let tag := if opensSession d then 0 else sdTag d
  let x := if opensSession d then none else sessionOf s fn tag
  let rs := match x with
    | some y => y.regions.filter (fun r => !r.removed)
    | none => []
  match checkAll s fn h x rs d arg with
  | .wait => no row
  | .done s1 st b img =>
    let e := newEntry s1 fn g h tag rs d b img
    let s2 := postAccept (consumeSeq s1 g tag (st == 0)) g h st d
    .next (if st = 0 then take0 s2 g tag e else s2)

/-- A fetched descriptor of a ring: refused fetching while the scoreboard is full, then judged by its SEQ (R279, R305). -/
def consume (row : String) (fn ring : Nat) (d : Desc) (arg : HostData) (s : State) : Res :=
  match sqGlobal s fn ring with
  | none => no row
  | some g =>
    if !(mayFetch s fn g) || rowOf d != row then no row
    else if boardFull s fn then .next (tsEvent (setPage s fn { pageOf s fn with paused := true }) 6)
    else
      let q := sqOf s g
      let k := seqDiff (sdSeq d) q.expect
      if k = 0 then acceptOne row fn g d arg s
      else if k < 2 ^ 31 then .next (haltSq s fn g stRingSeqGap)
      else
        let p := pageOf s fn
        .next (setPage (setSq s g { q with stopped := true }) fn { p with dup := satInc p.dup 0xFFFFFFFF })

/-- FENCE_COMPLETE: every dependency and every handle of the scope has completed (R295). -/
def execFenceComplete (h : Nat) (s : State) : Res :=
  match entryOf s h with
  | none => no "FENCE_COMPLETE"
  | some e =>
    if e.row == "FENCE" && e.state != .completing && e.deps.isEmpty && e.scope.isEmpty && domainRuns s 3 then
      .next (complete s h (if e.failed = 0 then stOk else stDependencyFailed) (Nat.min e.failed 0xFFFFFFFF) none false)
    else no "FENCE_COMPLETE"

/-- A descriptor of TASK is fetched: its acceptance (R118, R279, R282). -/
def execTask (fn ring : Nat) (d : Desc) (arg : HostData) (s : State) : Res := consume "TASK" fn ring d arg s

/-- A descriptor of REFRESH is fetched: its acceptance (R222, R279, R282). -/
def execRefresh (fn ring : Nat) (d : Desc) (arg : HostData) (s : State) : Res := consume "REFRESH" fn ring d arg s

/-- A descriptor of SWITCH_TO_LWE is fetched: its acceptance (R220, R279, R282). -/
def execSwitchToLwe (fn ring : Nat) (d : Desc) (arg : HostData) (s : State) : Res := consume "SWITCH_TO_LWE" fn ring d arg s

/-- A descriptor of REPACK is fetched: its acceptance (R220, R279, R282). -/
def execRepack (fn ring : Nat) (d : Desc) (arg : HostData) (s : State) : Res := consume "REPACK" fn ring d arg s

/-- A descriptor of PBS is fetched: its acceptance (R223, R279, R282). -/
def execPbs (fn ring : Nat) (d : Desc) (arg : HostData) (s : State) : Res := consume "PBS" fn ring d arg s

/-- A descriptor of KEYSWITCH is fetched: its acceptance (R220, R279, R282). -/
def execKeyswitch (fn ring : Nat) (d : Desc) (arg : HostData) (s : State) : Res := consume "KEYSWITCH" fn ring d arg s

/-- A descriptor of ROTATE_MANY is fetched: its acceptance (R220, R279, R282). -/
def execRotateMany (fn ring : Nat) (d : Desc) (arg : HostData) (s : State) : Res := consume "ROTATE_MANY" fn ring d arg s

/-- A descriptor of RESCALE is fetched: its acceptance (R220, R279, R282). -/
def execRescale (fn ring : Nat) (d : Desc) (arg : HostData) (s : State) : Res := consume "RESCALE" fn ring d arg s

/-- A descriptor of MPC_TRUNC is fetched: its acceptance (R224, R279, R282). -/
def execMpcTrunc (fn ring : Nat) (d : Desc) (arg : HostData) (s : State) : Res := consume "MPC_TRUNC" fn ring d arg s

/-- A descriptor of MPC_COMPARE is fetched: its acceptance (R224, R279, R282). -/
def execMpcCompare (fn ring : Nat) (d : Desc) (arg : HostData) (s : State) : Res := consume "MPC_COMPARE" fn ring d arg s

/-- A descriptor of MOVE is fetched: its acceptance (R294, R279, R282). -/
def execMove (fn ring : Nat) (d : Desc) (arg : HostData) (s : State) : Res := consume "MOVE" fn ring d arg s

/-- A descriptor of FENCE is fetched: its acceptance (R295, R279, R282). -/
def execFence (fn ring : Nat) (d : Desc) (arg : HostData) (s : State) : Res := consume "FENCE" fn ring d arg s

/-- A descriptor of CANCEL is fetched: its acceptance (R296, R279, R282). -/
def execCancel (fn ring : Nat) (d : Desc) (arg : HostData) (s : State) : Res := consume "CANCEL" fn ring d arg s

/-- A descriptor of QUERY is fetched: its acceptance (R297, R279, R282). -/
def execQuery (fn ring : Nat) (d : Desc) (arg : HostData) (s : State) : Res := consume "QUERY" fn ring d arg s

/-- A descriptor of OPEN is fetched: its acceptance (R314, R279, R282). -/
def execOpenSession (fn ring : Nat) (d : Desc) (arg : HostData) (s : State) : Res := consume "OPEN" fn ring d arg s

/-- A descriptor of CLOSE is fetched: its acceptance (R314, R279, R282). -/
def execCloseSession (fn ring : Nat) (d : Desc) (arg : HostData) (s : State) : Res := consume "CLOSE" fn ring d arg s

/-- A descriptor of LOAD_PSET is fetched: its acceptance (R426, R279, R282). -/
def execLoadPset (fn ring : Nat) (d : Desc) (arg : HostData) (s : State) : Res := consume "LOAD_PSET" fn ring d arg s

/-- A descriptor of UNLOAD_PSET is fetched: its acceptance (R314, R279, R282). -/
def execUnloadPset (fn ring : Nat) (d : Desc) (arg : HostData) (s : State) : Res := consume "UNLOAD_PSET" fn ring d arg s

/-- A descriptor of ADD_REGION is fetched: its acceptance (R315, R279, R282). -/
def execAddRegion (fn ring : Nat) (d : Desc) (arg : HostData) (s : State) : Res := consume "ADD_REGION" fn ring d arg s

/-- A descriptor of REMOVE_REGION is fetched: its acceptance (R314, R279, R282). -/
def execRemoveRegion (fn ring : Nat) (d : Desc) (arg : HostData) (s : State) : Res := consume "REMOVE_REGION" fn ring d arg s

/-- A descriptor of POLICY is fetched: its acceptance (R314, R279, R282). -/
def execPolicy (fn ring : Nat) (d : Desc) (arg : HostData) (s : State) : Res := consume "POLICY" fn ring d arg s

/-- A descriptor of EXPORT is fetched: its acceptance (R229, R279, R282). -/
def execExportMsg (fn ring : Nat) (d : Desc) (arg : HostData) (s : State) : Res := consume "EXPORT" fn ring d arg s

/-- A descriptor of IMPORT is fetched: its acceptance (R230, R279, R282). -/
def execImportMsg (fn ring : Nat) (d : Desc) (arg : HostData) (s : State) : Res := consume "IMPORT" fn ring d arg s

/-- A descriptor of SHA_256 is fetched: its acceptance (R385, R279, R282). -/
def execSha256Op (fn ring : Nat) (d : Desc) (arg : HostData) (s : State) : Res := consume "SHA_256" fn ring d arg s

/-- A descriptor of SHA_384 is fetched: its acceptance (R385, R279, R282). -/
def execSha384Op (fn ring : Nat) (d : Desc) (arg : HostData) (s : State) : Res := consume "SHA_384" fn ring d arg s

/-- A descriptor of SHA_512 is fetched: its acceptance (R385, R279, R282). -/
def execSha512Op (fn ring : Nat) (d : Desc) (arg : HostData) (s : State) : Res := consume "SHA_512" fn ring d arg s

/-- A descriptor of SHAKE_128 is fetched: its acceptance (R385, R279, R282). -/
def execShake128Op (fn ring : Nat) (d : Desc) (arg : HostData) (s : State) : Res := consume "SHAKE_128" fn ring d arg s

/-- A descriptor of SHAKE_256 is fetched: its acceptance (R385, R279, R282). -/
def execShake256Op (fn ring : Nat) (d : Desc) (arg : HostData) (s : State) : Res := consume "SHAKE_256" fn ring d arg s

/-- A descriptor of RSA_3072_QUOTE is fetched: its acceptance (R385, R279, R282). -/
def execRsa3072Quote (fn ring : Nat) (d : Desc) (arg : HostData) (s : State) : Res := consume "RSA_3072_QUOTE" fn ring d arg s

/-- A descriptor of RSA_4096_QUOTE is fetched: its acceptance (R388, R279, R282). -/
def execRsa4096Quote (fn ring : Nat) (d : Desc) (arg : HostData) (s : State) : Res := consume "RSA_4096_QUOTE" fn ring d arg s

/-- A descriptor of RSA_3072_PSS_VERIFY is fetched: its acceptance (R385, R279, R282). -/
def execRsa3072PssVerify (fn ring : Nat) (d : Desc) (arg : HostData) (s : State) : Res := consume "RSA_3072_PSS_VERIFY" fn ring d arg s

/-- A descriptor of RSA_4096_PSS_VERIFY is fetched: its acceptance (R385, R279, R282). -/
def execRsa4096PssVerify (fn ring : Nat) (d : Desc) (arg : HostData) (s : State) : Res := consume "RSA_4096_PSS_VERIFY" fn ring d arg s

/-- A descriptor of P_256_KEY_PAIR is fetched: its acceptance (R385, R279, R282). -/
def execP256KeyPair (fn ring : Nat) (d : Desc) (arg : HostData) (s : State) : Res := consume "P_256_KEY_PAIR" fn ring d arg s

/-- A descriptor of P_256_ECDSA_SIGN is fetched: its acceptance (R385, R279, R282). -/
def execP256EcdsaSign (fn ring : Nat) (d : Desc) (arg : HostData) (s : State) : Res := consume "P_256_ECDSA_SIGN" fn ring d arg s

/-- A descriptor of P_256_ECDSA_VERIFY is fetched: its acceptance (R385, R279, R282). -/
def execP256EcdsaVerify (fn ring : Nat) (d : Desc) (arg : HostData) (s : State) : Res := consume "P_256_ECDSA_VERIFY" fn ring d arg s

/-- A descriptor of P_256_ECDH is fetched: its acceptance (R385, R279, R282). -/
def execP256Ecdh (fn ring : Nat) (d : Desc) (arg : HostData) (s : State) : Res := consume "P_256_ECDH" fn ring d arg s

/-- A descriptor of P_384_KEY_PAIR is fetched: its acceptance (R385, R279, R282). -/
def execP384KeyPair (fn ring : Nat) (d : Desc) (arg : HostData) (s : State) : Res := consume "P_384_KEY_PAIR" fn ring d arg s

/-- A descriptor of P_384_ECDSA_SIGN is fetched: its acceptance (R385, R279, R282). -/
def execP384EcdsaSign (fn ring : Nat) (d : Desc) (arg : HostData) (s : State) : Res := consume "P_384_ECDSA_SIGN" fn ring d arg s

/-- A descriptor of P_384_ECDSA_VERIFY is fetched: its acceptance (R385, R279, R282). -/
def execP384EcdsaVerify (fn ring : Nat) (d : Desc) (arg : HostData) (s : State) : Res := consume "P_384_ECDSA_VERIFY" fn ring d arg s

/-- A descriptor of P_384_ECDH is fetched: its acceptance (R385, R279, R282). -/
def execP384Ecdh (fn ring : Nat) (d : Desc) (arg : HostData) (s : State) : Res := consume "P_384_ECDH" fn ring d arg s

/-- A descriptor of X25519_KEY_PAIR is fetched: its acceptance (R385, R279, R282). -/
def execX25519KeyPair (fn ring : Nat) (d : Desc) (arg : HostData) (s : State) : Res := consume "X25519_KEY_PAIR" fn ring d arg s

/-- A descriptor of X25519 is fetched: its acceptance (R385, R279, R282). -/
def execX25519Op (fn ring : Nat) (d : Desc) (arg : HostData) (s : State) : Res := consume "X25519" fn ring d arg s

/-- A descriptor of ED25519_KEY_PAIR is fetched: its acceptance (R385, R279, R282). -/
def execEd25519KeyPair (fn ring : Nat) (d : Desc) (arg : HostData) (s : State) : Res := consume "ED25519_KEY_PAIR" fn ring d arg s

/-- A descriptor of ED25519_SIGN is fetched: its acceptance (R385, R279, R282). -/
def execEd25519Sign (fn ring : Nat) (d : Desc) (arg : HostData) (s : State) : Res := consume "ED25519_SIGN" fn ring d arg s

/-- A descriptor of ED25519_VERIFY is fetched: its acceptance (R385, R279, R282). -/
def execEd25519Verify (fn ring : Nat) (d : Desc) (arg : HostData) (s : State) : Res := consume "ED25519_VERIFY" fn ring d arg s

/-- A descriptor of ML_KEM_768_KEY_PAIR is fetched: its acceptance (R385, R279, R282). -/
def execMlKem768KeyPair (fn ring : Nat) (d : Desc) (arg : HostData) (s : State) : Res := consume "ML_KEM_768_KEY_PAIR" fn ring d arg s

/-- A descriptor of ML_KEM_768_ENCAPSULATE is fetched: its acceptance (R387, R279, R282). -/
def execMlKem768Encapsulate (fn ring : Nat) (d : Desc) (arg : HostData) (s : State) : Res := consume "ML_KEM_768_ENCAPSULATE" fn ring d arg s

/-- A descriptor of ML_KEM_768_DECAPSULATE is fetched: its acceptance (R386, R279, R282). -/
def execMlKem768Decapsulate (fn ring : Nat) (d : Desc) (arg : HostData) (s : State) : Res := consume "ML_KEM_768_DECAPSULATE" fn ring d arg s

/-- A descriptor of ML_KEM_1024_KEY_PAIR is fetched: its acceptance (R385, R279, R282). -/
def execMlKem1024KeyPair (fn ring : Nat) (d : Desc) (arg : HostData) (s : State) : Res := consume "ML_KEM_1024_KEY_PAIR" fn ring d arg s

/-- A descriptor of ML_KEM_1024_ENCAPSULATE is fetched: its acceptance (R387, R279, R282). -/
def execMlKem1024Encapsulate (fn ring : Nat) (d : Desc) (arg : HostData) (s : State) : Res := consume "ML_KEM_1024_ENCAPSULATE" fn ring d arg s

/-- A descriptor of ML_KEM_1024_DECAPSULATE is fetched: its acceptance (R386, R279, R282). -/
def execMlKem1024Decapsulate (fn ring : Nat) (d : Desc) (arg : HostData) (s : State) : Res := consume "ML_KEM_1024_DECAPSULATE" fn ring d arg s

/-- A descriptor of SLOT_LOAD is fetched: its acceptance (R383, R279, R282). -/
def execSlotLoad (fn ring : Nat) (d : Desc) (arg : HostData) (s : State) : Res := consume "SLOT_LOAD" fn ring d arg s

/-- A descriptor of SLOT_CLEAR is fetched: its acceptance (R383, R279, R282). -/
def execSlotClear (fn ring : Nat) (d : Desc) (arg : HostData) (s : State) : Res := consume "SLOT_CLEAR" fn ring d arg s

end Sys2Proof.Machine
end

