-- ==== Sys2Proof/Machine/Ready.lean ====
section
/-! DEFINITION. The readiness check (R30, R56, R59, R123, R193, R307, R316) and ageing (R309). -/

namespace Sys2Proof.Machine

/-- The entry is work for tiles. -/
def isTiles (e : Entry) : Bool := sdOpcode e.desc == 1 || sdOpcode e.desc == 2

/-- The words of an argument block, as the host gives them (R119). -/
def argWords (b : List Byte) : Tbl Word64 :=
  ((List.range (b.length / 8)).map (fun k => (k, BitVec.ofNat 64 (le b (8 * k) 8)))).filter (fun p => !(p.2 == 0))

/-- What readiness finds: a wait for device memory, the state in which the work has ended, or the recorded headers. -/
inductive Heads where
  | wait
  | ended (s : State)
  | got (s : State) (hs : List (Nat × List Byte))

/-- The declarations whose headers the scheduler reads. -/
def readDecls (decls : List ObjDecl) : List ObjDecl := decls.filter (fun d => d.role != 3)

/-- Every slot header lies, 256-byte aligned, in a device region (R119, R316). -/
def headersIn (rs : List Region) (decls : List ObjDecl) (args : Tbl Word64) : Bool :=
  decls.all (fun d => let a := (args.get d.slot 0).toNat; a % 256 == 0 && inRegion rs a 256)

/-- Read the headers of the declared sources, keys and triples (R56, R316, R346). -/
def readHeads (s : State) (e : Entry) (decls : List ObjDecl) (args : Tbl Word64) : Heads :=
  if !(headersIn e.regions decls args) then .ended (endUnrun s e stDescRange)
  else
    let l := readDecls decls
    match readAll s (partOfFn s e.fn) e.handle (l.map (fun d => ((args.get d.slot 0).toNat, 256))) with
    | .wait => .wait
    | .got s none => .ended s
    | .got s (some bs) => .got s ((l.map (fun d => d.slot)).zip bs)

/-- The data ranges of every object lie in device regions (R316). -/
def dataIn (rs : List Region) (decls : List ObjDecl) (args : Tbl Word64) (hs : List (Nat × List Byte)) : Bool :=
  decls.all (fun d => let r := dataRange args hs d; inRegion rs r.1 r.2)

/-- Some write interval of an epoch meets some read interval of an epoch (R123). -/
def rangesMeet (i : Image) (args : Tbl Word64) : Bool :=
  let all := fun dir => ((List.range i.epochs.length).map (fun k => rangesIn i args k dir)).flatten
  (all 1).any (fun w => (all 0).any (meets w))

/-- The descriptors of an image over slots pass R193. -/
def slotDescs (rs : List Region) (i : Image) (args : Tbl Word64) : Nat :=
  firstBad ((i.descs.filter overSlot).map (fun d => tdCheck (placeOf rs (slotsOf i) args (tdRegion d)) d))

/-- The checks of R56, R59, R193, R30 and R123 on a task with its headers recorded; `first` gives checks 1 and 2. -/
def lateChecks (x : Session) (rs : List Region) (i : Image) (raw args : Tbl Word64) (hs : List (Nat × List Byte)) (outs : List OutSpec)
    (first : List Nat) : Nat :=
  firstBad (first ++ [check3 x i.objs hs, check456 i.objs hs, check7 outs, check59 x raw outs, slotDescs rs i args,
    unlessOk (!(objectsMeet i.objs raw hs || rangesMeet i args)) stInPlaceForbidden])

/-- The work becomes READY with its headers, its final headers and its image, or ends with the status of its first failing check. -/
def finishReady (s : State) (e : Entry) (i : Image) (hs : List (Nat × List Byte)) (outs : List OutSpec) (st : Nat) : State :=
  if st ≠ 0 then endUnrun s e st
  else setEntry s { e with state := .ready, readyAt := s.time, headers := hs, image := some i,
                           finals := outs.map (fun o => (o.slot, outHeader (argWords e.arg) o)) }

/-- The readiness check of a TASK. -/
def taskReady (s : State) (e : Entry) (x : Session) (i : Image) : Option State :=
  let raw := argWords e.arg
  match readHeads s e i.objs raw with
  | .wait => none
  | .ended s => some s
  | .got s hs =>
    if !(dataIn e.regions i.objs raw hs) then some (endUnrun s e stDescRange)
    else
      let outs := taskOuts x i.objs raw hs
      let args := argTable { e with headers := hs } i
      some (finishReady s e i hs outs (lateChecks x e.regions i raw args hs outs [check1 i.objs raw hs, check2 x [] i.objs raw hs]))

/-- Checks 1 and 2 of a macro, with R226 between them for the protocols of shares. Before them come the ranges of R217 and R219 that the source
bears on, with the status that those rules give: acceptance could not hold them against a source that a dependency had still to write
(DEDUCED, log 32). -/
def macroFirst (x : Session) (d : Desc) (decls : List ObjDecl) (raw : Tbl Word64) (hs : List (Nat × List Byte)) : List Nat :=
  [unlessOk (sourceRangesOk x d (headerAt hs 0)) stBadOpcode, check1 decls raw hs] ++ (if 8 ≤ mcCode d then [mpcCheck d decls raw hs] else []) ++ [macroCheck2 x d decls raw hs]

/-- The readiness check of a MACRO, whose declarations follow from its headers (R219, R220). -/
def macroReady (s : State) (e : Entry) (x : Session) : Option State :=
  let raw := argWords e.arg
  let d := e.desc
  match readHeads s e (macroDecls x d raw []) raw with
  | .wait => none
  | .ended s => some s
  | .got s h1 =>
    let decls := macroDecls x d raw h1
    match readHeads s e decls raw with
    | .wait => none
    | .ended s => some s
    | .got s hs =>
      if !(dataIn e.regions decls raw hs) then some (endUnrun s e stDescRange)
      else
        let i := macroImageOf x d decls (headerAt hs 0)
        let outs := macroOuts x d decls raw hs
        let args := argTable { e with headers := hs } i
        some (finishReady s e i hs outs (lateChecks x e.regions i raw args hs outs (macroFirst x d decls raw hs)))

/-- The addresses of an EXCHANGE lie in device regions; of an IMPORT's data at least one stripe (R227, R316). -/
def exchangeIn (e : Entry) : Bool :=
  inRegion e.regions (xgObj e.desc) 256 && (e.row != "IMPORT" || inRegion e.regions (xgData e.desc) 4096)

/-- The addresses of a PK operation lie in regions (R316, R382). -/
def pkIn (e : Entry) : Bool :=
  pkRangeOk e.regions (pkOut e.desc) (pkOutSize e.desc) &&
    (!(popHash (pkPop e.desc)) || pkRangeOk e.regions (pkData e.desc) (pkLen e.desc))

/-- The readiness check of a descriptor whose dependencies are satisfied: none while device memory must be waited for. -/
def makeReady (s : State) (e : Entry) : Option State :=
  let plain := fun (ok : Bool) =>
    some (if ok then setEntry s { e with state := .ready, readyAt := s.time } else endUnrun s e stDescRange)
  match sdOpcode e.desc with
  | 1 | 2 =>
    match s.ts.sessions.find (e.tag % 4096) with
    | none => none
    | some x =>
      match e.image with
      | some i => taskReady s e x i
      | none => macroReady s e x
  | 4 => plain (pkIn e)
  | 9 => plain (exchangeIn e)
  | 6 | 7 => some (runDirect s e)
  | _ => plain true

/-- The first of an order, once it has waited HEAD_WAIT_US (R310). -/
def longWaiting (s : State) (l : List Entry) : Option Nat :=
  match l with
  | [] => none
  | e :: _ => if e.readyAt + 1000 * s.ts.bundle.headWaitUs ≤ s.time then some e.handle else none

/-- The item that holds a partition's dispatch: noted earlier and not yet placed, or the first in the order once it has waited
HEAD_WAIT_US (R310). -/
def holderOf (s : State) (part : Nat) : Option Nat :=
  let l := readyOrder s (fun e => isTiles e && partOfFn s e.fn == part)
  match s.ts.heads.find part with
  | some h => if l.any (fun e => e.handle == h) then some h else longWaiting s l
  | none => longWaiting s l

/-- The holders of every partition are noted before the order of READY work changes (R310). -/
def noteHeads (s : State) : State :=
  { s with ts := { s.ts with heads := (List.range s.ts.bundle.parts.length).filterMap (fun p => (holderOf s p).map (fun h => (p, h))) } }

/-- READINESS_CHECK: a failed dependency ends the descriptor; with every one satisfied its checks run (R56, R295, R307). -/
def execReadinessCheck (h : Nat) (s : State) : Res :=
  match entryOf s h with
  | none => no "READINESS_CHECK"
  | some e =>
    if e.state != .waiting || e.row == "FENCE" || !(e.barriers.isEmpty) || !(domainRuns s 3) then no "READINESS_CHECK"
    else if 0 < e.failed then .next (endUnrun s e stDependencyFailed)
    else if !(e.deps.isEmpty) then no "READINESS_CHECK"
    else
      match makeReady (noteHeads s) e with
      | none => no "READINESS_CHECK"
      | some t => .next t

/-- PRIORITY_AGE: one more full AGE_US of READY raises the effective priority by 1, up to 7 (R309). -/
def execPriorityAge (h : Nat) (s : State) : Res :=
  match entryOf s h with
  | none => no "PRIORITY_AGE"
  | some e =>
    if e.state == .ready && decide (effPrio s e < 7) && domainRuns s 3 &&
        decide (e.readyAt + (e.boost + 1) * (1000 * s.ts.bundle.ageUs) ≤ s.time) then
      .next (setEntry (noteHeads s) { e with boost := e.boost + 1 })
    else no "PRIORITY_AGE"

end Sys2Proof.Machine
end

