-- ==== Sys2Proof/Machine/Sched.lean ====
section
/-! DEFINITION. Placement and dispatch (R310, R311), task start and end (R27, R43, R45, R125, R126), Lull, scrub and reconfiguration of
tiles (R176, R177, R325). -/

namespace Sys2Proof.Machine

/-- The tile may be offered to this session: free and configured to the active version, and scrubbed unless the session used it last
(R177, R311). -/
def tileOffers (s : State) (part session t : Nat) : Bool :=
  let i := infoOf s t
  inPart s part t && (i.state == 0 || i.state == 3) && i.version == s.ts.bundle.version && (!i.dirty || i.session == session)

/-- The rank of a candidate rectangle: throttle steps, tiles of other last sessions, origin; a number that has been closed since names
another session (R311, R395). -/
def rankOf (s : State) (session : Nat) (ts : List Nat) : Nat × Nat × Nat :=
  (ts.foldl (fun n t => n + wantedSteps s (physOf s t)) 0, (ts.filter (fun t => (infoOf s t).session % 8192 != session)).length,
    ts.headD 0)

/-- One rank comes before another. -/
def rankLt (a b : Nat × Nat × Nat) : Bool :=
  decide (a.1 < b.1) || (a.1 == b.1 && (decide (a.2.1 < b.2.1) || (a.2.1 == b.2.1 && decide (a.2.2 < b.2.2))))

/-- The placement rule of R311: the first candidate's origin. -/
def place (s : State) (e : Entry) (i : Image) : Option (Nat × Nat) :=
  let session := e.tag % 4096
  let part := partOfFn s e.fn
  let cs := (origins i.gw i.gh).filter (fun o => (rectangle o.1 o.2 i.gw i.gh).all (tileOffers s part session))
  let rank := fun (o : Nat × Nat) => rankOf s session (rectangle o.1 o.2 i.gw i.gh)
  cs.foldl (fun best o => match best with
    | none => some o
    | some b => if rankLt (rank o) (rank b) then some o else some b) none

/-- What a dispatch does with an item: stale work ends, placeable work goes to its rectangle. -/
inductive Turn where
  | stale (e : Entry)
  | go (e : Entry) (i : Image) (o : Nat × Nat)

/-- The turn of one item, if it has one now (R310). -/
def turnOf (s : State) (e : Entry) : Option Turn :=
  if isStale s e then some (.stale e)
  else
    match e.image with
    | none => none
    | some i => (place s e i).map (Turn.go e i)

/-- The items that a partition may dispatch now: all READY tile work in its order, or the item alone that has waited HEAD_WAIT_US at the
head of the order, until it is placed (R309, R310). -/
def queueFor (s : State) (part : Nat) : List Entry :=
  let l := readyOrder s (fun e => isTiles e && partOfFn s e.fn == part)
  match holderOf s part with
  | none => l
  | some h => l.filter (fun e => e.handle == h)

/-- The code of each role, as the instruction caches will hold it. -/
def withCodes (i : Image) (codes : List (List Byte)) : Image := { i with codes := codes.map (fun b => Mem.wrN [] 0 b) }

/-- The group of a dispatched task, with the idle state that its session has now (R117, R125, R314). -/
def newGroup (s : State) (e : Entry) (i : Image) (o : Nat × Nat) : Group :=
  { handle := e.handle, fn := e.fn, session := e.tag % 4096, part := partOfFn s e.fn, version := e.version, x0 := o.1, y0 := o.2,
    gw := i.gw, gh := i.gh,
    idle := (match s.ts.sessions.find (e.tag % 4096) with
      | none => 2
      | some x => x.idle), started := [], epoch := 0, epochAt := s.time, barSent := [], barHere := [], release := [], saves := [],
    msgs := [], answers := [], fault := none, lastFault := none, watched := false, exempt := 0, pausedAt := 0,
    stalled := none, triples := [] }

/-- The rectangle's tiles run the group's session. -/
def occupy (s : State) (g : Group) : State :=
  (groupTiles g).foldl (fun s t =>
    setInfo s t { infoOf s t with state := 1, session := g.session, part := g.part, dirty := true }) s

/-- A task is dispatched to a rectangle; the code of a locked image in device memory is read, that of a streaming one as its cores need it
(R24, R125, R135, R310). None while it must be waited for. -/
def dispatchTo (s : State) (e : Entry) (i : Image) (o : Nat × Nat) : Option State :=
  let start := fun (s : State) (i : Image) =>
    let g := newGroup s e i o
    let s := setEntry s { e with state := .running, image := some i }
    occupy { s with groups := s.groups ++ [g] } g
  if sdOpcode e.desc = 2 ∨ i.streaming = true then some (start s i)
  else
    match readAll s (partOfFn s e.fn) e.handle (i.roles.map (fun r => (i.addr + r.codeOff, r.codeLen))) with
    | .wait => none
    | .got s none => some s
    | .got s (some bs) => some (start s (withCodes i bs))

/-- DISPATCH: a dispatch opportunity of a partition: the first item in its order that is stale ends, or the first that can be placed is
dispatched (R310, R311, R327). -/
def execDispatch (part : Nat) (s : State) : Res :=
  if !(domainRuns s 3) || s.flt.mcRestarting then no "DISPATCH"
  else
    match (queueFor s part).findSome? (turnOf s) with
    | none => no "DISPATCH"
    | some (.stale e) => .next (endStale s e)
    | some (.go e i o) =>
      match dispatchTo (noteHeads s) e i o with
      | none => no "DISPATCH"
      | some t => .next t

/-- The tile may leave Lull: no throttle command of its position is still to take effect (R416). -/
def mayWake (s : State) (t : Nat) : Bool :=
  let x := clockOf s (physOf s t)
  !((infoOf s t).lull) || (x.command.isNone && x.settling.isNone)

/-- The task begins on a tile: it leaves Lull, and its core stands at ENTRY with CYC = 0 (R125, R174, R176). -/
def startOn (s : State) (h t : Nat) (i : Image) : State :=
  match groupOf s h, entryOf s h with
  | some g, some e =>
    let s := setInfo (setTile s t (startTile g e i t (tileOf s t))) t { infoOf s t with lull := false }
    setGroup s { g with started := g.started ++ [t] }
  | _, _ => s

/-- TILE_TASK_START: a tile of a dispatched group is ready at CYC = 0. Before the first, the destination headers are written not-VALID
and the triples that epoch 0 reads are consumed (R27, R43, R125, R174, R430). -/
def execTileTaskStart (t : Nat) (s : State) : Res :=
  match tileGroup s t with
  | none => no "TILE_TASK_START"
  | some g =>
    match entryOf s g.handle with
    | none => no "TILE_TASK_START"
    | some e =>
      match e.image with
      | none => no "TILE_TASK_START"
      | some i =>
        if g.started.contains t || g.fault.isSome || s.flt.mcRestarting || !(domainRuns s 7) || !(mayWake s t) then no "TILE_TASK_START"
        else if !(g.started.isEmpty) then .next (startOn s g.handle t i)
        else
          match clearDests s g e i with
          | none => no "TILE_TASK_START"
          | some (s, false) => .next s
          | some (s, true) =>
            match consumeTriples s g e i 0 with
            | none => no "TILE_TASK_START"
            | some (s, st) => .next (if st = 0 then startOn s g.handle t i else s)

/-- The tile is done (R126). -/
def tileDone (x : Tile) : Bool :=
  x.status == .ended && x.queues.all (fun q => q.2.isEmpty) && x.store.isNone && x.spBusy.isNone && x.streams.all (fun l => l.2.isEmpty)

/-- Every tile of the group is done (R126). -/
def groupDone (s : State) (g : Group) : Bool :=
  g.fault.isNone && (groupTiles g).all (fun t => g.started.contains t && tileDone (tileOf s t))

/-- The re-check of a source header: still VALID with the recorded GEN (R45). -/
def sourceStands (e : Entry) (slot : Nat) (h : List Byte) : Bool :=
  intactCt h && ohValid h && ohGen h == ohGen (headerAt e.headers slot)

/-- The final headers, in declaration order, with their generations (R43, R126). -/
def finalHeads (e : Entry) (i : Image) : List (Nat × List Byte) :=
  (destHeads e i).map (fun p =>
    let g := match e.prevGen.find? (fun q => q.1 == p.1) with
      | some q => q.2
      | none => 0
    (p.2, withGen (headerAt e.finals p.1) (g + 1)))

/-- The group stands in the last epoch of its macro (R221); a TASK ends where its code does. -/
def lastPlanned (i : Image) (g : Group) : Bool := i.plan.isEmpty || decide (i.plan.length ≤ g.epoch + 1)

/-- TASK_FINAL_HEADERS: every tile is done: the source headers are checked again, the destination headers written, and the COMPLETE
entry posted (R27, R43, R45, R61, R126, R221). -/
def execTaskFinalHeaders (h : Nat) (s : State) : Res :=
  match groupOf s h, entryOf s h with
  | some g, some e =>
    match e.image with
    | none => no "TASK_FINAL_HEADERS"
    | some i =>
      if !(groupDone s g) || !(lastPlanned i g) || s.flt.mcRestarting then no "TASK_FINAL_HEADERS"
      else
        match closeViols s g with
        | some (t, d) => .next (tileAbort s g t d)
        | none =>
          let srcs := declsOf i.objs 1
          match readAll s g.part h (srcs.map (fun d => (slotAddr e i d.slot, 256))) with
          | .wait => no "TASK_FINAL_HEADERS"
          | .got s none => .next s
          | .got s (some bs) =>
            if !((srcs.zip bs).all (fun p => sourceStands e p.1.slot p.2)) then .next (abortTask s h stHeaderInvalid none)
            else
              match headerWrites s g.part h (finalHeads e i) with
              | none => no "TASK_FINAL_HEADERS"
              | some s => .next (complete (endGroup s g) h stOk 0 none (e.finals.any (fun p => ohExhausted p.2)))
  | _, _ => no "TASK_FINAL_HEADERS"

/-- The partition of the active bundle that holds a tile (R318). -/
def tilePart (s : State) (t : Nat) : Option Nat := (List.range s.ts.bundle.parts.length).find? (fun p => inPart s p t)

/-- The idle state that governs a tile: of the session that last used it, as it is or as it was when that session closed; for
a tile that none has used the default of its partition, or Penumbra (R174, R176, R318; DESIGN CHOICE, log 55). -/
def tileIdle (s : State) (t : Nat) : Nat :=
  let i := infoOf s t
  let live := if i.session / 4096 % 2 = 0 then s.ts.sessions.find (i.session % 4096) else none
  match live, tilePart s t with
  | some x, _ => x.idle
  | none, p =>
    if i.idle ≠ 0 then i.idle
    else match p with
      | some p => (partOf s p).idle
      | none => 1

/-- LULL_ENTRY: a tile that has held no task for LULL_US, held out or not (R176). -/
def execLullEntry (t : Nat) (s : State) : Res :=
  let i := infoOf s t
  if (i.state == 0 || i.state == 2) && !i.lull && (tileGroup s t).isNone && decide (t < 64) && decide (i.freeAt + 1000 * s.ts.bundle.lullUs ≤ s.time) then
    .next (setInfo (setTile s t (idleGroups (tileIdle s t) (tileOf s t))) t { i with state := if i.state = 0 then 3 else i.state, lull := true })
  else no "LULL_ENTRY"

/-- A scrubbed tile (R177). -/
def scrubbed (x : Tile) : Tile :=
  { x with spad := [], power := groupList.map (fun k => (k, if x.power.get k .on == .on then .on else .umbra)), sems := [], windows := [],
           planes := [], chains := [], qregs := [], perms := [], args := [], code := [], icache := [], codeLen := 0, marks := [], holds := [] }

/-- READY work of another session wants the tile's partition. -/
def wantedByOther (s : State) (t : Nat) : Bool :=
  s.ts.entries.any (fun e => e.state == .ready && isTiles e && inPart s (partOfFn s e.fn) t && e.tag % 4096 != (infoOf s t).session)

/-- TILE_SCRUB: a tile passes to another session, or out of every open one, and leaves Lull (R176, R177). -/
def execTileScrub (t : Nat) (s : State) : Res :=
  let i := infoOf s t
  if (tileGroup s t).isNone && i.dirty && i.state != 1 && (i.state == 4 || decide (4096 ≤ i.session) || wantedByOther s t) &&
      mayWake s t then
    let s := setTile s t (scrubbed (tileOf s t))
    .next (setInfo s t { i with dirty := false, lull := false, state := if i.state = 2 then 2 else if i.version = s.ts.bundle.version then 0 else 2 })
  else no "TILE_SCRUB"

/-- TILE_RECONFIGURE: a held-out tile is configured to the active version, in Lull or not; a second failure makes it a persistent tile
fault (R176, R325; DESIGN CHOICE, log 55). -/
def execTileReconfigure (t : Nat) (ok : Bool) (s : State) : Res :=
  let i := infoOf s t
  if i.state == 2 && decide (i.fails < 2) && (tileGroup s t).isNone && domainRuns s 3 then
    if ok then
      .next (setInfo s t { i with state := if i.lull then 3 else 0, version := s.ts.bundle.version, fails := 0, part := (tilePart s t).getD 0 })
    else .next (setInfo s t { i with fails := i.fails + 1 })
  else no "TILE_RECONFIGURE"

end Sys2Proof.Machine
end

