-- ==== Sys2Proof/Machine/Audit.lean ====
section
/-! DEFINITION. The audit log (R3, R378 to R380) and the write gates of R422. -/

namespace Sys2Proof.Machine

/-- The records that are not acknowledged: MGT_AUDIT_SEQ − MGT_AUDIT_ACKED (R380). `acked` counts the acknowledged records. -/
def unacked (s : State) : Nat := s.mgt.auditNext - s.mgt.acked

/-- A slot for an action of no special kind (R380). -/
def roomAny (s : State) : Bool := decide (unacked s < 65472)

/-- A slot for AUDIT_EXPORT, AUDIT_ACK, AUTH_OPEN and AUTH_CLOSE (R380). -/
def roomFour (s : State) : Bool := decide (unacked s < 65535)

/-- Append one record (R378, R379). -/
def audit (s : State) (actor result action subject : Nat) (value key : List Byte) : State :=
  let n := s.mgt.auditNext
  let b := leBytes 8 n ++ leBytes 8 s.time ++ leBytes 4 s.mgt.bootCount ++ leBytes 1 actor ++ leBytes 1 result ++ leBytes 2 action ++
    leBytes 8 subject ++ (value ++ List.replicate (32 - value.length) 0).take 32 ++ (key ++ List.replicate (8 - key.length) 0).take 8 ++
    List.replicate 24 0
  let h := sha256 (auditHead s ++ b)
  { s with mgt := { s.mgt with records := s.mgt.records.put (n % 65536) (b ++ h), auditNext := n + 1, head := h } }

/-- The first bytes of the installer key's hash, zero without an owner (R378). -/
def ownerKey (s : State) : List Byte :=
  match s.mgt.owner with
  | some k => keyHash k
  | none => []

/-- The installer context is open (R373). -/
def contextOpen (s : State) : Bool :=
  match s.mgt.context with
  | some t => decide (s.time < t)
  | none => false

/-- An installer register is written: through PF0 in an open context, with its record; none where the write is discarded (R373, R379,
R380, R422). -/
def instWrite (s : State) (fn off v : Nat) : Option State :=
  if fn = 0 ∧ contextOpen s = true ∧ roomAny s = true then some (audit s 1 0 0x0200 off (leBytes 4 v) (ownerKey s)) else none

/-- An installer register of the FLT_ block is written, by the maker too under diagnostic unlock (R354, R422). -/
def fltWrite (s : State) (fn off v : Nat) : Option State :=
  match instWrite s fn off v with
  | some t => some t
  | none =>
    if fn = 0 ∧ diagOpen s = true ∧ contextOpen s = false ∧ roomAny s = true then
      some (audit s 2 0 0x0200 off (leBytes 4 v) s.mgt.fuses.makerHash)
    else none

/-- The RWL registers are unlocked: from a switch point until the bundle is committed (R329, R330). -/
def rwlOpen (s : State) : Bool := !s.ts.committed

/-- An RWL register is written; without a context, in FACTORY or UNOWNED, the device is the actor (R330, R361, R422). -/
def rwlWrite (s : State) (fn off v : Nat) : Option State :=
  if !(rwlOpen s) then none
  else
    match instWrite s fn off v with
    | some t => some t
    | none =>
      if fn = 0 ∧ s.mgt.lifecycle ≠ 2 ∧ contextOpen s = false ∧ roomAny s = true then
        some (audit s 3 0 0x0301 off (leBytes 4 v) [])
      else none

end Sys2Proof.Machine
end

