-- ==== Sys2Proof/Machine/Bundles.lean ====
section
/-! DEFINITION. Configuration bundles (R320 to R322), their commands (R323), switch points, trial, commit and revert (R324 to R330). -/

namespace Sys2Proof.Machine

/-- A partition record (R321). -/
def parsePart (b : List Byte) : Part :=
  { tiles := le b 0 8, memBase := le b 8 8, memLen := le b 0x10 8, rate := le b 0x18 2, burst := le b 0x1A 2, keep := le b 0x1C 4,
    entries := le b 0x20 2, sessions := le b 0x22 2, defEntries := le b 0x24 2, prioCap := le b 0x26 1, idle := le b 0x27 1,
    defBytes := le b 0x28 8 }

/-- A function record (R322). -/
def parseFn (b : List Byte) : FnRec :=
  { part := le b 0 1, present := bitAt (le b 1 1) 0, pk := bitAt (le b 1 1) 1, sqBase := le b 2 2, sqCount := le b 4 2, cqBase := le b 6 2,
    cqCount := le b 8 2 }

/-- The bytes of partition record `p`. -/
def partBytes (b : List Byte) (p : Nat) : List Byte := sub b (0x100 + 64 * p) 64

/-- The bytes of function record `f`. -/
def fnBytes (b : List Byte) (f : Nat) : List Byte := sub b (0x500 + 16 * f) 16

/-- A bundle image (R320). -/
def parseBundle (b : List Byte) : Bundle :=
  { version := le b 8 4, numVfs := le b 6 1, trialS := le b 0x10 2, storm := le b 0x12 2, ageUs := le b 0x14 2, headWaitUs := le b 0x16 2,
    lullUs := le b 0x18 4, powerW := le b 0x1C 2, cal := le b 0x20 2, rebuild := le b 0x22 1, patrol := le b 0x23 1,
    parts := (List.range (le b 5 1)).map (fun p => parsePart (partBytes b p)),
    fns := ((List.range 128).map (fun f => (f, parseFn (fnBytes b f)))).filter (fun p => p.2.present), raw := b }

/-- A value lies in a range. -/
def inR (v lo hi : Nat) : Bool := decide (lo ≤ v) && decide (v ≤ hi)

/-- The fields of a partition record (R321). -/
def partFieldsOk (b : List Byte) : Bool :=
  let p := parsePart b
  p.memBase % 4096 == 0 && p.memLen % 4096 == 0 && inR p.rate 1 23040 && inR p.burst 1 1024 && decide (p.keep ≤ 524280) &&
    inR p.entries 1 16384 && decide (p.sessions ≤ 4095) && inR p.defEntries 1 p.entries && decide (p.prioCap ≤ 7) && inR p.idle 1 2 &&
    decide (p.defBytes ≤ p.memLen) && zeros (sub b 0x30 16)

/-- The fields of function record `f`, PARTITION apart, which CONFLICT judges (R322, R323). -/
def fnFieldsOk (numVfs f : Nat) (b : List Byte) : Bool :=
  let r := parseFn b
  decide (le b 1 1 < 4) && (if f = 0 then r.present else !r.present || decide (f ≤ numVfs)) && decide (r.sqCount ≤ 4096) &&
    decide (r.cqCount ≤ 512) && zeros (sub b 0x0A 6)

/-- Every field is in range and every reserved field zero (BAD_FIELD of R323). -/
def bundleFieldsOk (b : List Byte) : Bool :=
  let n := le b 5 1
  inR n 1 16 && decide (le b 6 1 ≤ 127) && le b 7 1 == 0 && inR (le b 8 4) 1 0xFFFFFFFE && decide (le b 0x10 2 ≤ 3600) &&
    inR (le b 0x12 2) 1 1000 && inR (le b 0x14 2) 10 10000 && inR (le b 0x16 2) 10 10000 && inR (le b 0x18 4) 10 1000000 &&
    inR (le b 0x1C 2) 600 1800 && le b 0x1E 2 == 0 && inR (le b 0x20 2) 10 1000 && inR (le b 0x22 1) 10 90 && inR (le b 0x23 1) 1 168 &&
    zeros (sub b 0x24 220) &&
    (List.range 16).all (fun p => if p < n then partFieldsOk (partBytes b p) else zeros (partBytes b p)) &&
    (List.range 128).all (fun f => fnFieldsOk (le b 6 1) f (fnBytes b f))

/-- Every two elements of a list satisfy a relation. -/
def pairwise {α : Type} (p : α → α → Bool) : List α → Bool
  | [] => true
  | a :: r => r.all (p a) && pairwise p r

/-- No conflict between partitions or between functions (CONFLICT of R323). -/
def bundleFits (b : Bundle) : Bool :=
  let fs := b.fns.vals
  pairwise (fun (p q : Part) => (p.tiles &&& q.tiles) == 0 && !(overlaps p.memBase p.memLen q.memBase q.memLen)) b.parts &&
    b.parts.all (fun p => decide (p.memBase + p.memLen ≤ capacity)) &&
    pairwise (fun (f g : FnRec) => !(overlaps f.sqBase f.sqCount g.sqBase g.sqCount) && !(overlaps f.cqBase f.cqCount g.cqBase g.cqCount)) fs &&
    fs.all (fun f => decide (f.sqBase + f.sqCount ≤ 4096) && decide (f.cqBase + f.cqCount ≤ 512) && decide (f.part < b.parts.length))

/-- The function keeps what an enabled ring needs. -/
def sameRings (a b : FnRec) : Bool :=
  a.part == b.part && a.sqBase == b.sqBase && a.sqCount == b.sqCount && a.cqBase == b.cqBase && a.cqCount == b.cqCount &&
    a.present == b.present

/-- No enabled ring and no region is in the way of a bundle (IN_USE of R323). -/
def bundleFree (s : State) (b : Bundle) : Bool :=
  (List.range 128).all (fun f =>
    sameRings (fnRecOf s f) (b.fns.get f fnRec0) || ((enabledSqs s f).isEmpty && (enabledCqs s f).isEmpty)) &&
  s.ts.sessions.all (fun x =>
    let p := (b.parts[(b.fns.get x.2.fn fnRec0).part]?).getD part0
    x.2.regions.all (fun r => r.host || within r.base r.len p.memBase p.memLen))

/-- The code of a STAGE, its checks in the order of R323. -/
def stageCode (s : State) (b : List Byte) : Nat :=
  let good := match s.mgt.owner with
    | some k => rsaOk k (b.take 0xD00) (b.drop 0xD00)
    | none => false
  if !good then 1
  else if !(le b 0 4 == 0x42434749 && le b 4 1 == 1 && le b 0x0C 4 == 3712) then 2
  else if le b 8 4 ≤ s.ts.maxver then 3
  else if !(bundleFieldsOk b) then 4
  else if !(bundleFits (parseBundle b)) then 5
  else if !(bundleFree s (parseBundle b)) then 6
  else 0

/-- TS_CFG_RESULT of a command that has ended. -/
def cfgResult (s : State) (cmd code : Nat) : State := { s with ts := { s.ts with result := 2 ^ 31 + 256 * cmd + code } }

/-- The active bundle with the present RWL values. -/
def withRwl (s : State) : Bundle :=
  { s.ts.bundle with cal := s.mem.calInterval, rebuild := s.mem.rebuildShare, patrol := s.mem.patrolPeriod }

/-- The bundle is committed with the present RWL values, in the Mirror layer and the persistent store (R328, R329, R360, R423). -/
def commitNow (s : State) : State :=
  let b := withRwl s
  { s with ts := { s.ts with bundle := b, committed := true, trialEnds := none, stormHit := false }, mgt := { s.mgt with committed := some b } }

/-- A tile at a switch point: one that runs work keeps its version; any other is held out until it is configured. A tile that changes
its partition is scrubbed before it is used (R325, R331). -/
def switchTile (old new : Bundle) (i : TileInfo) (t : Nat) : TileInfo :=
  let home := fun (b : Bundle) => (List.range b.parts.length).find? (fun p => bitAt ((b.parts[p]?).getD part0).tiles t)
  let i := if home old = home new then i else { i with session := i.session % 8192 + 8192 }
  if i.state = 1 ∨ i.version = new.version then i else { i with state := 2 }

/-- The tiles at a switch point; HELD_OUT is set when some tile becomes held out. -/
def switchTiles (s : State) (old : Bundle) : State :=
  let new := s.ts.bundle
  let before := s.ts.tiles
  let s := { s with ts := { s.ts with tiles := before.map (fun p => (p.1, switchTile old new p.2 p.1)) } }
  if before.any (fun p => p.2.state != 2 && (switchTile old new p.2 p.1).state == 2) then tsEvent s 4 else s

/-- One bundle becomes active in place of another, with everything that takes effect together (R324, R326, R329). -/
def activate (s : State) (b : Bundle) : State :=
  let old := s.ts.bundle
  let s := settleBuckets s
  let xs := s.ts.sessions.map (fun p => (p.1, { p.2 with part := (b.fns.get p.2.fn fnRec0).part }))
  let s := { s with ts := { s.ts with bundle := b, staged := none, switchTo := none, stormTimes := [], stormHit := false, sessions := xs },
                    clk := { s.clk with powerW := b.powerW },
                    mem := { s.mem with calInterval := b.cal, rebuildShare := b.rebuild, patrolPeriod := b.patrol } }
  let s := switchTiles (trimKeep s) old
  noticeAll (tsEvent s 0) 4 stOk b.version

/-- The switch point of an APPLY (R324, R328). -/
def switchApply (s : State) (b : Bundle) : State :=
  let old := s.ts.bundle
  let s := { s with ts := { s.ts with history := (old :: s.ts.history).take 7 } }
  let s := activate s b
  if b.trialS = 0 then tsEvent (commitNow s) 1
  else { s with ts := { s.ts with committed := false, trialEnds := some (s.time + 1000000000 * b.trialS) } }

/-- The shadow bundle becomes active and is committed at once; the bundle reverted from leaves the history (R326). -/
def switchRevert (s : State) (b : Bundle) : State :=
  let s := { s with ts := { s.ts with history := s.ts.history.tail } }
  tsEvent (commitNow (activate s b)) 2

/-- The default bundle becomes active, uncommitted, and the device UNOWNED (R330, R374). -/
def switchRelease (s : State) : State :=
  let s := activate s defaultBundle
  { s with ts := { s.ts with history := [], committed := false, trialEnds := none }, mgt := { s.mgt with lifecycle := 1 } }

/-- The image of a bundle with its RWL values in their fields: as signed, until the installer writes them in a trial (R320, R329). -/
def recordedImage (b : Bundle) : List Byte := splice b.raw 0x20 (leBytes 2 b.cal ++ leBytes 1 b.rebuild ++ leBytes 1 b.patrol)

/-- The bundle that a record of the audit log names: the SHA-256 of its image with the RWL values that are recorded for it (R329, R378;
DESIGN CHOICE, log 47). -/
def recordValue (b : Bundle) : List Byte := if b.raw.isEmpty then bundleDigest b else sha256 (recordedImage b)

/-- The digest that the record of a bundle command carries. -/
def bundleValue (b : Option Bundle) : List Byte :=
  match b with
  | some b => recordValue b
  | none => []

/-- VERSION of a bundle, 0 for none. -/
def bundleVersion (b : Option Bundle) : Nat :=
  match b with
  | some b => b.version
  | none => 0

/-- The code of APPLY, COMMIT, REVERT and DISCARD, and the bundle that the command is about (R323). -/
def cfgCheck (s : State) (cmd : Nat) : Nat × Option Bundle :=
  match cmd with
  | 2 => (if s.ts.switchTo.isSome || s.ts.trialEnds.isSome then 7 else if s.ts.staged.isNone then 8 else 0, s.ts.staged)
  | 3 => (if s.ts.trialEnds.isNone then 8 else 0, some (withRwl s))
  | 4 => (if s.ts.switchTo.isSome then 7 else if s.ts.history.isEmpty then 8 else 0, s.ts.history.head?)
  | _ => (0, s.ts.staged)

/-- The effect of a bundle command whose code is 0; APPLY and REVERT end at their switch point (R323). -/
def cfgEffect (s : State) (cmd : Nat) (image : List Byte) : State :=
  let wait := fun (s : State) (w : SwitchTo) => { s with ts := { s.ts with switchTo := some w, result := 256 * cmd } }
  match cmd with
  | 1 =>
    let b := parseBundle image
    cfgResult { s with ts := { s.ts with staged := some b, maxver := Nat.max s.ts.maxver b.version },
                       mgt := { s.mgt with maxver := Nat.max s.ts.maxver b.version } } 1 0
  | 2 => wait s .apply
  | 3 => cfgResult (tsEvent (commitNow s) 1) 3 0
  | 4 => wait s .revert
  | _ => cfgResult { s with ts := { s.ts with staged := none } } 5 0

/-- A write of a command 1 to 5 to TS_CFG_CMD: gate, record, code and effect (R323, R332, R379, R422). -/
def cfgCommand (s : State) (fn cmd : Nat) : State :=
  if fn = 0 ∧ contextOpen s = true ∧ roomAny s = true ∧ 1 ≤ cmd ∧ cmd ≤ 5 then
    let image := s.mgt.bar2.rdN s.ts.cfgOffset 3712
    let (code, about) := if cmd = 1 then (stageCode s image, some (parseBundle image)) else cfgCheck s cmd
    let s := audit s 1 code (0x0100 + cmd) (bundleVersion about) (bundleValue about) (ownerKey s)
    if code = 0 then cfgEffect s cmd image else cfgResult s cmd code
  else s

/-- A bundle command of the installer, while the CTRL domain runs. -/
def cfgRow (row : String) (cmd : Nat) (s : State) : Res := if domainRuns s 3 then .next (cfgCommand s 0 cmd) else no row

/-- STAGE (R323). -/
def execStage (s : State) : Res := cfgRow "STAGE" 1 s

/-- APPLY (R323, R324). -/
def execApply (s : State) : Res := cfgRow "APPLY" 2 s

/-- COMMIT (R328, R329). -/
def execCommit (s : State) : Res := cfgRow "COMMIT" 3 s

/-- REVERT (R326). -/
def execRevert (s : State) : Res := cfgRow "REVERT" 4 s

/-- DISCARD (R323). -/
def execDiscard (s : State) : Res := cfgRow "DISCARD" 5 s

/-- SWITCH_POINT: a pending APPLY, REVERT or RELEASE_OWNERSHIP takes effect in one step (R324, R326, R374). -/
def execSwitchPoint (s : State) : Res :=
  if !(domainRuns s 3) || s.flt.mcRestarting then no "SWITCH_POINT"
  else
    match s.ts.switchTo with
    | none => no "SWITCH_POINT"
    | some .release => .next (switchRelease s)
    | some .apply =>
      match s.ts.staged with
      | none => .next (cfgResult { s with ts := { s.ts with switchTo := none } } 2 8)
      | some b => .next (cfgResult (switchApply s b) 2 0)
    | some .revert =>
      match s.ts.history with
      | [] => .next (cfgResult { s with ts := { s.ts with switchTo := none } } 4 8)
      | b :: _ => .next (cfgResult (switchRevert s b) 4 0)

/-- TRIAL_EXPIRY: TRIAL_S seconds have passed without STORM: the bundle is committed, and the log takes it where it has a slot for it
(R328, R329, R380). -/
def execTrialExpiry (s : State) : Res :=
  match s.ts.trialEnds with
  | none => no "TRIAL_EXPIRY"
  | some t =>
    if t ≤ s.time ∧ s.ts.stormHit = false ∧ domainRuns s 3 = true then
      let s := if roomAny s then audit s 3 0 0x0103 s.ts.bundle.version (recordValue (withRwl s)) [] else s
      .next (tsEvent (commitNow s) 1)
    else no "TRIAL_EXPIRY"

/-- Absorbed fault events of the last 10 s (R328, R332). -/
def recentStorm (s : State) : Nat := (s.ts.faultTimes.filter (fun t => decide (s.time < t + 10000000000))).length

/-- AUTO_REVERT: STORM absorbed fault events within 10 s of a trial: the device reverts, recorded in every case (R326, R328, R380). -/
def execAutoRevert (s : State) : Res :=
  match s.ts.trialEnds, s.ts.history with
  | some _, b :: _ =>
    if s.ts.stormHit = true ∧ domainRuns s 3 = true ∧ s.ts.switchTo = none then
      let s := audit s 3 0 0x0300 b.version (recordValue b) []
      .next (tsEvent (switchRevert s b) 3)
    else no "AUTO_REVERT"
  | _, _ => no "AUTO_REVERT"

end Sys2Proof.Machine
end

