-- ==== Sys2Proof/Machine/Trust.lean ====
section
/-! DEFINITION. Signed command blobs: their checks (R371, R372), and what each command does (R365, R373 to R377, R380, R381). -/

namespace Sys2Proof.Machine

/-- CODE of a blob. -/
def blCode (b : List Byte) : Nat := le b 6 2
/-- ROLE of a blob: 1 installer, 2 maker. -/
def blRole (b : List Byte) : Nat := le b 5 1
/-- LENGTH of a blob. -/
def blLen (b : List Byte) : Nat := le b 8 4
/-- PARAMS of a blob. -/
def blParams (b : List Byte) : List Byte := sub b 0x40 (blLen b - 448)
/-- The signed bytes of a blob. -/
def blSigned (b : List Byte) : List Byte := b.take (blLen b - 384)
/-- SIGNATURE of a blob. -/
def blSig (b : List Byte) : List Byte := sub b (blLen b - 384) 384

/-- The rows of the commands; an unlisted CODE, which check 3 refuses, counts as the first. -/
def blobRow (c : Nat) : String :=
  match c with
  | 0x0002 => "AUTH_CLOSE"
  | 0x0010 => "TAKE_OWNERSHIP"
  | 0x0011 => "RELEASE_OWNERSHIP"
  | 0x0020 => "SET_POLICY"
  | 0x0021 => "SET_CERT"
  | 0x0030 => "AUDIT_EXPORT"
  | 0x0031 => "AUDIT_ACK"
  | 0x0040 => "DIAG_UNLOCK"
  | 0x0041 => "DIAG_LOCK"
  | 0x0050 => "FUSE_PROGRAM"
  | 0x0051 => "SHIP"
  | _ => "AUTH_OPEN"

/-- The blob that MGT_CMD_PAGE names: from its page to the end of PF0 BAR2 (R371). -/
def blobBytes (s : State) : List Byte :=
  let a := s.mgt.cmdPage
  s.mgt.bar2.rdN a (Nat.min 65536 (0x100000 - a))

/-- Check 1 of R372. -/
def blobFormOk (b : List Byte) : Bool :=
  le b 0 4 == 0x43494749 && le b 4 1 == 1 && decide (448 ≤ blLen b) && decide (blLen b ≤ 65536) && decide (blLen b ≤ b.length) &&
    zeros (sub b 0x18 8)

/-- Check 2 of R372. -/
def blobFresh (s : State) (b : List Byte) : Bool :=
  le b 0x0C 4 == s.mgt.bootCount && le b 0x10 8 == s.mgt.fuses.serial && sub b 0x20 32 == s.mgt.nonce

/-- Check 3 of R372: the role may issue the command in the lifecycle state (R361, R370, R374, R377). -/
def blobRight (life role code : Nat) : Bool :=
  match role, code with
  | 1, 0x0010 => life == 1
  | 1, 0x0001 | 1, 0x0002 | 1, 0x0011 | 1, 0x0020 | 1, 0x0021 | 1, 0x0030 | 1, 0x0031 | 1, 0x0041 => life == 2
  | 2, 0x0040 => life == 2
  | 2, 0x0041 => true
  | 2, 0x0050 | 2, 0x0051 => life == 0
  | _, _ => false

/-- The key under which a blob must be signed (R371). -/
def blobKey (s : State) (b : List Byte) : Option RsaPub :=
  if blRole b = 2 then
    let k := parseKey (blParams b)
    if keyHash k == s.mgt.fuses.makerHash then some k else none
  else if blCode b = 0x0010 then some (parseKey (blParams b))
  else s.mgt.owner

/-- Check 4 of R372. -/
def blobSigned (s : State) (b : List Byte) : Bool :=
  match blobKey s b with
  | some k => rsaOk k (blSigned b) (blSig b)
  | none => false

/-- The maker's parameters after its key. -/
def makerParams (b : List Byte) : List Byte := (blParams b).drop 388

/-- The consent token verifies and matches the device (R375, R376). -/
def tokenOk (s : State) (t : List Byte) : Bool :=
  let signed := match s.mgt.owner with
    | some k => rsaOk k (t.take 0x80) (sub t 0x80 384)
    | none => false
  signed && le t 0 4 == 0x4E434749 && le t 4 1 == 1 && decide (le t 5 1 < 8) && le t 6 2 == 0 && zeros (sub t 0x38 72) &&
    le t 8 8 == s.mgt.fuses.serial && le t 0x10 4 == s.mgt.bootCount && decide (s.time < 1000000000 * le t 0x14 4) &&
    sub t 0x18 32 == s.mgt.fuses.makerHash && s.ts.sessions.isEmpty

/-- The records that an AUDIT_EXPORT asks for exist and are not overwritten, after its own record (R381). -/
def exportable (s : State) (first count : Nat) : Bool :=
  inR count 1 4096 && decide (first + count ≤ s.mgt.auditNext) && decide (s.mgt.auditNext + 1 ≤ first + 65536)

/-- Check 5 of R372: PARAMS are valid, with the answer of a burned fuse (R365, R372, R376, R377, R381). -/
def paramsOk (s : State) (b : List Byte) (readBack : Bool) : Bool :=
  let p := blParams b
  let n := p.length
  match blCode b with
  | 0x0001 => n == 4 && inR (le p 0 4) 1 3600
  | 0x0002 | 0x0011 => n == 0
  | 0x0010 => n == 388 && (parseKey p).exponent % 2 == 1 && decide (3 ≤ (parseKey p).exponent)
  | 0x0020 => n == 8 && decide (le p 4 4 < 8) && le p 4 4 % 4 != 0 && decide (s.mgt.fuses.svnFloor ≤ le p 0 4)
  | 0x0021 => decide (4 ≤ n) && n == 4 + le p 0 4 && decide (le p 0 4 ≤ 8192)
  | 0x0030 => n == 12 && exportable s (le p 0 8) (le p 8 4)
  | 0x0031 => n == 8 && decide (le p 0 8 < s.mgt.auditNext)
  | 0x0040 => n == 900 && tokenOk s (makerParams b)
  | 0x0041 => if blRole b = 2 then n == 388 else n == 0
  | 0x0050 => n == 396 && readBack
  | 0x0051 => n == 388
  | _ => true

/-- A slot of the audit log for the command (check 6 of R372, R380). -/
def blobRoom (s : State) (c : Nat) : Bool := if [0x0001, 0x0002, 0x0030, 0x0031].contains c then roomFour s else roomAny s

/-- The code of the first failing check of R372; RELEASE_OWNERSHIP is BUSY while a switch point is pending (R389). -/
def blobResult (s : State) (b : List Byte) (readBack : Bool) : Nat :=
  if !(blobFormOk b) then 2
  else if !(blobFresh s b) then 3
  else if !(blobRight s.mgt.lifecycle (blRole b) (blCode b)) then 4
  else if !(blobSigned s b) then 1
  else if !(paramsOk s b readBack) then 5
  else if blCode b = 0x0011 ∧ s.ts.switchTo.isSome = true then 7
  else if !(blobRoom s (blCode b)) then 6
  else 0

/-- The value that the record of a command carries (R378). -/
def blobValue (b : List Byte) : List Byte :=
  let p := blParams b
  match blCode b with
  | 0x0001 => p.take 4
  | 0x0010 => sha256 p
  | 0x0020 => p.take 8
  | 0x0021 => sha256 (p.drop 4)
  | 0x0031 => p.take 8
  | 0x0040 => sha256 (makerParams b)
  | 0x0050 => sub p 392 4
  | _ => []

/-- The subject of a record: the first SEQ of an export, 0 otherwise (R378). -/
def blobSubject (b : List Byte) : Nat := if blCode b = 0x0030 then le (blParams b) 0 8 else 0

/-- The hash that names the actor's key (R378). -/
def blobActorKey (s : State) (b : List Byte) : List Byte :=
  if blRole b = 2 then s.mgt.fuses.makerHash else if blCode b = 0x0010 then sha256 (blParams b) else ownerKey s

/-- A diagnostic unlock ends: every tile is scrubbed (R177, R376). -/
def endDiag (s : State) : State :=
  match s.mgt.diag with
  | none => s
  | some _ =>
    let s := { s with mgt := { s.mgt with diag := none } }
    { s with tiles := s.tiles.map (fun p => (p.1, scrubbed p.2)),
             ts := { s.ts with tiles := s.ts.tiles.map (fun p => (p.1, { p.2 with dirty := false })) } }

/-- The export of audit records with its header and signature (R381). -/
def exportBytes (s : State) (first count : Nat) : List Byte × State :=
  let prev := if first = 0 then (List.replicate 32 0, s)
    else match s.mgt.records.find ((first - 1) % 65536) with
      | some r => if le r 0 8 = first - 1 then (r.drop 96, s) else drawBytes s 32
      | none => drawBytes s 32
  let s := prev.2
  let head := leBytes 4 0x45414749 ++ leBytes 4 1 ++ leBytes 8 s.mgt.fuses.serial ++ leBytes 8 first ++ leBytes 8 count ++ prev.1
  let recs := ((List.range count).map (fun i => s.mgt.records.get ((first + i) % 65536) [])).flatten
  let (sig, s) := signIdk s (head ++ recs)
  (head ++ recs ++ sig, s)

/-- The default policy, at once in force: SVN_MIN at the floor, both sources allowed (R365, R374). -/
def defaultPolicy (s : State) : State :=
  let v := s.mgt.fuses.svnFloor
  { s with mgt := { s.mgt with svnMin := v, policy := 3, svnInForce := v, inForce := 3 } }

/-- RELEASE_OWNERSHIP up to its switch point (R374). -/
def releaseNow (s : State) : State :=
  let s := defaultPolicy (endDiag s)
  { s with mgt := { s.mgt with context := none, owner := none, committed := none, chain1 := [] },
           ts := { s.ts with trialEnds := none, switchTo := some .release } }

/-- Word `i` of a byte string with the bits of `v` burned into it. -/
def burnWord (b : List Byte) (i v : Nat) : List Byte := splice b (4 * i) (leBytes 4 (le b (4 * i) 4 ||| v))

/-- The one bits of a word. -/
def onesIn (v : Nat) : Nat := ((List.range 32).filter (fun i => bitAt v i)).length

/-- Fuses burn into the items of R362: a burned bit stays, and the SVN floor counts its unary fuses (R362, R377). -/
def burnFuses (f : Fuses) (addr v : Nat) : Fuses :=
  let old := f.words.get addr 0
  let new := old ||| v % 2 ^ 32
  let f := { f with words := f.words.put addr new }
  match Config.fuseItem addr with
  | (1, i) => { f with serial := f.serial ||| v % 2 ^ 32 * 2 ^ (32 * (i % 2)) }
  | (2, i) => { f with keyHash := f.keyHash.mapIdx (fun k h => if k = i / 8 % 4 then burnWord h (i % 8) v else h) }
  | (3, _) => { f with revoked := f.revoked ||| v % 16 }
  | (4, i) => { f with makerHash := burnWord f.makerHash (i % 8) v }
  | (5, _) => { f with svnFloor := Nat.min 0xFFFFFFFF (f.svnFloor + (onesIn new - onesIn old)) }
  | (6, i) => { f with repair := f.repair.put (i % 64) (new % 128) }
  | (7, _) => { f with failed := f.failed ||| v % 256 }
  | _ => f

/-- The persisted tile map follows a change of the factory repair map, from which it starts (R338, R342, R362). -/
def followRepair (old new : Fuses) (saved : Tbl Nat) : Tbl Nat :=
  (List.range 64).foldl (fun m l =>
    if old.repair.get l l = new.repair.get l l ∨ m.get l l ≠ old.repair.get l l then m else m.put l (new.repair.get l l)) saved

/-- What a command does once every check has passed (R365, R373 to R377, R380, R381). -/
def blobEffect (s : State) (b : List Byte) : State :=
  let p := blParams b
  match blCode b with
  | 0x0001 => { s with mgt := { s.mgt with context := some (Nat.max (s.mgt.context.getD 0) (s.time + 1000000000 * le p 0 4)) } }
  | 0x0002 => { s with mgt := { s.mgt with context := none } }
  | 0x0010 =>
    let s := defaultPolicy s
    { s with mgt := { s.mgt with owner := some (parseKey p), lifecycle := 2, maxver := 0 }, ts := { s.ts with maxver := 0 } }
  | 0x0011 => releaseNow s
  | 0x0020 => { s with mgt := { s.mgt with svnMin := le p 0 4, policy := le p 4 4 } }
  | 0x0021 => { s with mgt := { s.mgt with chain1 := p.drop 4 } }
  | 0x0030 =>
    let (e, s) := exportBytes s (le p 0 8) (le p 8 4)
    { s with mgt := { s.mgt with bar2 := s.mgt.bar2.wrN 0 e } }
  | 0x0031 => { s with mgt := { s.mgt with acked := Nat.max s.mgt.acked (le p 0 8 + 1) } }
  | 0x0040 =>
    let t := makerParams b
    { s with mgt := { s.mgt with diag := some { scope := le t 5 1, expiry := le t 0x14 4 } } }
  | 0x0041 => endDiag s
  | 0x0050 =>
    let f := burnFuses s.mgt.fuses (le p 388 4) (le p 392 4)
    defaultPolicy { s with mgt := { s.mgt with fuses := f }, flt := { s.flt with saved := followRepair s.mgt.fuses f s.flt.saved } }
  | 0x0051 => { s with mgt := { s.mgt with lifecycle := 1 } }
  | _ => s

/-- A blob has been processed: its result, its record before its effect, and a fresh nonce (R372, R379). -/
def endBlob (s : State) (b : List Byte) (readBack : Bool) : State :=
  let r := blobResult s b readBack
  let s1 := if r != 2 && r != 6 && blobRoom s (blCode b) then
      audit s (if blRole b = 2 then 2 else 1) r (blCode b) (blobSubject b) (blobValue b) (blobActorKey s b)
    else s
  let s2 := if r = 0 then blobEffect s1 b else s1
  let (n, s3) := drawBytes s2 32
  { s3 with mgt := { s3.mgt with nonce := n, cmdResult := 2 ^ 31 + 256 * blCode b + r, blob := none } }

/-- Code `c` can be processed: the management core runs, or the device is unrecoverable and the audit log is read (R347, R372). -/
def blobServed (s : State) (c : Nat) : Bool :=
  domainRuns s 1 && domainRuns s 2 && (domainRuns s 4 && !s.flt.mcRestarting || (s.flt.unrecoverable && c == 0x0030))

/-- A write of MGT_CMD_GO: the blob at MGT_CMD_PAGE begins to be processed, and MGT_CMD_RESULT reads BUSY; while one is processing the
write is discarded (R371, R372, R389). -/
def startBlob (s : State) : State :=
  let b := blobBytes s
  if s.mgt.blob.isSome || !(blobServed s (blCode b)) then s
  else { s with mgt := { s.mgt with blob := some b, cmdResult := 256 * blCode b + 7 } }

/-- The blob that a command of this row is about: the one that is processing, or the one that it starts (R371). -/
def blobNow (s : State) : List Byte := s.mgt.blob.getD (blobBytes s)

/-- The blob of a row is processed to its end: the one that MGT_CMD_GO has started, or the one in place, started and ended in one step
(R372; log 49). -/
def blobGo (row : String) (readBack : Bool) (s : State) : Res :=
  let b := blobNow s
  if blobServed s (blCode b) && blobRow (blCode b) == row then .next (endBlob s b readBack) else no row

/-- A blob that was processing when the management core restarts: refused where its audit record had not been written, completed where it
had, which is open, as is the code of such a refusal; the nonce is renewed (R372, R389; log 49). -/
def restartBlob (s : State) : State :=
  match s.mgt.blob with
  | none => s
  | some b =>
    let (v, s) := drawBytes s 2
    if leNat v % 2 = 0 then endBlob s b (leNat v / 2 % 2 == 0)
    else
      let (n, s) := drawBytes s 32
      { s with mgt := { s.mgt with nonce := n, cmdResult := 2 ^ 31 + 256 * blCode b + (1 + leNat v / 2 % 6), blob := none } }

/-- A recorded ACCEPT or COMPLETE entry is written again after a restart, unless HEAD has passed it or its ring takes no writes (R292,
R344). -/
def rewriteEntry (s : State) (r : Posted) : State :=
  let c := cqOf s r.ring
  if le r.entry 0 1 ≠ 3 ∧ c.enabled = true ∧ unread c r.num = true ∧ cqSends s r.ring = true then
    { s with out := { s.out with host := putPosted s.out.host r } }
  else s

/-- The restart of the management core ends; the MC domain runs again, unless the device is STOPPED (R343, R344, R389, R399). -/
def mcResume (s : State) : State :=
  let s := { s with flt := { s.flt with lastBeat := s.time, mcRestarting := false },
                    clk := if s.flt.unrecoverable then s.clk
                           else { s.clk with run := s.clk.run ||| 16, inReset := s.clk.inReset - (s.clk.inReset &&& 16) } }
  restartBlob (s.hi.recent.reverse.foldl rewriteEntry s)

/-- A quiesce point of the management core: the vertical connections that have failed in service are switched out, while their region has
spares (R262, R271; DESIGN CHOICE, log 52). -/
def quiescePoint (s : State) : State :=
  { s with mir := { s.mir with zones := s.mir.zones.map (fun p =>
      (p.1, { p.2 with sparesUsed := Nat.min 256 (p.2.sparesUsed + p.2.failing), failing := 0 })) } }

/-- AUTH_OPEN (R373). -/
def execAuthOpen (s : State) : Res := blobGo "AUTH_OPEN" true s

/-- AUTH_CLOSE (R373). -/
def execAuthClose (s : State) : Res := blobGo "AUTH_CLOSE" true s

/-- TAKE_OWNERSHIP (R374). -/
def execTakeOwnership (s : State) : Res := blobGo "TAKE_OWNERSHIP" true s

/-- RELEASE_OWNERSHIP (R374, R389). -/
def execReleaseOwnership (s : State) : Res := blobGo "RELEASE_OWNERSHIP" true s

/-- SET_POLICY (R365). -/
def execSetPolicy (s : State) : Res := blobGo "SET_POLICY" true s

/-- SET_CERT (R367, R372). -/
def execSetCert (s : State) : Res := blobGo "SET_CERT" true s

/-- AUDIT_EXPORT (R381). -/
def execAuditExport (s : State) : Res := blobGo "AUDIT_EXPORT" true s

/-- AUDIT_ACK (R380). -/
def execAuditAck (s : State) : Res := blobGo "AUDIT_ACK" true s

/-- DIAG_UNLOCK (R375, R376). -/
def execDiagUnlock (s : State) : Res := blobGo "DIAG_UNLOCK" true s

/-- DIAG_LOCK (R376). -/
def execDiagLock (s : State) : Res := blobGo "DIAG_LOCK" true s

/-- FUSE_PROGRAM, whose burn reads back as `readBack` gives (R377). -/
def execFuseProgram (readBack : Bool) (s : State) : Res := blobGo "FUSE_PROGRAM" readBack s

/-- SHIP (R377). -/
def execShip (s : State) : Res := blobGo "SHIP" true s

/-- AUTH_EXPIRY: DURATION has passed (R373). -/
def execAuthExpiry (s : State) : Res :=
  match s.mgt.context with
  | none => no "AUTH_EXPIRY"
  | some t => if t ≤ s.time then .next { s with mgt := { s.mgt with context := none } } else no "AUTH_EXPIRY"

/-- CONSENT_EXPIRY: device time has reached EXPIRY (R376). -/
def execConsentExpiry (s : State) : Res :=
  match s.mgt.diag with
  | none => no "CONSENT_EXPIRY"
  | some d => if 1000000000 * d.expiry ≤ s.time then .next (endDiag s) else no "CONSENT_EXPIRY"

end Sys2Proof.Machine
end

