-- ==== Sys2Proof/Machine/Inject.lean ====
section
/-! DEFINITION. Fault injection: ARM, CANCEL and the end of an injection without an opportunity (R357 to R359). -/

namespace Sys2Proof.Machine

/-- KIND of FLT_INJ_TARGET. -/
def injKind (v : Nat) : Nat := fld v 24 8
/-- LTILE of FLT_INJ_TARGET. -/
def injTile (v : Nat) : Nat := fld v 18 6
/-- CHANNEL of FLT_INJ_TARGET. -/
def injChannel (v : Nat) : Nat := fld v 8 10

/-- FLT_INJ_RESULT of an arming that has ended with a code (R359). -/
def injResult (s : State) (kind code : Nat) : State :=
  { s with flt := { s.flt with injResult := 2 ^ 31 + 256 * kind + code } }

/-- The code with which an arming is refused, 0 for none (R358, R359). -/
def injRefused (s : State) (v : Nat) : Nat :=
  let k := injKind v
  let c := injChannel v
  let x := channelOf s c
  let mem := [0x10, 0x11, 0x12, 0x13, 0x14].contains k
  if s.flt.inj.isSome then 5
  else if !([1, 2, 3, 4, 5, 6, 0x20, 0x21].contains k || mem) || (mem && decide (960 ≤ c)) then 6
  else if k = 6 ∧ sparesFree s < 2 then 2
  else if k = 0x12 ∧ x.dqFree = 0 then 2
  else if (k = 0x10 ∨ k = 0x13 ∨ k = 0x14) ∧ degraded s = true then 3
  else if (k = 0x13 ∨ k = 0x14) ∧ s.mem.noReserve = true then 3
  else 0

/-- A temporary retirement: the tile's group, if any, replays on the spare (R339, R340, R358). -/
def injectPersist (s : State) (t : Nat) : State :=
  let h := match tileGroup s t with
    | none => 0
    | some g => g.handle
  let s := retireNow s t 0xC0 true h 0 0
  match tileGroup s t with
  | none => s
  | some g =>
    if g.fault.isSome then s
    else setGroup s { g with fault := some { source := 0x40, tile := t, link := 0xFFFF, cyc := 0, unit := 0, injected := true, logged := true } }

/-- A DQ lane in service is marked failed; which one is a free value (R358; log 7). A calibration pause is no bar; a channel in repair or lost
has no such lane, and nothing changes (log 48). -/
def injectLane (s : State) (c : Nat) : State :=
  if !(channelLives s c) || !((channelOf s c).state == .inService || (channelOf s c).state == .pause) then s
  else
    let (v, s) := drawBytes s 1
    let l := liveLanes (channelOf s c) false
    laneFails s c false (l.getD (leNat v % l.length) 0) 0xA2

/-- A channel of a trained stack is lost; one that is not in service has nothing to lose (R358; log 48). -/
def injectChannel (s : State) (c : Nat) : State := if channelLives s c then loseChannelFull s c 0xA3 else s

/-- A stack is lost; where the stacks are not trained there is none to lose (R358; log 48). -/
def injectStack (s : State) (n : Nat) : State :=
  if s.mem.trained && (stackOf s n).state != 2 then loseStack s n 0xA4 else s

/-- The kinds that fire at once. -/
def injectNow (s : State) (v : Nat) : State :=
  match injKind v with
  | 6 => injectPersist s (injTile v)
  | 0x12 => injectLane s (injChannel v)
  | 0x13 => injectChannel s (injChannel v)
  | 0x14 => injectStack s (injChannel v / 48)
  | 0x20 => { s with flt := { s.flt with suppressed := true } }
  | _ =>
    let (a, s) := drawBytes s 1
    logFault s 0xA8 (leNat a % 11) 0xFF 0xFF 0xFFFF 0xFF 0 0

/-- A kind that waits for its opportunity. -/
def injWaits (k : Nat) : Bool := [1, 2, 3, 4, 5, 0x10, 0x11].contains k

/-- The arming of the present target, its write recorded (R358, R359). -/
def armNow (s : State) : State :=
  let v := s.flt.injTarget
  let k := injKind v
  let r := injRefused s v
  if r ≠ 0 then injResult s k r
  else
    let i : Injection := { kind := k, ltile := injTile v, channel := injChannel v, param := fld v 0 8, armedAt := s.time }
    let s := { s with flt := { s.flt with inj := some i, injResult := 256 * k } }
    if injWaits k || (k == 6 && s.flt.mcRestarting) then s else endInjection (injectNow s v) true k 0

/-- TILE_PERSIST armed while the management core restarted fires when it runs again: until then no tile is retired (R23, R343, R358). -/
def firePersist (s : State) : State :=
  match s.flt.inj with
  | none => s
  | some i => if i.kind = 6 then endInjection (injectPersist s i.ltile) true 6 0 else s

/-- CANCEL disarms an armed injection (R359). -/
def cancelNow (s : State) : State :=
  match s.flt.inj with
  | none => s
  | some i => endInjection s false i.kind 7

/-- A write of FLT_INJ_CTRL: CANCEL, then ARM (R354, R359). -/
def injCtrl (s : State) (fn v : Nat) : State :=
  match fltWrite s fn 0x0600100 v with
  | none => s
  | some s =>
    let s := if bitAt v 1 then cancelNow s else s
    if bitAt v 0 then armNow s else s

/-- ARM (R359). -/
def execArm (s : State) : Res := if domainRuns s 3 then .next (injCtrl s 0 1) else no "ARM"

/-- CANCEL of an injection (R359). -/
def execCancelInjection (s : State) : Res := if domainRuns s 3 then .next (injCtrl s 0 2) else no "CANCEL_INJECTION"

/-- NO_OPPORTUNITY: an armed injection has not fired within 1 s (R359). -/
def execNoOpportunity (s : State) : Res :=
  match s.flt.inj with
  | none => no "NO_OPPORTUNITY"
  | some i => if i.armedAt + 1000000000 ≤ s.time then .next (endInjection s false i.kind 4) else no "NO_OPPORTUNITY"

end Sys2Proof.Machine
end

