-- ==== Sys2Proof/Machine/Resets.lean ====
section
/-! DEFINITION. Function-level and link resets (R298, R299, R410), and the cold reset (R410, R424). -/

namespace Sys2Proof.Machine

/-- The tiles of a group end their work and are scrubbed (R177, R298). -/
def stopGroup (s : State) (g : Group) : State :=
  let s := endGroup s g
  (groupTiles g).foldl (fun s t => setInfo (setTile s t (scrubbed (tileOf s t))) t { infoOf s t with dirty := false }) s

/-- Steps 1 and 2 of R298: the function's work stops without an entry; a transfer that was running leaves its destination undefined. -/
def stopWork (s : State) (fn : Nat) : State :=
  let mine := s.ts.entries.filter (fun e => e.fn == fn)
  let s := (mine.filter (fun e => s.hi.xfers.contains e.handle)).foldl spoilTransfer s
  let s := (s.groups.filter (fun g => g.fn == fn)).foldl stopGroup s
  let hs := mine.map (fun e => e.handle)
  let s := { s with hi := { s.hi with xfers := s.hi.xfers.filter (fun h => !(hs.contains h)) },
                    pke := { s.pke with long := match s.pke.long with
                                          | some r => if hs.contains r.handle then none else some r
                                          | none => none } }
  hs.foldl dropHandle s

/-- Step 4 of R298: the function's sessions close (R235, R244, R383). -/
def closeSessions (s : State) (fn : Nat) : State :=
  (s.ts.sessions.filter (fun p => p.2.fn == fn)).foldl (fun s p => closeNow s p.1 p.2) s

/-- The submission rings of a function after its reset: each at reset with its EPOCH increased (R284, R298). -/
def resetSqs (t : Tbl Sq) (r : FnRec) : Tbl Sq :=
  t.filter (fun p => decide (p.1 < r.sqBase)) ++
    (List.range r.sqCount).map (fun i => (r.sqBase + i, { sq0 with epoch := ((t.get (r.sqBase + i) sq0).epoch + 1) % 2 ^ 20 })) ++
    t.filter (fun p => decide (r.sqBase + r.sqCount ≤ p.1))

/-- The completion rings of a function after its reset. -/
def resetCqs (t : Tbl Cq) (r : FnRec) : Tbl Cq :=
  t.filter (fun p => decide (p.1 < r.cqBase) || decide (r.cqBase + r.cqCount ≤ p.1))

/-- The pairs of a function's page lose what they hold; PF0's other blocks keep theirs (R299, R424). -/
def resetPairs (s : State) (fn : Nat) : Tbl (Tbl Pair) :=
  if fn = 0 then s.hi.pairs.put 0 ((s.hi.pairs.get 0 []).filter (fun p => !(decide (0x0100000 ≤ p.1) && decide (p.1 < 0x0110000))))
  else s.hi.pairs.del fn

/-- A function page after a reset: its poll timer starts afresh, and its first poll comes after MIN (R278, R298). -/
def freshPage (s : State) : FnPage := { fnPage0 with pollAt := s.time + fnPage0.pollAt }

/-- Steps 5 to 7 of R298: translations, page requests, the function page, MSI-X, configuration space and the TDI. -/
def resetPage (s : State) (fn : Nat) : State :=
  let r := fnRecOf s fn
  { s with hi := { s.hi with ats := s.hi.ats.filter (fun a => !(a.fn == fn)), fns := s.hi.fns.put fn (freshPage s),
                             pris := s.hi.pris.filter (fun r => !(r.fn == fn)), cfgs := s.hi.cfgs.del fn,
                             msix := s.hi.msix.del fn, sqs := resetSqs s.hi.sqs r, cqs := resetCqs s.hi.cqs r,
                             pairs := resetPairs s fn },
           spdm := { s.spdm with tdi := s.spdm.tdi.del fn } }

/-- Step 1 of R298: the function sends no message from here on. -/
def silence (s : State) (fn : Nat) : State := { s with hi := { s.hi with cfgs := s.hi.cfgs.del fn, msix := s.hi.msix.del fn } }

/-- A function-level reset (R298, R299); PF0's closes the installer context (R373). -/
def resetFn (s : State) (fn : Nat) : State :=
  let s := resetPage (closeSessions (stopWork (silence s fn) fn) fn) fn
  if fn = 0 then { s with mgt := { s.mgt with context := none } } else s

/-- FUNCTION_LEVEL_RESET (R298). -/
def execFunctionLevelReset (fn : Nat) (s : State) : Res :=
  if fnReach s fn then .next (resetFn s fn) else no "FUNCTION_LEVEL_RESET"

/-- Every function is reset at once, and the IDE streams become Insecure; the link is down until it trains again (R410). -/
def linkResetNow (s : State) : State :=
  let s := (presentFns s).foldl resetFn s
  { s with spdm := { s.spdm with ide := [] }, hi := { s.hi with link := hi0.link }, flt := { s.flt with linkReset := false } }

/-- LINK_RESET; during a restart of the management core the functions are reset once it has completed (R410, R416). -/
def execLinkReset (s : State) : Res :=
  if domainRuns s 1 then
    .next (if s.flt.mcRestarting then { s with flt := { s.flt with linkReset := true }, hi := { s.hi with link := hi0.link } }
      else linkResetNow s)
  else no "LINK_RESET"

/-- GLINT: the heartbeat of the management core, at a quiesce point; the first after a restart ends it, and a link reset that came
meanwhile follows (R343, R344, R416). -/
def execGlint (s : State) : Res :=
  if s.flt.mcRestarting && decide (s.mir.images ≠ 0) then
    let t := firePersist (mcResume (quiescePoint s))
    .next (if s.flt.linkReset then linkResetNow t else t)
  else if domainRuns s 4 && !s.flt.suppressed && !s.flt.mcRestarting then
    .next (let t := quiescePoint s; { t with flt := { t.flt with lastBeat := s.time } })
  else no "GLINT"

/-- TDI_ERROR: a locked or running TDI enters ERROR and its function is reset, which unlocks it (R298, R300). -/
def execTdiError (fn : Nat) (s : State) : Res :=
  if fnReach s fn && tdiLocked s fn then .next (resetFn s fn) else no "TDI_ERROR"

/-- The standby domain through a cold reset: its registers stay, apart from those that R424 names; every other domain that has run is in
reset (R410, R418, R424). -/
def coldClk (c : Clk) (pkg : Nat) : Clk :=
  { c with run := 1, inReset := (c.run ||| c.inReset) / 2 * 2, pkg := pkg, ovSeen := [], hangLog := 0, hangDropped := 0,
           hangHeld := 0, held := [], overSince := none, underSince := none, calmSince := none }

/-- Management through a cold reset: fuses and persistent store; the policy as it stands comes into force (R360, R362, R365). -/
def coldMgt (m : Mgt) (nonce : List Byte) : Mgt :=
  { mgt0 with fuses := m.fuses, lifecycle := m.lifecycle, owner := m.owner, svnMin := m.svnMin, policy := m.policy, svnInForce := m.svnMin, inForce := m.policy,
              bootCount := m.bootCount, committed := m.committed, maxver := m.maxver, chain1 := m.chain1, records := m.records,
              auditNext := m.auditNext, acked := m.acked, head := m.head, nonce := nonce }

/-- The fault unit through a cold reset: the retirements, the map and the halved links that persist, and causes 1 and 3, which are
reported again (R342, R347). -/
def coldFlt (f : Flt) : Flt :=
  { flt0 with factoryUsed := f.factoryUsed, fieldRetired := f.fieldRetired, map := f.saved, saved := f.saved, tnHalved := f.tnHalved,
              mfHalved := f.mfHalved, tnLost := f.tnLost, cause := if f.cause = 1 ∨ f.cause = 3 then f.cause else 0 }

/-- A cold reset: every domain but the standby domain, the Mirror layer and device memory (R235, R410, R424). The package state is
`pkg`. -/
def coldReset (s : State) (pkg : Nat) : State :=
  let (nonce, s) := drawBytes s 32
  { s with time := 0, clk := coldClk s.clk pkg, hi := hi0, ts := { ts0 with maxver := s.mgt.maxver }, groups := [], tiles := [],
           mem := devMem0, mir := { zones := [], images := 0, running := 0 }, flt := coldFlt s.flt, mgt := coldMgt s.mgt nonce,
           pke := pke0, spdm := spdm0, out := { s.out with read := none, doe := .none, link := [] } }

end Sys2Proof.Machine
end

