-- ==== Sys2Proof/Machine/Power.lean ====
section
/-! DEFINITION. Power, the PLL and cold start: rails (R398 to R401, R404), the boot chain (R363, R364), the host push (R366) and service
(R400). -/

namespace Sys2Proof.Machine

/-- The package state while no image runs: BOOT with the main rails up, STANDBY otherwise (R399). -/
def restState (s : State) : Nat := if s.clk.mainUp then 2 else 1

/-- The main rails drop and the package returns to STANDBY; the next main power-up is a cold start (R401, R404). -/
def dropRails (s : State) : State :=
  let s := coldReset s 1
  { s with clk := { s.clk with mainUp := false, pwrGood := false, v12Ok := false, pllLocked := false } }

/-- V12_LOW (R401). -/
def execV12Low (mv : Nat) (s : State) : Res :=
  if (s.clk.mainUp || s.clk.trip && s.clk.v12Ok) && decide (mv < 10800) then
    let s := dropRails (clkEvent s 3)
    .next { s with clk := { s.clk with v12mV := mv } }
  else no "V12_LOW"

/-- The thermal trip: THERM_TRIP_N is asserted and the main rails drop (R404). -/
def tripNow (s : State) : State :=
  let s := dropRails (clkEvent s 6)
  { s with clk := { s.clk with trip := true, thermTrip := true } }

/-- THERMAL_TRIP: the event itself, a compute-die sensor above 120 °C, of which no row carries a reading (R404; log 24). -/
def execThermalTrip (s : State) : Res := if s.clk.mainUp then .next (tripNow s) else no "THERMAL_TRIP"

/-- STACK_TEMP_SAMPLE: the hottest die of a stack; above 115 °C the device trips (R258, R260, R404). -/
def execStackTempSample (stk : Nat) (temp : Int) (s : State) : Res :=
  if domainRuns s 6 && decide (-128 ≤ temp) && decide (temp < 128) then
    let s := stackSample stk temp s
    .next (if 115 < temp ∧ s.clk.mainUp = true then tripNow s else s)
  else no "STACK_TEMP_SAMPLE"

/-- The internal rails come up and PWR_GOOD asserts; a trip has ended (R400, R404). -/
def railsUp (s : State) : State :=
  { s with clk := { s.clk with mainUp := true, pwrGood := true, pkg := 2, trip := false, thermTrip := false } }

/-- PLL_UNLOCK: every domain but standby stops, and the device is held in reset (R393). -/
def execPllUnlock (s : State) : Res :=
  if s.clk.pllLocked then
    let s := coldReset (clkEvent s 4) (restState s)
    .next { s with clk := { s.clk with pllLocked := false, pllLosses := satInc s.clk.pllLosses 0xFFFF } }
  else no "PLL_UNLOCK"

/-- STBY_POWER_LOSS: the device is off; fuses and persistent store remain (R398, R399, R420). -/
def execStbyPowerLoss (s : State) : Res :=
  if s.clk.pkg ≠ 0 then
    let s := coldReset s 0
    .next { s with clk := { clk0 with run := 0, pkg := 0, flashPresent := s.clk.flashPresent, addrStrap := s.clk.addrStrap, tapReset := s.clk.tapReset }, smb := smb0 }
  else no "STBY_POWER_LOSS"

/-- STBY_POWER_VALID: 3.3 V ± 5% on 3V3_STBY (R398, R400). -/
def execStbyPowerValid (mv : Nat) (s : State) : Res :=
  if s.clk.pkg = 0 ∧ 3135 ≤ mv ∧ mv ≤ 3465 then
    .next { s with clk := { s.clk with run := 1, pkg := 1, v3mV := mv } }
  else no "STBY_POWER_VALID"

/-- MAIN_POWER_VALID: 12V_MAIN above 11.04 V; the rails come up and PWR_GOOD asserts. After a trip they wait for the cold reset, unless it
is asserted already (R398, R400, R404). -/
def execMainPowerValid (mv : Nat) (s : State) : Res :=
  if s.clk.pkg = 1 ∧ s.clk.mainUp = false ∧ 11040 < mv ∧ mv ≤ 12960 then
    let s := { s with clk := { s.clk with v12Ok := true, v12mV := mv } }
    .next (if s.clk.trip = true ∧ s.clk.perst = false then s else railsUp s)
  else no "MAIN_POWER_VALID"

/-- COLD_RESET: PERST_N or RESET_N is asserted; with main power reapplied it ends a trip (R404, R410). -/
def execColdReset (s : State) : Res :=
  if s.clk.pkg ≠ 0 then
    let s := coldReset s (restState s)
    let s := { s with clk := { s.clk with perst := true } }
    .next (if s.clk.trip && s.clk.v12Ok then railsUp s else s)
  else no "COLD_RESET"

/-- The accesses held for domains that leave reset are discarded (R407, R408). -/
def flushHeld (l : List HeldAccess) (mask : Nat) : List HeldAccess := l.filter (fun a => !(bitAt mask a.domain))

/-- The bundle of a cold start: the last committed one, or the default (R328, R330). -/
def startBundle (s : State) : Bundle × Bool :=
  match s.mgt.committed with
  | some b => (b, true)
  | none => (defaultBundle, false)

/-- The PLL is locked; LINK and ROM leave reset and the boot chain begins with step 1. The registers of LINK whose reset value is the
bundle's take it from the committed one (R364, R400, R421, R424). -/
def startBoot (s : State) : State :=
  let (nonce, s) := drawBytes s 32
  let (b, committed) := startBundle s
  { s with clk := { s.clk with pllLocked := true, run := s.clk.run ||| 6, inReset := s.clk.inReset - (s.clk.inReset &&& 6),
                               held := flushHeld s.clk.held 6 },
           mgt := { s.mgt with step := 1, nonce := nonce }, pke := { s.pke with healthy := true },
           ts := { s.ts with bundle := b, committed := committed } }

/-- PERST_DEASSERT: with power good (R400). -/
def execPerstDeassert (s : State) : Res :=
  if s.clk.perst && s.clk.pwrGood && s.clk.mainUp then
    .next (startBoot { s with clk := { s.clk with perst := false } })
  else no "PERST_DEASSERT"

/-- PLL_RELOCK: the cold reset after a loss of lock ends and the boot chain begins (R393, R410). -/
def execPllRelock (s : State) : Res :=
  if s.clk.mainUp && s.clk.pwrGood && !s.clk.perst && !s.clk.pllLocked then .next (startBoot s) else no "PLL_RELOCK"

/-- LINK_TRAINED: the link is in L0; without Flit mode at rates up to 32 GT/s only (R272, R303, R400). No row changes the L0p width, so it
stays the trained width (DESIGN CHOICE, log 14). -/
def execLinkTrained (rate width : Nat) (flit : Bool) (s : State) : Res :=
  if domainRuns s 1 && !s.hi.link.up && !s.flt.linkReset && inR rate 1 6 && (flit || decide (rate ≤ 5)) && [4, 8, 16].contains width then
    .next { s with hi := { s.hi with link := { rate := rate, width := width, flit := flit, l0p := width, up := true } } }
  else no "LINK_TRAINED"

/-- LENGTH of a firmware image. -/
def fwLength (h : List Byte) : Nat := le h 0x10 8

/-- Step 4 of R364 on a header area. -/
def fwHeaderOk (s : State) (h : List Byte) : Bool :=
  let slot := le h 5 1
  let n := fwLength h
  decide (4096 ≤ h.length) && decide (slot ≤ 3) && !(bitAt s.mgt.fuses.revoked slot) &&
    s.mgt.fuses.keyHash[slot]? == some (sha256 (sub h 0x100 388)) && rsaOk (parseKey (sub h 0x100 388)) (h.take 0x300) (sub h 0x300 384) &&
    le h 0 4 == 0x57464749 && le h 4 1 == 1 && le h 0x18 4 == Config.contract && n % 4096 == 0 && inR n 4096 0x10000000

/-- Step 5 of R364. -/
def fwSvnOk (s : State) (h : List Byte) : Bool := decide (s.mgt.fuses.svnFloor ≤ le h 8 4) && decide (s.mgt.svnInForce ≤ le h 8 4)

/-- Step 6 of R364 on a whole image. -/
def fwBodyOk (img : List Byte) : Bool := img.length == fwLength img && sha256 (img.drop 0x1000) == sub img 0x20 32

/-- The chain stays in BOOT_WAIT at a step with an error code, 0 for none (R364, R391, R399). -/
def bootWait (s : State) (step err : Nat) : State :=
  { s with mgt := { s.mgt with step := step, error := err, bootWait := true, push := none, bufFree := 0 }, clk := { s.clk with pkg := 3 } }

/-- Step 7 of R364: the measurements and both Mirror copies; step 8 begins. -/
def bootLoaded (s : State) (img : List Byte) (fromHost : Bool) : State :=
  { s with mgt := { s.mgt with step := 8, error := 0, bootWait := false, fromHost := fromHost, push := none, bufFree := 0,
                               fwVersion := le img 0x0C 4, fwSvn := le img 8 4, fwDigest := sha256 (img.take (fwLength img)) },
           mir := { s.mir with images := 3, running := 0 }, clk := { s.clk with pkg := 2 } }

/-- The step that fails on the image in the board flash, with its code; none where the image passes steps 4 to 6. -/
def flashFails (s : State) (img : List Byte) : Option (Nat × Nat) :=
  if !(fwHeaderOk s (img.take 4096)) then some (4, 4)
  else if !(fwSvnOk s img) then some (5, 5)
  else if !(fwBodyOk (img.take (fwLength img))) then some (6, 6)
  else none

/-- ALLOW_FLASH. -/
def allowFlash (s : State) : Bool := bitAt s.mgt.inForce 0
/-- ALLOW_HOST. -/
def allowHost (s : State) : Bool := bitAt s.mgt.inForce 1
/-- PREFER_HOST. -/
def preferHost (s : State) : Bool := bitAt s.mgt.inForce 2

/-- Step 3 of R364 and what follows for a source in flash (R365). -/
def bootSource (s : State) (flash : HostData) : State :=
  let waitHost := fun (s : State) step err => if allowHost s then bootWait s 3 err else bootWait s step (if err = 0 then 3 else err)
  match flash with
  | none => waitHost s 3 0
  | some img =>
    if !(allowFlash s) || (preferHost s && allowHost s) then waitHost s 3 0
    else
      match flashFails s img with
      | some (step, err) => waitHost s step err
      | none => bootLoaded s img false

/-- A firmware image of the Mirror layer fails its CRC: both, or the running one. The other, where it is intact, is the one to restart from;
bit b of the count is set while image b is intact (R262, R343). -/
def imageFails (m : Mirror) (both : Bool) : Mirror :=
  let left := if both then 0 else m.images - (m.images &&& 2 ^ (m.running % 2))
  { m with images := left, running := if left = 0 then m.running else (m.running + 1) % 2 }

/-- Firmware is reloaded for a restart: only the release that was measured at the cold start, whose successor waits for the next one (R262,
R366; DEDUCED, log 52). -/
def reloadOk (s : State) (img : List Byte) : Bool := sha256 (img.take (fwLength img)) == s.mgt.fwDigest

/-- Both images have failed: the flash is tried, as the policy allows; otherwise the restart waits for a push through PF0's boot window
(R262, R365). -/
def reloadFlash (s : State) (flash : HostData) : State :=
  match flash with
  | none => s
  | some img =>
    if s.mir.images = 0 ∧ allowFlash s = true ∧ flashFails s img = none ∧ reloadOk s img = true then
      { s with mir := { s.mir with images := 3, running := 0 } }
    else s

/-- MIRROR_CRC: a persistent mismatch in the Mirror layer. An area with two copies is repaired from the other, ACTION of its record
being a free value (log 7); a checkpoint slot makes the group replay from the older slot, or from task start when both fail; a
firmware image makes the management core restart from the other, or, with none left, from flash or the boot window. A failing vertical
connection waits for the next quiesce point (R262, R343, R352). -/
def execMirrorCrc (area : MirrorArea) (both : Bool) (s : State) : Res :=
  if !(domainRuns s 3) then no "MIRROR_CRC"
  else match area with
    | .twoCopies =>
      let (v, s1) := drawBytes s 1
      .next (logFault s1 0x28 (leNat v % 11) 0xFF 0xFF 0xFFFF 0xFF 0 0)
    | .checkpoint h =>
      match groupOf s h with
      | none => no "MIRROR_CRC"
      | some g =>
        match g.fault with
        | none => no "MIRROR_CRC"
        | some f =>
          let s1 := logFault s 0x28 1 0xFF 0xFF 0xFFFF g.part h 0
          let saves := if both then [] else g.saves.tail
          let epoch := match saves with
            | [] => 0
            | p :: _ => p.1
          .next (setGroup s1 { g with saves := saves, epoch := epoch, fault := some f })
    | .firmware flash =>
      let s1 := logFault s 0x28 6 0xFF 0xFF 0xFFFF 0xFF 0 0
      let s2 := reloadFlash { s1 with mir := imageFails s1.mir both } flash
      .next (if s.flt.mcRestarting then s2 else mcRestartNow s2 0x30)
    | .connection z =>
      if z < 16 then
        let x := s.mir.zones.get z zone0
        .next { s with mir := { s.mir with zones := s.mir.zones.put z { x with failing := x.failing + 1 } } }
      else no "MIRROR_CRC"

/-- The boot ROM switches out the vertical connections that fail its test, `conns` by region (R262, R271). -/
def switchConnections (conns : List Nat) (s : State) : State :=
  { s with mir := { s.mir with zones := (List.range 16).map (fun z =>
      (z, { s.mir.zones.get z zone0 with sparesUsed := conns.getD z 0 })) } }

/-- BOOT_CHAIN: steps 1 to 7 of R364, with what the tests of the Mirror layer, of its vertical connections and of the store find and what
the flash holds. A region with more failing connections than its 256 spares fails the test (R262). The boot count increases at every
cold start, whatever the tests find (R360). -/
def execBootChain (mirrorOk : MirrorTest) (storeOk : Bool) (flash : HostData) (s : State) : Res :=
  if domainRuns s 2 && s.mgt.step == 1 && !s.mgt.bootWait && !s.mgt.ready then
    let s := { s with clk := { s.clk with flashPresent := flash.isSome }, mgt := { s.mgt with bootCount := (s.mgt.bootCount + 1) % 2 ^ 32 },
                      flt := { s.flt with map := s.flt.saved, factoryUsed := fuseUsed s.mgt.fuses } }
    let s := if mirrorOk.conns.isEmpty then s else switchConnections mirrorOk.conns s
    if !mirrorOk.ok || mirrorOk.conns.any (fun n => decide (256 < n)) then .next (bootWait s 1 1)
    else if !storeOk then .next (bootWait s 2 2)
    else .next (bootSource s flash)
  else no "BOOT_CHAIN"

/-- A restart of the management core waits for firmware (R262, R343). -/
def reloading (s : State) : Bool := s.flt.mcRestarting && s.mir.images == 0

/-- A host push is possible: the device is in BOOT_WAIT, or a restart waits for firmware (R262, R364, R366). -/
def pushServed (s : State) : Bool := domainRuns s 1 && domainRuns s 2 && (s.mgt.bootWait || reloading s) && allowHost s

/-- BEGIN of a host push (R366). -/
def pushBegin (s : State) : State :=
  if pushServed s then
    { s with mgt := { s.mgt with push := some { header := [], got := 0, image := [] }, bufFree := 3, step := 3, error := 0 } }
  else s

/-- The push ends with an error; the chain stays in BOOT_WAIT, and a restart goes on waiting (R262, R364, R366). -/
def pushFails (s : State) (step err : Nat) : State :=
  if reloading s then { s with mgt := { s.mgt with push := none, bufFree := 0, step := step, error := err } } else bootWait s step err

/-- A pushed image has been verified: the boot chain goes on, or the restart has both of its images again (R262, R364, R366). -/
def pushLoaded (s : State) (img : List Byte) : State :=
  if reloading s then
    { s with mgt := { s.mgt with push := none, bufFree := 0, step := 8, error := 0 }, mir := { s.mir with images := 3, running := 0 } }
  else bootLoaded s img true

/-- CHUNK of a host push: the buffer's chunk is taken, the header verified with the first (R366). -/
def pushChunk (s : State) (buf pages : Nat) : State :=
  match s.mgt.push with
  | none => s
  | some p =>
    if !(pushServed s) || pages = 0 || 128 < pages || 1 < buf then s
    else
      let b := s.mgt.bar2.rdN (0x80000 * buf) (4096 * pages)
      let h := if p.header.isEmpty then b.take 4096 else p.header
      if p.header.isEmpty && !(fwHeaderOk s h) then pushFails s 4 4
      else if fwLength h < p.got + 4096 * pages then pushFails s 6 6
      else { s with mgt := { s.mgt with push := some { header := h, got := p.got + 4096 * pages, image := p.image ++ b }, step := 6 } }

/-- END of a host push: the hash, the SVN, and step 7 (R364, R366). -/
def pushEnd (s : State) : State :=
  match s.mgt.push with
  | none => s
  | some p =>
    if !(pushServed s) then s
    else if !(fwBodyOk p.image) || (reloading s && !(reloadOk s p.image)) then pushFails s 6 6
    else if !(fwSvnOk s p.image) then pushFails s 5 5
    else pushLoaded s p.image

/-- BEGIN (R366). -/
def execBootBegin (s : State) : Res := if domainRuns s 2 then .next (pushBegin s) else no "BEGIN"

/-- CHUNK (R366). -/
def execBootChunk (buf pages : Nat) (s : State) : Res := if domainRuns s 2 then .next (pushChunk s buf pages) else no "CHUNK"

/-- END (R366). -/
def execBootEnd (s : State) : Res := if domainRuns s 2 then .next (pushEnd s) else no "BOOT_END"

/-- The lanes of channel `c` and a kind that training found below margin (R249). -/
def weakLanes (weak : List Lane) (c : Nat) (ca : Bool) : List Nat :=
  ((weak.filter (fun l => l.channel == c && l.ca == ca && decide (l.lane < if ca then 8 else 18))).map (fun l => l.lane)).eraseDups

/-- A channel with more lanes of a kind below margin than spares of that kind (R249). -/
def failsTraining (weak : List Lane) (c : Nat) : Bool :=
  decide (2 < (weakLanes weak c false).length) || decide (1 < (weakLanes weak c true).length)

/-- A channel after training: a lane below margin is replaced by a spare of its kind (R249, R251, R269). -/
def trainedChannel (now : Nat) (weak : List Lane) (c : Nat) : Channel :=
  let d := weakLanes weak c false
  let a := weakLanes weak c true
  { channel0 with state := .inService, dqCal := List.replicate 18 now, caCal := List.replicate 8 now,
                  failA := d.getD 0 31, failB := d.getD 1 31, failCa := a.getD 0 15,
                  dqSpares := (([17, 16, 15, 14].filter (fun l => !(d.contains l))).take (2 - d.length)),
                  caSpares := (([7, 6].filter (fun l => !(a.contains l))).take (1 - a.length)) }

/-- The replaced lanes and the channels that are lost in training, with their events (R249, R254, R267). -/
def afterTraining (s : State) (weak : List Lane) : State :=
  let chs := ((weak.map (fun l => l.channel)).eraseDups).filter (fun c => decide (c < 960))
  chs.foldl (fun s c =>
    if failsTraining weak c then loseChannelFull s c 0x23
    else (weakLanes weak c false ++ weakLanes weak c true).foldl (fun s _ => memEvent s 1) s) s

/-- The scheduler's records of the tiles at service: configured to the bundle, or failed in their self-test (R330, R342). -/
def startTiles (b : Bundle) (now : Nat) (bad : List Nat) : Tbl TileInfo :=
  (List.range 64).map (fun t =>
    let home := (List.range b.parts.length).find? (fun p => bitAt ((b.parts[p]?).getD part0).tiles t)
    let i : TileInfo := { state := 0, session := 0, part := home.getD 0, version := b.version, freeAt := now, fails := 0, dirty := false,
                           lull := false, idle := 0 }
    (t, if bad.contains t then { i with state := 2, fails := 3 } else i))

/-- The device in service (R400): every domain runs, the stacks are trained, the bundle is active. -/
def startService (s : State) (bad : List Nat) (weak : List Lane) : State :=
  let (b, committed) := startBundle s
  let t :=
  { s with clk := { s.clk with run := 255, inReset := 0, held := [], pkg := 4, powerW := b.powerW },
           ts := { s.ts with bundle := b, committed := committed, maxver := s.mgt.maxver, tiles := startTiles b s.time bad },
           mem := { s.mem with trained := true, channels := (List.range 960).map (fun c => (c, trainedChannel s.time weak c)),
                               stks := (List.range 20).map (fun n => (n, { stack0 with state := 0 })), buckets := [],
                               calInterval := b.cal, rebuildShare := b.rebuild, patrolPeriod := b.patrol },
           flt := { s.flt with lastBeat := s.time } }
  let t := sendThrottles (afterTraining t weak)
  { t with mgt := { t.mgt with ready := true } }

/-- SERVICE_READY: step 8 of R364, with the lanes that training finds below margin, and steps 10 to 12 of R400; a device whose
spares or link halves are exhausted says so again (R347). -/
def execServiceReady (initOk : Bool) (badTiles : SelfTests) (s : State) : Res :=
  if domainRuns s 2 && s.mgt.step == 8 && !s.mgt.ready && !s.mgt.bootWait then
    if !initOk then .next (bootWait s 8 7)
    else
      let t := startService s badTiles.tiles badTiles.weak
      .next (if s.flt.cause = 0 then t else goUnrecoverable t s.flt.cause)
  else no "SERVICE_READY"

end Sys2Proof.Machine
end

