-- ==== Sys2Proof/Machine/Flags.lean ====
section
/-! DEFINITION. Status words and event words: every field that a register of the tables computes from the state (R266 to R271, R302, R303,
R332, R355, R359, R390 to R392, R417 to R420), and the clearing of events (R12). -/

namespace Sys2Proof.Machine

/-- A word from its fields, each a value and the bit it begins at (R5). -/
def word (l : List (Nat × Nat)) : Nat := l.foldl (fun a p => a + p.1 * 2 ^ p.2) 0

/-- A value capped at the largest its field holds. -/
def cap (x m : Nat) : Nat := Nat.min x m

/-- The seconds from now to a time, a begun second counting whole (R332, R390; log 22). -/
def secondsTo (s : State) (t : Nat) : Nat := cdiv (t - s.time) 1000000000

/-- A W1C word after a write: each 1 written clears its bit (R11, R12). -/
def w1c (old v : Nat) : Nat := old - (old &&& v)

/-- MEM_STATUS (R266). -/
def memStatusWord (s : State) : Nat :=
  let m := s.mem
  word [(b2n m.trained, 31), (b2n (degraded s), 30), (b2n (m.rebuilding || m.stks.any (fun p => p.2.state == 3)), 29),
        (b2n m.noReserve, 28), (b2n (rateScale s == 75), 27), (b2n (rateScale s == 25), 26), (m.paused.getD 31, 21),
        (m.lostStack.getD 31, 16), (cap (allLost s).length 255, 8)]

/-- MEM_REBUILD (R265). -/
def memRebuildWord (s : State) : Nat := word [(b2n s.mem.rebuilding, 31), (s.mem.rebuilt, 0)]

/-- MEM_POISONED (R265). -/
def memPoisonedWord (s : State) : Nat := cap (s.mem.stripes.filter (fun p => p.2 == .poisoned)).length 0xFFFFFFFF

/-- MEM_STACK_STATEn (R268). -/
def stackStateWord (s : State) (n : Nat) : Nat :=
  let x := stackOf s n
  let none_ := (stackChannels n).filter (fun c => (channelOf s c).dqFree == 0 || (channelOf s c).caFree == 0)
  word [(x.state, 29), (none_.length, 23), (lostChannels s n, 17), (b2n x.hot85, 16), (imod x.temp 256, 8)]

/-- MEM_LANE_INFO (R265, R269). -/
def laneInfoWord (s : State) : Nat :=
  let x := channelOf s s.mem.laneSel
  let stk := (stackOf s (s.mem.laneSel / 48)).state
  let st := if channelIsLost s s.mem.laneSel then 2
    else match x.state with
      | .inService => if stk = 1 then 1 else 0
      | .notTrained => 3
      | _ => 1
  if 960 ≤ s.mem.laneSel then 0
  else word [(x.dqFree, 30), (x.caFree, 29), (st, 27), (x.failA, 22), (x.failB, 17), (x.failCa, 13), (cap x.pauses 8191, 0)]

/-- MEM_PART_RATEp (R270). -/
def partRateWord (s : State) (p : Nat) : Nat :=
  match s.ts.bundle.parts[p]? with
  | some x => word [(x.rate, 17), (x.burst, 6), (1, 5)]
  | none => 0

/-- MEM_MIRROR_ZONEz (R271). -/
def mirrorZoneWord (s : State) (z : Nat) : Nat :=
  let x := s.mir.zones.get z zone0
  word [(imod x.temp 256, 24), (b2n x.throttle, 23), (cap x.sparesUsed 256, 14)]

/-- FLT_STATUS (R355). -/
def fltStatusWord (s : State) : Nat :=
  let f := s.flt
  word [(b2n f.unrecoverable, 31), (f.cause, 28), (b2n f.mcRestarting, 27), (b2n f.inj.isSome, 26), (sparesFree s, 12),
        (f.fieldRetired.length, 8), (f.factoryUsed, 4), (f.tempRetired.length, 0)]

/-- FLT_PENDING (R354). -/
def fltPendingWord (s : State) : Nat :=
  let hit := fun e m => b2n ((e &&& m) != 0)
  word [(hit s.ts.event s.ts.mask, 2), (hit s.mem.event s.mem.mask, 1), (hit s.flt.event s.flt.mask, 0)]

/-- FLT_LOG_Ww for the selected record (R354). -/
def fltLogWord (s : State) (w : Nat) : Nat :=
  let n := s.flt.logSel
  if s.flt.logCount ≤ n ∨ n + 1024 < s.flt.logCount then 0 else le (s.flt.log.get n []) (4 * w) 4

/-- FLT_MAPi (R354). -/
def fltMapWord (s : State) (i : Nat) : Nat :=
  word [(physOf s (4 * i), 0), (physOf s (4 * i + 1), 8), (physOf s (4 * i + 2), 16), (physOf s (4 * i + 3), 24)]

/-- FLT_GLINT (R354). -/
def fltGlintWord (s : State) : Nat :=
  word [(cap s.flt.mcRestarts 0xFFFF, 16), (cap ((s.time - s.flt.lastBeat) / 1000000) 0xFFFF, 0)]

/-- FLT_LINKS (R354). -/
def fltLinksWord (s : State) : Nat := word [(cap s.flt.mfHalved.length 255, 8), (cap s.flt.tnHalved.length 255, 0)]

/-- Tiles held out (R332). -/
def heldOut (s : State) : Nat := ((List.range 64).filter (fun t => (infoOf s t).state == 2)).length

/-- TS_STATUS (R332). -/
def tsStatusWord (s : State) : Nat :=
  word [(b2n s.ts.switchTo.isSome, 31), (b2n s.ts.trialEnds.isSome, 30), (b2n s.ts.staged.isSome, 29), (b2n (rwlOpen s), 28),
        (b2n s.ts.committed, 27), (s.ts.entries.length, 8), (heldOut s, 0)]

/-- The version of a bundle that may be absent (R332). -/
def versionWord (b : Option Bundle) : Nat :=
  match b with
  | some b => b.version
  | none => 0xFFFFFFFF

/-- TS_CFG_TRIAL (R332). -/
def tsTrialWord (s : State) : Nat :=
  word [(cap (recentStorm s) 0xFFFF, 16), (cap (secondsTo s (s.ts.trialEnds.getD 0)) 0xFFFF, 0)]

/-- TS_TILE_INFO; a tile held out in Lull reads 2 (R332, R395; DESIGN CHOICE, log 55). -/
def tileInfoWord (s : State) : Nat :=
  let t := s.ts.tileSel
  let i := infoOf s t
  let p := tilePart s t
  word [(i.state, 29), (p.getD 0, 25), (b2n p.isSome, 24), (wantedSteps s (physOf s t), 22), (i.session % 4096, 0)]

/-- TS_PART_USEp (R332). -/
def partUseWord (s : State) (p : Nat) : Nat := word [(partEntries s p, 16), (openIn_ s p, 0)]

/-- CLK_DOMAIN_STATUS (R418). -/
def clkDomainWord (s : State) : Nat := word [(b2n s.clk.pllLocked, 31), (s.clk.inReset, 8), (s.clk.run, 0)]

/-- CLK_PKG_STATE (R417). -/
def pkgWord (s : State) : Nat := word [(b2n s.clk.trip, 31), (b2n s.clk.v12Ok, 30), (s.clk.pkg, 0)]

/-- The divider of a step count (R395). -/
def dividerOf (steps : Nat) : Nat := if steps = 3 then 8 else 4 + steps

/-- CLK_TILE_STATE (R419). -/
def tileClockWord (s : State) : Nat :=
  let t := s.clk.tileSel
  let pos := physOf s t
  let x := clockOf s pos
  word [(wantedSteps s pos, 30), (stackSteps s pos, 28), (mirrorSteps s pos, 26), (powerSteps s, 24),
        (if domainRuns s 7 then dividerOf x.steps else 0, 20), (b2n x.settling.isSome, 19), (b2n (infoOf s t).lull, 18), (pos, 0)]

/-- The pulses that were merged on crossing class `c`, in the bit order of CDC_OVERRUN; no register counts events of the link, so none
meet on TELEM_LINK (R406, R417; log 16). -/
def mergedOf (s : State) (c : Nat) : Nat :=
  match c with
  | 0 => s.mem.tel.merged
  | 1 => s.flt.tileTel.merged
  | 2 => s.flt.fabTel.merged
  | _ => 0

/-- CDC_OVERRUN: bit c is set where a pulse has been merged since the bit was last cleared (R406, R417). -/
def overrunWord (s : State) : Nat := word ((List.range 4).map (fun c => (b2n (decide (s.clk.ovSeen.get c 0 < mergedOf s c)), c)))

/-- CLK_LIMIT (R417). -/
def clkLimitWord (s : State) : Nat := word [(powerSteps s, 30), (b2n (s.clk.fastStep != 0), 29), (s.clk.stepRises, 0)]

/-- MGT_LIFECYCLE (R390). -/
def lifecycleWord (s : State) : Nat := word [(s.mgt.lifecycle, 30), (b2n (diagOpen s), 29)]

/-- MGT_ROLE (R390). -/
def roleWord (s : State) : Nat :=
  word [(b2n (contextOpen s), 31), (b2n (diagOpen s), 30), (cap (secondsTo s (s.mgt.context.getD 0)) 0xFFFF, 0)]

/-- MGT_BOOT_STATUS (R391). -/
def bootStatusWord (s : State) : Nat :=
  let m := s.mgt
  word [(b2n m.ready, 31), (b2n m.bootWait, 30), (m.bufFree, 28), (m.step, 24), (m.error, 20), (b2n m.fromHost, 19)]

/-- MGT_AUDIT_SEQ: the SEQ of the last record; all ones before record 0 (R390; log 22). -/
def auditSeq (s : State) : Nat := (s.mgt.auditNext + 2 ^ 64 - 1) % 2 ^ 64

/-- MGT_AUDIT_ACKED; all ones before the first acknowledgement (R380, R390; log 22). -/
def auditAcked (s : State) : Nat := (s.mgt.acked + 2 ^ 64 - 1) % 2 ^ 64

/-- HI_FN_STATUS (R302). -/
def fnStatusWord (s : State) (fn : Nat) : Nat :=
  let c := cfgOf s fn
  word [(b2n c.busMaster, 31), (b2n (pageOf s fn).error, 30), (b2n (tdiLocked s fn), 29), (b2n c.ats, 28), (b2n c.pri, 27)]

/-- HI_FN_SQ_RANGE of a function (R302). -/
def sqRangeWord (s : State) (fn : Nat) : Nat := word [((fnRecOf s fn).sqCount, 16), ((fnRecOf s fn).sqBase, 0)]

/-- HI_FN_CQ_RANGE of a function (R302). -/
def cqRangeWord (s : State) (fn : Nat) : Nat := word [((fnRecOf s fn).cqCount, 16), ((fnRecOf s fn).cqBase, 0)]

/-- The state field of a ring: DISABLED, RUNNING or HALTED (R302). -/
def ringState (enabled halted : Bool) : Nat := if enabled then (if halted then 2 else 1) else 0

/-- HI_SQ_STATE (R302). -/
def sqStateWord (q : Sq) : Nat := word [(ringState q.enabled q.halted, 30), (q.epoch, 0)]

/-- HI_CQ_STATE (R302). -/
def cqStateWord (c : Cq) : Nat := word [(ringState c.enabled c.halted, 30), (b2n c.lost, 29), (c.next % 2 ^ c.log2, 0)]

/-- HI_LINK (R303). -/
def linkWord (s : State) : Nat :=
  let l := s.hi.link
  word [(l.rate, 29), (l.width, 24), (b2n l.flit, 23), (l.l0p, 18), (b2n l.up, 17)]

/-- The code of a TDI state (R303). -/
def tdiCode : TdiState → Nat
  | .unlocked => 0
  | .locked => 1
  | .run => 2
  | .error => 3

/-- HI_FN_INFO of the selected function (R303). -/
def fnInfoWord (s : State) : Nat :=
  let r := fnRecOf s s.hi.fnSel
  word [(b2n r.present, 31), (r.part, 27), (tdiCode (tdiOf s s.hi.fnSel), 25)]

/-- HI_IDE_STREAMS (R303, R369). -/
def ideWord (s : State) : Nat :=
  word [((s.spdm.ide.filter (fun p => !(p.2.keys.isEmpty))).length, 8), ((s.spdm.ide.filter (fun p => p.2.enabled)).length, 0)]

/-- PKE_STATUS (R392). -/
def pkeStatusWord (s : State) : Nat :=
  let long := match s.pke.long with
    | some r => r.handle
    | none => 2 ^ 64
  let wait := fun l => (readyOrder s (fun e => isPk e && pkLong e.desc == l && !(e.handle == long))).length
  word [(b2n s.pke.long.isSome, 31), (b2n s.pke.long.isSome, 30), (cap (wait false) 63, 24), (cap (wait true) 4095, 12)]

/-- PKE_SLOTS (R392). -/
def pkeSlotsWord (s : State) : Nat := s.pke.slots.foldl (fun n p => n + p.2.length) 0

end Sys2Proof.Machine
end

