-- ==== Sys2Proof/Machine/Regs.lean ====
section
/-! DEFINITION. The register index (R7 to R14, R421, R422, R425): what every register reads as, what a write to it does, the pairs, and the
accesses to a stopped domain (R408). -/

namespace Sys2Proof.Machine

/-- The offset within a function page of an offset of the function's BAR0 (R274, R302). -/
def pageOff (fn off : Nat) : Option Nat :=
  if fn = 0 then (if 0x100000 ≤ off ∧ off < 0x110000 then some (off - 0x100000) else none)
  else if off < 0x8000 then some off
  else none

/-- The place of an offset in the MSI-X table of a function (R274, R421). -/
def msixOff (fn off : Nat) : Option Nat :=
  let base := if fn = 0 then 0x1000000 else 0x8000
  if base ≤ off ∧ off < base + 16 * vectorCount fn then some (off - base) else none

/-- The place of an offset in the pending-bit array of a function (R274, R421). -/
def pbaOff (fn off : Nat) : Option Nat :=
  let base := if fn = 0 then 0x1008000 else 0xC000
  if base ≤ off ∧ off < base + vectorCount fn / 8 then some (off - base) else none

/-- The domain that serves an offset of a function's BAR0, none outside every block (R409, R421). -/
def domainOf (fn off : Nat) : Option Nat :=
  if (msixOff fn off).isSome || (pbaOff fn off).isSome then some 1
  else
    match pageOff fn off with
    | some o => if o < 0x228 then some 1 else none
    | none =>
      if fn ≠ 0 then none
      else if off < 0xA0 then some 2
      else if 0x110000 ≤ off ∧ off < 0x110020 then some 1
      else if 0x200000 ≤ off ∧ off < 0x200080 then some 3
      else if 0x300000 ≤ off ∧ off < 0x300540 then some 6
      else if 0x400000 ≤ off ∧ off < 0x40011C then some 0
      else if 0x500000 ≤ off ∧ off < 0x500018 then some 1
      else if 0x600000 ≤ off ∧ off < 0x60010C then some 3
      else none

/-- A domain answers register reads: it runs, or it is MEM_'s on an unrecoverable device, whose registers stay readable (R14, R347, R399;
DEDUCED, log 50). -/
def domainAnswers (s : State) (d : Nat) : Bool := domainRuns s d || (s.flt.unrecoverable && d == 6)

/-- The block at an offset answers reads, or there is no block (R14). -/
def regServed (s : State) (fn off : Nat) : Bool :=
  match domainOf fn off with
  | some d => domainAnswers s d
  | none => true

/-- An offset names the _LO register of a pair (R7, R9, R421). -/
def isLo (fn off : Nat) : Bool :=
  match pageOff fn off with
  | some o => [0x8, 0x104, 0x204, 0x20C].contains o
  | none =>
    fn == 0 && ([0x0, 0x70, 0x78, 0x110018, 0x300010, 0x500004, 0x6000C0].contains off ||
      (decide (0x300400 ≤ off) && decide (off < 0x300480) && off % 8 == 0))

/-- A field of the selected submission ring, 0 where the selector names none (R302). -/
def sqRead (s : State) (fn : Nat) (f : Sq → Nat) : Nat :=
  match selSq s fn with
  | some g => f (sqOf s g)
  | none => 0

/-- A field of the selected completion ring, 0 where the selector names none (R302). -/
def cqRead (s : State) (fn : Nat) (f : Cq → Nat) : Nat :=
  match selCq s fn with
  | some g => f (cqOf s g)
  | none => 0

/-- The 64 bits of the pair whose _LO register is at an offset (R9). -/
def pairValue (s : State) (fn off : Nat) : Nat :=
  match pageOff fn off with
  | some o =>
    match o with
    | 0x8 => (pageOf s fn).dbrBase
    | 0x104 => sqRead s fn (·.base)
    | 0x204 => cqRead s fn (·.base)
    | _ => cqRead s fn (·.det)
  | none =>
    match off with
    | 0x0 => s.mgt.fuses.serial
    | 0x70 => auditSeq s
    | 0x78 => auditAcked s
    | 0x110018 => s.time
    | 0x300010 => capacity
    | 0x500004 => s.pke.ops
    | 0x6000C0 => s.flt.replays
    | _ => (bucketOf s ((off - 0x300400) / 8)).bytes

/-- A register of a function page that belongs to no pair (R302). -/
def pageRead (s : State) (fn o : Nat) : Nat :=
  let p := pageOf s fn
  match o with
  | 0x4 => fnStatusWord s fn
  | 0x10 => p.dbrPasid
  | 0x14 => p.poll
  | 0x18 => sqRangeWord s fn
  | 0x1C => cqRangeWord s fn
  | 0x20 => p.noticeCq
  | 0x24 => p.dup
  | 0x100 => p.sqSel
  | 0x10C => sqRead s fn (·.cfg)
  | 0x110 => sqRead s fn (·.pasid)
  | 0x114 => sqRead s fn sqStateWord
  | 0x118 => sqRead s fn (·.expect)
  | 0x120 => sqRead s fn (·.halt)
  | 0x200 => p.cqSel
  | 0x214 => cqRead s fn (·.cfg)
  | 0x218 => cqRead s fn (·.coal)
  | 0x21C => cqRead s fn (·.pasid)
  | 0x220 => cqRead s fn cqStateWord
  | _ => 0

/-- A register of the MGT_ block (R390). -/
def mgtRead (s : State) (o : Nat) : Nat :=
  match o with
  | 0x8 => lifecycleWord s
  | 0xC => roleWord s
  | 0x10 => bootStatusWord s
  | 0x18 => s.mgt.bootCount
  | 0x1C => s.mgt.fwVersion
  | 0x20 => s.mgt.fwSvn
  | 0x24 => s.mgt.fuses.svnFloor
  | 0x28 => s.mgt.policy
  | 0x2C => s.mgt.svnMin
  | 0x60 => s.mgt.cmdPage
  | 0x68 => s.mgt.cmdResult
  | _ =>
    if 0x40 ≤ o ∧ o < 0x60 then le s.mgt.nonce (o - 0x40) 4
    else if 0x80 ≤ o ∧ o < 0xA0 then le (auditHead s) (o - 0x80) 4
    else 0

/-- A device-level HI_ register (R303). -/
def hiRead (s : State) (o : Nat) : Nat :=
  match o with
  | 0x0 => linkWord s
  | 0x4 => s.hi.fnSel
  | 0x8 => fnInfoWord s
  | 0xC => sqRangeWord s s.hi.fnSel
  | 0x10 => cqRangeWord s s.hi.fnSel
  | 0x14 => ideWord s
  | _ => 0

/-- A register of the TS_ block (R332). -/
def tsRead (s : State) (o : Nat) : Nat :=
  match o with
  | 0x0 => tsStatusWord s
  | 0x4 => s.ts.event
  | 0x8 => s.ts.mask
  | 0xC => s.ts.bundle.version
  | 0x10 => versionWord s.ts.history.head?
  | 0x14 => versionWord s.ts.staged
  | 0x18 => s.ts.maxver
  | 0x1C => s.ts.cfgOffset
  | 0x24 => s.ts.result
  | 0x28 => tsTrialWord s
  | 0x30 => s.ts.tileSel
  | 0x34 => tileInfoWord s
  | 0x38 => (infoOf s s.ts.tileSel).version
  | _ => if 0x40 ≤ o ∧ o < 0x80 then partUseWord s ((o - 0x40) / 4) else 0

/-- A register of the MEM_ block that belongs to no pair (R265). -/
def memRegRead (s : State) (o : Nat) : Nat :=
  match o with
  | 0x0 => memStatusWord s
  | 0x4 => s.mem.event
  | 0x8 => s.mem.mask
  | 0xC => s.mem.reserveFree
  | 0x18 => memRebuildWord s
  | 0x1C => memPoisonedWord s
  | 0x20 => s.mem.calInterval
  | 0x24 => s.mem.rebuildShare
  | 0x28 => s.mem.patrolPeriod
  | 0x200 => s.mem.laneSel
  | 0x204 => laneInfoWord s
  | _ =>
    if 0x40 ≤ o ∧ o < 0x60 then s.mem.evcnt.get ((o - 0x40) / 4) 0
    else if 0x100 ≤ o ∧ o < 0x150 then stackStateWord s ((o - 0x100) / 4)
    else if 0x300 ≤ o ∧ o < 0x340 then partRateWord s ((o - 0x300) / 4)
    else if 0x500 ≤ o ∧ o < 0x540 then mirrorZoneWord s ((o - 0x500) / 4)
    else 0

/-- A register of the CLK_ and CDC_ block (R417). -/
def clkRead (s : State) (o : Nat) : Nat :=
  match o with
  | 0x0 => clkDomainWord s
  | 0x4 => pkgWord s
  | 0x8 => word [(b2n s.clk.pllLocked, 31), (s.clk.pllLosses, 0)]
  | 0xC => word [(s.clk.avgPower, 16), (s.clk.powerW, 0)]
  | 0x10 => clkLimitWord s
  | 0x14 => word [(s.clk.v12mV, 16), (s.clk.v3mV, 0)]
  | 0x18 => s.clk.event
  | 0x20 => s.clk.tileSel
  | 0x24 => tileClockWord s
  | 0x100 => overrunWord s
  | 0x114 => s.clk.hangLog
  | 0x118 => word [(s.clk.hangDropped, 16), (s.clk.hangHeld, 0)]
  | _ => if 0x104 ≤ o ∧ o < 0x114 then cap (mergedOf s ((o - 0x104) / 4)) 0xFFFFFFFF else 0

/-- A register of the PKE_ block that belongs to no pair (R392). -/
def pkeRead (s : State) (o : Nat) : Nat :=
  match o with
  | 0x0 => pkeStatusWord s
  | 0xC => s.pke.reruns
  | 0x10 => word [(b2n s.pke.healthy, 31), (cap s.pke.reseeds (2 ^ 31 - 1), 0)]
  | 0x14 => pkeSlotsWord s
  | _ => 0

/-- A register of the FLT_ block that belongs to no pair (R354). -/
def fltRead (s : State) (o : Nat) : Nat :=
  match o with
  | 0x0 => fltStatusWord s
  | 0x4 => s.flt.event
  | 0x8 => s.flt.mask
  | 0xC => word [(b2n s.flt.irqEn, 31), (s.flt.irqVector, 0)]
  | 0x10 => fltPendingWord s
  | 0x14 => s.flt.logCount
  | 0x18 => s.flt.logSel
  | 0xC8 => fltGlintWord s
  | 0xCC => fltLinksWord s
  | 0x104 => s.flt.injTarget
  | 0x108 => s.flt.injResult
  | _ =>
    if 0x20 ≤ o ∧ o < 0x40 then fltLogWord s ((o - 0x20) / 4)
    else if 0x40 ≤ o ∧ o < 0x60 then s.flt.evcnt.get ((o - 0x40) / 4) 0
    else if 0x80 ≤ o ∧ o < 0xC0 then fltMapWord s ((o - 0x80) / 4)
    else 0

/-- A word of an MSI-X table entry (R289, R421). -/
def msixRead (s : State) (fn o : Nat) : Nat :=
  let e := msixOf s fn (o / 16)
  match o % 16 with
  | 0 => e.addr % 2 ^ 32
  | 4 => e.addr / 2 ^ 32
  | 8 => e.data
  | _ => e.ctrl

/-- A word of the pending-bit array (R289, R421). -/
def pbaRead (s : State) (fn o : Nat) : Nat :=
  (List.range 32).foldl (fun a i => a + b2n (msixOf s fn (8 * o + i)).pend * 2 ^ i) 0

/-- A device-level register of PF0 that belongs to no pair (R421). -/
def deviceRead (s : State) (off : Nat) : Nat :=
  match off / 0x10000 with
  | 0x00 => mgtRead s off
  | 0x11 => hiRead s (off - 0x110000)
  | 0x20 => tsRead s (off - 0x200000)
  | 0x30 => memRegRead s (off - 0x300000)
  | 0x40 => clkRead s (off - 0x400000)
  | 0x50 => pkeRead s (off - 0x500000)
  | 0x60 => fltRead s (off - 0x600000)
  | _ => 0

/-- What the 32-bit register at an offset of a function's BAR0 holds: the current value of R11, 0 for a WO register and where there is no
register (R8, R421). -/
def regValue (s : State) (fn off : Nat) : BitVec 32 :=
  if off % 4 ≠ 0 then 0
  else if isLo fn off then BitVec.ofNat 32 (pairValue s fn off)
  else if decide (4 ≤ off) && isLo fn (off - 4) then BitVec.ofNat 32 (pairValue s fn (off - 4) / 2 ^ 32)
  else
    match msixOff fn off, pbaOff fn off, pageOff fn off with
    | some o, _, _ => BitVec.ofNat 32 (msixRead s fn o)
    | none, some o, _ => BitVec.ofNat 32 (pbaRead s fn o)
    | none, none, some o => BitVec.ofNat 32 (pageRead s fn o)
    | none, none, none => if fn = 0 then BitVec.ofNat 32 (deviceRead s off) else 0

/-- The holding and staging registers of a pair. -/
def pairOf (s : State) (fn off : Nat) : Pair := (s.hi.pairs.get fn []).get off pair0

/-- Replace the holding and staging registers of a pair. -/
def setPair (s : State) (fn off : Nat) (p : Pair) : State :=
  { s with hi := { s.hi with pairs := s.hi.pairs.put fn ((s.hi.pairs.get fn []).put off p) } }

/-- The _LO read: its value, with the _HI half held (R9). -/
def loRead (s : State) (fn off : Nat) : BitVec 32 × State :=
  let v := pairValue s fn off
  (BitVec.ofNat 32 v, setPair s fn off { pairOf s fn off with held := some (BitVec.ofNat 32 (v / 2 ^ 32)) })

/-- The _HI read: the held value, whose mark it clears, or the current half (R9). -/
def hiHalf (s : State) (fn off : Nat) : BitVec 32 × State :=
  let p := pairOf s fn off
  (p.held.getD (BitVec.ofNat 32 (pairValue s fn off / 2 ^ 32)), setPair s fn off { p with held := none })

/-- A pair that a write reaches: writable, its ring selected, its TDI not locked (R11, R300, R302). -/
def pairOpen (s : State) (fn off : Nat) : Bool :=
  match pageOff fn off with
  | some 0x8 => !(tdiLocked s fn)
  | some 0x104 => !(tdiLocked s fn) && (selSq s fn).isSome
  | some 0x204 => !(tdiLocked s fn) && (selCq s fn).isSome
  | some 0x20C => !(tdiLocked s fn) && (selCq s fn).isSome
  | _ => false

/-- Change the selected submission ring. -/
def onSq (s : State) (fn : Nat) (f : Sq → Sq) : State :=
  match selSq s fn with
  | some g => setSq s g (f (sqOf s g))
  | none => s

/-- Change the selected completion ring. -/
def onCq (s : State) (fn : Nat) (f : Cq → Cq) : State :=
  match selCq s fn with
  | some g => setCq s g (f (cqOf s g))
  | none => s

/-- Store 64 bits in a writable pair; the low bits of a base are taken as zero (R302; log 23). -/
def pairStore (s : State) (fn off v : Nat) : State :=
  match pageOff fn off with
  | some 0x8 => setPage s fn { pageOf s fn with dbrBase := v / 64 * 64 }
  | some 0x104 => onSq s fn (fun q => { q with base := v / 4096 * 4096 })
  | some 0x204 => onCq s fn (fun c => { c with base := v / 4096 * 4096 })
  | some 0x20C => onCq s fn (fun c => { c with det := v / 4096 * 4096 })
  | _ => s

/-- The _LO write: staged (R9). -/
def loWrite (s : State) (fn off : Nat) (v : BitVec 32) : State :=
  if pairOpen s fn off then setPair s fn off { pairOf s fn off with staged := some v } else s

/-- The _HI write: both halves, or _HI alone where nothing is staged (R9). -/
def hiWrite (s : State) (fn off : Nat) (v : BitVec 32) : State :=
  if pairOpen s fn off then
    let p := pairOf s fn off
    let lo := match p.staged with
      | some l => l.toNat
      | none => pairValue s fn off % 2 ^ 32
    setPair (pairStore s fn off (lo + v.toNat * 2 ^ 32)) fn off { p with staged := none }
  else s

/-- A register of a function page is written (R300, R302). -/
def pageWrite (s : State) (fn o : Nat) (v : BitVec 32) : State :=
  let x := v.toNat
  let p := pageOf s fn
  let pasid := fld x 31 1 <<< 31 + fld x 0 20
  match o with
  | 0x0 => kick s fn v
  | 0x10 => if tdiLocked s fn then s else setPage s fn { p with dbrPasid := pasid }
  | 0x14 =>
    let q := { p with poll := fld x 0 16 }
    setPage s fn { q with period := pollMin q, pollAt := s.time + 1000 * pollMin q }
  | 0x20 => setPage s fn { p with noticeCq := fld x 31 1 <<< 31 + fld x 0 9 }
  | 0x100 => setPage s fn { p with sqSel := fld x 0 12 }
  | 0x10C => writeSqCfg s fn v
  | 0x110 => if tdiLocked s fn then s else onSq s fn (fun q => { q with pasid := pasid })
  | 0x11C => sqReset s fn v
  | 0x200 => setPage s fn { p with cqSel := fld x 0 9 }
  | 0x214 => writeCqCfg s fn v
  | 0x218 => onCq s fn (fun c => { c with coal := fld x 16 16 <<< 16 + fld x 0 8 })
  | 0x21C => if tdiLocked s fn then s else onCq s fn (fun c => { c with pasid := pasid })
  | 0x224 => writeCqCtrl s fn v
  | _ => s

/-- A write of MGT_BOOT_CMD (R366, R390). -/
def bootCmd (s : State) (x : Nat) : State :=
  match fld x 30 2 with
  | 1 => pushBegin s
  | 2 => pushChunk s (fld x 29 1) (fld x 0 20)
  | 3 => pushEnd s
  | _ => s

/-- A write of an RWL register: clamped to its range, recorded first (R265, R329, R422). -/
def rwlStore (s : State) (off x lo hi : Nat) (f : DevMem → Nat → DevMem) : State :=
  match rwlWrite s 0 off x with
  | some t => { t with mem := f t.mem (Nat.max lo (Nat.min hi x)) }
  | none => s

/-- A device-level register of PF0 is written (R265, R303, R332, R354, R390, R417, R422). -/
def deviceWrite (s : State) (off : Nat) (v : BitVec 32) : State :=
  let x := v.toNat
  match off with
  | 0x000014 => bootCmd s x
  | 0x000060 => { s with mgt := { s.mgt with cmdPage := fld x 12 8 <<< 12 } }
  | 0x000064 => startBlob s
  | 0x110004 => { s with hi := { s.hi with fnSel := fld x 0 7 } }
  | 0x200004 => { s with ts := { s.ts with event := w1c s.ts.event x } }
  | 0x200008 => { s with ts := { s.ts with mask := fld x 0 7 } }
  | 0x20001C =>
    match instWrite s 0 off x with
    | some t => { t with ts := { t.ts with cfgOffset := fld x 12 8 <<< 12 } }
    | none => s
  | 0x200020 => cfgCommand s 0 (fld x 0 4)
  | 0x200030 => { s with ts := { s.ts with tileSel := fld x 0 6 } }
  | 0x300004 => { s with mem := { s.mem with event := w1c s.mem.event x } }
  | 0x300008 => { s with mem := { s.mem with mask := fld x 0 8 } }
  | 0x300020 => rwlStore s off x 10 1000 (fun m y => { m with calInterval := y })
  | 0x300024 => rwlStore s off x 10 90 (fun m y => { m with rebuildShare := y })
  | 0x300028 => rwlStore s off x 1 168 (fun m y => { m with patrolPeriod := y })
  | 0x300200 => { s with mem := { s.mem with laneSel := fld x 0 10 } }
  | 0x400018 => { s with clk := { s.clk with event := w1c s.clk.event x } }
  | 0x400020 => { s with clk := { s.clk with tileSel := fld x 0 6 } }
  | 0x400100 => { s with clk := { s.clk with ovSeen := (List.range 4).map (fun c =>
      (c, if bitAt x c then mergedOf s c else s.clk.ovSeen.get c 0)) } }
  | 0x600004 => { s with flt := { s.flt with event := w1c s.flt.event x } }
  | 0x600008 => { s with flt := { s.flt with mask := fld x 0 8 } }
  | 0x60000C => { s with flt := { s.flt with irqEn := bitAt x 31, irqVector := fld x 0 11 } }
  | 0x600018 => { s with flt := { s.flt with logSel := x, logSeen := if s.flt.logSeen.contains x then s.flt.logSeen else x :: s.flt.logSeen } }
  | 0x600100 => injCtrl s 0 x
  | 0x600104 =>
    match fltWrite s 0 off x with
    | some t => { t with flt := { t.flt with injTarget := if inR (injKind x) 1 3 then x else x / 256 * 256 } }
    | none => s
  | _ => s

/-- A word of the MSI-X table is written; clearing a mask sends what is pending (R289, R421). -/
def msixWrite (s : State) (fn o : Nat) (v : BitVec 32) : State :=
  let n := o / 16
  let e := msixOf s fn n
  match o % 16 with
  | 0 => setMsix s fn n { e with addr := v.toNat / 4 * 4 + e.addr / 2 ^ 32 * 2 ^ 32 }
  | 4 => setMsix s fn n { e with addr := e.addr % 2 ^ 32 + v.toNat * 2 ^ 32 }
  | 8 => setMsix s fn n { e with data := v.toNat }
  | _ => if bitAt v.toNat 0 then setMsix s fn n { e with ctrl := 1 } else msixUnmask s fn n

/-- A 32-bit write at an offset of a function's BAR0 (R7 to R11, R421, R422). -/
def regStore (s : State) (fn off : Nat) (v : BitVec 32) : State :=
  if off % 4 ≠ 0 then s
  else if isLo fn off then loWrite s fn off v
  else if decide (4 ≤ off) && isLo fn (off - 4) then hiWrite s fn (off - 4) v
  else
    match msixOff fn off, pageOff fn off with
    | some o, _ => msixWrite s fn o v
    | none, some o => pageWrite s fn o v
    | none, none => if fn = 0 then deviceWrite s off v else s

/-- An access to a block in a stopped domain: held, up to 16 device-wide, or dropped; recorded either way. It never reaches the block
(R14, R408, R417). -/
def stoppedAccess (s : State) (d fn off : Nat) (w : Option (BitVec 32)) : State :=
  let c := s.clk
  let a : HeldAccess := { domain := d, fn := fn, off := off, write := w }
  let c' := if c.held.length < 16 then { c with held := c.held ++ [a], hangHeld := satInc c.hangHeld 0xFFFF }
    else { c with hangDropped := satInc c.hangDropped 0xFFFF }
  clkEvent { s with clk := { c' with hangLog := fn * 2 ^ 25 + off } } 5

/-- The word that the bytes of a write spell (R6). -/
def wordOf (l : List Byte) : BitVec 32 := BitVec.ofNat 32 (leNat l)

/-- A write of any size to BAR0: 4 bytes, a pair in 8, or two words of the MSI-X table; any other is discarded (R7, R8; log 14). -/
def barWrite (s : State) (fn off : Nat) (l : List Byte) : State :=
  if l.length = 4 then regStore s fn off (wordOf l)
  else if l.length = 8 ∧ (isLo fn off = true ∨ ((msixOff fn off).isSome = true ∧ off % 8 = 0)) then
    regStore (regStore s fn off (wordOf (l.take 4))) fn (off + 4) (wordOf (l.drop 4))
  else s

/-- REGISTER_WRITE: a write to BAR0, or to PF0's BAR2 window, which holds bytes and no registers (R7 to R13, R408, R421, R422). -/
def execRegisterWrite (fn : Nat) (b : Bar) (off : Nat) (l : List Byte) (s : State) : Res :=
  if !(fnReach s fn) then no "REGISTER_WRITE"
  else
    match b with
    | .bar2 => if fn = 0 then .next { s with mgt := { s.mgt with bar2 := s.mgt.bar2.wrN off (l.take (0x100000 - off)) } } else no "REGISTER_WRITE"
    | .bar0 =>
      match domainOf fn off with
      | some d => .next (if domainRuns s d then barWrite s fn off l else stoppedAccess s d fn off (some (wordOf l)))
      | none => .next s

/-- STOPPED_DOMAIN_ACCESS (R14, R408). -/
def execStoppedDomainAccess (fn off : Nat) (w : Option (BitVec 32)) (s : State) : Res :=
  match domainOf fn off with
  | some d =>
    if fnReach s fn && !(if w.isNone then domainAnswers s d else domainRuns s d) then .next (stoppedAccess s d fn off w)
    else no "STOPPED_DOMAIN_ACCESS"
  | none => no "STOPPED_DOMAIN_ACCESS"

/-- The value that a read returns to the host. -/
def answer (s : State) (v : BitVec 64) : State := { s with out := { s.out with read := some v } }

/-- An access of a function to one of its blocks takes place where the block answers, and is held or dropped where it is stopped (R14,
R408). -/
def reached (row : String) (s : State) (fn off : Nat) (w : Option (BitVec 32)) (f : State → State) : Res :=
  if fnReach s fn then
    match domainOf fn off with
    | some d => .next (if (if w.isNone then domainAnswers s d else domainRuns s d) then f s else stoppedAccess s d fn off w)
    | none => .next (f s)
  else no row

/-- PAIR_LO_READ (R9). -/
def execPairLoRead (fn off : Nat) (s : State) : Res :=
  if isLo fn off then
    reached "PAIR_LO_READ" s fn off none (fun s =>
      let (v, t) := loRead s fn off
      answer t (v.setWidth 64))
  else no "PAIR_LO_READ"

/-- PAIR_HI_READ (R9). -/
def execPairHiRead (fn off : Nat) (s : State) : Res :=
  if decide (4 ≤ off) && isLo fn (off - 4) then
    reached "PAIR_HI_READ" s fn off none (fun s =>
      let (v, t) := hiHalf s fn (off - 4)
      answer t (v.setWidth 64))
  else no "PAIR_HI_READ"

/-- PAIR_LO_WRITE (R9). -/
def execPairLoWrite (fn off : Nat) (v : BitVec 32) (s : State) : Res :=
  if isLo fn off then reached "PAIR_LO_WRITE" s fn off (some v) (fun s => loWrite s fn off v) else no "PAIR_LO_WRITE"

/-- PAIR_HI_WRITE (R9). -/
def execPairHiWrite (fn off : Nat) (v : BitVec 32) (s : State) : Res :=
  if decide (4 ≤ off) && isLo fn (off - 4) then
    reached "PAIR_HI_WRITE" s fn off (some v) (fun s => hiWrite s fn (off - 4) v)
  else no "PAIR_HI_WRITE"

/-- A 64-bit read: both halves of a pair, two words of the MSI-X table, or 0 (R7, R8, R9; log 14). -/
def read64 (s : State) (fn off : Nat) : State :=
  if isLo fn off then
    let (lo, t) := loRead s fn off
    let (hi, u) := hiHalf t fn off
    answer u (hi ++ lo)
  else if (msixOff fn off).isSome && off % 8 == 0 then answer s (regValue s fn (off + 4) ++ regValue s fn off)
  else answer s 0

/-- PAIR_64_ACCESS: the _LO access, then the _HI access, each held or dropped where the block is stopped; at any other register an
access of another size, but for the MSI-X table (R7, R8, R9, R408; log 14). -/
def execPair64Access (fn off : Nat) (w : Option (BitVec 64)) (s : State) : Res :=
  if !(fnReach s fn) then no "PAIR_64_ACCESS"
  else
    let served := match domainOf fn off with
      | some d => if w.isNone then domainAnswers s d else domainRuns s d
      | none => true
    let half := fun (k : Nat) => w.map (fun v => BitVec.ofNat 32 (v.toNat / 2 ^ k))
    match w with
    | some v =>
      if served then .next (barWrite s fn off (leBytes 8 v.toNat))
      else .next (stoppedAccess (stoppedAccess s ((domainOf fn off).getD 0) fn off (half 0)) ((domainOf fn off).getD 0) fn (off + 4) (half 32))
    | none =>
      if served then .next (read64 s fn off)
      else .next (stoppedAccess (stoppedAccess s ((domainOf fn off).getD 0) fn off none) ((domainOf fn off).getD 0) fn (off + 4) none)

end Sys2Proof.Machine
end

