-- ==== Sys2Proof/Machine/Attest.lean ====
section
/-! DEFINITION. Attestation, IDE keys and TDISP on PF0's DOE mailbox, by content (R272, R300, R367 to R369; log 13). -/

namespace Sys2Proof.Machine

/-- The mailbox answers: the link and the management core are out of reset, or the core restarts (R343, R367, R409). -/
def doeUp (s : State) : Bool := domainRuns s 1 && (domainRuns s 4 || s.flt.mcRestarting)

/-- Put an answer on the mailbox. -/
def reply (s : State) (a : DoeAnswer) : State := { s with out := { s.out with doe := a } }

/-- A request on the mailbox: Busy while the management core restarts (R367). -/
def onDoe (row : String) (s : State) (f : State) : Res :=
  if !(doeUp s) then no row
  else if s.flt.mcRestarting then .next (reply s (.errorCode "Busy"))
  else .next f

/-- A request that needs negotiated algorithms. -/
def whenNegotiated (s : State) (f : State) : State := if s.spdm.negotiated then f else reply s (.errorCode "UnexpectedRequest")

/-- A signature of IDK-3072 over a transcript whose bytes the spec does not fix (R367; log 7, log 13). -/
def signTranscript (s : State) : List Byte × State :=
  let (m, s) := drawBytes s 32
  signIdk s m

/-- The DOE protocols: vendor, type (R272). -/
def doeProtocols : List (Nat × Nat) := [(1, 0), (1, 1), (1, 2)]

/-- DOE_DISCOVERY (R272). -/
def execDoeDiscovery (index : Nat) (s : State) : Res :=
  onDoe "DOE_DISCOVERY" s (reply s (match doeProtocols[index]? with
    | some (v, p) => .protocols (if index + 1 < doeProtocols.length then index + 1 else 0) v p
    | none => .protocols 0 0xFFFF 0))

/-- GET_VERSION: versions 1.2 and 1.3; a new connection begins and its sessions end (R367; PRESUMED, log 13). -/
def execGetVersion (s : State) : Res :=
  onDoe "GET_VERSION" s (reply { s with spdm := { s.spdm with version := 0, negotiated := false, dhe := 0, sessions := [] } }
    (.version [0x12, 0x13]))

/-- GET_CAPABILITIES (R367). -/
def execGetCapabilities (s : State) : Res :=
  onDoe "GET_CAPABILITIES" s (reply s (.capabilities ["CERT", "CHAL", "MEAS", "KEY_EX", "ENCRYPT", "MAC", "HBEAT", "KEY_UPD", "SET_CERT"]))

/-- The offered algorithms hold one that the device has, each operand a DSP0274 bit mask: RSASSA-PSS 3072 is bit 3, SHA-256 bit 0,
secp256r1 and secp384r1 bits 3 and 4, AES-256-GCM bit 1 (R367; PRESUMED, log 13). -/
def offersAll (asym hash dhe aead : Nat) : Bool :=
  bitAt asym 3 && bitAt hash 0 && (bitAt dhe 3 || bitAt dhe 4) && bitAt aead 1

/-- NEGOTIATE_ALGORITHMS; which group it takes of two that are offered is open (R367; log 7). -/
def execNegotiateAlgorithms (ver asym hash dhe aead : Nat) (s : State) : Res :=
  onDoe "NEGOTIATE_ALGORITHMS" s
    (if !([0x12, 0x13].contains ver) then reply s (.errorCode "VersionMismatch")
    else if !(offersAll asym hash dhe aead) then reply s (.errorCode "UnsupportedRequest")
    else
      let (v, t) := drawBytes s 1
      let g := if !(bitAt dhe 4) then 3 else if !(bitAt dhe 3) then 4 else 3 + leNat v % 2
      reply { t with spdm := { t.spdm with version := ver, negotiated := true, dhe := g } } (.algorithms ver g))

/-- The chain of a certificate slot, empty when none is provisioned (R367). -/
def chainOf (s : State) (slot : Nat) : List Byte :=
  match slot with
  | 0 => Config.chain0
  | 1 => s.mgt.chain1
  | _ => []

/-- A certificate slot is provisioned. -/
def slotHeld (s : State) (slot : Nat) : Bool := slot == 0 || (slot == 1 && !(s.mgt.chain1.isEmpty))

/-- GET_DIGESTS (R367). -/
def execGetDigests (s : State) : Res :=
  onDoe "GET_DIGESTS" s (whenNegotiated s
    (reply s (.digests (1 + 2 * b2n (slotHeld s 1)) (([0, 1].filter (slotHeld s)).map (fun i => sha256 (chainOf s i))))))

/-- GET_CERTIFICATE: a portion of a chain, and how much remains (R367). -/
def execGetCertificate (slot off len : Nat) (s : State) : Res :=
  onDoe "GET_CERTIFICATE" s (whenNegotiated s
    (let c := chainOf s slot
    if slotHeld s slot && decide (off ≤ c.length) then reply s (.certificate slot (sub c off len) (c.length - off - len))
    else reply s (.errorCode "InvalidRequest")))

/-- The measurement blocks that an index names: one, or all for 0xFF (R368). -/
def measBlocks (s : State) (index : Nat) : List (Nat × List Byte) :=
  let is := if index = 0xFF then [1, 2, 3, 4, 5, 6, 7] else [index]
  is.map (fun i => (i, measBlock s i))

/-- CHALLENGE: the hash of the chain, the summary of the measurements and a signature (R367). -/
def execChallenge (slot : Nat) (nonce : List (BitVec 8)) (s : State) : Res :=
  onDoe "CHALLENGE" s (whenNegotiated s
    (if slotHeld s slot && nonce.length == 32 then
      let (sig, t) := signTranscript s
      reply t (.challenge slot (sha256 (chainOf s slot)) (sha256 (((measBlocks s 0xFF).map (·.2)).flatten)) sig)
    else reply s (.errorCode "InvalidRequest")))

/-- GET_MEASUREMENTS: the number of blocks for index 0, one block, or all, with a signature when asked (R367, R368). -/
def execGetMeasurements (index : Nat) (sign : Bool) (nonce : List (BitVec 8)) (s : State) : Res :=
  onDoe "GET_MEASUREMENTS" s (whenNegotiated s
    (if !(decide (index ≤ 7) || index == 0xFF) || (sign && nonce.length != 32) then reply s (.errorCode "InvalidRequest")
    else
      let l := if index = 0 then [(0, leBytes 1 7)] else measBlocks s index
      if sign then
        let (sig, t) := signTranscript s
        reply t (.measurements l sig)
      else reply s (.measurements l [])))

/-- The curve of a DHE group (R367). -/
def groupCurve (g : Nat) : Curve := if g = 3 then p256 else p384

/-- A public value is a point of the curve. -/
def pointOk (c : Curve) (b : List Byte) : Bool :=
  let (x, y) := ptOf c b
  b.length == 2 * c.len && decide (x < c.p) && decide (y < c.p) && onCurve c x y

/-- KEY_EXCHANGE: a secured session begins, of at most 4 (R367). -/
def execKeyExchange (group : Nat) (pub : List (BitVec 8)) (s : State) : Res :=
  onDoe "KEY_EXCHANGE" s (whenNegotiated s
    (let c := groupCurve s.spdm.dhe
    if group ≠ s.spdm.dhe ∨ pointOk c pub = false then reply s (.errorCode "InvalidRequest")
    else if 4 ≤ s.spdm.sessions.length then reply s (.errorCode "SessionLimitExceeded")
    else
      let sid := s.spdm.nextSid
      let (r, t) := drawBytes s c.len
      let (sig, t) := signTranscript t
      let t := { t with spdm := { t.spdm with nextSid := sid + 1, sessions := t.spdm.sessions.put sid { finished := false, updates := 0, beats := 0 } } }
      reply t (.keyExchange sid (ptBytes c (ecMul c (beNat r % (c.n - 1) + 1) (ecBase c))) sig)))

/-- Change a secured session and acknowledge. -/
def onSession (s : State) (sid : Nat) (what : String) (f : SpdmSession → SpdmSession) : State :=
  match s.spdm.sessions.find sid with
  | some x =>
    if x.finished then reply { s with spdm := { s.spdm with sessions := s.spdm.sessions.put sid (f x) } } (.ack what)
    else reply s (.errorCode "InvalidSession")
  | none => reply s (.errorCode "InvalidSession")

/-- The secured session is in force: every IDE_KM and TDISP message runs inside one (R272, R369). -/
def secured (s : State) (sid : Nat) : Bool :=
  match s.spdm.sessions.find sid with
  | some x => x.finished
  | none => false

/-- A message inside a secured session. -/
def inSession (s : State) (sid : Nat) (f : State) : State := if secured s sid then f else reply s (.errorCode "InvalidSession")

/-- FINISH: the handshake completes, or the session ends when the requester's data does not verify (R367; PRESUMED, log 13). -/
def execFinish (sid : Nat) (ok : Bool) (s : State) : Res :=
  onDoe "FINISH" s
    (match s.spdm.sessions.find sid with
    | some x =>
      if x.finished then reply s (.errorCode "UnexpectedRequest")
      else if ok then reply { s with spdm := { s.spdm with sessions := s.spdm.sessions.put sid { x with finished := true } } } (.ack "FINISH")
      else reply { s with spdm := { s.spdm with sessions := s.spdm.sessions.del sid } } (.errorCode "DecryptError")
    | none => reply s (.errorCode "InvalidSession"))

/-- HEARTBEAT (R367). -/
def execHeartbeat (sid : Nat) (s : State) : Res :=
  onDoe "HEARTBEAT" s (onSession s sid "HEARTBEAT" (fun x => { x with beats := x.beats + 1 }))

/-- KEY_UPDATE: UpdateKey, UpdateAllKeys or VerifyNewKey; IDE keys are not affected (R367, R389; PRESUMED, log 13). -/
def execKeyUpdate (sid op : Nat) (s : State) : Res :=
  onDoe "KEY_UPDATE" s
    (if inR op 1 3 then onSession s sid "KEY_UPDATE" (fun x => { x with updates := if op = 3 then x.updates else x.updates + 1 })
    else reply s (.errorCode "InvalidRequest"))

/-- END_SESSION (R367). -/
def execEndSession (sid : Nat) (s : State) : Res :=
  onDoe "END_SESSION" s (inSession s sid
    (reply { s with spdm := { s.spdm with sessions := s.spdm.sessions.del sid } } (.ack "END_SESSION")))

/-- SET_CERTIFICATE: slot 1, up to 8 KB. Any requester with a negotiated connection may give it, and no audit record is written: no rule
names a role for it (R3, R367; DESIGN CHOICE, log 58). -/
def execSetCertificate (slot : Nat) (chain : List (BitVec 8)) (s : State) : Res :=
  onDoe "SET_CERTIFICATE" s (whenNegotiated s
    (if slot = 1 ∧ chain.length ≤ 8192 then reply { s with mgt := { s.mgt with chain1 := chain } } (.ack "SET_CERTIFICATE")
    else reply s (.errorCode "InvalidRequest")))

/-- Change one IDE stream of the 8 (R272, R369). -/
def onStream (s : State) (stream : Nat) (what : String) (f : IdeStream → IdeStream) : State :=
  if stream < 8 then
    reply { s with spdm := { s.spdm with ide := s.spdm.ide.put stream (f (s.spdm.ide.get stream ide0)) } } (.ack what)
  else reply s (.errorCode "InvalidRequest")

/-- KEY_PROG: one 256-bit key of a stream, key set, direction and substream (R369). -/
def execKeyProg (sid stream kset : Nat) (tx : Bool) (sub : Nat) (key : List (BitVec 8)) (s : State) : Res :=
  onDoe "KEY_PROG" s (inSession s sid
    (if kset < 2 ∧ sub < 3 ∧ key.length = 32 then
      onStream s stream "KP_ACK" (fun x => { x with keys := x.keys.put (6 * kset + 3 * b2n tx + sub) key })
    else reply s (.errorCode "InvalidRequest")))

/-- K_SET_GO (R369). -/
def execKSetGo (sid stream kset : Nat) (tx : Bool) (s : State) : Res :=
  onDoe "K_SET_GO" s (inSession s sid
    (if kset < 2 then onStream s stream "K_GOSTOP_ACK" (fun x => if tx then { x with txSet := some kset } else { x with rxSet := some kset })
    else reply s (.errorCode "InvalidRequest")))

/-- K_SET_STOP: the stream's keys are cleared (R369). -/
def execKSetStop (sid stream : Nat) (s : State) : Res :=
  onDoe "K_SET_STOP" s (inSession s sid (onStream s stream "K_GOSTOP_ACK" (fun x => { x with keys := [], rxSet := none, txSet := none })))

/-- A TDISP message to a TDI: each VF that is present is one (R272). -/
def onTdi (s : State) (sid fn : Nat) (f : State) : State :=
  inSession s sid (if fn ≠ 0 ∧ (fnRecOf s fn).present = true then f else reply s (.errorCode "InvalidInterface"))

/-- A TDI changes its state. -/
def setTdi (s : State) (fn : Nat) (x : TdiState) : State := { s with spdm := { s.spdm with tdi := s.spdm.tdi.put fn x } }

/-- LOCK_INTERFACE_REQUEST: CONFIG_UNLOCKED to CONFIG_LOCKED (R300). -/
def execLockInterfaceRequest (sid fn : Nat) (s : State) : Res :=
  onDoe "LOCK_INTERFACE_REQUEST" s (onTdi s sid fn
    (if tdiOf s fn = .unlocked then reply (setTdi s fn .locked) (.ack "LOCK_INTERFACE_RESPONSE") else reply s (.errorCode "InvalidInterfaceState")))

/-- START_INTERFACE_REQUEST: CONFIG_LOCKED to RUN (R300). -/
def execStartInterfaceRequest (sid fn : Nat) (s : State) : Res :=
  onDoe "START_INTERFACE_REQUEST" s (onTdi s sid fn
    (if tdiOf s fn = .locked then reply (setTdi s fn .run) (.ack "START_INTERFACE_RESPONSE") else reply s (.errorCode "InvalidInterfaceState")))

/-- STOP_INTERFACE_REQUEST: to CONFIG_UNLOCKED (R300). -/
def execStopInterfaceRequest (sid fn : Nat) (s : State) : Res :=
  onDoe "STOP_INTERFACE_REQUEST" s (onTdi s sid fn (reply (setTdi s fn .unlocked) (.ack "STOP_INTERFACE_RESPONSE")))

/-- GET_DEVICE_INTERFACE_REPORT of a locked or running TDI: its BAR0 range, function page, MSI-X table and pending-bit array, each an
offset and a size, and its partition (R274, R369; the state PRESUMED, log 13). -/
def execGetDeviceInterfaceReport (sid fn : Nat) (s : State) : Res :=
  onDoe "GET_DEVICE_INTERFACE_REPORT" s (onTdi s sid fn
    (if tdiLocked s fn then reply s (.report fn [0, 0x10000, 0, 0x228, 0x8000, 0x400, 0xC000, 8, (fnRecOf s fn).part])
    else reply s (.errorCode "InvalidInterfaceState")))

end Sys2Proof.Machine
end

