-- ==== Sys2Proof/Machine/Keys.lean ====
section
/-! DEFINITION. Seeded key streams: SE.KEY, the key header's checks (R207 to R209), and seed
expansion by SX (R49 to R54, R210). -/

namespace Sys2Proof.Machine

/-- The kind word of a key (R49). -/
def kindWord (p : Pset) (h : List Byte) : Nat :=
  match khKind h with
  | 2 => 2 + khGalois h * 256
  | 3 => 3 + (2 * psN p - 1) * 256
  | k => k

/-- The first `n` bytes of the expansion of a seed for (d, l, w): SHAKE-128 (R51), or AES-256 in counter mode (R52). -/
def expandBytes (xof : Nat) (seed : List Byte) (d l w n : Nat) : List Byte :=
  let tag := leBytes 4 d ++ leBytes 4 l ++ leBytes 4 w
  if xof = 1 then shake128 n (seed ++ tag)
  else
    let box := aesSbox
    let ks := aesKeys box seed
    ((List.range (cdiv n 16)).map (fun i => aesBlockWith box ks (tag ++ leBytes 4 i))).flatten.take n

/-- The key kinds of the ring (R53). -/
def ringKey (h : List Byte) : Bool := [1, 2, 3, 6].contains (khKind h)

/-- The storage-order index of a prime-table index (R36, R53). -/
def primeIndex (p : Pset) (l : Nat) : Nat := if l < 96 then l else p.l + (l - 96)

/-- The value of an expanded element (R51). -/
def keyElem (p : Pset) (h : List Byte) (l u : Nat) : Nat :=
  if ringKey h then u % ((p.primes[primeIndex p l]?).getD (1, 0, 0)).1
  else if psWidth p = 4 then u % 2 ^ 32 else u

/-- Check 4 of R208: D, LIDX and J0 + JCOUNT within R53's ranges. -/
def keyRangeOk (p : Pset) (h : List Byte) (c : Cmd) : Bool :=
  let d := skD c
  let l := skLidx c
  let end_ := skJ0 c + skJcount c
  decide (1 ≤ skJcount c) && decide (skJcount c ≤ 524288) &&
    (if ringKey h then
      decide (d < p.dnum) && (decide (l < p.l) || (decide (96 ≤ l) && decide (l < 96 + p.k))) && decide (end_ ≤ psN p)
    else if khKind h = 5 then
      decide (d < (p.glweK + 1) * khLevels h) && decide (l < p.lweN) && decide (end_ ≤ p.glweK * psN p)
    else decide (d < khLevels h) && decide (l < Nat.max 1 p.glweK * psN p) && decide (end_ ≤ p.lweN))

/-- The device address of element `j` of the stored a-half of (D, LIDX), its place following the DNUM of the key's set (R50, R209; DESIGN
CHOICE, log 58). -/
def storedElem (p : Pset) (h : List Byte) (c : Cmd) (j : Nat) : Nat :=
  let w := psWidth p
  let n := psN p
  let d := skD c
  let l := skLidx c
  if ringKey h then
    khData h + p.dnum * (p.l + p.k) * n * w + ((d * (p.l + p.k) + primeIndex p l) * n + j) * w
  else if khKind h = 5 then
    khData h + ((l * ((p.glweK + 1) * khLevels h) + d) * (p.glweK + 1) + 1) * n * w + j * w
  else khData h + l * roundUp (khLevels h * (p.lweN + 1) * w) 4096 + (d * (p.lweN + 1) + 1 + j) * w

/-- The b-half transfer of an SE.KEY as an SE.READ in identity order (R207). -/
def keyAsRead (c : Cmd) : Cmd :=
  let perm := (List.range 6).foldl (fun v p => v + p * 2 ^ (132 + 3 * p)) 0
  BitVec.ofNat 256 (c.toNat / 2 ^ 150 * 2 ^ 150 + perm + skSaddr c * 2 ^ 109 + skSstride c * 2 ^ 86)

/-- The descriptor of a b-half, whose walk takes no block list. -/
def keyDesc (d : Desc) : Desc := BitVec.ofNat 1024 (setFld (setFld d.toNat 48 8 0) 704 48 0)

/-- The queue entry of the b-half transfer of an SE.KEY, none when it has none. -/
def keyEntry (q : QEntry) : Option QEntry :=
  if seDesc q.word = 0x3FF then none else some { q with word := keyAsRead q.word, desc := q.desc.map keyDesc }

/-- SE_KEY: issue, with the checks of the b-half segment; the key header is read next (R202, R207). -/
def execSeKey (t e cyc : Nat) (s : State) : Res :=
  match streamHead s t e cyc .seKey with
  | none => no "SE_KEY"
  | some (g, x, q) =>
    let bad := match keyEntry q with
      | none => none
      | some k => issueCheck s g t x (2 + e) cyc k false
    match bad with
    | some d => .next (tileAbort s g t d)
    | none =>
      let (y, v) := popIssue x (2 + e) cyc q
      let y := setStreams y e (streamsOf y e ++ [stream0 2 q cyc .header])
      match firstViol v with
      | some d => .next (tileAbort (setTile s t y) g t d)
      | none => .next (pumpBoth (setTile s t y) g t cyc)

/-- Checks 1 to 4 of R208 in their order; the status of the first that fails (R28). -/
def keyChecks (s : State) (g : Group) (c : Cmd) (h : List Byte) : Nat :=
  match entryOf s g.handle with
  | none => stKeyMismatch
  | some en =>
    match en.image with
    | none => stKeyMismatch
    | some i =>
      match i.objs.find? (fun o => o.role == 2 && o.slot == skSlot c) with
      | none => stKeyMismatch
      | some d =>
        if !(intactKy h && ohValid h && khGen h == genOf (headerAt en.headers d.slot)) then stHeaderInvalid
        else if !((srcHeaders i.objs en.headers d.srcmask).all (fun k => ohKeyid k == ohKeyid h) && khKind h == d.kind &&
            (!(d.kind == 2 || d.kind == 3) || khGalois h == d.galois)) then stKeyMismatch
        else
          match s.ts.sessions.find g.session with
          | none => stDescRange
          | some x =>
            match psetOf x (ohPset h) with
            | none => stDescRange
            | some p => unlessOk (keyRangeOk p h c) stDescRange

/-- The set of a key header in the session of a group. -/
def keySet (s : State) (g : Group) (h : List Byte) : Option Pset :=
  match s.ts.sessions.find g.session with
  | none => none
  | some x => psetOf x (ohPset h)

/-- The a-half's extent at width `w` (R209). -/
def aHalf (c : Cmd) (w : Nat) : Nat × Nat := (skXaddr c, w * skJcount c)

/-- The checks of the a-half's destination (R149, R209). -/
def aHalfCheck (foot : Nat) (c : Cmd) (k : Option QEntry) (w cyc unit pc : Nat) : Option Detail :=
  let (a, n) := aHalf c w
  let bad := fun st a => some (streamViol st cyc unit a pc)
  if a % w ≠ 0 then bad stDescAlign a
  else match firstOutside foot a n with
    | some x => bad stDescRange x
    | none =>
      match k with
      | none => none
      | some k =>
        let p := packedExtent k.word (k.desc.getD 0)
        if overlaps a n p.1 p.2 || (decide (spadSize < a + n) && overlaps 0 (a + n - spadSize) p.1 p.2) then bad stDescAlias a
        else none

/-- The marks of the packed rows of the b-half (R203). -/
def bWords (q : QEntry) : List (Nat × Nat) :=
  match keyEntry q with
  | none => []
  | some k =>
    let d := k.desc.getD 0
    rowWords (seSaddr k.word) (seSstride k.word) (packRows k.word d) (packRow k.word d)

/-- The marks of the command's widest a-half that lie beyond its real extent, and in no b-half row, clear (R203). -/
def clearBeyond (x : Tile) (st : Stream) (w cyc : Nat) : Tile :=
  let (a, n) := aHalf st.entry.word w
  let rows := bWords st.entry
  { x with marks := x.marks.map (fun (m : Mark) =>
      if m.num == st.entry.num && m.commit.isNone && !(touchesWord a n m.addr) && !(rows.contains (m.addr, m.len))
      then { m with commit := some cyc } else m) }

/-- The command with the requests of its b-half (R198, R207). -/
def keyRequests (s : State) (g : Group) (x : Tile) (st : Stream) : Stream :=
  let none_ := { st with phase := .active, dev := 0 }
  match keyEntry st.entry with
  | none => none_
  | some k =>
    match placeIn s g x (k.desc.getD 0) with
    | none => none_
    | some p => { startStream { st with entry := k } (k.desc.getD 0) p [[]] with entry := st.entry }

/-- The elements of a stored a-half: device address, packed address, size (R209). -/
def storedElems (p : Pset) (h : List Byte) (c : Cmd) : List (Nat × Nat × Nat) :=
  let w := psWidth p
  (List.range (skJcount c)).map (fun i => (storedElem p h c (skJ0 c + i), spadMod (skXaddr c + w * i), w))

/-- The command with the requests of its b-half and, for an unseeded key, of the stored a-half. -/
def keyStream (s : State) (g : Group) (x : Tile) (cyc : Nat) (st : Stream) (extra : List (Nat × Nat × Nat)) : Stream :=
  let k := keyRequests s g x st
  { k with elems := k.elems ++ extra, reqs := k.reqs ++ reqsOf 0 2 extra k.elems.length, first := Nat.max k.first cyc, last := Nat.max k.last cyc }

/-- The command starts its transfers in cycle `cyc`; `v` is what it has violated so far (R202, R203). -/
def startKey (s : State) (g : Group) (t e cyc : Nat) (y : Tile) (st : Stream) (extra : List (Nat × Nat × Nat)) (v : List Detail) : State :=
  let st := keyStream s g y cyc st extra
  let z := readSource (putStream y e st) e cyc st
  match firstViol (v ++ streamReadViols (footOf s g.handle) z e st.entry false ++ lateReads z st.entry.num ++ lateWrites z st.entry.num) with
  | some d => tileAbort (setTile s t z) g t d
  | none => pumpBoth (setTile s t z) g t cyc

/-- The newest command of an engine, when it is in this phase. -/
def newestIn (s : State) (t e : Nat) (ph : StreamPhase) : Option (Group × Stream) :=
  match live s t, (streamsOf (tileOf s t) e).getLast? with
  | some g, some st => if st.phase = ph then some (g, st) else none
  | _, _ => none

/-- The header of a key has been asked for and can be there in cycle `cyc`. -/
def headerDue (s : State) (g : Group) (t : Nat) (x : Tile) (st : Stream) (cyc : Nat) : Bool :=
  !(st.asking == 0) && decide (st.asking - 1 ≤ cyc) && arrives s g t x cyc

/-- The tile once the header `h` of a key of width `w` has come: the tracker of the read is free, and the marks beyond the a-half clear
(R203, R206). -/
def headedTile (x : Tile) (e cyc w : Nat) (st : Stream) (h : List Byte) : Tile × Stream :=
  let st := { st with header := h, asking := 0, first := cyc, last := Nat.max st.last cyc, phase := if khSeeded h then .sx else st.phase }
  let y := clearBeyond x st w cyc
  (putStream { y with trackers := y.trackers.put e (y.trackers.get e 0 - 1) } e st, st)

/-- A key whose header has passed its checks: an unseeded one starts its transfers, a seeded one waits for SX (R124, R202, R209). -/
def keyGoes (s : State) (g : Group) (t e cyc : Nat) (p : Pset) (st : Stream) (h : List Byte) : State :=
  let x := tileOf s t
  let (y, st) := headedTile x e cyc (psWidth p) st h
  if khSeeded h then pumpBoth (setTile s t y) g t cyc
  else
    let el := storedElems p h st.entry.word
    let bad := match imageOf s g.handle with
      | none => none
      | some i => badElem i x.args g.epoch 0 el
    match bad with
    | some b => tileAbort s g t (streamViol stDescRange cyc (2 + e) b st.entry.pc)
    | none => startKey s g t e cyc y st el []

/-- KEY_HEADER_CHECK: the header of KSLOT is read and checked; an unseeded key then starts its transfers, a seeded one waits
for SX (R203, R208, R209). -/
def execKeyHeaderCheck (t e cyc : Nat) (s : State) : Res :=
  match newestIn s t e .header with
  | none => no "KEY_HEADER_CHECK"
  | some (g, st) =>
    let x := tileOf s t
    let c := st.entry.word
    let a := (x.args.get (skSlot c) 0).toNat
    if !(headerDue s g t x st cyc) || devWaits s g.part a 256 then no "KEY_HEADER_CHECK"
    else
      let unit := 2 + e
      let fail := fun (s : State) st' => tileAbort s g t (streamViol st' cyc unit a st.entry.pc)
      match devRead s g.part g.handle a 256 with
      | (s, none) => .next (loseWork s g.handle)
      | (s, some h) =>
        let r := keyChecks s g c h
        match fireTile s g t 5 0x0A cyc unit with
        | some s' => .next s'
        | none =>
        if r ≠ 0 then .next (fail s r)
        else
          match keySet s g h with
          | none => .next (fail s stDescRange)
          | some p =>
            match aHalfCheck (footOf s g.handle) c (keyEntry st.entry) (psWidth p) cyc unit st.entry.pc with
            | some d => .next (tileAbort s g t d)
            | none => .next (keyGoes s g t e cyc p st h)

/-- The unit that a stream needs: 1 a SHAKE core, 2 the AES pipelines (R210). -/
def sxNeeds (h : List Byte) : Nat := if khXof h = 1 then 1 else 2

/-- The unit is free in cycle `cyc`: fewer than 8 SHAKE streams run, or no AES stream (R210). -/
def sxFree (x : Tile) (e unit cyc : Nat) : Bool :=
  let n := ((streamsOf x e).filter (fun st => st.sxUnit == unit && decide (cyc ≤ st.sxEnd))).length
  if unit = 1 then decide (n < 8) else decide (n = 0)

/-- The cycle in which element `j` of a stream that starts in `c` is produced (R210). -/
def sxCycle (unit c j0 j : Nat) : Nat :=
  if unit = 1 then c + 4 * (j / 21 + 1) else c + (j / 2 - j0 / 2) / 16 + 1

/-- The a-half words of a stream: cycle, address and bytes of each (R209). -/
def sxWords (unit c w : Nat) (k : Cmd) (bytes : List Byte) : List (Nat × Nat × List Byte) :=
  let (a, n) := aHalf k w
  (List.range (if n = 0 then 0 else (a % 64 + n + 63) / 64)).map (fun i =>
    let lo := Nat.max a (a / 64 * 64 + 64 * i) - a
    let hi := Nat.min n (a / 64 * 64 + 64 * i + 64 - a)
    (sxCycle unit c (skJ0 k) (skJ0 k + (hi - 1) / w), spadMod (a + lo), sub bytes lo (hi - lo)))

/-- The elements that SX produces for a stream: J0 to J0 + JCOUNT − 1 (R51 to R53, R209). -/
def sxElems (p : Pset) (h : List Byte) (c : Cmd) : List Nat :=
  let raw := expandBytes (khXof h) (khSeed h) (skD c) (skLidx c) (kindWord p h) (8 * (skJ0 c + skJcount c))
  (List.range (skJcount c)).map (fun i => keyElem p h (skLidx c) (le raw (8 * (skJ0 c + i)) 8))

/-- The words that SX writes for a stream that starts in cycle `cyc` (R209, R210). -/
def sxOut (p : Pset) (st : Stream) (cyc : Nat) : List (Nat × Nat × List Byte) :=
  sxWords (sxNeeds st.header) cyc (psWidth p) st.entry.word (((sxElems p st.header st.entry.word).map (leBytes (psWidth p))).flatten)

/-- A word that SX has produced: its marks end, and it is written in its slot of rank 5, eight words an ACLK at most (R209, R429). -/
def sxLand (rows : List (Nat × Nat)) (e : Nat) (q : QEntry) (x : Tile) (k : Nat × Nat × List Byte) : Tile :=
  let y := { x with marks := x.marks.map (fun (m : Mark) =>
    if m.num == q.num && m.commit.isNone && touchesWord m.addr m.len (word64 k.2.1) && !(rows.contains (m.addr, m.len))
    then { m with commit := some k.1 } else m) }
  placeWrite y lowRank k.1 (word64 k.2.1) [(k.2.1, k.2.2)] (2 + e) q.num q.pc

/-- The tile with every word that SX writes for a command from cycle `cyc` on. -/
def sxTile (x : Tile) (e cyc : Nat) (p : Pset) (st : Stream) : Tile :=
  (sxOut p st cyc).foldl (sxLand (bWords st.entry) e st.entry) x

/-- The cycle in which SX has produced the last word of the command. -/
def sxLast (p : Pset) (st : Stream) (cyc : Nat) : Nat := (sxOut p st cyc).foldl (fun m k => Nat.max m k.1) cyc

/-- SX_STREAM_START: the unit that the header requires is free: the a-half's words are produced and written, and the b-half's
requests leave (R202, R209, R210). -/
def execSxStreamStart (t e cyc : Nat) (s : State) : Res :=
  match newestIn s t e .sx with
  | none => no "SX_STREAM_START"
  | some (g, st) =>
    let x := tileOf s t
    let unit := sxNeeds st.header
    match keySet s g st.header with
    | none => no "SX_STREAM_START"
    | some p =>
      if decide (st.last ≤ cyc) && sxFree x e unit cyc && arrives s g t x cyc then
        let y := sxTile x e cyc p st
        let st' := { st with sxUnit := unit, sxEnd := sxLast p st cyc }
        .next (startKey s g t e cyc (putStream y e st') st' [] (landViols (footOf s g.handle) x y e st.entry))
      else no "SX_STREAM_START"

end Sys2Proof.Machine
end

