-- ==== Sys2Proof/Machine/Mma.lean ====
section
/-! DEFINITION. The modular matrix array: NOP, LOAD, LOADT and MUL with their cycles, bank use and checks (R64 to R86). -/

namespace Sys2Proof.Machine

/-- A command that executes as NOP on queue `q`: its WAIT and SIGNAL at issue (R76, R103, R167). -/
def nopCmd (row : String) (q t : Nat) (s : State) : Res :=
  match headIs s t q .nop with
  | none => no row
  | some (g, x, e) =>
    match issueOf x q e 0 0 with
    | .go c =>
      if c < 2 ^ 40 ∧ inTurn s g t x q c e = true then
        let (y, v) := popIssue x q c e
        .next (settleTile s g t (cmdSig y c (unitOf q) e) v)
      else no row
    | _ => no row

/-- MMA_NOP (R76, R81). -/
def execMmaNop (t : Nat) (s : State) : Res := nopCmd "MMA_NOP" 0 t s

/-- A resource in place of an address (R151). -/
def resource (code : Nat) : Nat := 2 ^ 31 + code

/-- A violation on a resource. -/
def resViol (subtype c unitA unitB code pc : Nat) : Detail :=
  { detail0 stContractViolation with subtype := subtype, unitA := unitA, unitB := unitB, cycle := c,
                                     address := resource code, pc := pc }

/-- The bank use of the modulus vector: four words a cycle (R82, R86). -/
def vecClaims (num unit pc rank c0 a len : Nat) : List Claim :=
  [{ num := num, unit := unit, pc := pc, rank := rank, c0 := c0, step := 1, nw := 4, write := false,
     addrs := (List.range (cdiv len 256)).map (fun (i : Nat) => spadMod (a + 256 * i)) }]

/-- Reads of words in their cycles. -/
def wordReads (foot : Nat) (x : Tile) (l : List (Nat × Nat × Nat)) (unit pc num : Nat) : List Detail :=
  (l.map (fun p => readViols foot x p.1 p.2.1 p.2.2 unit pc num false)).flatten

/-- The reads of a modulus vector with their cycles. -/
def vecReads (c a len : Nat) : List (Nat × Nat × Nat) :=
  (List.range (cdiv len 256)).map (fun (i : Nat) => (c + i, spadMod (a + 256 * i), 256))

/-- The bank use of a load: its rows, and its modulus vector (R82, R86). -/
def loadClaims (e : QEntry) (l : Nat) (claims : List Claim) : List Claim :=
  claims ++ (if lVec e.word then vecClaims e.num 0 e.pc 4 l (lMqAddr e.word) (lVecLen e.word) else [])

/-- The tile after a load that issued in cycle `l`: the plane is replaced, the holds and the signal follow (R69, R82, R84). -/
def loadTile (x : Tile) (e : QEntry) (l : Nat) (plane : Plane) (claims : List Claim) (release : Nat) : Tile :=
  let w := e.word
  let y := (popIssue x 0 l e).1
  cmdSig (setReleases { addClaims y (loadClaims e l claims) with
    planes := y.planes.put (lPlane w) plane, loads := y.loads.put (lPlane w) (w, l),
    mmaHist := y.mmaHist ++ [{ mul := false, plane := lPlane w, cyc := l, rows := 0, wide := wide (lMode w) }] } e.num
    [release, l + 1]) (l + 134) 0 e

/-- What a load violates: its WAIT's overflow, a plane still in use, its reads, its banks (R84 to R86, R149). -/
def loadViols (foot : Nat) (x : Tile) (e : QEntry) (l : Nat) (reads : List (Nat × Nat × Nat)) (claims : List Claim) (release : Nat) :
    List Detail :=
  let w := e.word
  let vec := if lVec w then vecReads l (lMqAddr w) (lVecLen w) else []
  let held := if l < loadPlaneFrom x (lPlane w) then [resViol 2 (l + 6) 0 0 (lPlane w) e.pc] else []
  (popIssue x 0 l e).2 ++ held ++ wordReads foot x (vec ++ reads) 0 e.pc e.num ++ claimViols x.claims (loadClaims e l claims) ++
    movedViols x (addClaims x (loadClaims e l claims)) ++ lateWrites (setReleases x e.num [release, l + 1]) e.num

/-- A load issues in cycle `l`: an armed SP_WORD fires at its reads, otherwise the tile as it leaves it or its first violation. -/
def runLoad (s : State) (g : Group) (t : Nat) (x : Tile) (e : QEntry) (l : Nat) (plane : Plane) (reads : List (Nat × Nat × Nat))
    (claims : List Claim) (release : Nat) : State :=
  match fireRead s g t (match reads with
    | [] => 0
    | r :: _ => r.2.1) l 0 with
  | some s' => s'
  | none => settleTile s g t (loadTile x e l plane claims release) (loadViols (footOf s g.handle) x e l reads claims release)

/-- Issue a command of the MMA or the VE: at its cycle, late, or not yet; what the tile does before comes first (R81, R111, R140). -/
def issueCmd (row : String) (s : State) (g : Group) (t q : Nat) (x : Tile) (e : QEntry) (lo full : Nat) (f : Nat → State) : Res :=
  match issueOf x q e lo full with
  | .waiting => no row
  | .late c => if due s g t x q c then .next (tileAbort s g t (lateViol c (unitOf q) e)) else no row
  | .go c => if c < 2 ^ 40 ∧ inTurn s g t x q c e = true then .next (f c) else no row

/-- The rows that MMA.LOAD reads, with the step between their cycles (R70, R82). -/
def loadRows (w : Cmd) : List Nat := (List.range (lRows w)).map (fun (k : Nat) => spadMod (lBaddr w + k * lBstride w))

/-- The row reads of MMA.LOAD with their cycles. -/
def loadReads (w : Cmd) (l : Nat) : List (Nat × Nat × Nat) := (loadRows w).mapIdx (fun k a => (l + 2 + rowStep (lMode w) * k, a, 256))

/-- The bank use of the rows of MMA.LOAD. -/
def rowClaims (e : QEntry) (l : Nat) : List Claim :=
  [{ num := e.num, unit := 0, pc := e.pc, rank := 3, c0 := l + 2, step := rowStep (lMode e.word), nw := 4, write := false,
     addrs := loadRows e.word }]

/-- The bank use of the words of MMA.LOADT, four a cycle. -/
def toeClaims (e : QEntry) (l : Nat) : List Claim :=
  (List.range 4).map (fun (j : Nat) =>
    { num := e.num, unit := 0, pc := e.pc, rank := 3, c0 := l + 2, step := 1, nw := 1, write := false,
      addrs := (List.range 4).filterMap (fun (i : Nat) => (toeWords e.word)[4 * i + j]?) : Claim })

/-- The word reads of MMA.LOADT with their cycles. -/
def toeReads (w : Cmd) (l : Nat) : List (Nat × Nat × Nat) := (toeWords w).map (fun a => (toeCycle l (toeWords w) a, a, 64))

/-- MMA_LOAD (R70, R77). -/
def execMmaLoad (t : Nat) (s : State) : Res :=
  match headIs s t 0 .load with
  | none => no "MMA_LOAD"
  | some (g, x, e) =>
    issueCmd "MMA_LOAD" s g t 0 x e (loadStruct x) (loadFull x e) (fun l =>
      runLoad s g t x e l (loadPlane x l e.word) (loadReads e.word l) (rowClaims e l) (l + 129))

/-- MMA_LOADT (R71, R78). -/
def execMmaLoadt (t : Nat) (s : State) : Res :=
  match headIs s t 0 .loadt with
  | none => no "MMA_LOADT"
  | some (g, x, e) =>
    issueCmd "MMA_LOADT" s g t 0 x e (loadStruct x) (loadFull x e) (fun l =>
      runLoad s g t x e l (toePlane x l e.word) (toeReads e.word l) (toeClaims e l) (l + 5))

/-- What row `i` of a MUL violates: its reads of A and C, its write (R82, R146, R147, R149). -/
def mulRowViols (foot mode : Nat) (x : Tile) (e : QEntry) (c i : Nat) : List Detail :=
  let w := e.word
  let a := (mAaddr w + i * mAstride w) % spadSize
  let o := (mCaddr w + i * mCstride w) % spadSize
  readViols foot x (c + i) a (mArow w mode) 0 e.pc e.num false ++
    (if mAcc w then readViols foot x (c + mulCin mode + i) o (mCrow w mode) 0 e.pc e.num true else []) ++
    writeViols foot x (c + mulCommit mode + i) o (mCrow w mode) 0 e.pc e.num

/-- The bank use of a MUL (R82, R86). -/
def mulClaims (e : QEntry) (mode c : Nat) : List Claim :=
  let w := e.word
  let rows := fun base step => (List.range (mM w)).map (fun i => (base + i * step) % spadSize)
  let k := fun rank c0 nw wr addrs =>
    { num := e.num, unit := 0, pc := e.pc, rank := rank, c0 := c0, step := 1, nw := nw, write := wr, addrs := addrs : Claim }
  [k 0 (c + mulCommit mode) (cdiv (mCrow w mode) 64) true (rows (mCaddr w) (mCstride w)),
   k 2 c (cdiv (mArow w mode) 64) false (rows (mAaddr w) (mAstride w))] ++
  (if mAcc w then [k 1 (c + mulCin mode) (cdiv (mCrow w mode) 64) false (rows (mCaddr w) (mCstride w))] else [])

/-- A MUL has left its queue and the commit cycles of its rows are known. -/
def mulMarked (x : Tile) (e : QEntry) (c : Nat) : Tile :=
  let mode := (x.planes.get (mPlane e.word) plane0).mode
  setCommits (popIssue x 0 c e).1 e.num ((List.range (mM e.word)).map (fun i => c + mulCommit mode + i))

/-- The first `n` rows of a MUL that issued in cycle `c` commit (R64, R82). -/
def mulRows (x : Tile) (e : QEntry) (c n : Nat) : Tile :=
  (List.range n).foldl (mulRow (x.planes.get (mPlane e.word) plane0) e c) (mulMarked x e c)

/-- The tile after a MUL that issued in cycle `c`: its rows commit, its hold and its signal follow (R64, R82 to R85). -/
def mulTile (x : Tile) (e : QEntry) (c : Nat) : Tile :=
  let w := e.word
  let p := x.planes.get (mPlane w) plane0
  let z := mulRows x e c (mM w)
  withRows x (cmdSig (setReleases { addClaims z (mulClaims e p.mode c) with
    jobs := z.jobs ++ [.mul e c (x.loads.find (mPlane w))],
    mmaHist := z.mmaHist ++ [{ mul := true, plane := mPlane w, cyc := c, rows := mM w, wide := wide p.mode }] } e.num
    [c + mM w - 1]) (c + mulCommit p.mode + mM w) 0 e)

/-- What a MUL violates: its WAIT's overflow, a plane not loaded, its rows, its banks (R84 to R86, R149). -/
def mulViols (foot : Nat) (x : Tile) (e : QEntry) (c : Nat) : List Detail :=
  let w := e.word
  let mode := (x.planes.get (mPlane w) plane0).mode
  (popIssue x 0 c e).2 ++ (if c < mulPlaneFrom x (mPlane w) then [resViol 1 (c + 3) 0 0 (mPlane w) e.pc] else []) ++
    ((List.range (mM w)).map (mulRowViols foot mode (mulMarked x e c) e c)).flatten ++ claimViols x.claims (mulClaims e mode c) ++
    movedViols x (addClaims x (mulClaims e mode c)) ++ lateReads (mulMarked x e c) e.num ++ lateWrites (setReleases x e.num [c + mM w - 1]) e.num

/-- The bit of an accumulator that an armed MMA_ROW flips in the tile's next output row (R358). -/
def armedFlip (s : State) (t : Nat) : Option Nat :=
  match s.flt.inj with
  | none => none
  | some i => if i.kind = 1 ∧ i.ltile = t then some (i.param % 32) else none

/-- Row `i` of a MUL has failed a check: it is not written, the rows before it are, and the fault is signalled in the cycle before its
commit (R73). -/
def mulStops (s : State) (g : Group) (t : Nat) (x : Tile) (e : QEntry) (c i source : Nat) : State :=
  let s1 := setTile s t (mulRows x e c i)
  let cyc := c + mulCommit (x.planes.get (mPlane e.word) plane0).mode + i - 1
  match if i = 0 then fireTile s1 g t 1 source cyc 0 else none with
  | some s' => s'
  | none => groupFault s1 g t source cyc 0 false

/-- A MUL issues in cycle `c`: an armed injection fires, a row fails its checks, or the tile is as it leaves it or aborts with its first
violation (R73, R357). -/
def runMul (s : State) (g : Group) (t : Nat) (x : Tile) (e : QEntry) (c : Nat) : State :=
  match fireRead s g t (mAaddr e.word) c 0 with
  | some s' => s'
  | none =>
    match mulFault (x.planes.get (mPlane e.word) plane0) e.word c (mulRows x e c (mM e.word)) (mM e.word) (armedFlip s t) with
    | some (i, f) => mulStops s g t x e c i f
    | none => settleTile s g t (mulTile x e c) (mulViols (footOf s g.handle) x e c)

/-- MMA_MUL (R64, R79). -/
def execMmaMul (t : Nat) (s : State) : Res :=
  match headIs s t 0 .mul with
  | none => no "MMA_MUL"
  | some (g, x, e) =>
    issueCmd "MMA_MUL" s g t 0 x e (mulStruct x (x.planes.get (mPlane e.word) plane0).mode) (mulFull x e)
      (fun c => runMul s g t x e c)

end Sys2Proof.Machine
end

