-- ==== Sys2Proof/Machine/Sideband.lean ====
section
/-! DEFINITION. Configuration space and translation invalidation (R211, R272, R298, R302), the management bus (R413) and the test controller
(R415). -/

namespace Sys2Proof.Machine

/-- Replace the configuration-space controls of a function. -/
def setCfg (s : State) (fn : Nat) (c : FnCfg) : State := { s with hi := { s.hi with cfgs := s.hi.cfgs.put fn c } }

/-- The pending messages of a function whose mask is gone (R289). -/
def msixFlushAll (s : State) (fn : Nat) : State := (List.range (vectorCount fn)).foldl (fun s v => msixFlush s fn v) s

/-- A function's cached translations are dropped. -/
def dropAts (s : State) (fn : Nat) : State := { s with hi := { s.hi with ats := s.hi.ats.filter (fun a => !(a.fn == fn)) } }

/-- A write of a power state: D0 is 0, D3hot is 3, and D3hot to D0 resets the function (R272, R298). -/
def powerWrite (s : State) (fn v : Nat) : State :=
  let c := cfgOf s fn
  if v % 4 = 3 then setCfg s fn { c with d3hot := true }
  else if v % 4 = 0 ∧ c.d3hot = true then resetFn s fn
  else s

/-- What a configuration-space write changes (R272, R289, R298, R302, R303); a disabled ATS keeps no translation (PRESUMED, log 14). -/
def cfgStore (s : State) (fn : Nat) (f : CfgField) (v : Nat) : State :=
  let c := cfgOf s fn
  let on := bitAt v 0
  match f with
  | .busMaster => setCfg s fn { c with busMaster := on }
  | .atsEnable => let s := setCfg s fn { c with ats := on }; if on then s else dropAts s fn
  | .priEnable => setCfg s fn { c with pri := on }
  | .pasidEnable => setCfg s fn { c with pasid := on }
  | .pageRequestAllocation => setCfg s fn { c with prAlloc := v % 2 ^ 32 }
  | .msixEnable => setCfg s fn { c with msix := on }
  | .msixFunctionMask => let s := setCfg s fn { c with msixMask := on }; if on then s else msixFlushAll s fn
  | .ideStreamEnable i =>
    if fn = 0 ∧ i < 8 then
      { s with spdm := { s.spdm with ide := s.spdm.ide.put i { s.spdm.ide.get i ide0 with enabled := on } } }
    else s
  | .powerState => powerWrite s fn v
  | .initiateFlr => if on then resetFn s fn else s

/-- CONFIG_SPACE_WRITE (R272). -/
def execConfigSpaceWrite (fn : Nat) (f : CfgField) (v : Nat) (s : State) : Res :=
  if fnReach s fn then .next (cfgStore s fn f v) else no "CONFIG_SPACE_WRITE"

/-- ATS_INVALIDATE_REQUEST: the translations of the range are dropped and a completion is sent (R211, R272). -/
def execAtsInvalidateRequest (fn : Nat) (pasid : Option Nat) (addr size : Nat) (s : State) : Res :=
  if fnReach s fn then
    let space := match pasid with
      | some p => 1 + p % 2 ^ 20
      | none => 0
    let hit := fun (a : Translation) => a.fn == fn && a.space == space && overlaps (4096 * a.page) 4096 addr size
    .next { s with hi := { s.hi with ats := s.hi.ats.filter (fun a => !(hit a)) },
                   out := { s.out with link := s.out.link ++ [.invalidateDone fn] } }
  else no "ATS_INVALIDATE_REQUEST"

/-- Byte of a temperature in two's complement (R413). -/
def tempByte (t : Int) : List Byte := leBytes 1 (imod t 256)

/-- The hottest of some temperatures. -/
def hottest (l : List Int) : Int := l.foldl max (-128)

/-- One byte of the Packet Error Code, the CRC-8 of SMBus 3.1 over x^8 + x^2 + x + 1 (R413; PRESUMED, log 57). -/
def crc8 (c : Nat) (b : Byte) : Nat :=
  (List.range 8).foldl (fun x _ => if 128 ≤ x then (2 * x) ^^^ 0x107 else 2 * x) (c ^^^ b.toNat)

/-- The address at which the management port answers (R412). -/
def smbAddress (c : Clk) : Nat := 0x58 + c.addrStrap % 4

/-- The data of an answer with its Packet Error Code, which covers the address with its write bit, the command, the address with its read
bit, and the data (R412, R413; PRESUMED, log 57). -/
def withPec (c : Clk) (cmd : Nat) (l : List Byte) : List Byte :=
  l ++ leBytes 1 ((leBytes 1 (2 * smbAddress c) ++ leBytes 1 cmd ++ leBytes 1 (2 * smbAddress c + 1) ++ l).foldl crc8 0)

/-- A management command answers from the standby copies, while 3V3_STBY is valid (R413). -/
def smbAnswer (row : String) (s : State) (cmd : Nat) (l : List Byte) : Res :=
  if domainRuns s 0 then .next { s with out := { s.out with smbus := some (withPec s.clk cmd l) } } else no row

/-- Command 0x01 (R413). -/
def execSmbDomainStatus (s : State) : Res := smbAnswer "SMB_DOMAIN_STATUS" s 1 (leBytes 4 s.smb.domain)

/-- Command 0x02 (R413). -/
def execSmbPkgState (s : State) : Res := smbAnswer "SMB_PKG_STATE" s 2 (leBytes 4 s.smb.pkg)

/-- Command 0x03 (R413). -/
def execSmbTemperatures (s : State) : Res := smbAnswer "SMB_TEMPERATURES" s 3 ((s.smb.temps.map tempByte).flatten)

/-- Command 0x04: two bytes of average power, two of POWER_W (R413). -/
def execSmbPower (s : State) : Res := smbAnswer "SMB_POWER" s 4 (leBytes 2 s.smb.power ++ leBytes 2 s.smb.powerW)

/-- Command 0x05 (R413). -/
def execSmbBootStatus (s : State) : Res := smbAnswer "SMB_BOOT_STATUS" s 5 (leBytes 4 s.smb.boot)

/-- Command 0x06 (R413). -/
def execSmbFltStatus (s : State) : Res := smbAnswer "SMB_FLT_STATUS" s 6 (leBytes 4 s.smb.flt)

/-- Command 0x07 (R413). -/
def execSmbSerial (s : State) : Res := smbAnswer "SMB_SERIAL" s 7 (leBytes 8 s.smb.serial)

/-- Any other command is refused with a NACK and changes nothing else (R413). -/
def execSmbUnsupportedCommand (cmd : Nat) (s : State) : Res :=
  if domainRuns s 0 && !(inR cmd 1 7) then .next { s with out := { s.out with smbus := none } } else no "SMB_UNSUPPORTED_COMMAND"

/-- The pin SMB_ALERT_N is asserted: a function of the state, in force whenever 3V3_STBY is valid (R413). -/
def alertNow (s : State) : Bool :=
  domainRuns s 0 && (s.mem.stks.any (fun p => decide (95 < p.2.temp)) || s.mir.zones.any (fun p => decide (95 < p.2.temp)) || powerSteps s != 0 ||
    s.flt.unrecoverable)

/-- SMB_REFRESH: the copies are refreshed, those of a stopped domain left as they are; the reading of the hottest compute-die sensor is a
free value (R413; log 7, log 24). -/
def execSmbRefresh (s : State) : Res :=
  if domainRuns s 0 then
    let (v, s) := drawBytes s 1
    let die := sext 8 (leNat v)
    let stk := if domainRuns s 6 then hottest ((List.range 20).map (fun n => (stackOf s n).temp)) else s.smb.temps.getD 1 0
    let zone := if domainRuns s 2 then hottest ((List.range 16).map (fun z => (s.mir.zones.get z zone0).temp)) else s.smb.temps.getD 2 0
    .next { s with clk := { s.clk with hottestDie := die },
                   smb := { domain := clkDomainWord s, pkg := pkgWord s, temps := [die, stk, zone], power := s.clk.avgPower,
                            powerW := s.clk.powerW, boot := if domainRuns s 2 then bootStatusWord s else s.smb.boot,
                            flt := if domainRuns s 3 then fltStatusWord s else s.smb.flt,
                            serial := if domainRuns s 2 then s.mgt.fuses.serial else s.smb.serial } }
  else no "SMB_REFRESH"

/-- A use of the test access port is allowed, while TRST_N does not hold it in reset: boundary scan always; instruments in FACTORY or under a diagnostic unlock whose SCOPE grants
them, the memory self-test under MEM_DEBUG (R375, R376, R415; log 25). -/
def tapAllowed (s : State) (k : TapAccess) : Bool :=
  let scope := match s.mgt.diag with
    | some d => if diagOpen s then d.scope else 0
    | none => 0
  !s.clk.tapReset && match k with
  | .boundaryScan => true
  | .instruments => s.mgt.lifecycle == 0 || bitAt scope 0 || bitAt scope 2
  | .memoryBist => s.mgt.lifecycle == 0 || bitAt scope 1
  | .trst _ => false

/-- TEST_CONTROLLER_ACCESS: TRST_N changes, or an access is made or not; the model has no scan chain beyond that (R415; log 25). -/
def execTestControllerAccess (k : TapAccess) (s : State) : Res :=
  if domainRuns s 0 then
    match k with
    | .trst low => .next { s with clk := { s.clk with tapReset := low } }
    | k => .next { s with out := { s.out with tap := some (tapAllowed s k) } }
  else no "TEST_CONTROLLER_ACCESS"

end Sys2Proof.Machine
end

