-- ==== Sys2Proof/Machine/Spq.lean ====
section
/-! DEFINITION. Q_SP: NOP, SP.FILL, SP.COPY and the end of a command (R167 to R172). -/

namespace Sys2Proof.Machine

/-- The head of Q_SP as a kind, with its issue cycle, when no command of Q_SP is under way and its wait is the next to be served (R140,
R172). -/
def spHead (s : State) (t : Nat) (k : EKind) : Option (Group × Tile × QEntry × Nat) :=
  match headIs s t 4 k with
  | none => none
  | some (g, x, e) =>
    match x.spBusy, spIssue x e with
    | none, some c => if c < 2 ^ 40 ∧ inTurn s g t x 4 c e = true then some (g, x, e, c) else none
    | _, _ => none

/-- SP_NOP (R167). -/
def execSpNop (t : Nat) (s : State) : Res :=
  match spHead s t .nop with
  | none => no "SP_NOP"
  | some (g, x, e, c) =>
    let (y, v) := popIssue x 4 c e
    .next (settleTile s g t (cmdSig y c 4 e) v)

/-- A word of Q_SP's command is written from cycle `c` on (R163, R172). -/
def spWrite (e : QEntry) (x : Tile) (c a : Nat) (d : List Byte) : Tile := placeWrite x spRank c a [(a, d)] 4 e.num e.pc

/-- The tile after a fill that issued in cycle `c`: word `w` requests its bank from I + 2 + w / 16 on (R168, R172). -/
def fillTile (x : Tile) (e : QEntry) (c : Nat) (words : List (Nat × Nat)) (d : List Byte) : Tile :=
  let y := setCommits { (popIssue x 4 c e).1 with spBusy := some e } e.num (words.mapIdx (fun i _ => c + 2 + i / 16))
  (words.mapIdx (fun i p => (c + 2 + i / 16, p.1))).foldl (fun y p => spWrite e y p.1 p.2 d) y

/-- The reads of a copy that issued in cycle `c`, eight an ACLK from the issue on, each in its slot (R163, R169). -/
def copyReads (x : Tile) (e : QEntry) (c : Nat) (src : List (Nat × Nat)) : Tile :=
  let y := (src.mapIdx (fun i p => (c + i / 8, p.1))).foldl (fun y p => placeRead y spRank p.1 p.2 4 e.num e.pc)
    { (popIssue x 4 c e).1 with spBusy := some e }
  setReleases y e.num [lastAccess y e.num false c]

/-- The cycles of a command's reads, in their order. -/
def readCycles (x : Tile) (num : Nat) : List Nat :=
  (sortBy (fun (a b : Claim) => decide (a.seq ≤ b.seq))
    (x.claims.filter (fun k => decide (coreRank < k.rank) && k.num == num && !(k.write)))).map (fun k => k.c0)

/-- The tile after a copy that issued in cycle `c`: word `w` is written from I + 4 + w / 8 on and four ACLK after its read at the earliest, with
what its source held at issue (R169, R171, R172; of a delayed read R172 says only later: DESIGN CHOICE, log 46). -/
def copyTile (x : Tile) (e : QEntry) (c : Nat) (dst src : List (Nat × Nat)) : Tile :=
  let y := copyReads x e c src
  let from_ := (readCycles y e.num).mapIdx (fun i k => Nat.max (c + 4 + i / 8) (k + 4))
  ((dst.zip src).zip from_).foldl (fun y p => spWrite e y p.2 p.1.1.1 (spadBytes x c p.1.2.1 64)) (setCommits y e.num from_)

/-- An extent from the first byte of row 0 to the last byte of the last row, gaps included, that leaves FOOTPRINT (R110, R149, R170). -/
def extentViol (foot c base step n len pc : Nat) : List Detail :=
  let far := ((n : Int) - 1) * stride step
  match firstOutside foot (spadMod ((base : Int) + min 0 far)) (Nat.min spadSize (far.natAbs + len)) with
  | none => []
  | some a => [rangeViol c a 4 pc]

/-- What the writes of Q_SP's command violate, each in its cycle (R147). -/
def spWriteViols (foot : Nat) (x : Tile) (num pc : Nat) : List Detail :=
  ((x.claims.filter (fun k => k.rank == spRank && k.num == num && k.write)).map (fun k =>
    writeViols foot x k.c0 (k.addrs.headD 0) 64 4 pc num)).flatten

/-- What the reads of Q_SP's command violate, each in its cycle; its own marked words are no violation: its source and destination may
overlap by any amount, and it reads what they held at issue (R146, R171; log 54). -/
def spReadViols (foot : Nat) (x : Tile) (num pc : Nat) : List Detail :=
  ((x.claims.filter (fun k => k.rank == spRank && k.num == num && !(k.write))).map (fun k =>
    readViols foot x k.c0 (k.addrs.headD 0) 64 4 pc num true)).flatten

/-- The words that a fill writes (R168, R170). -/
def fillWords (w : Cmd) : List (Nat × Nat) := rowWords (spDaddr w) (sfDstride w) (sfRows w) (64 * sfRowlen w)

/-- The word of a fill: VALUE in every element of ESIZE bytes (R168). -/
def fillWord (w : Cmd) : List Byte := (List.replicate (64 / sfEsize w) (leBytes (sfEsize w) (sfValue w))).flatten

/-- SP_FILL (R168, R170, R172). -/
def execSpFill (t : Nat) (s : State) : Res :=
  match spHead s t .fill with
  | none => no "SP_FILL"
  | some (g, x, e, c) =>
    let w := e.word
    let y := fillTile x e c (fillWords w) (fillWord w)
    let foot := footOf s g.handle
    .next (settleTile s g t y ((popIssue x 4 c e).2 ++ extentViol foot c (spDaddr w) (sfDstride w) (sfRows w) (64 * sfRowlen w) e.pc ++
      spWriteViols foot y e.num e.pc ++ lateReads y e.num ++ movedViols x y))

/-- The words that a copy writes, and those it reads (R169, R170). -/
def copyDst (w : Cmd) : List (Nat × Nat) := rowWords (spDaddr w) (scDstride w) (scRows w) (64 * scRowlen w)

/-- The words that a copy reads. -/
def copySrc (w : Cmd) : List (Nat × Nat) := rowWords (scSaddr w) (scSstride w) (scRows w) (64 * scRowlen w)

/-- SP_COPY: the destination receives what the source held at issue (R169 to R172). -/
def execSpCopy (t : Nat) (s : State) : Res :=
  match spHead s t .copy with
  | none => no "SP_COPY"
  | some (g, x, e, c) =>
    let w := e.word
    match fireRead s g t (scSaddr w) c 4 with
    | some s' => .next s'
    | none =>
      let y := copyTile x e c (copyDst w) (copySrc w)
      let foot := footOf s g.handle
      .next (settleTile s g t y ((popIssue x 4 c e).2 ++ extentViol foot c (spDaddr w) (scDstride w) (scRows w) (64 * scRowlen w) e.pc ++
        extentViol foot c (scSaddr w) (scSstride w) (scRows w) (64 * scRowlen w) e.pc ++ spReadViols foot y e.num e.pc ++
        spWriteViols foot y e.num e.pc ++ lateReads y e.num ++ lateWrites y e.num ++ movedViols x y))

/-- SP_COMMAND_DONE: the last write has committed; SIG_SEM in the ACLK after (R172). What the tile does before it comes first: the MMA, the VE
and the core may still take its banks. -/
def execSpCommandDone (t : Nat) (s : State) : Res :=
  match live s t with
  | none => no "SP_COMMAND_DONE"
  | some g =>
    let x := tileOf s t
    match x.spBusy with
    | none => no "SP_COMMAND_DONE"
    | some e =>
      let c := spEnd x e
      if due s g t x 6 c then
        let y := cmdSig { x with spBusy := none, spLast := c } c 4 e
        .next (settleTile s g t y (overViols (overBy y (c + 1))))
      else no "SP_COMMAND_DONE"

end Sys2Proof.Machine
end

