-- ==== Sys2Proof/Machine/Ve.lean ====
section
/-! DEFINITION. The vector engine and the reduction unit: set-up commands and RUN with their cycles, bank use and checks (R87 to R115,
R428). -/

namespace Sys2Proof.Machine

/-- VE_NOP (R103). -/
def execVeNop (t : Nat) (s : State) : Res := nopCmd "VE_NOP" 1 t s

/-- The bytes of an output row (R97). -/
def outRow (r : Nat) : Nat := chLanes r * chOsize r

/-- The words of an input row: four, five of a rotated RUN (R98). -/
def inWords (w : Cmd) (r : Nat) : Nat := if vrRotated w r then 5 else 4

/-- What row `j` of a RUN violates: its reads, and its write (R98, R112, R146, R147, R149). -/
def runRowViols (foot : Nat) (l : Latch) (x : Tile) (e : QEntry) (i j : Nat) : List Detail :=
  let w := e.word
  let r := l.rec_
  ((chStreams r).map (fun k =>
    let a := (rowAddr l w k j).1
    readViols foot x (i + j) a (64 * inWords w r - a % 64) 1 e.pc e.num true)).flatten ++
    (if outRow r = 0 then [] else
      writeViols foot x (i + runDepth w r + j) ((vrOaddr w + j * chOstride r) % spadSize) (outRow r) 1 e.pc e.num)

/-- The bank use of a RUN (R115). -/
def runClaims (l : Latch) (e : QEntry) (i : Nat) (ru : List (Nat × Nat × List Byte)) : List Claim :=
  let w := e.word
  let r := l.rec_
  let m := vrM w
  let k := fun unit rank c0 nw wr addrs =>
    { num := e.num, unit := unit, pc := e.pc, rank := rank, c0 := c0, step := 1, nw := nw, write := wr,
      addrs := addrs : Claim }
  let out := chLanes r * chOsize r
  (if out = 0 then [] else
    [k 1 5 (i + runDepth w r) (cdiv out 64) true ((List.range m).map (fun j => (vrOaddr w + j * chOstride r) % spadSize))]) ++
  ru.map (fun p => k 7 6 p.1 (if chRmode r = 1 then 4 else 1) true [p.2.1]) ++
  (chStreams r).map (fun v => k 1 (7 + v) i (inWords w r) false
    ((List.range m).map (fun j => (rowAddr l w v j).1)))

/-- The commit cycles of a RUN's rows, the output's and then the RU's (R112). -/
def runCommits (l : Latch) (w : Cmd) (i : Nat) : List Nat :=
  let r := l.rec_
  let m := vrM w
  let dep := runDepth w r
  (if chLanes r * chOsize r = 0 then [] else (List.range m).map (fun j => i + dep + j)) ++
    (match chRmode r with
      | 1 => (List.range (cdiv m (chL r))).map (fun p => i + dep + 8 + Nat.min (chL r * (p + 1) - 1) (m - 1))
      | 2 => [i + dep + 8 + m]
      | _ => [])

/-- A RUN has left its queue and the commit cycles of its rows are known. -/
def runMarked (x : Tile) (e : QEntry) (i : Nat) : Tile :=
  setCommits (popIssue x 1 i e).1 e.num (runCommits (runLatch x e) e.word i)

/-- The rows of a RUN and of its RU on the tile that it has left its queue on, in the order of their commits: a later row reads what an
earlier one has left (R112, R114). -/
def runRows (x : Tile) (e : QEntry) (i : Nat) : Tile :=
  (sortBy (fun (a b : Nat × (Tile → Tile)) => decide (a.1 ≤ b.1)) (Job.run e i (runLatch x e)).commits).foldl (fun y r => r.2 y) (runMarked x e i)

/-- The RU's writes of a RUN (R98 to R100). -/
def runRu (x : Tile) (e : QEntry) (i : Nat) : List (Nat × Nat × List Byte) :=
  ruWrites (runLatch x e) e.word i (runVals (runLatch x e) e.word i (runRows x e i))

/-- The cycle of a RUN's signal (R112). -/
def runSig (l : Latch) (w : Cmd) (i : Nat) : Nat :=
  match chRmode l.rec_ with
  | 1 => i + runDepth w l.rec_ + 8 + vrM w
  | 2 => i + runDepth w l.rec_ + 9 + vrM w
  | _ => i + runDepth w l.rec_ + vrM w

/-- The tile after a RUN that issued in cycle `i` (R88, R102, R112 to R114). -/
def runTile (x : Tile) (e : QEntry) (i : Nat) : Tile :=
  let w := e.word
  let l := runLatch x e
  let r := l.rec_
  let z := runRows x e i
  withRows x (cmdSig (setReleases { addClaims z (runClaims l e i (runRu x e i)) with
    jobs := z.jobs ++ [.run e i l],
    veHist := z.veHist ++ [{ kind := 0, idx := vrChain w, cyc := i, rows := vrM w, depth := runDepth w r, ru := chRmode r != 0 }] }
    e.num ((chStreams r).map (fun _ => i + vrM w - 1))) (runSig l w i) 1 e)

/-- What a RUN violates: its WAIT's overflow, a set-up it uses too early, its rows, the RU's rows, its banks (R113 to R115, R149), and what
meets its marks and holds. -/
def runViols (foot : Nat) (x : Tile) (e : QEntry) (i : Nat) : List Detail :=
  let w := e.word
  let l := runLatch x e
  let marked := runMarked x e i
  (popIssue x 1 i e).2 ++ ((runSetups x w l.rec_).filter (fun p => decide (i < p.1))).map (fun p => resViol 1 i 1 1 p.2 e.pc) ++
    ((List.range (vrM w)).map (runRowViols foot l marked e i)).flatten ++
    ((runRu x e i).map (fun p => writeViols foot marked p.1 p.2.1 p.2.2.length 7 e.pc e.num)).flatten ++
    claimViols x.claims (runClaims l e i (runRu x e i)) ++ movedViols x (addClaims x (runClaims l e i (runRu x e i))) ++ lateReads marked e.num ++
    lateWrites (setReleases x e.num ((chStreams l.rec_).map (fun _ => i + vrM w - 1))) e.num

/-- A RUN issues in cycle `i`: an armed injection fires, otherwise the tile as it leaves it or its first violation (R357). -/
def runRun (s : State) (g : Group) (t : Nat) (x : Tile) (e : QEntry) (i : Nat) : State :=
  match fireRead s g t (vrIaddr e.word 0) i 1 with
  | some s' => s'
  | none =>
    match fireTile s g t 2 3 (i + runDepth e.word (runLatch x e).rec_ - 1) 1 with
    | some s' => s'
    | none => settleTile s g t (runTile x e i) (runViols (footOf s g.handle) x e i)

/-- VE_RUN (R88, R109). -/
def execVeRun (t : Nat) (s : State) : Res :=
  match headIs s t 1 .run with
  | none => no "VE_RUN"
  | some (g, x, e) =>
    let r := (runLatch x e).rec_
    issueCmd "VE_RUN" s g t 1 x e (runStruct x e.word r) (runFull x e.word r) (fun i => runRun s g t x e i)

/-- The bank use of a set-up command. -/
def setupClaims (e : QEntry) (reads : List (Nat × Nat × Nat)) : List Claim :=
  reads.map (fun p =>
    { num := e.num, unit := 1, pc := e.pc, rank := 11, c0 := p.1, step := 1, nw := p.2.2 / 64, write := false,
      addrs := [p.2.1] : Claim })

/-- The tile after a set-up command that issued in cycle `i`, `f` being what it leaves (R102, R112, R114). -/
def setupTile (x : Tile) (e : QEntry) (i kind idx ready : Nat) (reads : List (Nat × Nat × Nat)) (f : Tile → Tile) : Tile :=
  let y := (popIssue x 1 i e).1
  cmdSig (setReleases { f (addClaims y (setupClaims e reads)) with
    veHist := y.veHist ++ [{ kind := kind, idx := idx, cyc := i, rows := 0, depth := 0, ru := false }] } e.num
    [if kind = 2 then i + 1 else i]) (i + ready + 1) 1 e

/-- What a set-up command violates. -/
def setupViols (foot : Nat) (x : Tile) (e : QEntry) (i kind : Nat) (reads : List (Nat × Nat × Nat)) : List Detail :=
  (popIssue x 1 i e).2 ++ wordReads foot x reads 1 e.pc e.num ++ claimViols x.claims (setupClaims e reads) ++
    movedViols x (addClaims x (setupClaims e reads)) ++ lateWrites (setReleases x e.num [if kind = 2 then i + 1 else i]) e.num

/-- A set-up command issues in cycle `i` (R102, R112, R114, R115). -/
def runSetup (s : State) (g : Group) (t : Nat) (x : Tile) (e : QEntry) (i kind idx ready : Nat)
    (reads : List (Nat × Nat × Nat)) (f : Tile → Tile) : State :=
  match (match reads with
    | [] => none
    | r :: _ => fireRead s g t r.2.1 i 1) with
  | some s' => s'
  | none => settleTile s g t (setupTile x e i kind idx ready reads f) (setupViols (footOf s g.handle) x e i kind reads)

/-- VE_SETCHAIN (R104, R105). -/
def execVeSetchain (t : Nat) (s : State) : Res :=
  match headIs s t 1 .setchain with
  | none => no "VE_SETCHAIN"
  | some (g, x, e) =>
    let a := vcAddr e.word
    issueCmd "VE_SETCHAIN" s g t 1 x e 0 0 (fun i =>
      runSetup s g t x e i 1 (vcSlot e.word) 3 [(i, a, 64)]
        (fun y => { y with chains := y.chains.put (vcSlot e.word) (leNat (spadBytes x i a 64)) }))

/-- The reads of SETQ's vector with their cycles (R112). -/
def setqReads (w : Cmd) (i : Nat) : List (Nat × Nat × Nat) :=
  if vqVec w then [(i, vqAddr w, 256), (i + 1, spadMod (vqAddr w + 256), 256)] else []

/-- The moduli of the lanes that SETQ leaves (R90). -/
def setqLanes (x : Tile) (w : Cmd) (i : Nat) : List Nat :=
  if vqVec w then (List.range 64).map (fun (c : Nat) => leNat (spadBytes x (if c < 32 then i else i + 1) (vqAddr w + 8 * c) 8))
  else List.replicate 64 (lMq w)

/-- VE_SETQ (R90, R107). -/
def execVeSetq (t : Nat) (s : State) : Res :=
  match headIs s t 1 .setq with
  | none => no "VE_SETQ"
  | some (g, x, e) =>
    let w := e.word
    let st := setqStruct x
    issueCmd "VE_SETQ" s g t 1 x e st st (fun i =>
      runSetup s g t x e i 2 (vqReg w) 19 (setqReads w i) (fun y => { y with qregs := y.qregs.put (vqReg w) (setqLanes x w i) }))

/-- VE_SETPERM (R108). -/
def execVeSetperm (t : Nat) (s : State) : Res :=
  match headIs s t 1 .setperm with
  | none => no "VE_SETPERM"
  | some (g, x, e) =>
    let a := vpAddr e.word
    issueCmd "VE_SETPERM" s g t 1 x e 0 0 (fun i =>
      runSetup s g t x e i 3 (vpTable e.word) 3 [(i, a, 64)]
        (fun y => { y with perms := y.perms.put (vpTable e.word) ((spadBytes x i a 64).map (fun b => b.toNat % 64)) }))

end Sys2Proof.Machine
end

