-- ==== Sys2Proof/Machine/Dispatch.lean ====
section
/-! DEFINITION. The effect of each command on everything but the queue: one meaning per row of the opcode table. -/

namespace Sys2Proof.Machine

def exec (i : Instr) (s : State) : Host.Outcome State Fault Refusal :=
  match i with
  | .kickAll fn => Sys2Proof.Machine.execKickAll fn s
  | .kickRing fn ring => Sys2Proof.Machine.execKickRing fn ring s
  | .pollTimer fn => Sys2Proof.Machine.execPollTimer fn s
  | .doorbellRecordArrival fn recs => Sys2Proof.Machine.execDoorbellRecordArrival fn recs s
  | .task fn ring d arg => Sys2Proof.Machine.execTask fn ring d arg s
  | .refresh fn ring d arg => Sys2Proof.Machine.execRefresh fn ring d arg s
  | .switchToLwe fn ring d arg => Sys2Proof.Machine.execSwitchToLwe fn ring d arg s
  | .repack fn ring d arg => Sys2Proof.Machine.execRepack fn ring d arg s
  | .pbs fn ring d arg => Sys2Proof.Machine.execPbs fn ring d arg s
  | .keyswitch fn ring d arg => Sys2Proof.Machine.execKeyswitch fn ring d arg s
  | .rotateMany fn ring d arg => Sys2Proof.Machine.execRotateMany fn ring d arg s
  | .rescale fn ring d arg => Sys2Proof.Machine.execRescale fn ring d arg s
  | .mpcTrunc fn ring d arg => Sys2Proof.Machine.execMpcTrunc fn ring d arg s
  | .mpcCompare fn ring d arg => Sys2Proof.Machine.execMpcCompare fn ring d arg s
  | .move fn ring d arg => Sys2Proof.Machine.execMove fn ring d arg s
  | .fence fn ring d arg => Sys2Proof.Machine.execFence fn ring d arg s
  | .fenceComplete h => Sys2Proof.Machine.execFenceComplete h s
  | .cancel fn ring d arg => Sys2Proof.Machine.execCancel fn ring d arg s
  | .query fn ring d arg => Sys2Proof.Machine.execQuery fn ring d arg s
  | .openSession fn ring d arg => Sys2Proof.Machine.execOpenSession fn ring d arg s
  | .closeSession fn ring d arg => Sys2Proof.Machine.execCloseSession fn ring d arg s
  | .loadPset fn ring d arg => Sys2Proof.Machine.execLoadPset fn ring d arg s
  | .unloadPset fn ring d arg => Sys2Proof.Machine.execUnloadPset fn ring d arg s
  | .addRegion fn ring d arg => Sys2Proof.Machine.execAddRegion fn ring d arg s
  | .removeRegion fn ring d arg => Sys2Proof.Machine.execRemoveRegion fn ring d arg s
  | .policy fn ring d arg => Sys2Proof.Machine.execPolicy fn ring d arg s
  | .exportMsg fn ring d arg => Sys2Proof.Machine.execExportMsg fn ring d arg s
  | .importMsg fn ring d arg => Sys2Proof.Machine.execImportMsg fn ring d arg s
  | .sha256Op fn ring d arg => Sys2Proof.Machine.execSha256Op fn ring d arg s
  | .sha384Op fn ring d arg => Sys2Proof.Machine.execSha384Op fn ring d arg s
  | .sha512Op fn ring d arg => Sys2Proof.Machine.execSha512Op fn ring d arg s
  | .shake128Op fn ring d arg => Sys2Proof.Machine.execShake128Op fn ring d arg s
  | .shake256Op fn ring d arg => Sys2Proof.Machine.execShake256Op fn ring d arg s
  | .rsa3072Quote fn ring d arg => Sys2Proof.Machine.execRsa3072Quote fn ring d arg s
  | .rsa4096Quote fn ring d arg => Sys2Proof.Machine.execRsa4096Quote fn ring d arg s
  | .rsa3072PssVerify fn ring d arg => Sys2Proof.Machine.execRsa3072PssVerify fn ring d arg s
  | .rsa4096PssVerify fn ring d arg => Sys2Proof.Machine.execRsa4096PssVerify fn ring d arg s
  | .p256KeyPair fn ring d arg => Sys2Proof.Machine.execP256KeyPair fn ring d arg s
  | .p256EcdsaSign fn ring d arg => Sys2Proof.Machine.execP256EcdsaSign fn ring d arg s
  | .p256EcdsaVerify fn ring d arg => Sys2Proof.Machine.execP256EcdsaVerify fn ring d arg s
  | .p256Ecdh fn ring d arg => Sys2Proof.Machine.execP256Ecdh fn ring d arg s
  | .p384KeyPair fn ring d arg => Sys2Proof.Machine.execP384KeyPair fn ring d arg s
  | .p384EcdsaSign fn ring d arg => Sys2Proof.Machine.execP384EcdsaSign fn ring d arg s
  | .p384EcdsaVerify fn ring d arg => Sys2Proof.Machine.execP384EcdsaVerify fn ring d arg s
  | .p384Ecdh fn ring d arg => Sys2Proof.Machine.execP384Ecdh fn ring d arg s
  | .x25519KeyPair fn ring d arg => Sys2Proof.Machine.execX25519KeyPair fn ring d arg s
  | .x25519Op fn ring d arg => Sys2Proof.Machine.execX25519Op fn ring d arg s
  | .ed25519KeyPair fn ring d arg => Sys2Proof.Machine.execEd25519KeyPair fn ring d arg s
  | .ed25519Sign fn ring d arg => Sys2Proof.Machine.execEd25519Sign fn ring d arg s
  | .ed25519Verify fn ring d arg => Sys2Proof.Machine.execEd25519Verify fn ring d arg s
  | .mlKem768KeyPair fn ring d arg => Sys2Proof.Machine.execMlKem768KeyPair fn ring d arg s
  | .mlKem768Encapsulate fn ring d arg => Sys2Proof.Machine.execMlKem768Encapsulate fn ring d arg s
  | .mlKem768Decapsulate fn ring d arg => Sys2Proof.Machine.execMlKem768Decapsulate fn ring d arg s
  | .mlKem1024KeyPair fn ring d arg => Sys2Proof.Machine.execMlKem1024KeyPair fn ring d arg s
  | .mlKem1024Encapsulate fn ring d arg => Sys2Proof.Machine.execMlKem1024Encapsulate fn ring d arg s
  | .mlKem1024Decapsulate fn ring d arg => Sys2Proof.Machine.execMlKem1024Decapsulate fn ring d arg s
  | .slotLoad fn ring d arg => Sys2Proof.Machine.execSlotLoad fn ring d arg s
  | .slotClear fn ring d arg => Sys2Proof.Machine.execSlotClear fn ring d arg s
  | .pkeOpStart data fails => Sys2Proof.Machine.execPkeOpStart data fails s
  | .pkeYieldPoint ops => Sys2Proof.Machine.execPkeYieldPoint ops s
  | .transferStart => Sys2Proof.Machine.execTransferStart s
  | .transferComplete h e reruns => Sys2Proof.Machine.execTransferComplete h e reruns s
  | .sessionOpRun h data => Sys2Proof.Machine.execSessionOpRun h data s
  | .readinessCheck h => Sys2Proof.Machine.execReadinessCheck h s
  | .priorityAge h => Sys2Proof.Machine.execPriorityAge h s
  | .dispatch part => Sys2Proof.Machine.execDispatch part s
  | .tileTaskStart t => Sys2Proof.Machine.execTileTaskStart t s
  | .taskFinalHeaders h => Sys2Proof.Machine.execTaskFinalHeaders h s
  | .msixCoalesceTimer cq => Sys2Proof.Machine.execMsixCoalesceTimer cq s
  | .hostFetchError fn ring => Sys2Proof.Machine.execHostFetchError fn ring s
  | .cqWriteError cq => Sys2Proof.Machine.execCqWriteError cq s
  | .hiSqReset fn v => Sys2Proof.Machine.execHiSqReset fn v s
  | .sqEnable fn v => Sys2Proof.Machine.execSqEnable fn v s
  | .sqDisable fn v => Sys2Proof.Machine.execSqDisable fn v s
  | .cqEnable fn v => Sys2Proof.Machine.execCqEnable fn v s
  | .cqDisable fn v => Sys2Proof.Machine.execCqDisable fn v s
  | .resume fn => Sys2Proof.Machine.execResume fn s
  | .clearNoticeLost fn => Sys2Proof.Machine.execClearNoticeLost fn s
  | .functionLevelReset fn => Sys2Proof.Machine.execFunctionLevelReset fn s
  | .linkReset => Sys2Proof.Machine.execLinkReset s
  | .tdiError fn => Sys2Proof.Machine.execTdiError fn s
  | .pairLoRead fn off => Sys2Proof.Machine.execPairLoRead fn off s
  | .pairHiRead fn off => Sys2Proof.Machine.execPairHiRead fn off s
  | .pairLoWrite fn off v => Sys2Proof.Machine.execPairLoWrite fn off v s
  | .pairHiWrite fn off v => Sys2Proof.Machine.execPairHiWrite fn off v s
  | .pair64Access fn off w => Sys2Proof.Machine.execPair64Access fn off w s
  | .registerWrite fn bar off bytes => Sys2Proof.Machine.execRegisterWrite fn bar off bytes s
  | .stoppedDomainAccess fn off w => Sys2Proof.Machine.execStoppedDomainAccess fn off w s
  | .stage => Sys2Proof.Machine.execStage s
  | .apply => Sys2Proof.Machine.execApply s
  | .commit => Sys2Proof.Machine.execCommit s
  | .revert => Sys2Proof.Machine.execRevert s
  | .discard => Sys2Proof.Machine.execDiscard s
  | .switchPoint => Sys2Proof.Machine.execSwitchPoint s
  | .trialExpiry => Sys2Proof.Machine.execTrialExpiry s
  | .autoRevert => Sys2Proof.Machine.execAutoRevert s
  | .tileReconfigure t ok => Sys2Proof.Machine.execTileReconfigure t ok s
  | .lullEntry t => Sys2Proof.Machine.execLullEntry t s
  | .tileScrub t => Sys2Proof.Machine.execTileScrub t s
  | .alu t => Sys2Proof.Machine.execAlu t s
  | .addi t => Sys2Proof.Machine.execAddi t s
  | .andi t => Sys2Proof.Machine.execAndi t s
  | .ori t => Sys2Proof.Machine.execOri t s
  | .xori t => Sys2Proof.Machine.execXori t s
  | .slli t => Sys2Proof.Machine.execSlli t s
  | .srli t => Sys2Proof.Machine.execSrli t s
  | .srai t => Sys2Proof.Machine.execSrai t s
  | .slti t => Sys2Proof.Machine.execSlti t s
  | .sltiu t => Sys2Proof.Machine.execSltiu t s
  | .seth t => Sys2Proof.Machine.execSeth t s
  | .bfi t => Sys2Proof.Machine.execBfi t s
  | .bfx t => Sys2Proof.Machine.execBfx t s
  | .ld t => Sys2Proof.Machine.execLd t s
  | .lw t => Sys2Proof.Machine.execLw t s
  | .st t => Sys2Proof.Machine.execSt t s
  | .sw t => Sys2Proof.Machine.execSw t s
  | .coreStoreWrite t => Sys2Proof.Machine.execCoreStoreWrite t s
  | .arg t => Sys2Proof.Machine.execArg t s
  | .cld t => Sys2Proof.Machine.execCld t s
  | .beq t => Sys2Proof.Machine.execBeq t s
  | .bne t => Sys2Proof.Machine.execBne t s
  | .blt t => Sys2Proof.Machine.execBlt t s
  | .bge t => Sys2Proof.Machine.execBge t s
  | .bltu t => Sys2Proof.Machine.execBltu t s
  | .bgeu t => Sys2Proof.Machine.execBgeu t s
  | .jal t => Sys2Proof.Machine.execJal t s
  | .jalr t => Sys2Proof.Machine.execJalr t s
  | .push t => Sys2Proof.Machine.execPush t s
  | .pushStallEnd t cyc => Sys2Proof.Machine.execPushStallEnd t cyc s
  | .semw t => Sys2Proof.Machine.execSemw t s
  | .semwSatisfied t => Sys2Proof.Machine.execSemwSatisfied t s
  | .sems t => Sys2Proof.Machine.execSems t s
  | .semr t => Sys2Proof.Machine.execSemr t s
  | .rsig t => Sys2Proof.Machine.execRsig t s
  | .remoteSignalArrival t src cyc => Sys2Proof.Machine.execRemoteSignalArrival t src cyc s
  | .bar t => Sys2Proof.Machine.execBar t s
  | .barrierArrival t => Sys2Proof.Machine.execBarrierArrival t s
  | .barrierRelease t cyc => Sys2Proof.Machine.execBarrierRelease t cyc s
  | .anchor t => Sys2Proof.Machine.execAnchor t s
  | .waitc t => Sys2Proof.Machine.execWaitc t s
  | .waitcExpiry t => Sys2Proof.Machine.execWaitcExpiry t s
  | .csrr t => Sys2Proof.Machine.execCsrr t s
  | .win t => Sys2Proof.Machine.execWin t s
  | .descMake t => Sys2Proof.Machine.execDescMake t s
  | .epoch t => Sys2Proof.Machine.execEpoch t s
  | .epochCheckpoint h => Sys2Proof.Machine.execEpochCheckpoint h s
  | .endCore t => Sys2Proof.Machine.execEndCore t s
  | .coreNop t => Sys2Proof.Machine.execCoreNop t s
  | .cycOverflow t => Sys2Proof.Machine.execCycOverflow t s
  | .mmaNop t => Sys2Proof.Machine.execMmaNop t s
  | .mmaLoad t => Sys2Proof.Machine.execMmaLoad t s
  | .mmaLoadt t => Sys2Proof.Machine.execMmaLoadt t s
  | .mmaMul t => Sys2Proof.Machine.execMmaMul t s
  | .veNop t => Sys2Proof.Machine.execVeNop t s
  | .veSetchain t => Sys2Proof.Machine.execVeSetchain t s
  | .veSetq t => Sys2Proof.Machine.execVeSetq t s
  | .veSetperm t => Sys2Proof.Machine.execVeSetperm t s
  | .veRun t => Sys2Proof.Machine.execVeRun t s
  | .spNop t => Sys2Proof.Machine.execSpNop t s
  | .spFill t => Sys2Proof.Machine.execSpFill t s
  | .spCopy t => Sys2Proof.Machine.execSpCopy t s
  | .spCommandDone t => Sys2Proof.Machine.execSpCommandDone t s
  | .seNop t e cyc => Sys2Proof.Machine.execSeNop t e cyc s
  | .seRead t e cyc => Sys2Proof.Machine.execSeRead t e cyc s
  | .seWrite t e cyc => Sys2Proof.Machine.execSeWrite t e cyc s
  | .seKey t e cyc => Sys2Proof.Machine.execSeKey t e cyc s
  | .keyHeaderCheck t e cyc => Sys2Proof.Machine.execKeyHeaderCheck t e cyc s
  | .sxStreamStart t e cyc => Sys2Proof.Machine.execSxStreamStart t e cyc s
  | .blockListRead t e cyc => Sys2Proof.Machine.execBlockListRead t e cyc s
  | .streamDataArrival t e req cyc data => Sys2Proof.Machine.execStreamDataArrival t e req cyc data s
  | .streamSignal t e cyc => Sys2Proof.Machine.execStreamSignal t e cyc s
  | .translationMiss t e req => Sys2Proof.Machine.execTranslationMiss t e req s
  | .priResponse t e resp => Sys2Proof.Machine.execPriResponse t e resp s
  | .pageRequestTimeout t e => Sys2Proof.Machine.execPageRequestTimeout t e s
  | .hostAbort t e req => Sys2Proof.Machine.execHostAbort t e req s
  | .remoteAccessArrival t src cyc => Sys2Proof.Machine.execRemoteAccessArrival t src cyc s
  | .remoteResponseArrival t cyc => Sys2Proof.Machine.execRemoteResponseArrival t cyc s
  | .windowNack t => Sys2Proof.Machine.execWindowNack t s
  | .semaphoreDeadlock h => Sys2Proof.Machine.execSemaphoreDeadlock h s
  | .replay h src t => Sys2Proof.Machine.execReplay h src t s
  | .epochWatchdog h failing => Sys2Proof.Machine.execEpochWatchdog h failing s
  | .tileRetire t code badSpares => Sys2Proof.Machine.execTileRetire t code badSpares s
  | .linkHalving net link h => Sys2Proof.Machine.execLinkHalving net link h s
  | .glint => Sys2Proof.Machine.execGlint s
  | .mcRestart parity => Sys2Proof.Machine.execMcRestart parity s
  | .memRead req => Sys2Proof.Machine.execMemRead req s
  | .memWrite req => Sys2Proof.Machine.execMemWrite req s
  | .bucketRelease part req => Sys2Proof.Machine.execBucketRelease part req s
  | .keepExpiry unit => Sys2Proof.Machine.execKeepExpiry unit s
  | .laneRepair ch ca lane => Sys2Proof.Machine.execLaneRepair ch ca lane s
  | .calInterval ch ca => Sys2Proof.Machine.execCalInterval ch ca s
  | .calPause ch => Sys2Proof.Machine.execCalPause ch s
  | .calPauseEnd ch => Sys2Proof.Machine.execCalPauseEnd ch s
  | .channelLost ch => Sys2Proof.Machine.execChannelLost ch s
  | .stackLost stk => Sys2Proof.Machine.execStackLost stk s
  | .rebuildDone => Sys2Proof.Machine.execRebuildDone s
  | .resync stk => Sys2Proof.Machine.execResync stk s
  | .patrolScrub stripe badUnits badParity => Sys2Proof.Machine.execPatrolScrub stripe badUnits badParity s
  | .stackTempSample stk temp => Sys2Proof.Machine.execStackTempSample stk temp s
  | .mirrorZoneTemp z temp => Sys2Proof.Machine.execMirrorZoneTemp z temp s
  | .mirrorCrc area both => Sys2Proof.Machine.execMirrorCrc area both s
  | .throttleCommand pos => Sys2Proof.Machine.execThrottleCommand pos s
  | .voltSettled pos => Sys2Proof.Machine.execVoltSettled pos s
  | .powerSample watts avg => Sys2Proof.Machine.execPowerSample watts avg s
  | .v12Low mv => Sys2Proof.Machine.execV12Low mv s
  | .thermalTrip => Sys2Proof.Machine.execThermalTrip s
  | .pllUnlock => Sys2Proof.Machine.execPllUnlock s
  | .stbyPowerValid mv => Sys2Proof.Machine.execStbyPowerValid mv s
  | .mainPowerValid mv => Sys2Proof.Machine.execMainPowerValid mv s
  | .coldReset => Sys2Proof.Machine.execColdReset s
  | .perstDeassert => Sys2Proof.Machine.execPerstDeassert s
  | .bootChain mirrorOk storeOk flash => Sys2Proof.Machine.execBootChain mirrorOk storeOk flash s
  | .serviceReady initOk badTiles => Sys2Proof.Machine.execServiceReady initOk badTiles s
  | .bootBegin => Sys2Proof.Machine.execBootBegin s
  | .bootChunk buf pages => Sys2Proof.Machine.execBootChunk buf pages s
  | .bootEnd => Sys2Proof.Machine.execBootEnd s
  | .authOpen => Sys2Proof.Machine.execAuthOpen s
  | .authClose => Sys2Proof.Machine.execAuthClose s
  | .authExpiry => Sys2Proof.Machine.execAuthExpiry s
  | .takeOwnership => Sys2Proof.Machine.execTakeOwnership s
  | .releaseOwnership => Sys2Proof.Machine.execReleaseOwnership s
  | .setPolicy => Sys2Proof.Machine.execSetPolicy s
  | .setCert => Sys2Proof.Machine.execSetCert s
  | .auditExport => Sys2Proof.Machine.execAuditExport s
  | .auditAck => Sys2Proof.Machine.execAuditAck s
  | .diagUnlock => Sys2Proof.Machine.execDiagUnlock s
  | .diagLock => Sys2Proof.Machine.execDiagLock s
  | .consentExpiry => Sys2Proof.Machine.execConsentExpiry s
  | .fuseProgram readBack => Sys2Proof.Machine.execFuseProgram readBack s
  | .ship => Sys2Proof.Machine.execShip s
  | .arm => Sys2Proof.Machine.execArm s
  | .cancelInjection => Sys2Proof.Machine.execCancelInjection s
  | .noOpportunity => Sys2Proof.Machine.execNoOpportunity s
  | .getVersion => Sys2Proof.Machine.execGetVersion s
  | .getCapabilities => Sys2Proof.Machine.execGetCapabilities s
  | .negotiateAlgorithms ver asym hash dhe aead => Sys2Proof.Machine.execNegotiateAlgorithms ver asym hash dhe aead s
  | .getDigests => Sys2Proof.Machine.execGetDigests s
  | .getCertificate slot off len => Sys2Proof.Machine.execGetCertificate slot off len s
  | .challenge slot nonce => Sys2Proof.Machine.execChallenge slot nonce s
  | .getMeasurements index sign nonce => Sys2Proof.Machine.execGetMeasurements index sign nonce s
  | .keyExchange group pub => Sys2Proof.Machine.execKeyExchange group pub s
  | .finish sid ok => Sys2Proof.Machine.execFinish sid ok s
  | .heartbeat sid => Sys2Proof.Machine.execHeartbeat sid s
  | .keyUpdate sid op => Sys2Proof.Machine.execKeyUpdate sid op s
  | .endSession sid => Sys2Proof.Machine.execEndSession sid s
  | .setCertificate slot chain => Sys2Proof.Machine.execSetCertificate slot chain s
  | .keyProg sid stream kset tx sub key => Sys2Proof.Machine.execKeyProg sid stream kset tx sub key s
  | .kSetGo sid stream kset tx => Sys2Proof.Machine.execKSetGo sid stream kset tx s
  | .kSetStop sid stream => Sys2Proof.Machine.execKSetStop sid stream s
  | .smbDomainStatus => Sys2Proof.Machine.execSmbDomainStatus s
  | .smbPkgState => Sys2Proof.Machine.execSmbPkgState s
  | .smbTemperatures => Sys2Proof.Machine.execSmbTemperatures s
  | .smbPower => Sys2Proof.Machine.execSmbPower s
  | .smbBootStatus => Sys2Proof.Machine.execSmbBootStatus s
  | .smbFltStatus => Sys2Proof.Machine.execSmbFltStatus s
  | .smbSerial => Sys2Proof.Machine.execSmbSerial s
  | .smbRefresh => Sys2Proof.Machine.execSmbRefresh s
  | .linkTrained rate width flit => Sys2Proof.Machine.execLinkTrained rate width flit s
  | .stbyPowerLoss => Sys2Proof.Machine.execStbyPowerLoss s
  | .pllRelock => Sys2Proof.Machine.execPllRelock s
  | .resyncDone stk => Sys2Proof.Machine.execResyncDone stk s
  | .laneRepairDone ch => Sys2Proof.Machine.execLaneRepairDone ch s
  | .atsTranslationCompletion t e req grant => Sys2Proof.Machine.execAtsTranslationCompletion t e req grant s
  | .atsInvalidateRequest fn pasid addr size => Sys2Proof.Machine.execAtsInvalidateRequest fn pasid addr size s
  | .configSpaceWrite fn field v => Sys2Proof.Machine.execConfigSpaceWrite fn field v s
  | .msixUnmask fn vec => Sys2Proof.Machine.execMsixUnmask fn vec s
  | .doeDiscovery index => Sys2Proof.Machine.execDoeDiscovery index s
  | .lockInterfaceRequest sid fn => Sys2Proof.Machine.execLockInterfaceRequest sid fn s
  | .startInterfaceRequest sid fn => Sys2Proof.Machine.execStartInterfaceRequest sid fn s
  | .stopInterfaceRequest sid fn => Sys2Proof.Machine.execStopInterfaceRequest sid fn s
  | .getDeviceInterfaceReport sid fn => Sys2Proof.Machine.execGetDeviceInterfaceReport sid fn s
  | .smbUnsupportedCommand cmd => Sys2Proof.Machine.execSmbUnsupportedCommand cmd s
  | .testControllerAccess kind => Sys2Proof.Machine.execTestControllerAccess kind s

end Sys2Proof.Machine
end

