-- ==== Sys2Proof/Safety.lean ====
section
/-! DEFINITION. What a safe step is: one that ends neither in a fault nor in a refusal. -/

namespace Sys2Proof

open Sys2Proof.Machine

/-- The command completes in the state. -/
def Completes (c : Instr) (s : State) : Prop := ∃ t, exec c s = .next t

end Sys2Proof
end

