-- ==== Sys2Proof/Certificates/Slice0/Obligations.lean ====
section
/-! DEFINITION. The statements for the provers. First the words they share, then one definition per statement. -/

open Sys2Proof Sys2Proof.Machine

namespace Sys2Proof.Claims

/-- Nothing but logical tile `t` has changed. -/
def OnlyTile (s s' : State) (t : Nat) : Prop := s' = setTile s t (tileOf s' t)

/-- Nothing in a tile but its scalar registers, the cycles from which they are ready, CYC and PC, and `seen`, the model's own note of what
the core has read, has changed. -/
def OnlyCore (x y : Tile) : Prop := y = { x with regs := y.regs, readyAt := y.readyAt, cyc := y.cyc, pc := y.pc, seen := y.seen }

/-- No armed injection of this kind waits for the tile (R357). -/
def Unarmed (s : State) (t kind : Nat) : Prop := ∀ i, s.flt.inj = some i → i.kind ≠ kind ∨ i.ltile ≠ t

/-- The core of tile `t` stands at the instruction word `w` with code `op`, the code at hand, and issues it in cycle `c` (R128, R132, R135). -/
abbrev CoreReady (s : State) (t op : Nat) (named : Nat → List Nat) (g : Group) (x : Tile) (w c : Nat) : Prop :=
  coreAt s t op = some (g, x, w) ∧ c = startAt x (named w) ∧ c < 2 ^ 40

/-- A core instruction has completed: of the registers only `d` may have changed, to `v`, usable `lat` cycles after issue; s0 discards
(R127, R132). CYC and PC are as given, and nothing else has changed anywhere. -/
def CoreWrote (s s' : State) (t d : Nat) (v : Word64) (c occ lat pc : Nat) : Prop :=
  OnlyTile s s' t ∧ OnlyCore (tileOf s t) (tileOf s' t) ∧
    (∀ n, regOf (tileOf s' t) n = if n = d ∧ 0 < n ∧ n < 64 then v else regOf (tileOf s t) n) ∧
    (0 < d → d < 64 → (tileOf s' t).readyAt.get d 0 = c + lat) ∧ (tileOf s' t).cyc = c + occ ∧ (tileOf s' t).pc = pc

/-- A core instruction has completed and no register has changed. -/
def CoreMoved (s s' : State) (t c occ pc : Nat) : Prop :=
  OnlyTile s s' t ∧ OnlyCore (tileOf s t) (tileOf s' t) ∧ (∀ n, regOf (tileOf s' t) n = regOf (tileOf s t) n) ∧
    (tileOf s' t).cyc = c + occ ∧ (tileOf s' t).pc = pc

/-- The instruction after the one at PC. -/
def nextPc (x : Tile) : Nat := (x.pc + 4) % 2 ^ 64

/-- A branch has completed: to PC + 4 OFF14 in two cycles where its comparison holds, else on in one (R130, R132). -/
def Branched (s s' : State) (t : Nat) (x : Tile) (w c : Nat) (taken : Prop) : Prop :=
  (taken → CoreMoved s s' t c 2 (imod (x.pc + 4 * iImm w) (2 ^ 64))) ∧ (¬ taken → CoreMoved s s' t c 1 (nextPc x))

/-- The same writes in the same order, whatever their cycles. -/
def SameWrites (l m : List TimedWrite) : Prop := l.map (fun w => { w with cyc := 0 }) = m.map (fun w => { w with cyc := 0 })

/-- No access of Q_SP, of a stream engine or of a remote tile stands in the tile's banks. -/
abbrev NoLowRanks (x : Tile) : Prop := ∀ k ∈ x.claims, k.rank ≤ 12

/-- Accesses of the lower ranks may have given way (R163, R164): writes, marks and holds are as before but for their cycles, and exactly as
before where no such access stands. -/
def GaveWay (x y : Tile) : Prop :=
  SameWrites y.writes x.writes ∧ y.marks.map (fun m => { m with commit := none }) = x.marks.map (fun m => { m with commit := none }) ∧
    y.holds.map (fun h => { h with release := none }) = x.holds.map (fun h => { h with release := none }) ∧
    (NoLowRanks x → y.writes = x.writes ∧ y.marks = x.marks ∧ y.holds = x.holds)

/-- A core load has completed in cycle `k`: `d` holds `v`, and accesses of the lower ranks may have given way to it (R132, R133). -/
def CoreLoaded (s s' : State) (t : Nat) (x : Tile) (d : Nat) (v : Word64) (k : Nat) : Prop :=
  OnlyTile s s' t ∧ GaveWay x (tileOf s' t) ∧
    (tileOf s' t) = { x with regs := (tileOf s' t).regs, readyAt := (tileOf s' t).readyAt, cyc := k + 1, pc := nextPc x,
                             claims := (tileOf s' t).claims, writes := (tileOf s' t).writes, marks := (tileOf s' t).marks,
                             holds := (tileOf s' t).holds, seen := Nat.max x.seen k } ∧
    ∀ n, regOf (tileOf s' t) n = if n = d ∧ 0 < n ∧ n < 64 then v else regOf x n

/-- No row of a command that has issued reads after cycle `c` (R83). -/
abbrev Settled (x : Tile) (c : Nat) : Prop := lastRead x ≤ c

/-- Where no row under way reads after cycle `c`, the tile has the writes `ws` more, of the unit `u`; the others are as they were but for the
cycles of accesses that gave way. -/
def WroteMore (x y : Tile) (u c : Nat) (ws : List TimedWrite) : Prop :=
  Settled x c → ∃ old, y.writes = old ++ ws ∧ SameWrites old x.writes ∧ (NoLowRanks x → (∀ w ∈ x.writes, w.unit ≠ u) → old = x.writes)

/-- As `WroteMore`, for the rows of the MMA, the VE and the RU. -/
def WroteRows (x y : Tile) (c : Nat) (ws : List TimedWrite) : Prop :=
  Settled x c → ∃ old, y.writes = old ++ ws ∧ SameWrites old x.writes ∧ (NoLowRanks x → old = x.writes)

/-- A PUSH at word `w` has been accepted in cycle `c` with the entry `e` (R135 to R137). -/
def Pushed (s s' : State) (t : Nat) (g : Group) (x : Tile) (w c : Nat) (e : QEntry) : Prop :=
  OnlyTile s s' t ∧ (tileOf s' t).cyc = c + 1 ∧ (tileOf s' t).pc = nextPc x ∧ (tileOf s' t).status = .running ∧
    queueOf (tileOf s' t) (iQueue w) = queueOf x (iQueue w) ++ [e] ∧
    (∀ q, q ≠ iQueue w → queueOf (tileOf s' t) q = queueOf x q) ∧ (tileOf s' t).regs = x.regs ∧ (tileOf s' t).spad = x.spad ∧
    (tileOf s' t).writes = x.writes ∧ (tileOf s' t).marks = x.marks ++ pushMarks x (iQueue w) e.word c ∧
    (tileOf s' t).holds = x.holds ++ pushHolds x (iQueue w) e.word c ∧ e.pushed = c ∧ e.pc = x.pc ∧
    (streamingOf s g.handle = true → ∀ i, e.word.getLsbD i = ((pushWord x (iD w)).getLsbD i && decide (i ≠ 244))) ∧
    (streamingOf s g.handle = false → iRel w = true → hTimed (pushWord x (iD w)) = true →
      hAt e.word = (hAt (pushWord x (iD w)) + x.base) % 2 ^ 40 ∧
        ∀ i, i < 204 ∨ 243 < i → e.word.getLsbD i = (pushWord x (iD w)).getLsbD i) ∧
    (streamingOf s g.handle = false → iRel w = false ∨ hTimed (pushWord x (iD w)) = false →
      e.word = regOf x (iD w + 3) ++ regOf x (iD w + 2) ++ regOf x (iD w + 1) ++ regOf x (iD w))

/-- The task has ended with CONTRACT_VIOLATION, subtype LATE_ISSUE, for a command of queue `q` that was pushed in cycle `c` (R137, R150). -/
def PushedLate (s s' : State) (t : Nat) (g : Group) (x : Tile) (q c at_ : Nat) : Prop :=
  ∃ s1 d, s' = abortTask s1 g.handle 0x0301 (some d) ∧ OnlyTile s s1 t ∧ d.status = 0x0301 ∧ d.subtype = 3 ∧ d.unitA = q ∧
    d.tile = t ∧ d.cycle = c ∧ d.pushed = c ∧ d.at_ = at_ ∧ d.pc = x.pc

/-- The work of a handle is over: the handle is no longer held, or waits for its completion ring to take its entry (R292, R304). -/
def Over (s' : State) (h : Nat) : Prop := ∀ e, entryOf s' h = some e → e.state = .completing

/-- The handle, which `s` still held unfinished, has its COMPLETE entry with this status and INFO: written to its completion ring, or held for
it while that ring is halted; FLAGS are as they are (R285, R287, R292). Nothing is
said of an unrecoverable device, which answers 0x07FF (R347), and of a ring that has been disabled since. -/
def Told (s s' : State) (h status info : Nat) : Prop :=
  ∀ e, entryOf s h = some e → e.state ≠ .completing → (cqOf s e.cq).enabled = true → s.flt.unrecoverable = false →
    ∃ f, (∃ r ∈ s'.hi.recent, r.ring = e.cq ∧ r.entry = entryBytes 2 f status info h s.time (dfld e.desc 0x78 8)) ∨
      (∃ q ∈ (cqOf s' e.cq).held, q.entry = entryBytes 2 f status info h s.time (dfld e.desc 0x78 8))

/-- The work of a handle is over, with this status and INFO. -/
def Closed (s s' : State) (h status info : Nat) : Prop := Over s' h ∧ Told s s' h status info

/-- The task of a handle has ended with this status: its work is over, its group is gone and its tiles are stopped; a scratchpad byte that no
write of the epoch covers keeps its value (R152). -/
def Ended (s s' : State) (h : Nat) (g : Group) (status : Nat) : Prop :=
  Closed s s' h status 0 ∧ groupOf s' h = none ∧
    (∀ t ∈ groupTiles g, (tileOf s' t).status = .idle ∧ (tileOf s' t).queues = [] ∧ (tileOf s' t).writes = [] ∧
      ∀ a, a < 0x800000 → (∀ w ∈ (tileOf s t).writes, w.addr < 0x800000 ∧ ∀ i, i < w.data.length → (w.addr + i) % 0x800000 ≠ a) →
        (tileOf s' t).spad.rd a = (tileOf s t).spad.rd a) ∧
    (∀ t, t ∉ groupTiles g → tileOf s' t = tileOf s t) ∧ s'.mem.bytes = s.mem.bytes

/-- The sources of a DEST carry one KEYID, one PARTY and PARTIES, and one SCALE. -/
def Alike (l : List (List Byte)) : Prop :=
  ∀ a ∈ l, ∀ b ∈ l, ohKeyid a = ohKeyid b ∧ ohParty a = ohParty b ∧ ohScale a = ohScale b

/-- A final header, without its CRC and before its GEN, as R58 and R61 derive it for the DEST `d` from its sources, the first of them `f`, with the
argument words `raw`. -/
def FinalHeader (raw : Tbl Word64) (d : ObjDecl) (f : List Byte) (l : List (List Byte)) (H : List Byte) : Prop :=
  H.length = 252 ∧ le H 0 4 = 0x54434749 ∧ ohValid H = true ∧ ohScheme H = ohScheme f ∧ ohLayout H = ohLayout f ∧ ohWidth H = ohWidth f ∧
    ohPolys H = (if d.polys = 0 then ohPolys f else d.polys % 2 ^ 16) ∧
    ohKeyid H = (if d.target = 1 then (raw.get d.targetArg 0).toNat else ohKeyid f) ∧
    (∀ a ∈ l, ohLevel H + d.drop ≤ ohLevel a) ∧ (∃ a ∈ l, ohLevel H + d.drop = ohLevel a) ∧
    (d.scaleRule = 0 → ohScale H = if ohScheme f = 1 then ohScale f else 0) ∧
    (d.scaleRule = 1 → ohScheme f = 1 → ohScale H = (l.map ohScale).sum) ∧
    ohData H = (raw.get (64 + d.slot) 0).toNat ∧ ohLength H = (raw.get (96 + d.slot) 0).toNat ∧
    (ohStrict H = true ↔ ∃ a ∈ l, ohStrict a = true) ∧
    (ohScheme f ≠ 6 → (∃ a ∈ l, ohExhausted a = true) → ohExhausted H = true ∧ ohBudget H = 0) ∧
    (ohScheme f ≠ 6 → d.dec ≠ 0xFFFF → (∀ a ∈ l, ohExhausted a = false ∧ d.dec < ohBudget a) → ohExhausted H = false ∧
      (∀ a ∈ l, ohBudget H + d.dec ≤ ohBudget a) ∧ (ohBudget H = 65534 ∨ ∃ a ∈ l, ohBudget H + d.dec = ohBudget a))

/-- The status `st` of a task's readiness is that of its first failing check (R55, R56, R59, R30, R123); `hs` are the headers read, `raw`
the argument words. -/
def ReadyStatus (x : Session) (rs : List Region) (i : Image) (raw args : Tbl Word64) (hs : List (Nat × List Byte)) (st : Nat) : Prop :=
  let checks := [check1 i.objs raw hs, check2 x [] i.objs raw hs, check3 x i.objs hs, check456 i.objs hs,
    check7 (taskOuts x i.objs raw hs), check59 x raw (taskOuts x i.objs raw hs), slotDescs rs i args]
  let good := fun k => ∀ c ∈ checks.take k, c = 0
  let src := fun (d : ObjDecl) => srcHeaders i.objs hs d.srcmask
  ((∃ d ∈ i.objs, d.role ≠ 3 ∧ (ohValid (headerAt hs d.slot) = false ∨ ohKeyid (headerAt hs d.slot) = 0 ∨
      crcOk (headerAt hs d.slot) = false)) → i.objs.all (fun d => decide (1 ≤ d.role ∧ d.role ≤ 4)) = true → st = 0x0205) ∧
    (good 1 → (∃ d ∈ i.objs, d.role ≠ 3 ∧ psetOf x (ohPset (headerAt hs d.slot)) = none) →
      i.objs.all (fun d => decide (1 ≤ d.role ∧ d.role ≤ 4)) = true → st = 0x0204) ∧
    (good 3 → (∃ d ∈ declsOf i.objs 3, ∃ a ∈ src d, ∃ b ∈ src d, ohKeyid a ≠ ohKeyid b) → st = 0x0201) ∧
    (good 3 → (∀ d ∈ declsOf i.objs 3, Alike (src d)) → (∃ d ∈ declsOf i.objs 1, ohLevel (headerAt hs d.slot) < d.drop) → st = 0x0202) ∧
    (good 4 → (∃ d ∈ declsOf i.objs 3, src d ≠ [] ∧ ohScheme ((src d).headD []) ≠ 6 ∧ (∃ a ∈ src d, ohStrict a = true) ∧
      ((∃ a ∈ src d, ohExhausted a = true) ∨ (d.dec ≠ 0xFFFF ∧ ∃ a ∈ src d, ohBudget a ≤ d.dec))) → st = 0x0203) ∧
    (good 7 → (objectsMeet i.objs raw hs = true ∨ rangesMeet i args = true → st = 0x0107) ∧
      (objectsMeet i.objs raw hs = false → rangesMeet i args = false → st = 0))

/-- The units of these headers hold their bytes, and no other byte of device memory has changed. -/
def HeadersWritten (s s' : State) (l : List (Nat × List Byte)) : Prop :=
  (∀ p ∈ l, ∀ k, k < 256 → memByte s'.mem (p.1 + k) = p.2.getD k 0) ∧
    ∀ a, (∀ p ∈ l, ¬(p.1 ≤ a ∧ a < p.1 + 256)) → memByte s'.mem a = memByte s.mem a

/-- Whole headers for 256-byte units that are not the same, over memory in its canonical form. -/
def HeaderUnits (s : State) (l : List (Nat × List Byte)) : Prop :=
  s.mem.bytes.wf = true ∧ (l.map (fun p => p.1)).Nodup ∧ ∀ p ∈ l, p.1 % 256 = 0 ∧ p.2.length = 256

/-- A NOP of queue `q` has issued in cycle `c`: it has left its queue, taken its WAIT and given its SIGNAL (R76). -/
def NopDone (s s' : State) (t q : Nat) (x : Tile) (e : QEntry) (c : Nat) : Prop :=
  OnlyTile s s' t ∧ (∀ k, queueOf (tileOf s' t) k = if k = q then (queueOf x q).tail else queueOf x k) ∧
    (tileOf s' t).regs = x.regs ∧ (tileOf s' t).spad = x.spad ∧ (tileOf s' t).writes = x.writes ∧ (tileOf s' t).planes = x.planes ∧
    (tileOf s' t).chains = x.chains ∧ (tileOf s' t).qregs = x.qregs ∧ (tileOf s' t).perms = x.perms ∧ (tileOf s' t).pc = x.pc ∧
    tileOf s' t = cmdSig (popIssue x q c e).1 c q e

/-- A load has replaced its plane by `p`, with the moduli of R70 and the weights of R72, and nothing else of value. -/
def Loaded (s s' : State) (t : Nat) (x : Tile) (e : QEntry) (p : Plane) : Prop :=
  OnlyTile s s' t ∧ queueOf (tileOf s' t) 0 = (queueOf x 0).tail ∧ (tileOf s' t).regs = x.regs ∧ (tileOf s' t).spad = x.spad ∧
    SameWrites (tileOf s' t).writes x.writes ∧ p.mode = lMode e.word ∧
    (∀ k, (tileOf s' t).planes.get k plane0 = if k = lPlane e.word then p else x.planes.get k plane0) ∧
    (∀ k, k < p.rows.length → p.weights.getD k 0 = (p.rows.getD k []).sum % 0x7FFFFFFF) ∧
    (lVec e.word = false → ∀ c, c < arrayN (lMode e.word) → p.moduli.getD c 0 =
      if 2 ≤ lMode e.word then 0 else if wide (lMode e.word) then lMq e.word else lMq e.word % 2 ^ 32)

/-- A set-up command of the VE has left its queue and changed nothing but set-up state. -/
def SetUp (s s' : State) (t : Nat) (x : Tile) : Prop :=
  OnlyTile s s' t ∧ queueOf (tileOf s' t) 1 = (queueOf x 1).tail ∧ (tileOf s' t).regs = x.regs ∧ (tileOf s' t).spad = x.spad ∧
    SameWrites (tileOf s' t).writes x.writes ∧ (tileOf s' t).planes = x.planes

/-- A command of Q_SP has started with the writes `ws`, none before cycle `c`. -/
def SpStarted (s s' : State) (t : Nat) (x : Tile) (c : Nat) (ws : List TimedWrite) : Prop :=
  OnlyTile s s' t ∧ WroteMore x (tileOf s' t) 4 c ws ∧ queueOf (tileOf s' t) 4 = (queueOf x 4).tail ∧
    (tileOf s' t).regs = x.regs ∧ (tileOf s' t).spad = x.spad ∧ (∀ r ∈ ws, r.data.length = 64 ∧ r.unit = 4)

/-- The offset of element `n` of a walk over these dimensions, slowest first (R190, R198). -/
def mixedOffset (d : Desc) : List Nat → Nat → Int
  | [], _ => 0
  | i :: r, n =>
    let m := (r.map (tdSize d)).foldl (· * ·) 1
    ((n / m : Nat) : Int) * tdStride d i + mixedOffset d r (n % m)

/-- The stream engines of tile `t`, which stood as `y`, have sent what they could: nothing but their streams and trackers, and requests
and messages on their way, has changed. -/
def Sending (s s' : State) (t : Nat) (y : Tile) : Prop :=
  tileOf s' t = { y with streams := (tileOf s' t).streams, trackers := (tileOf s' t).trackers,
                         lastShared := (tileOf s' t).lastShared } ∧
    (∀ u, u ≠ t → tileOf s' u = tileOf s u) ∧ s'.ts = s.ts ∧ s'.hi = s.hi ∧ s'.flt = s.flt ∧ s'.mgt = s.mgt ∧
    s'.mem.bytes = s.mem.bytes ∧ s'.out.host = s.out.host

/-- SE.READ or SE.WRITE has issued in cycle `c` as the newest stream of its engine, with the reads that it makes, and has sent what it could. -/
def StreamIssued (s s' : State) (t e c : Nat) (x : Tile) (q : QEntry) (write : Bool) (d : Desc) (p : Place) : Prop :=
  Sending s s' t (issuedTile x e c q write d p) ∧ (tileOf s' t).regs = x.regs ∧ (tileOf s' t).spad = x.spad ∧
    SameWrites (tileOf s' t).writes x.writes ∧ queueOf (tileOf s' t) (2 + e) = (queueOf x (2 + e)).tail ∧
    ∃ st, streamsOf (tileOf s' t) e = streamsOf x e ++ [st] ∧ st.entry = q ∧ st.issue = c ∧ st.op = b2n write

/-- The tile after data for a request of a stream has arrived in cycle `c` (R203, R206). -/
def arrived (x : Tile) (e c : Nat) (st : Stream) (r : StreamReq) (data : List Byte) : Tile :=
  let y := landElems (putStream x e (reqDone st r.id c)) e c st.entry (elemData st r data) (wordComplete (reqDone st r.id c))
  { y with trackers := y.trackers.put e (y.trackers.get e 0 - r.held) }

/-- The tile after a LOCAL copy has moved from cycle `c` on (R200, R203). -/
def copied (x : Tile) (e c : Nat) (st : Stream) : Tile :=
  let done := { st with reqs := st.reqs.map (fun r => if r.dev == 3 then { r with phase := .done } else r), last := Nat.max st.last c }
  let y := landElems (putStream x e done) e c st.entry (localData x st) (fun _ => true)
  { y with marks := y.marks.map (fun m =>
    if m.num == st.entry.num && (m.commit.isNone || st.op == 1) then { m with commit := some (lastAccess y st.entry.num true c) } else m) }

/-- The tile after an SE.KEY has begun its transfers in cycle `c`, `extra` being those of a stored a-half (R207, R209). -/
def keyTile (s : State) (g : Group) (y : Tile) (e c : Nat) (st : Stream) (extra : List (Nat × Nat × Nat)) : Tile :=
  readSource (putStream y e (keyStream s g y c st extra)) e c (keyStream s g y c st extra)

/-- What an SE.KEY reads and marks as it begins its transfers meets nothing. -/
abbrev KeyClear (s : State) (g : Group) (y : Tile) (e c : Nat) (st : Stream) (extra : List (Nat × Nat × Nat)) : Prop :=
  streamReadViols (footOf s g.handle) (keyTile s g y e c st extra) e st.entry false = [] ∧
    lateReads (keyTile s g y e c st extra) st.entry.num = [] ∧ lateWrites (keyTile s g y e c st extra) st.entry.num = []

/-- The pieces by word, in the order in which they are written. -/
def pieces (l : List (Nat × List Byte)) : List (Nat × List Byte) :=
  (((byWord l).map (fun p => p.2)).flatten.filter (fun p => !p.2.isEmpty)).map (fun p => (p.1 % 0x800000, p.2))

/-- Bytes have landed in tile `t` as the writes `ws` of the unit `u`, none before cycle `c`; device and host memory, the scheduler and the
core are as before. -/
def Landed (s s' : State) (t : Nat) (x : Tile) (u c : Nat) (ws : List TimedWrite) : Prop :=
  WroteMore x (tileOf s' t) u c ws ∧ (∀ w ∈ ws, c ≤ w.cyc ∧ w.unit = u) ∧ (tileOf s' t).spad = x.spad ∧
    (tileOf s' t).regs = x.regs ∧ (tileOf s' t).pc = x.pc ∧
    (tileOf s' t).queues = x.queues ∧ (∀ u, u ≠ t → tileOf s' u = tileOf s u) ∧ s'.ts = s.ts ∧ s'.mem.bytes = s.mem.bytes ∧
    s'.out.host = s.out.host

/-- A cold reset has put everything but the standby domain at its reset values, with the fuses and the persistent store kept (R360, R362,
R410, R424). -/
def Reset (s s' : State) : Prop :=
  (∀ d, 0 < d → domainRuns s' d = false) ∧ s'.hi = hi0 ∧ s'.ts.entries = [] ∧ s'.ts.sessions = [] ∧ s'.groups = [] ∧ s'.tiles = [] ∧
    s'.mem = devMem0 ∧ s'.pke = pke0 ∧ s'.spdm = spdm0 ∧ s'.time = 0 ∧ s'.mgt.fuses = s.mgt.fuses ∧
    s'.mgt.lifecycle = s.mgt.lifecycle ∧ s'.mgt.owner = s.mgt.owner ∧ s'.mgt.policy = s.mgt.policy ∧
    s'.mgt.records = s.mgt.records ∧ s'.mgt.auditNext = s.mgt.auditNext ∧ s'.mgt.committed = s.mgt.committed ∧
    s'.mgt.svnMin = s.mgt.svnMin ∧ s'.mgt.inForce = s.mgt.policy ∧ s'.mgt.svnInForce = s.mgt.svnMin ∧ s'.mgt.bootCount = s.mgt.bootCount ∧
    s'.mgt.context = none ∧ s'.mgt.diag = none ∧ s'.mgt.ready = false ∧ s'.mgt.blob = none ∧
    s'.flt.map = s.flt.saved ∧ s'.flt.fieldRetired = s.flt.fieldRetired ∧ s'.flt.tempRetired = [] ∧ s'.flt.unrecoverable = false

/-- The PLL is locked, LINK and ROM run, and the boot chain stands at step 1 (R400). -/
def BootBegun (s s' : State) : Prop :=
  s'.clk.pllLocked = true ∧ domainRuns s' 1 = true ∧ domainRuns s' 2 = true ∧ s'.clk.perst = false ∧ s'.mgt.step = 1 ∧
    s'.pke.healthy = true ∧ (∀ a ∈ s'.clk.held, a.domain ≠ 1 ∧ a.domain ≠ 2) ∧ s'.hi = s.hi ∧
    s'.ts = { s.ts with bundle := s.mgt.committed.getD defaultBundle, committed := s.mgt.committed.isSome }

/-- The blob `b` has been processed: its code and result, a fresh nonce, its one record (R379; that a full class writes none: log 40), and its
effect when every check passed (R365, R372 to R374). -/
def BlobDone (s s' : State) (b : List Byte) (readBack : Bool) : Prop :=
  s'.mgt.cmdResult = 2 ^ 31 + 256 * blCode b + blobResult s b readBack ∧ s'.mgt.nonce.length = 32 ∧ s'.mgt.blob = none ∧
    s'.mem = s.mem ∧ s'.hi = s.hi ∧ s'.ts.entries = s.ts.entries ∧ s'.groups = s.groups ∧
    (blobResult s b readBack = 2 ∨ blobResult s b readBack = 6 ∨ blobRoom s (blCode b) = false →
      s'.mgt.records = s.mgt.records ∧ s'.mgt.auditNext = s.mgt.auditNext) ∧
    (blobResult s b readBack ≠ 2 → blobResult s b readBack ≠ 6 → blobRoom s (blCode b) = true → ∃ r,
      s'.mgt.records = s.mgt.records.put (s.mgt.auditNext % 65536) r ∧ s'.mgt.auditNext = s.mgt.auditNext + 1 ∧
      r.take 8 = leBytes 8 s.mgt.auditNext ∧ sub r 20 4 = leBytes 1 (if blRole b = 2 then 2 else 1) ++ leBytes 1 (blobResult s b readBack) ++
        leBytes 2 (blCode b)) ∧
    (blobResult s b readBack ≠ 0 → s'.mgt.owner = s.mgt.owner ∧ s'.mgt.lifecycle = s.mgt.lifecycle ∧ s'.mgt.policy = s.mgt.policy ∧
      s'.mgt.inForce = s.mgt.inForce ∧ s'.mgt.svnMin = s.mgt.svnMin ∧ s'.mgt.context = s.mgt.context ∧ s'.mgt.diag = s.mgt.diag ∧ s'.mgt.chain1 = s.mgt.chain1 ∧
      s'.mgt.fuses = s.mgt.fuses ∧ s'.mgt.committed = s.mgt.committed ∧ s'.ts = s.ts) ∧
    (blobResult s b readBack = 0 →
      (blCode b = 0x0001 → s'.mgt.context = some (Nat.max (s.mgt.context.getD 0) (s.time + 1000000000 * le (blParams b) 0 4)) ∧
        s'.mgt.lifecycle = 2 ∧ s'.mgt.owner = s.mgt.owner) ∧
      (blCode b = 0x0002 → s'.mgt.context = none ∧ s'.mgt.owner = s.mgt.owner) ∧
      (blCode b = 0x0010 → s'.mgt.owner = some (parseKey (blParams b)) ∧ s.mgt.lifecycle = 1 ∧ s'.mgt.lifecycle = 2 ∧
        s'.mgt.policy = 3 ∧ s'.mgt.inForce = 3 ∧ s'.mgt.svnMin = s.mgt.fuses.svnFloor ∧ s'.mgt.svnInForce = s.mgt.fuses.svnFloor ∧ s'.ts.maxver = 0) ∧
      (blCode b = 0x0011 → s'.mgt.owner = none ∧ s'.mgt.context = none ∧ s'.mgt.committed = none ∧ s'.mgt.chain1 = [] ∧
        s'.mgt.diag = none ∧ s'.ts.switchTo = some .release) ∧
      (blCode b = 0x0020 → s'.mgt.svnMin = le (blParams b) 0 4 ∧ s'.mgt.policy = le (blParams b) 4 4 ∧
        s'.mgt.inForce = s.mgt.inForce ∧ s'.mgt.svnInForce = s.mgt.svnInForce ∧ s'.mgt.owner = s.mgt.owner) ∧
      (blCode b = 0x0021 → s'.mgt.chain1 = (blParams b).drop 4 ∧ s'.mgt.owner = s.mgt.owner) ∧
      (blCode b = 0x0050 → readBack = true ∧ s.mgt.lifecycle = 0 ∧ s'.mgt.svnMin = s'.mgt.fuses.svnFloor ∧
        (∀ a, s'.mgt.fuses.words.get a 0 = if a = le (blParams b) 388 4 then s.mgt.fuses.words.get a 0 ||| le (blParams b) 392 4
          else s.mgt.fuses.words.get a 0)) ∧
      (blCode b = 0x0051 → s.mgt.lifecycle = 0 ∧ s'.mgt.lifecycle = 1))

/-- A message of the DOE mailbox: discovery, SPDM, IDE_KM or TDISP (R272, R367, R369). -/
def Message : Instr → Prop
  | .doeDiscovery _ | .getVersion | .getCapabilities | .negotiateAlgorithms _ _ _ _ _ | .getDigests | .getCertificate _ _ _ | .challenge _ _
  | .getMeasurements _ _ _ | .keyExchange _ _ | .finish _ _ | .heartbeat _ | .keyUpdate _ _ | .endSession _ | .setCertificate _ _
  | .keyProg _ _ _ _ _ _ | .kSetGo _ _ _ _ | .kSetStop _ _ | .lockInterfaceRequest _ _ | .getDeviceInterfaceReport _ _
  | .startInterfaceRequest _ _ | .stopInterfaceRequest _ _ => True
  | _ => False

/-- A bundle command of this number has been taken in an open context: its record, and its result and effect by R323, R328 and R329. -/
def BundleDone (s s' : State) (cmd : Nat) : Prop :=
  s'.mgt.auditNext = s.mgt.auditNext + 1 ∧ s'.ts.bundle.version = s.ts.bundle.version ∧ s'.ts.entries = s.ts.entries ∧
    s'.ts.sessions = s.ts.sessions ∧ s'.mem = s.mem ∧
    (cmd = 1 → ∀ img, img = s.mgt.bar2.rdN s.ts.cfgOffset 3712 → s'.ts.result = 2 ^ 31 + 256 + stageCode s img ∧
      (stageCode s img = 0 → s'.ts.staged = some (parseBundle img) ∧ s'.ts.maxver = Nat.max s.ts.maxver (le img 8 4) ∧
        s'.mgt.maxver = s'.ts.maxver) ∧
      (stageCode s img ≠ 0 → s'.ts.staged = s.ts.staged ∧ s'.ts.maxver = s.ts.maxver)) ∧
    (cmd = 2 → (s.ts.switchTo = none → s.ts.trialEnds = none → s.ts.staged ≠ none → s'.ts.switchTo = some .apply ∧ s'.ts.result = 512) ∧
      (s.ts.switchTo ≠ none ∨ s.ts.trialEnds ≠ none → s'.ts.result = 2 ^ 31 + 519 ∧ s'.ts.switchTo = s.ts.switchTo)) ∧
    (cmd = 3 → (s.ts.trialEnds ≠ none → s'.ts.committed = true ∧ s'.ts.trialEnds = none ∧ s'.mgt.committed = some s'.ts.bundle ∧
        s'.ts.event.testBit 1 = true ∧ s'.ts.bundle.cal = s.mem.calInterval) ∧
      (s.ts.trialEnds = none → s'.ts.result = 2 ^ 31 + 776 ∧ s'.ts.committed = s.ts.committed)) ∧
    (cmd = 4 → s.ts.switchTo = none → s.ts.history ≠ [] → s'.ts.switchTo = some .revert ∧ s'.ts.result = 1024) ∧
    (cmd = 5 → s'.ts.staged = none ∧ s'.ts.result = 2 ^ 31 + 1280)

end Sys2Proof.Claims

open Sys2Proof.Claims

/-- In every tile, register 0 and every number above 63 read as zero; a write to one of them leaves the tile as it was; a write to s1 to
s63 is read back there and leaves every other register. -/
def Obligations.ScalarRegisterFile : Prop :=
  ∀ (x : Tile) (n m r : Nat) (v : Word64),
    (n = 0 ∨ 63 < n → regOf x n = 0 ∧ putReg x n v r = x) ∧
    (0 < n → n < 64 → regOf (putReg x n v r) n = v ∧ (m ≠ n → regOf (putReg x n v r) m = regOf x m))

/-- For each of the nine immediate forms: when the core of a tile stands at its opcode, its code at hand, and the registers it names let it
issue in cycle c, no injection being armed for the core, exec answers a next state in which d holds x op the sign-extended IMM14 (shifts
by IMM14[5:0]), usable in the next cycle, CYC is c + 1, PC goes on by 4, and nothing else changed.
Completes: ADDI, ANDI, ORI, XORI, SLLI, SRLI, SRAI, SLTI, SLTIU. -/
def Obligations.ImmediateFormsWriteTheirResult : Prop :=
  ∀ (s : State) (t : Nat) (g : Group) (x : Tile) (w c : Nat), Unarmed s t 4 →
    let i : Word64 := BitVec.ofInt 64 (iImm w)
    (CoreReady s t 0x01 (fun w => [iD w, iA w]) g x w c → ∃ s', exec (.addi t) s = .next s' ∧
      CoreWrote s s' t (iD w) (regOf x (iA w) + i) c 1 1 (nextPc x)) ∧
    (CoreReady s t 0x02 (fun w => [iD w, iA w]) g x w c → ∃ s', exec (.andi t) s = .next s' ∧
      CoreWrote s s' t (iD w) (regOf x (iA w) &&& i) c 1 1 (nextPc x)) ∧
    (CoreReady s t 0x03 (fun w => [iD w, iA w]) g x w c → ∃ s', exec (.ori t) s = .next s' ∧
      CoreWrote s s' t (iD w) (regOf x (iA w) ||| i) c 1 1 (nextPc x)) ∧
    (CoreReady s t 0x04 (fun w => [iD w, iA w]) g x w c → ∃ s', exec (.xori t) s = .next s' ∧
      CoreWrote s s' t (iD w) (regOf x (iA w) ^^^ i) c 1 1 (nextPc x)) ∧
    (CoreReady s t 0x05 (fun w => [iD w, iA w]) g x w c → ∃ s', exec (.slli t) s = .next s' ∧
      CoreWrote s s' t (iD w) (BitVec.ofNat 64 ((regOf x (iA w)).toNat * 2 ^ (i.toNat % 64))) c 1 1 (nextPc x)) ∧
    (CoreReady s t 0x06 (fun w => [iD w, iA w]) g x w c → ∃ s', exec (.srli t) s = .next s' ∧
      CoreWrote s s' t (iD w) (BitVec.ofNat 64 ((regOf x (iA w)).toNat / 2 ^ (i.toNat % 64))) c 1 1 (nextPc x)) ∧
    (CoreReady s t 0x07 (fun w => [iD w, iA w]) g x w c → ∃ s', exec (.srai t) s = .next s' ∧
      CoreWrote s s' t (iD w) (BitVec.ofInt 64 ((regOf x (iA w)).toInt / 2 ^ (i.toNat % 64))) c 1 1 (nextPc x)) ∧
    (CoreReady s t 0x08 (fun w => [iD w, iA w]) g x w c → ∃ s', exec (.slti t) s = .next s' ∧
      CoreWrote s s' t (iD w) (if (regOf x (iA w)).toInt < i.toInt then 1 else 0) c 1 1 (nextPc x)) ∧
    (CoreReady s t 0x09 (fun w => [iD w, iA w]) g x w c → ∃ s', exec (.sltiu t) s = .next s' ∧
      CoreWrote s s' t (iD w) (if (regOf x (iA w)).toNat < i.toNat then 1 else 0) c 1 1 (nextPc x))

/-- For each listed FN: when the core stands at an ALU word with that FN and may issue it in cycle c, no injection being armed for the core,
exec answers a next state in which d holds the function of x and y, usable one cycle later, three for MUL and MULHU, and nothing else but
CYC and PC changed.
Completes: ALU. -/
def Obligations.AluFunctionsWriteTheirResult : Prop :=
  ∀ (s : State) (t : Nat) (g : Group) (x : Tile) (w c : Nat), Unarmed s t 4 →
    CoreReady s t 0x00 (fun w => [iD w, iA w, iB w]) g x w c →
    ∀ p ∈ ([(0x00, 1, fun (a b : Word64) => a + b), (0x01, 1, fun a b => a - b), (0x02, 1, fun a b => a &&& b),
            (0x03, 1, fun a b => a ||| b), (0x04, 1, fun a b => a ^^^ b),
            (0x05, 1, fun a b => BitVec.ofNat 64 (a.toNat * 2 ^ (b.toNat % 64))),
            (0x06, 1, fun a b => BitVec.ofNat 64 (a.toNat / 2 ^ (b.toNat % 64))),
            (0x07, 1, fun a b => BitVec.ofInt 64 (a.toInt / 2 ^ (b.toNat % 64))),
            (0x08, 3, fun a b => BitVec.ofNat 64 (a.toNat * b.toNat)),
            (0x09, 3, fun a b => BitVec.ofNat 64 (a.toNat * b.toNat / 2 ^ 64)),
            (0x0A, 1, fun a b => if a.toInt < b.toInt then 1 else 0), (0x0B, 1, fun a b => if a.toNat < b.toNat then 1 else 0),
            (0x0C, 1, fun a b => if a.toInt < b.toInt then a else b), (0x0D, 1, fun a b => if a.toInt < b.toInt then b else a),
            (0x0E, 1, fun a b => if a.toNat < b.toNat then a else b), (0x0F, 1, fun a b => if a.toNat < b.toNat then b else a)] :
            List (Nat × Nat × (Word64 → Word64 → Word64))),
      iFn w = p.1 → ∃ s', exec (.alu t) s = .next s' ∧
        CoreWrote s s' t (iD w) (p.2.2 (regOf x (iA w)) (regOf x (iB w))) c 1 p.2.1 (nextPc x)

/-- Bit i of the result: SETH writes IMM16 into bits [16 SH + 15 : 16 SH] of d and keeps the others; BFI writes the low L bits of x at
[POS + L − 1 : POS] of d, bits above 63 dropped; BFX reads those bits of x, zero-extended; L is LEN, or 64 for 0. Each completes whenever
the core may issue it and no injection is armed for the core, and changes nothing but d, CYC and PC.
Completes: SETH, BFI, BFX. -/
def Obligations.BitFieldInstructions : Prop :=
  ∀ (s : State) (t : Nat) (g : Group) (x : Tile) (w c : Nat), Unarmed s t 4 →
    (CoreReady s t 0x0A (fun w => [iD w]) g x w c → ∃ s' v, exec (.seth t) s = .next s' ∧ CoreWrote s s' t (iD w) v c 1 1 (nextPc x) ∧
      ∀ i, i < 64 → v.getLsbD i = (if 16 * iSh w ≤ i ∧ i < 16 * iSh w + 16 then (iImm16 w).testBit (i - 16 * iSh w)
        else (regOf x (iD w)).getLsbD i)) ∧
    (CoreReady s t 0x0B (fun w => [iD w, iA w]) g x w c → ∃ s' v, exec (.bfi t) s = .next s' ∧
      CoreWrote s s' t (iD w) v c 1 1 (nextPc x) ∧
      ∀ i, i < 64 → v.getLsbD i = (if iB w ≤ i ∧ i < iB w + iLen w then (regOf x (iA w)).getLsbD (i - iB w)
        else (regOf x (iD w)).getLsbD i)) ∧
    (CoreReady s t 0x0C (fun w => [iD w, iA w]) g x w c → ∃ s' v, exec (.bfx t) s = .next s' ∧
      CoreWrote s s' t (iD w) v c 1 1 (nextPc x) ∧
      ∀ i, i < 64 → v.getLsbD i = (decide (i < iLen w) && (regOf x (iA w)).getLsbD (iB w + i)))

/-- A conditional branch takes 2 cycles to PC + 4 OFF14 when its comparison holds, else 1 cycle to the next instruction. JAL and JALR
write PC + 4 to d and take 2 cycles to their target. An unlisted OP, or ALU with an unlisted FN, is a one-cycle no-op. END, or a PC
outside the role's code, stops the core while CYC has not passed 2^40 − 1. No other register, and nothing outside the core, changes. Where the line of code at PC is not at
hand and one refill brings all that is missing, each of the forty-one rows of the core then does what it does at the state after that refill
(R135). That PC, a sum of R130, is taken modulo 2^64 is the model's reading (DEDUCED, log 18).
Completes: BEQ, BNE, BLT, BGE, BLTU, BGEU, JAL, JALR, CORE_NOP, END. -/
def Obligations.ControlFlowOfTheCore : Prop :=
  ∀ (s : State) (t : Nat) (g : Group) (x : Tile) (w c : Nat),
    (CoreReady s t 0x18 (fun w => [iD w, iA w]) g x w c → ∃ s', exec (.beq t) s = .next s' ∧ Branched s s' t x w c (regOf x (iD w) = regOf x (iA w))) ∧
    (CoreReady s t 0x19 (fun w => [iD w, iA w]) g x w c → ∃ s', exec (.bne t) s = .next s' ∧ Branched s s' t x w c (regOf x (iD w) ≠ regOf x (iA w))) ∧
    (CoreReady s t 0x1A (fun w => [iD w, iA w]) g x w c → ∃ s', exec (.blt t) s = .next s' ∧ Branched s s' t x w c ((regOf x (iD w)).toInt < (regOf x (iA w)).toInt)) ∧
    (CoreReady s t 0x1B (fun w => [iD w, iA w]) g x w c → ∃ s', exec (.bge t) s = .next s' ∧ Branched s s' t x w c ((regOf x (iA w)).toInt ≤ (regOf x (iD w)).toInt)) ∧
    (CoreReady s t 0x1C (fun w => [iD w, iA w]) g x w c → ∃ s', exec (.bltu t) s = .next s' ∧ Branched s s' t x w c ((regOf x (iD w)).toNat < (regOf x (iA w)).toNat)) ∧
    (CoreReady s t 0x1D (fun w => [iD w, iA w]) g x w c → ∃ s', exec (.bgeu t) s = .next s' ∧ Branched s s' t x w c ((regOf x (iA w)).toNat ≤ (regOf x (iD w)).toNat)) ∧
    (CoreReady s t 0x1E (fun w => [iD w]) g x w c →
      ∃ s', exec (.jal t) s = .next s' ∧
        CoreWrote s s' t (iD w) (BitVec.ofNat 64 (x.pc + 4)) c 2 2 (imod (x.pc + 4 * iOff20 w) (2 ^ 64))) ∧
    (CoreReady s t 0x1F (fun w => [iD w, iA w]) g x w c →
      ∃ s', exec (.jalr t) s = .next s' ∧
        CoreWrote s s' t (iD w) (BitVec.ofNat 64 (x.pc + 4)) c 2 2 (4 * (imod ((regOf x (iA w)).toNat + iImm w) (2 ^ 64) / 4))) ∧
    (live s t = some g → (tileOf s t).status = .running → missing s t = none → coreWord (tileOf s t) = some w →
      (tileOf s t).cyc < 2 ^ 40 → iOp w ∈ [0x0D, 0x0E, 0x0F, 0x16, 0x17] ∨ 0x2C < iOp w ∨ (iOp w = 0 ∧ 0x0F < iFn w) →
      ∃ s', exec (.coreNop t) s = .next s' ∧ CoreMoved s s' t (tileOf s t).cyc 1 (nextPc (tileOf s t))) ∧
    (live s t = some g → (tileOf s t).status = .running → missing s t = none →
      (tileOf s t).cyc < 2 ^ 40 → coreWord (tileOf s t) = none ∨ (coreWord (tileOf s t) = some w ∧ iOp w = 0x2C) →
      exec (.endCore t) s = .next (setTile s t { tileOf s t with status := .ended, cyc := (tileOf s t).cyc + 1 })) ∧
    (∀ a s1, missing s t = some (g, a) → refill s g t a = .got s1 → missing s1 t = none →
      ∀ i ∈ ([.addi t, .andi t, .ori t, .xori t, .slli t, .srli t, .srai t, .slti t, .sltiu t, .alu t, .seth t,
             .bfi t, .bfx t, .ld t, .lw t, .st t, .sw t, .arg t, .cld t, .beq t, .bne t, .blt t,
             .bge t, .bltu t, .bgeu t, .jal t, .jalr t, .anchor t, .waitc t, .csrr t, .push t, .semw t, .sems t, .semr t,
             .rsig t, .bar t, .win t, .descMake t, .epoch t, .endCore t, .coreNop t] : List Instr), exec i s = exec i s1)

/-- ARG reads the argument word (x + IMM14) mod 512. CLD writes the four 8-byte words of the aligned 32 bytes of code at PC + 32 OFF20
to s(D) to s(D+3), bytes outside the code reading as zero. CSRR reads the special register IMM14[7:0]: CYC, BASE, TILE, LTILE, GW,
GH, ROLE, EPOCH, STREAMING, and zero for an unlisted number; QFREE and HOLDFREE once everything that the tile does by then is done. ANCHOR sets BASE to (CYC + x + IMM14) mod 2^40. WAITC goes on at once when CYC has
reached x + IMM14, else the core waits for that cycle, and WAITC_EXPIRY ends the wait in it; that the sum wraps modulo 2^64 is the model's
reading (DEDUCED, log 18).
Completes: ARG, CLD, CSRR, ANCHOR, WAITC, WAITC_EXPIRY. -/
def Obligations.SpecialCoreInstructions : Prop :=
  ∀ (s : State) (t : Nat) (g : Group) (x : Tile) (w c : Nat),
    (CoreReady s t 0x14 (fun w => [iD w, iA w]) g x w c → ∃ s', exec (.arg t) s = .next s' ∧
      CoreWrote s s' t (iD w) (x.args.get (imod ((regOf x (iA w)).toNat + iImm w) 512) 0) c 1 2 (nextPc x)) ∧
    (CoreReady s t 0x15 (fun w => [iD w, iD w + 1, iD w + 2, iD w + 3]) g x w c → ∃ s', exec (.cld t) s = .next s' ∧
      OnlyTile s s' t ∧ OnlyCore x (tileOf s' t) ∧ (tileOf s' t).cyc = c + 2 ∧ (tileOf s' t).pc = nextPc x ∧
      ∀ n, regOf (tileOf s' t) n = if iD w ≤ n ∧ n < iD w + 4 ∧ 0 < n ∧ n < 64 then
          BitVec.ofNat 64 (leNat ((List.range 8).map (fun (j : Nat) =>
            let a : Int := 32 * (((x.pc : Int) + 32 * iOff20 w) / 32) + 8 * ((n - iD w : Nat) : Int) + (j : Int)
            if 0 ≤ a ∧ a < x.codeLen then x.code.rd a.toNat else 0)))
        else regOf x n) ∧
    (CoreReady s t 0x28 (fun w => [iD w]) g x w c →
      (imod (iImm w) 256 = 9 ∨ imod (iImm w) 256 = 10 → caughtUp x coreEvent (c + 1) = true) → ∃ s' v, exec (.csrr t) s = .next s' ∧
      CoreWrote s s' t (iD w) (BitVec.ofNat 64 v) c 1 1 (nextPc x) ∧
      (∀ p ∈ [(0, c), (1, x.base), (2, x.index), (3, t), (4, g.gw), (5, g.gh), (6, x.role), (7, g.epoch),
          (8, if streamingOf s g.handle then 1 else 0), (10, 16 - holdUse x c)], imod (iImm w) 256 = p.1 → v = p.2) ∧
      (imod (iImm w) 256 = 9 → (∀ q, q < 5 → queueUse x q c ≤ 32) → ∀ q, q < 5 → v / 2 ^ (6 * q) % 2 ^ 6 = 32 - queueUse x q c) ∧
      (10 < imod (iImm w) 256 → v = 0)) ∧
    (CoreReady s t 0x26 (fun w => [iA w]) g x w c → ∃ s', exec (.anchor t) s = .next s' ∧
      s' = setTile s t { x with base := imod (c + (regOf x (iA w)).toNat + iImm w) (2 ^ 40), cyc := c + 1, pc := nextPc x }) ∧
    (CoreReady s t 0x27 (fun w => [iA w]) g x w c → ∃ s', exec (.waitc t) s = .next s' ∧
      (imod ((regOf x (iA w)).toNat + iImm w) (2 ^ 64) ≤ c → CoreMoved s s' t c 1 (nextPc x)) ∧
      (c < imod ((regOf x (iA w)).toNat + iImm w) (2 ^ 64) →
        s' = setTile s t { x with cyc := c, status := .waiting (.until (imod ((regOf x (iA w)).toNat + iImm w) (2 ^ 64))) })) ∧
    (∀ k, live s t = some g → (tileOf s t).status = .waiting (.until k) → k < 2 ^ 40 →
      exec (.waitcExpiry t) s =
        .next (setTile s t { tileOf s t with status := .running, cyc := k + 1, pc := nextPc (tileOf s t) }))

/-- A load within FOOTPRINT that meets no pending word, with all that the tile does before it done, completes: d holds the 8 or 4 scratchpad
bytes at x + IMM14 modulo 8 MB, little end first, as they stand in the cycle of its grant. A store completes by leaving its bytes for the
cycle after; CORE_STORE_WRITE then writes them: where no access of the lower ranks stands and no row under way reads later, from the cycle
after its grant a read of one of them gives the stored byte, and a read of any other byte in any cycle gives what it gave. Nothing outside
the tile changes.
Completes: LD, LW, ST, SW, CORE_STORE_WRITE. -/
def Obligations.CoreLoadsAndStores : Prop :=
  ∀ (s : State) (t : Nat) (g : Group) (x : Tile) (w c : Nat),
    (∀ a k, CoreReady s t 0x10 (fun w => [iD w, iA w]) g x w c → x.store = none → Unarmed s t 3 →
      a = imod ((regOf x (iA w)).toNat + iImm w) 0x800000 → k = grantFrom x a 8 (Nat.max c x.storeAt) → caughtUp x coreEvent (k + 1) = true →
      readViols (footOf s g.handle) x k a 8 5 x.pc 0 false = [] → movedViols x (coreClaim x k a 8 false) = [] →
      ∃ s', exec (.ld t) s = .next s' ∧ CoreLoaded s s' t x (iD w) (BitVec.ofNat 64 (leNat (spadBytes x k a 8))) k) ∧
    (∀ a k, CoreReady s t 0x11 (fun w => [iD w, iA w]) g x w c → x.store = none → Unarmed s t 3 →
      a = imod ((regOf x (iA w)).toNat + iImm w) 0x800000 → k = grantFrom x a 4 (Nat.max c x.storeAt) → caughtUp x coreEvent (k + 1) = true →
      readViols (footOf s g.handle) x k a 4 5 x.pc 0 false = [] → movedViols x (coreClaim x k a 4 false) = [] →
      ∃ s', exec (.lw t) s = .next s' ∧ CoreLoaded s s' t x (iD w) (BitVec.ofNat 64 (leNat (spadBytes x k a 4))) k) ∧
    (CoreReady s t 0x12 (fun w => [iD w, iA w]) g x w c → x.store = none →
      ∃ s', exec (.st t) s = .next s' ∧
        s' = setTile s t { x with
          cyc := Nat.max c (x.storeAt - 1) + 1, pc := nextPc x,
          store := some { from_ := Nat.max c (x.storeAt - 1) + 1, addr := imod ((regOf x (iA w)).toNat + iImm w) 0x800000,
                          data := leBytes 8 (regOf x (iD w)).toNat, pc := x.pc } }) ∧
    (CoreReady s t 0x13 (fun w => [iD w, iA w]) g x w c → x.store = none →
      ∃ s', exec (.sw t) s = .next s' ∧
        s' = setTile s t { x with
          cyc := Nat.max c (x.storeAt - 1) + 1, pc := nextPc x,
          store := some { from_ := Nat.max c (x.storeAt - 1) + 1, addr := imod ((regOf x (iA w)).toNat + iImm w) 0x800000,
                          data := leBytes 4 (regOf x (iD w)).toNat, pc := x.pc } }) ∧
    (∀ p k, live s t = some g → (tileOf s t).store = some p → p.addr < 0x800000 → p.data.length ≤ 8 → Unarmed s t 3 →
      k = grantFrom (tileOf s t) p.addr p.data.length p.from_ → caughtUp (tileOf s t) 5 (k + 1) = true →
      writeViols (footOf s g.handle) (tileOf s t) k p.addr p.data.length 5 p.pc 0 = [] →
      movedViols (tileOf s t) (coreClaim (tileOf s t) k p.addr p.data.length true) = [] →
      ∃ s', exec (.coreStoreWrite t) s = .next s' ∧ OnlyTile s s' t ∧ (tileOf s' t).store = none ∧ (tileOf s' t).storeAt = k + 1 ∧
        (NoLowRanks (tileOf s t) → Settled (tileOf s t) k →
          (∀ i, i < p.data.length → (∀ v ∈ (tileOf s t).writes, v.cyc ≤ k) →
            ∀ r, k < r → spadByte (tileOf s' t) r (p.addr + i) = p.data.getD i 0) ∧
          (∀ b, b < 0x800000 → (∀ i, i < p.data.length → b ≠ (p.addr + i) % 0x800000) →
            ∀ r, spadByte (tileOf s' t) r b = spadByte (tileOf s t) r b)) ∧
        (∀ n, regOf (tileOf s' t) n = regOf (tileOf s t) n) ∧ (tileOf s' t).sems = (tileOf s t).sems)

/-- With room in the queue and in the range-holding table, and no violation, PUSH completes: the 256 bits of s(N) to s(N+3) stand at the end
of the named queue, with TIMED cleared in streaming mode and AT moved by BASE where REL and TIMED are set, the push cycle is c, marks and
holds are added, and no other queue and no register changes. Without room the core stalls in place. PUSH_STALL_END does the same in the
first cycle in which both conditions clear. What the tile does by then comes before either. A TIMED command for the MMA, VE or a stream engine whose AT is at most c + 15 is accepted too and
ends its task with LATE_ISSUE, where nothing was violated before.
Completes: PUSH, PUSH_STALL_END. -/
def Obligations.PushAppendsOrStalls : Prop :=
  ∀ (s : State) (t : Nat) (g : Group) (x : Tile) (w c : Nat),
    (CoreReady s t 0x20 (fun w => [iD w, iD w + 1, iD w + 2, iD w + 3]) g x w c →
      (4 < iQueue w → ∃ s', exec (.push t) s = .next s' ∧ CoreMoved s s' t c 1 (nextPc x)) ∧
      (iQueue w ≤ 4 → caughtUp x coreEvent (c + 1) = true → pushClear x (iQueue w) c (pushNeed s g x w c) = false →
        exec (.push t) s = .next (setTile s t { x with cyc := c, status := .waiting .pushing })) ∧
      (iQueue w ≤ 4 → caughtUp x coreEvent (c + 1) = true → pushClear x (iQueue w) c (pushNeed s g x w c) = true →
        pushViols x (iQueue w) (pushCmd s g x w) c = [] →
        ∃ s' e, exec (.push t) s = .next s' ∧ Pushed s s' t g x w c e) ∧
      (iQueue w < 4 → caughtUp x coreEvent (c + 1) = true → pushClear x (iQueue w) c (pushNeed s g x w c) = true →
        hTimed (pushCmd s g x w) = true → hAt (pushCmd s g x w) ≤ c + 15 → overBy x c = none → openViols x c = [] →
        ∃ s', exec (.push t) s = .next s' ∧ PushedLate s s' t g x (iQueue w) c (hAt (pushCmd s g x w)))) ∧
    (live s t = some g → x = tileOf s t → x.status = .waiting .pushing → coreWord x = some w → x.cyc < c → c < 2 ^ 40 →
      pushClear x (iQueue w) (c - 1) (pushNeed s g x w (c - 1)) = false → pushClear x (iQueue w) c (pushNeed s g x w c) = true →
      caughtUp x coreEvent (c + 1) = true →
      (pushViols x (iQueue w) (pushCmd s g x w) c = [] →
        ∃ s' e, exec (.pushStallEnd t c) s = .next s' ∧ Pushed s s' t g x w c e) ∧
      (iQueue w < 4 → hTimed (pushCmd s g x w) = true → hAt (pushCmd s g x w) ≤ c + 15 → overBy x c = none → openViols x c = [] →
        ∃ s', exec (.pushStallEnd t c) s = .next s' ∧ PushedLate s s' t g x (iQueue w) c (hAt (pushCmd s g x w))))

/-- SEMW with COUNT 0 retires at once; with enough count it completes and takes COUNT from the semaphore; with too little the core waits.
SEMW_SATISFIED completes it in the first cycle that has the count. SEMS completes by adding COUNT at the end of its cycle. SEMR reads the
count. A take comes in its turn among the waits of the tile (R140), and it and a reading after what the tile does by then. With every signal of the semaphore so far applied by cycle c, the count
after a take is the old count less COUNT, and the count after SEMS is the old count plus COUNT from the next cycle on and unchanged in c;
other semaphores keep their count.
Completes: SEMW, SEMW_SATISFIED, SEMS, SEMR. -/
def Obligations.SemaphoreInstructions : Prop :=
  ∀ (s : State) (t : Nat) (g : Group) (x : Tile) (w c : Nat),
    (CoreReady s t 0x21 (fun _ => []) g x w c →
      (iCount w = 0 → ∃ s', exec (.semw t) s = .next s' ∧ CoreMoved s s' t c 1 (nextPc x)) ∧
      (0 < iCount w → iCount w ≤ semAvail x (iA w) c → waitTurn x 5 (iA w) c = true → caughtUp x coreEvent (c + 1) = true →
        (takeSem x (iA w) (iCount w) c).2 = [] →
        exec (.semw t) s = .next (setTile s t (saw (retire (takeSem x (iA w) (iCount w) c).1 c 1 (x.pc + 4)) c))) ∧
      (semAvail x (iA w) c < iCount w →
        exec (.semw t) s = .next (setTile s t { x with cyc := c, status := .waiting (.sem (iA w) (iCount w)) }))) ∧
    (∀ sem n, live s t = some g → x = tileOf s t → x.status = .waiting (.sem sem n) → waitFrom x sem n x.cyc = some c → c < 2 ^ 40 →
      waitTurn x 5 sem c = true → caughtUp x coreEvent (c + 1) = true → (takeSem x sem n c).2 = [] →
      exec (.semwSatisfied t) s =
        .next (setTile s t { saw (retire (takeSem x sem n c).1 c 1 (x.pc + 4)) c with status := .running })) ∧
    (CoreReady s t 0x22 (fun _ => []) g x w c → overBy (addSig x c (iA w) (iCount w) 5 x.pc) (c + 1) = none →
      exec (.sems t) s = .next (setTile s t (retire (addSig x c (iA w) (iCount w) 5 x.pc) c 1 (x.pc + 4)))) ∧
    (CoreReady s t 0x23 (fun w => [iD w]) g x w c → caughtUp x coreEvent (c + 1) = true → ∃ s', exec (.semr t) s = .next s' ∧
      CoreWrote s s' t (iD w) (BitVec.ofNat 64 (semAvail x (iA w) c)) c 1 1 (nextPc x)) ∧
    (∀ sem n r k, x.semAt.get sem 0 ≤ c → (∀ q ∈ x.sigs, q.sem = sem → q.cyc < c) → c < r →
      (n ≤ semAvail x sem c → (takeSem x sem n c).2 = [] → semAvail (takeSem x sem n c).1 sem r = semAvail x sem c - n) ∧
      (semAvail x sem c + n ≤ 255 → semAvail (addSig x c sem n 5 x.pc) sem c = semAvail x sem c ∧
        semAvail (addSig x c sem n 5 x.pc) sem r = semAvail x sem c + n) ∧
      (k ≠ sem → semAvail (takeSem x sem n c).1 k r = semAvail x k r ∧ semAvail (addSig x c sem n 5 x.pc) k r = semAvail x k r))

/-- Once what the tile does by then is done, RSIG to another tile of the group completes: the signal stands behind every message sent before, and only the core has moved on; with
COUNT 0 nothing is sent; to the own tile it acts as SEMS.
REMOTE_SIGNAL_ARRIVAL completes whenever a signal from that tile is due, no remote write of that tile to this
one standing before it, nothing from it having arrived later, and the tile having read nothing later that it could change: its count is added to the semaphore of the target in the named cycle, and
every other message stays in order.
Completes: RSIG, REMOTE_SIGNAL_ARRIVAL. -/
def Obligations.RemoteSignals : Prop :=
  ∀ (s : State) (t : Nat) (g : Group) (x : Tile) (w c : Nat),
    (CoreReady s t 0x24 (fun w => [iD w]) g x w c → caughtUp x coreEvent (c + 1) = true →
      (groupTarget g (regOf x (iD w)).toNat ≠ t → 0 < iCount w →
        exec (.rsig t) s = .next (setGroup (setTile s t (retire x c 1 (x.pc + 4)))
          { g with msgs := g.msgs ++ [{ msg0 with src := t, dst := groupTarget g (regOf x (iD w)).toNat, kind := 2, unit := 5,
                                                  sem := iA w, count := iCount w }] })) ∧
      (groupTarget g (regOf x (iD w)).toNat ≠ t → iCount w = 0 → ∃ s', exec (.rsig t) s = .next s' ∧ CoreMoved s s' t c 1 (nextPc x)) ∧
      (groupTarget g (regOf x (iD w)).toNat = t → overBy (addSig x c (iA w) (iCount w) 5 x.pc) (c + 1) = none →
        exec (.rsig t) s = .next (setTile s t (retire (addSig x c (iA w) (iCount w) 5 x.pc) c 1 (x.pc + 4))))) ∧
    (∀ src pre m post, live s t = some g → x = tileOf s t → g.msgs = pre ++ m :: post → m.src = src → m.dst = t → m.kind = 2 →
      (∀ k ∈ pre, ¬(k.src = src ∧ k.dst = t ∧ (k.kind = 0 ∨ k.kind = 2))) → c < 2 ^ 40 →
      x.heard.get src 0 ≤ c → observed x ≤ c → overBy (addSig (hear x src c) c m.sem m.count 6 0xFFFFFFFF) (c + 1) = none →
      exec (.remoteSignalArrival t src c) s =
        .next (setTile (setGroup s { g with msgs := pre ++ post }) t
          (addSig { x with heard := x.heard.put src c } c m.sem m.count 6 0xFFFFFFFF))) ∧
    (∀ src pre m post, live s t = some g → g.msgs = pre ++ m :: post → m.src = src → m.dst = t → m.kind = 0 →
      (∀ k ∈ pre, ¬(k.src = src ∧ k.dst = t ∧ k.kind = 2)) →
      exec (.remoteSignalArrival t src c) s = .refused (.notEnabled "REMOTE_SIGNAL_ARRIVAL"))

/-- BAR completes by stalling the core and sending its arrival. BARRIER_ARRIVAL takes it to the router: while some tile of the group has not
arrived under that identifier it is kept, and when all have, the arrivals are cleared and every tile is released. BARRIER_RELEASE lets a
stalled core go on after the BAR in the cycle named.
Completes: BAR, BARRIER_ARRIVAL, BARRIER_RELEASE. -/
def Obligations.GroupBarrier : Prop :=
  ∀ (s : State) (t : Nat) (g : Group) (x : Tile) (w c : Nat),
    (CoreReady s t 0x25 (fun _ => []) g x w c →
      exec (.bar t) s = .next (setGroup (setTile s t { x with cyc := c, status := .waiting (.bar (imod (iImm w) 256)) })
        { g with barSent := g.barSent ++ [(t, imod (iImm w) 256)] })) ∧
    (∀ id, live s t = some g → g.barSent.find? (fun p => p.1 == t) = some (t, id) →
      ((∀ k ∈ groupTiles g, (k, id) ∈ g.barHere ++ [(t, id)]) →
        ∃ g', exec (.barrierArrival t) s = .next (setGroup s g') ∧ g'.release = g.release ++ groupTiles g ∧
          (∀ k, (k, id) ∉ g'.barHere) ∧ (∀ k i, i ≠ id → ((k, i) ∈ g'.barHere ↔ (k, i) ∈ g.barHere))) ∧
      ((∃ k ∈ groupTiles g, (k, id) ∉ g.barHere ++ [(t, id)]) →
        ∃ g', exec (.barrierArrival t) s = .next (setGroup s g') ∧ g'.release = g.release ∧ g'.barHere = g.barHere ++ [(t, id)])) ∧
    (∀ id, live s t = some g → x = tileOf s t → x.status = .waiting (.bar id) → t ∈ g.release → x.cyc < c → observed x ≤ c →
      c < 2 ^ 40 →
      exec (.barrierRelease t c) s =
        .next (setGroup (setTile s t { x with status := .running, cyc := c, pc := nextPc x })
          { g with release := g.release.filter (fun k => !(k == t)) }))

/-- EPOCH completes by stalling the core until its tile quiesces. When every tile of the group has joined, no signal overflows and the image
of a macro plans a further epoch (its epoch table, R221; any other image does),
EPOCH_CHECKPOINT completes: the epoch number rises by 1, the checkpoint of each tile holds its scratchpad with every write of the epoch
applied, within FOOTPRINT, its registers, BASE, semaphores with every signal added and windows, and each core runs on after EPOCH at CYC 0
with empty queues, no marks, no holds, no job and the image's descriptor table. Stated for an image that declares no triple; with triples
the next epoch's consumption follows (R430).
Completes: EPOCH, EPOCH_CHECKPOINT. -/
def Obligations.EpochAndCheckpoint : Prop :=
  ∀ (s : State) (t : Nat) (g : Group) (x : Tile) (w c : Nat),
    (CoreReady s t 0x2B (fun _ => []) g x w c →
      exec (.epoch t) s = .next (setTile s t { x with cyc := c, status := .waiting .quiesce })) ∧
    (∀ h e i, groupOf s h = some g → entryOf s h = some e → e.image = some i → g.fault = none → allJoined s g = true →
      epochPlanned i (g.epoch + 1) = true →
      (∀ d ∈ i.objs, d.role ≠ 4) → closeViols s g = none → (groupTiles g).Nodup →
      ∃ s' g' sv, exec (.epochCheckpoint h) s = .next s' ∧ groupOf s' h = some g' ∧ g'.epoch = g.epoch + 1 ∧ g'.epochAt = s.time ∧
        g'.saves.head? = some (g.epoch + 1, sv) ∧ sv.map (fun v => v.tile) = groupTiles g ∧
        (∀ v ∈ sv, v.regs = (tileOf s v.tile).regs ∧ v.base = (tileOf s v.tile).base ∧ v.pc = (tileOf s v.tile).pc + 4 ∧
          v.windows = (tileOf s v.tile).windows ∧ v.sems = (closeEpoch (tileOf s v.tile)).sems ∧
          v.spad = (flushWrites (tileOf s v.tile)).filter (fun p => bitAt i.footprint (spadGroup p.1))) ∧
        (∀ k ∈ groupTiles g, (tileOf s' k).status = .running ∧ (tileOf s' k).cyc = 0 ∧ (tileOf s' k).pc = (tileOf s k).pc + 4 ∧
          (tileOf s' k).regs = (tileOf s k).regs ∧ (tileOf s' k).queues = [] ∧ (tileOf s' k).marks = [] ∧
          (tileOf s' k).holds = [] ∧ (tileOf s' k).writes = [] ∧ (tileOf s' k).jobs = [] ∧
          (tileOf s' k).sems = (closeEpoch (tileOf s k)).sems ∧ (tileOf s' k).sigs = [] ∧ (tileOf s' k).spad = flushWrites (tileOf s k) ∧
          (tileOf s' k).descs = descTable i) ∧
        s'.hi = s.hi ∧ s'.mem = s.mem ∧ s'.ts = s.ts)

/-- When every tile of a group is stalled, some wait can never be satisfied and this has held for 2,048 ns, SEMAPHORE_DEADLOCK completes: the
task aborts with status 0x0303 and its group is gone; a signal that overflows its semaphore comes first, and so does a read or a write that a
command which never issues forbids. When CYC would pass 2^40 − 1, CYC_OVERFLOW aborts it with 0x0604 TIMEOUT in the same way: where the core
stands outside its code or at an instruction that cannot issue before, where WAITC or SEMW waits for such a cycle, and where nothing that is
known ends the stall and the epoch has lasted 2^40 ACLK at 3 ACLK a nanosecond (DESIGN CHOICE, log 4). After either the work of the handle is over, no tile of it belongs to a group,
and the core of each is idle with empty queues. Eddy notes a stall with the time from which it holds.
Completes: SEMAPHORE_DEADLOCK, CYC_OVERFLOW. -/
def Obligations.DeadlockAndOverflowEndTheTask : Prop :=
  ∀ (s : State) (h : Nat) (g : Group) (e : Entry), groupOf s h = some g → entryOf s h = some e → (groupTiles g).Nodup →
    (∀ at_, deadlocked s g = true → g.stalled = some (at_, stallKey s g) → at_ + 2048 ≤ s.time → closeViols s g = none →
      ∃ s' d, exec (.semaphoreDeadlock h) s = .next s' ∧ Ended s s' h g 0x0303 ∧ s' = abortTask (drawBytes s 6).2 h 0x0303 (some d) ∧
        d.tile ∈ groupTiles g ∧ d.epoch = g.epoch % 256) ∧
    (∀ t d, deadlocked s g = true → stallHeld s g = true → closeViols s g = some (t, d) →
      ∃ s' st, exec (.semaphoreDeadlock h) s = .next s' ∧ Ended s s' h g st ∧ (st = 0x0304 ∨ st = 0x0301)) ∧
    (deadlocked s g = true → g.stalled = none → (noteStall s g).stalled = some (s.time, stallKey s g)) ∧
    (deadlocked s g = false → (noteStall s g).stalled = none) ∧
    (∀ t, live s t = some g →
      ((tileOf s t).status = .running ∧ coreWord (tileOf s t) = none ∧ 2 ^ 40 ≤ (tileOf s t).cyc) ∨
      (∃ w, (tileOf s t).status = .running ∧ coreWord (tileOf s t) = some w ∧ 2 ^ 40 ≤ startAt (tileOf s t) (namedOf w)) ∨
      (∃ k, (tileOf s t).status = .waiting (.until k) ∧ 2 ^ 40 ≤ k) ∨
      (∃ sem n c, (tileOf s t).status = .waiting (.sem sem n) ∧ waitFrom (tileOf s t) sem n (tileOf s t).cyc = some c ∧ 2 ^ 40 ≤ c) ∨
      (2 ^ 40 ≤ 3 * (s.time - g.epochAt) ∧ (((tileOf s t).status = .waiting .pushing ∨ (tileOf s t).status = .waiting .quiesce ∨
        ∃ b, (tileOf s t).status = .waiting (.bar b)) ∨
        ∃ sem n, (tileOf s t).status = .waiting (.sem sem n) ∧ waitFrom (tileOf s t) sem n (tileOf s t).cyc = none)) →
      ∃ s', exec (.cycOverflow t) s = .next s' ∧ Ended s s' h g 0x0604 ∧ s' = abortTask s h 0x0604 none)

/-- A word that executes as NOP at the head of Q_MMA, Q_VE or Q_SP completes in its issue cycle: it leaves its queue, WAIT_N is taken from
WAIT_SEM, SIG_N is added to SIG_SEM at the end of that cycle, and no other queue, no register, no scratchpad byte, no plane and no set-up
register changes. It issues in its turn among the events of the tile, and takes its count in its turn among the waits (R140).
Completes: MMA_NOP, VE_NOP, SP_NOP. -/
def Obligations.EngineNopsWaitAndSignal : Prop :=
  ∀ (s : State) (t : Nat) (g : Group) (x : Tile) (e : QEntry) (c : Nat),
    (headIs s t 0 .nop = some (g, x, e) → issueOf x 0 e 0 0 = .go c → c < 2 ^ 40 → inTurn s g t x 0 c e = true → (popIssue x 0 c e).2 = [] →
      ∃ s', exec (.mmaNop t) s = .next s' ∧ NopDone s s' t 0 x e c) ∧
    (headIs s t 1 .nop = some (g, x, e) → issueOf x 1 e 0 0 = .go c → c < 2 ^ 40 → inTurn s g t x 1 c e = true → (popIssue x 1 c e).2 = [] →
      ∃ s', exec (.veNop t) s = .next s' ∧ NopDone s s' t 1 x e c) ∧
    (spHead s t .nop = some (g, x, e, c) → (popIssue x 4 c e).2 = [] →
      ∃ s', exec (.spNop t) s = .next s' ∧ NopDone s s' t 4 x e c)

/-- A load that issues in cycle L and violates nothing completes and replaces its plane, leaving the other plane, every scratchpad byte and
every register: MMA.LOAD puts at [k][n] the element n of the 256 bytes at BADDR + k BSTRIDE as read in cycle L + 2 + k (2k in the 64-bit
modes); MMA.LOADT puts at [k][c] coefficient e mod N of g, e = (M0 + c − J0 − k) mod 2N, negated modulo the column's modulus where e ≥ N
and NEG is set. A column's modulus is MQ (its low 32 bits in a 32-bit mode) when MSRC is 0. A row's weight is its sum mod 2^31 − 1. The cycle within L + 2 to L + 5 in which LOADT reads a word of g is the model's choice (DESIGN CHOICE,
log 46).
Completes: MMA_LOAD, MMA_LOADT. -/
def Obligations.MmaLoadsFillThePlane : Prop :=
  ∀ (s : State) (t : Nat) (g : Group) (x : Tile) (e : QEntry) (l : Nat), Unarmed s t 3 → l < 2 ^ 40 →
    (headIs s t 0 .load = some (g, x, e) → issueOf x 0 e (loadStruct x) (loadFull x e) = .go l →
      inTurn s g t x 0 l e = true → loadViols (footOf s g.handle) x e l (loadReads e.word l) (rowClaims e l) (l + 129) = [] →
      ∃ s' p, exec (.mmaLoad t) s = .next s' ∧ Loaded s s' t x e p ∧
        ∀ k n, k < lRows e.word → n < arrayN (lMode e.word) → (p.rows.getD k []).getD n 0 =
          le (spadBytes x (l + 2 + (if wide (lMode e.word) then 2 else 1) * k)
            (imod ((lBaddr e.word : Int) + k * lBstride e.word) 0x800000) 256) (laneW (lMode e.word) * n) (laneW (lMode e.word))) ∧
    (headIs s t 0 .loadt = some (g, x, e) → issueOf x 0 e (loadStruct x) (loadFull x e) = .go l →
      inTurn s g t x 0 l e = true → loadViols (footOf s g.handle) x e l (toeReads e.word l) (toeClaims e l) (l + 5) = [] →
      ∃ s' p, exec (.mmaLoadt t) s = .next s' ∧ Loaded s s' t x e p ∧
        ∀ k c, k < arrayK (lMode e.word) → c < arrayN (lMode e.word) →
          let i := imod ((ltM0 e.word : Int) + c - ltJ0 e.word - k) (2 * ltN e.word)
          let v := toeCoef x l e.word (toeWords e.word) (i % ltN e.word)
          let q := if 2 ≤ lMode e.word ∨ p.moduli.getD c 0 = 0 then 2 ^ (8 * laneW (lMode e.word)) else p.moduli.getD c 0
          (p.rows.getD k []).getD c 0 = if ltN e.word ≤ i ∧ ltNeg e.word = true then imod (-(v : Int)) q else v)

/-- A MUL that issues in cycle I, is not hit by an armed injection, passes the checks of R72 and R74 and violates nothing completes: it leaves
its queue and, where no row under way reads after its first commit (such a row reads what the MUL wrote, R83), adds exactly M writes to the
scratchpad, row i at CADDR + i CSTRIDE at the end of cycle I + 204 + i (I + 214 + i in the 64-bit modes); element n of row
i is the exact sum over k of A[i][k] B[k][n], plus C_in[i][n] when ACC is set, modulo the column's modulus, or modulo 2^(8W) in a ring
column. A is read in cycle I + i, C_in in I + 193 + i (I + 197 + i). Planes and registers keep their values.
Completes: MMA_MUL. -/
def Obligations.MmaMulMultipliesModulo : Prop :=
  ∀ (s : State) (t : Nat) (g : Group) (x : Tile) (e : QEntry) (c : Nat) (p : Plane),
    Unarmed s t 3 → Unarmed s t 1 → headIs s t 0 .mul = some (g, x, e) → p = x.planes.get (mPlane e.word) plane0 →
    issueOf x 0 e (mulStruct x p.mode) (mulFull x e) = .go c → c < 2 ^ 40 → inTurn s g t x 0 c e = true →
    mulFault p e.word c (mulRows x e c (mM e.word)) (mM e.word) none = none → mulViols (footOf s g.handle) x e c = [] →
    ∃ s' ws, exec (.mmaMul t) s = .next s' ∧ OnlyTile s s' t ∧
      WroteRows x (tileOf s' t) (c + (if wide p.mode then 214 else 204)) ws ∧ ws.length = mM e.word ∧
      queueOf (tileOf s' t) 0 = (queueOf x 0).tail ∧
      (Settled x (c + (if wide p.mode then 214 else 204)) → (tileOf s' t).planes = x.planes) ∧ (tileOf s' t).regs = x.regs ∧ (tileOf s' t).spad = x.spad ∧
      ∀ i, i < mM e.word → ∃ r, ws[i]? = some r ∧ r.cyc = c + (if wide p.mode then 214 else 204) + i ∧
        r.addr = (mCaddr e.word + i * mCstride e.word) % 0x800000 ∧ r.data.length = mNcol e.word p.mode * laneW p.mode ∧
        ∀ n, n < mNcol e.word p.mode →
          let av := aRow e.word p.mode (spadBytes x (c + i) ((mAaddr e.word + i * mAstride e.word) % 0x800000) (mArow e.word p.mode))
          let cin := le (spadBytes { x with writes := x.writes ++ ws.take i } (c + (if wide p.mode then 197 else 193) + i) r.addr
            (mNcol e.word p.mode * laneW p.mode)) (laneW p.mode * n) (laneW p.mode)
          let sum : Int := ((List.range av.length).map (fun k => av.getD k 0 * ((p.rows.getD k []).getD n 0 : Int))).sum +
            (if mAcc e.word then (cin : Int) else 0)
          let q := if 2 ≤ p.mode ∨ p.moduli.getD n 0 = 0 then 2 ^ (8 * laneW p.mode) else p.moduli.getD n 0
          le r.data (laneW p.mode * n) (laneW p.mode) = (sum % (q : Int)).toNat % 2 ^ (8 * laneW p.mode)

/-- For each listed OP, on a lane with modulus q (0: a ring lane of width w): the result is the expression of R93; the Montgomery products
for odd q are the residues r with r 2^w = x b (and + c 2^w) modulo q, for even q the plain ones; CENTER, LIFT, T2Q and Q2T as listed, and x
itself in a ring lane; CSEL by its condition; an unlisted OP passes x. DIGIT is the digit of R94's code, modulo 2^w, its carries being those
of that code. A permutation stage gives output lane c the input lane of R95. -/
def Obligations.VectorLaneOperations : Prop :=
  (∀ (l : Latch) (streams : List (List Nat)) (tag : Nat) (xs first : List Nat) (g : Stage) (c : Nat), c < chL l.rec_ →
    ∀ p ∈ [(0x30, (l.perms.get (g.imm % 4) []).getD c 0 % chL l.rec_),
           (0x31, (c + operandOf l streams first g g.srcb 0 + g.imm) % chL l.rec_), (0x32, chL l.rec_ - 1 - c),
           (0x33, ((l.scalars.getD g.sidx 0).toNat % 2 ^ 32 * c + tag) % chL l.rec_)],
      g.op = p.1 → (stageRow l streams tag xs first g).getD c 0 = xs.getD p.2 0) ∧
  ∀ (w : Nat) (g : Stage) (q x b c m : Nat), (w = 32 ∨ w = 64) → q < 2 ^ w → x < 2 ^ w → b < 2 ^ w → c < 2 ^ w →
    m = (if q = 0 then 2 ^ w else q) →
    let r := laneOp w g q x b c
    let a := (b + g.imm) % w
    let sx : Int := if x < 2 ^ (w - 1) then x else (x : Int) - 2 ^ w
    let sb : Int := if b < 2 ^ (w - 1) then b else (b : Int) - 2 ^ w
    (∀ p ∈ [(0x01, (x + b) % m), (0x02, (((x : Int) - b) % m).toNat), (0x03, (m - x % m) % m), (0x04, x % m), (0x05, x * b % m),
            (0x07, (x * b + c) % m), (0x09, (((c : Int) - x * b) % m).toNat), (0x10, (x + b) % 2 ^ w),
            (0x11, (x + 2 ^ w - b) % 2 ^ w), (0x12, x * b % 2 ^ w), (0x13, x * b / 2 ^ w), (0x14, x &&& b), (0x15, x ||| b),
            (0x16, x ^^^ b), (0x18, x * 2 ^ a % 2 ^ w), (0x19, x / 2 ^ a), (0x21, if x ≤ b then x else b), (0x22, if x ≤ b then b else x),
            (0x28, if q = 0 then x else if q < 2 * (x % q) then x % q + 2 ^ w - q else x % q),
            (0x29, if q = 0 then x else (sx % q).toNat),
            (0x2A, if q = 0 then x else (x * q + 2 ^ (w - 1)) / 2 ^ w % q),
            (0x2B, if q = 0 then x else (x % q * 2 ^ w + q / 2) / q % 2 ^ w), (0x00, x), (0x0A, x), (0x3F, x)],
      g.op = p.1 → r = p.2) ∧
    (g.op = 0x06 → (q % 2 = 1 → r < q ∧ r * 2 ^ w % q = x * b % q) ∧ (q % 2 = 0 → r = x * b % m)) ∧
    (g.op = 0x08 → (q % 2 = 1 → r < q ∧ r * 2 ^ w % q = (x * b + c * 2 ^ w) % q) ∧ (q % 2 = 0 → r = (x * b + c) % m)) ∧
    (g.op = 0x1A → (r : Int) = sx / 2 ^ a % 2 ^ w) ∧
    (g.op = 0x1B → r = if a = 0 then x else (x + 2 ^ (a - 1)) / 2 ^ a % 2 ^ (w - a)) ∧
    (∀ p ∈ [(0, decide (x = b)), (1, decide (x ≠ b)), (2, decide (x < b)), (3, decide (b ≤ x)), (4, decide (sx < sb)), (5, decide (sb ≤ sx)),
            (6, false), (7, false)], g.op = 0x20 → g.imm % 8 = p.1 → r = if p.2 then c else x) ∧
    (g.op = 0x2C → 1 ≤ g.imm2 → g.imm2 ≤ 16 → ∃ carry : Nat → Nat, carry 0 = 0 ∧
      (∀ i, i ≤ g.imm → carry (i + 1) = if 2 ^ (g.imm2 - 1) ≤ x / 2 ^ (g.imm2 * i) % 2 ^ g.imm2 + carry i then 1 else 0) ∧
      let u := x / 2 ^ (g.imm2 * g.imm) % 2 ^ g.imm2 + carry g.imm
      r = ((if 2 ^ (g.imm2 - 1) ≤ u then (u : Int) - 2 ^ g.imm2 else u) % 2 ^ w).toNat)

/-- A set-up command that issues in cycle I and violates nothing completes: SETCHAIN copies the 64-byte record at CADDR into its slot; SETQ
gives its modulus register MQ in every lane, or the 64 entries of the vector; SETPERM copies the low six bits of the 64 bytes at PADDR
into its table. Its queue loses its head, every other slot, register and table, every scratchpad byte and every scalar keeps its value.
Completes: VE_SETCHAIN, VE_SETQ, VE_SETPERM. -/
def Obligations.VectorSetUp : Prop :=
  ∀ (s : State) (t : Nat) (g : Group) (x : Tile) (e : QEntry) (i : Nat), Unarmed s t 3 → i < 2 ^ 40 →
    (headIs s t 1 .setchain = some (g, x, e) → issueOf x 1 e 0 0 = .go i →
      inTurn s g t x 1 i e = true → setupViols (footOf s g.handle) x e i 1 [(i, vcAddr e.word, 64)] = [] →
      ∃ s', exec (.veSetchain t) s = .next s' ∧ SetUp s s' t x ∧ (tileOf s' t).qregs = x.qregs ∧ (tileOf s' t).perms = x.perms ∧
        ∀ k, (tileOf s' t).chains.get k 0 = if k = vcSlot e.word then leNat (spadBytes x i (vcAddr e.word) 64) else x.chains.get k 0) ∧
    (headIs s t 1 .setq = some (g, x, e) → issueOf x 1 e (setqStruct x) (setqStruct x) = .go i →
      inTurn s g t x 1 i e = true → setupViols (footOf s g.handle) x e i 2 (setqReads e.word i) = [] →
      ∃ s', exec (.veSetq t) s = .next s' ∧ SetUp s s' t x ∧ (tileOf s' t).chains = x.chains ∧ (tileOf s' t).perms = x.perms ∧
        (∀ k, k ≠ vqReg e.word → (tileOf s' t).qregs.get k [] = x.qregs.get k []) ∧
        ∀ c, c < 64 → ((tileOf s' t).qregs.get (vqReg e.word) []).getD c 0 =
          if vqVec e.word then leNat (spadBytes x (if c < 32 then i else i + 1) (vqAddr e.word + 8 * c) 8) else lMq e.word) ∧
    (headIs s t 1 .setperm = some (g, x, e) → issueOf x 1 e 0 0 = .go i →
      inTurn s g t x 1 i e = true → setupViols (footOf s g.handle) x e i 3 [(i, vpAddr e.word, 64)] = [] →
      ∃ s', exec (.veSetperm t) s = .next s' ∧ SetUp s s' t x ∧ (tileOf s' t).chains = x.chains ∧ (tileOf s' t).qregs = x.qregs ∧
        (∀ k, k ≠ vpTable e.word → (tileOf s' t).perms.get k [] = x.perms.get k []) ∧
        (tileOf s' t).perms.get (vpTable e.word) [] = (spadBytes x i (vpAddr e.word) 64).map (fun b => b.toNat % 64))

/-- A RUN that issues in cycle I, is not hit by an armed injection and violates nothing completes and keeps every register, chain, modulus
register and table. Where no row under way reads after its first commit: without a reduction (RMODE 0) and with an output it adds exactly M writes: row j at OADDR + j OSTRIDE at the end of
cycle I + d + 4S + j, and lane c of it is the low OSIZE bytes of lane c of the last stage, the stages being applied in order to the
input row read in cycle I + j. With RMODE 2 the last write is the reduction of the tap values of all rows, at RADDR in cycle
I + d + 4S + 8 + M.
Completes: VE_RUN. -/
def Obligations.VectorRunWritesItsRows : Prop :=
  ∀ (s : State) (t : Nat) (g : Group) (x : Tile) (e : QEntry) (i : Nat) (l : Latch),
    Unarmed s t 3 → Unarmed s t 2 → headIs s t 1 .run = some (g, x, e) → l = runLatch x e →
    issueOf x 1 e (runStruct x e.word l.rec_) (runFull x e.word l.rec_) = .go i → i < 2 ^ 40 → inTurn s g t x 1 i e = true →
    runViols (footOf s g.handle) x e i = [] →
    ∃ s' ws, exec (.veRun t) s = .next s' ∧ OnlyTile s s' t ∧ WroteRows x (tileOf s' t) (i + runDepth e.word l.rec_) ws ∧
      queueOf (tileOf s' t) 1 = (queueOf x 1).tail ∧ (tileOf s' t).regs = x.regs ∧ (tileOf s' t).spad = x.spad ∧
      (tileOf s' t).chains = x.chains ∧ (tileOf s' t).qregs = x.qregs ∧ (tileOf s' t).perms = x.perms ∧
      (chRmode l.rec_ = 0 → 0 < chOsize l.rec_ → ws.length = vrM e.word ∧ ∀ j, j < vrM e.word → ∃ r, ws[j]? = some r ∧
        r.cyc = i + vrD e.word l.rec_ + 4 * chS l.rec_ + j ∧ r.addr = (vrOaddr e.word + j * chOstride l.rec_) % 0x800000 ∧
        r.data.length = chLanes l.rec_ * chOsize l.rec_ ∧
        ∀ c, c < chLanes l.rec_ → le r.data (chOsize l.rec_ * c) (chOsize l.rec_) =
          ((runStages l e.word i { x with writes := x.writes ++ ws.take j } j).getLastD []).getD c 0 % 2 ^ (8 * chOsize l.rec_)) ∧
      (chRmode l.rec_ = 2 → 0 < chOsize l.rec_ → ∃ r, ws.getLast? = some r ∧ r.unit = 7 ∧
        r.cyc = i + vrD e.word l.rec_ + 4 * chS l.rec_ + 8 + vrM e.word ∧ r.addr = vrRaddr e.word l.rec_ % 0x800000 ∧
        r.data = leBytes (chW l.rec_ / 8) (ruOp l ((List.range (vrM e.word)).map (fun j =>
          runTap l e.word i { x with writes := x.writes ++ ws.take j } j))))

/-- With no command of Q_SP under way, a fill or a copy that issues in cycle I and violates nothing completes: where no row under way reads
later, it adds one write of 64 bytes for each word of its destination rows, in row order, the value repeated for a fill, and for a copy the
source word as it stood in cycle I; no word commits before I + 2 (I + 4 for a copy), and none in a cycle in which a unit of a higher
priority has its bank. SP_COMMAND_DONE then ends the command, once nothing issues before the end, and adds its SIGNAL in the cycle after
the last commit. No register and no other queue changes.
Completes: SP_FILL, SP_COPY, SP_COMMAND_DONE. -/
def Obligations.ScratchpadFillAndCopy : Prop :=
  ∀ (s : State) (t : Nat) (g : Group) (x : Tile) (e : QEntry) (c : Nat),
    (spHead s t .fill = some (g, x, e, c) → 0 < sfEsize e.word → 64 % sfEsize e.word = 0 →
      (let y := fillTile x e c (fillWords e.word) (fillWord e.word)
       (popIssue x 4 c e).2 = [] ∧
        extentViol (footOf s g.handle) c (spDaddr e.word) (sfDstride e.word) (sfRows e.word) (64 * sfRowlen e.word) e.pc = [] ∧
        spWriteViols (footOf s g.handle) y e.num e.pc = [] ∧ lateReads y e.num = [] ∧ movedViols x y = []) →
      ∃ s' ws, exec (.spFill t) s = .next s' ∧ SpStarted s s' t x (c + 2) ws ∧ (tileOf s' t).spBusy = some e ∧
        ws.map (fun r => (r.addr, r.data)) = (fillWords e.word).map (fun p => (p.1 % 0x800000, fillWord e.word)) ∧
        ∀ r ∈ ws, c + 2 ≤ r.cyc) ∧
    (spHead s t .copy = some (g, x, e, c) → Unarmed s t 3 →
      (let y := copyTile x e c (copyDst e.word) (copySrc e.word)
       (popIssue x 4 c e).2 = [] ∧
        extentViol (footOf s g.handle) c (spDaddr e.word) (scDstride e.word) (scRows e.word) (64 * scRowlen e.word) e.pc = [] ∧
        extentViol (footOf s g.handle) c (scSaddr e.word) (scSstride e.word) (scRows e.word) (64 * scRowlen e.word) e.pc = [] ∧
        spReadViols (footOf s g.handle) y e.num e.pc = [] ∧ spWriteViols (footOf s g.handle) y e.num e.pc = [] ∧
        lateReads y e.num = [] ∧ lateWrites y e.num = [] ∧ movedViols x y = []) →
      ∃ s' ws, exec (.spCopy t) s = .next s' ∧ SpStarted s s' t x (c + 4) ws ∧ (tileOf s' t).spBusy = some e ∧
        ws.map (fun r => (r.addr, r.data)) =
          ((copyDst e.word).zip (copySrc e.word)).map (fun p => (p.1.1 % 0x800000, spadBytes x c p.2.1 64)) ∧
        ∀ r ∈ ws, c + 4 ≤ r.cyc) ∧
    (∀ last, live s t = some g → x = tileOf s t → x.spBusy = some e → last = lastAccess x e.num true 0 →
      due s g t x 6 (last + 1) = true →
      overBy (cmdSig { x with spBusy := none, spLast := last + 1 } (last + 1) 4 e) (last + 2) = none →
      exec (.spCommandDone t) s = .next (setTile s t (cmdSig { x with spBusy := none, spLast := last + 1 } (last + 1) 4 e)))

/-- The walk of a descriptor without a block list has one element for each combination of indices, PERM[0] fastest; element n lies on the
memory side at the base plus the sum of its indices times the strides, is packed at SADDR + floor(n / E) SSTRIDE + (n mod E) e with E
the size of the fastest dimension, and is e bytes long. -/
def Obligations.StreamWalkOrder : Prop :=
  ∀ (base : Nat) (d : Desc) (dims : List Nat) (saddr sstride n : Nat),
    (walkElems base d dims [[]] saddr sstride).length = (dims.map (tdSize d)).foldl (· * ·) 1 ∧
    (dims ≠ [] → n < (dims.map (tdSize d)).foldl (· * ·) 1 →
      (walkElems base d dims [[]] saddr sstride)[n]? =
        some (((base : Int) + tdBase d + mixedOffset d dims n).toNat,
          saddr + n / tdSize d (dims.getLastD 0) * sstride + n % tdSize d (dims.getLastD 0) * tdE d, tdE d))

/-- When the head of a stream engine's queue issues in cycle c and its checks pass, the row completes: the command has left its queue with
its WAIT taken, it is the newest stream of the engine, issued in c, and apart from the bank slots of its reads it has sent only requests:
device memory, host memory, the scheduler, every register and every other tile are as before. A cycle other than the first in which the
head may issue, which comes only once the last request of the command before has left (the model's choice, log 26), is refused. When a check of R195 to R200 fails, the task aborts with that check's record and status.
Completes: SE_NOP, SE_READ, SE_WRITE, SE_KEY. -/
def Obligations.StreamCommandsIssue : Prop :=
  ∀ (s : State) (t e c : Nat) (g : Group) (x : Tile) (q : QEntry),
    (streamHead s t e c .nop = some (g, x, q) → (popIssue x (2 + e) c q).2 = [] →
      ∃ s', exec (.seNop t e c) s = .next s' ∧
        (streamsOf x e = [] → s' = setTile s t (cmdSig (popIssue x (2 + e) c q).1 c (2 + e) q)) ∧
        (streamsOf x e ≠ [] → s' = setTile s t (setStreams (popIssue x (2 + e) c q).1 e
          (streamsOf x e ++ [{ stream0 3 q c .active with first := c, last := c - 1 }])))) ∧
    (streamHead s t e c .seRead = some (g, x, q) →
      (∀ v, issueCheck s g t x (2 + e) c q false = some v → exec (.seRead t e c) s = .next (tileAbort s g t v)) ∧
      (∀ d p, issueCheck s g t x (2 + e) c q false = none → q.desc = some d → placeIn s g x d = some p → Unarmed s t 3 →
        issueViols (footOf s g.handle) x (issuedTile x e c q false d p) g t e c q d p = [] →
        ∃ s', exec (.seRead t e c) s = .next s' ∧ StreamIssued s s' t e c x q false d p)) ∧
    (streamHead s t e c .seWrite = some (g, x, q) →
      (∀ v, issueCheck s g t x (2 + e) c q true = some v → exec (.seWrite t e c) s = .next (tileAbort s g t v)) ∧
      (∀ d p, issueCheck s g t x (2 + e) c q true = none → q.desc = some d → placeIn s g x d = some p → Unarmed s t 3 →
        issueViols (footOf s g.handle) x (issuedTile x e c q true d p) g t e c q d p = [] →
        ∃ s', exec (.seWrite t e c) s = .next s' ∧ StreamIssued s s' t e c x q true d p)) ∧
    (streamHead s t e c .seKey = some (g, x, q) →
      (∀ k v, keyEntry q = some k → issueCheck s g t x (2 + e) c k false = some v →
        exec (.seKey t e c) s = .next (tileAbort s g t v)) ∧
      ((∀ k, keyEntry q = some k → issueCheck s g t x (2 + e) c k false = none) → (popIssue x (2 + e) c q).2 = [] →
        ∃ s' st, exec (.seKey t e c) s = .next s' ∧
          Sending s s' t (setStreams (popIssue x (2 + e) c q).1 e (streamsOf (popIssue x (2 + e) c q).1 e ++ [stream0 2 q c .header])) ∧
          streamsOf (tileOf s' t) e = streamsOf x e ++ [st] ∧ st.entry = q ∧ st.issue = c ∧ st.phase = .header)) ∧
    (seIssue x e q ≠ some c →
      (headIs s t (2 + e) .nop = some (g, x, q) → exec (.seNop t e c) s = .refused (.notEnabled "SE_NOP")) ∧
      (headIs s t (2 + e) .seRead = some (g, x, q) → exec (.seRead t e c) s = .refused (.notEnabled "SE_READ")) ∧
      (headIs s t (2 + e) .seWrite = some (g, x, q) → exec (.seWrite t e c) s = .refused (.notEnabled "SE_WRITE")) ∧
      (headIs s t (2 + e) .seKey = some (g, x, q) → exec (.seKey t e c) s = .refused (.notEnabled "SE_KEY")))

/-- When the newest stream of an engine waits in the phase named and its time has come: BLOCK_LIST_READ, in the cycle in which the last word
of the list is read, completes with the walk over the listed blocks; KEY_HEADER_CHECK of a key whose header passes R208 completes with the
header held, the stream of a seeded key waiting for SX and that of an unseeded one transferring its stored a-half, and with a failing check
aborts the task with that check's status; SX_STREAM_START completes when the unit is free, writing every word of the a-half no earlier than
it is produced: the words, put together, are the elements J0 on, each little-endian in W bytes, and element j is the value that R51 to R53
give. Nothing but the tile and requests changes.
Completes: BLOCK_LIST_READ, KEY_HEADER_CHECK, SX_STREAM_START. -/
def Obligations.StreamPhasesComplete : Prop :=
  ∀ (s : State) (t e c : Nat) (g : Group) (st : Stream) (x : Tile), x = tileOf s t →
    (∀ d p, live s t = some g → (streamsOf x e).getLast? = some st → st.phase = .list → st.entry.desc = some d →
      placeIn s g x d = some p → lastAccess x st.entry.num false st.issue = c → c < 2 ^ 40 → caughtUp x (7 + e) (c + 1) = true →
      due s g t x (7 + e) c = true → Unarmed s t 3 →
      blockViols s g x e c st d p = [] → streamReadViols (footOf s g.handle) (listedTile x e c st d p) e st.entry false = [] →
      lateWrites (listedTile x e c st d p) st.entry.num = [] → movedViols x (listedTile x e c st d p) = [] →
      ∃ s' st', exec (.blockListRead t e c) s = .next s' ∧ Sending s s' t (listedTile x e c st d p) ∧
        (streamsOf (tileOf s' t) e).getLast? = some st' ∧ st'.phase = .active ∧ st'.entry = st.entry ∧
        st'.elems = walkElems (placeBase p).1 d (walkDims st.entry.word d) (blockOuters x d c)
          (seSaddr st.entry.word) (seSstride st.entry.word) ∧
        (tileOf s' t).regs = x.regs ∧ (tileOf s' t).spad = x.spad ∧ SameWrites (tileOf s' t).writes x.writes) ∧
    (∀ s1 h a, newestIn s t e .header = some (g, st) → a = (x.args.get (skSlot st.entry.word) 0).toNat →
      headerDue s g t x st c = true → devWaits s g.part a 256 = false → devRead s g.part g.handle a 256 = (s1, some h) → Unarmed s1 t 5 →
      (keyChecks s1 g st.entry.word h ≠ 0 → exec (.keyHeaderCheck t e c) s =
        .next (tileAbort s1 g t (streamViol (keyChecks s1 g st.entry.word h) c (2 + e) a st.entry.pc))) ∧
      (∀ p y h', keyChecks s1 g st.entry.word h = 0 → keySet s1 g h = some p →
        aHalfCheck (footOf s1 g.handle) st.entry.word (keyEntry st.entry) (psWidth p) c (2 + e) st.entry.pc = none →
        headedTile x e c (psWidth p) st h = (y, h') →
        (khSeeded h = true → ∃ s' st', exec (.keyHeaderCheck t e c) s = .next s' ∧ Sending s1 s' t y ∧
          (streamsOf (tileOf s' t) e).getLast? = some st' ∧ st'.phase = .sx ∧ st'.header = h ∧ st'.entry = st.entry ∧
          (tileOf s' t).regs = x.regs ∧ (tileOf s' t).spad = x.spad ∧ (tileOf s' t).writes = x.writes) ∧
        (∀ i, khSeeded h = false → imageOf s1 g.handle = some i →
          badElem i x.args g.epoch 0 (storedElems p h st.entry.word) = none →
          KeyClear s1 g y e c h' (storedElems p h st.entry.word) →
          ∃ s' st', exec (.keyHeaderCheck t e c) s = .next s' ∧ Sending s1 s' t (keyTile s1 g y e c h' (storedElems p h st.entry.word)) ∧
            (streamsOf (tileOf s' t) e).getLast? = some st' ∧ st'.phase = .active ∧ st'.entry = st.entry ∧
            (∀ k ∈ storedElems p h st.entry.word, k ∈ st'.elems)))) ∧
    (∀ p y k, newestIn s t e .sx = some (g, st) → keySet s g st.header = some p → st.last ≤ c → arrives s g t x c = true →
      sxFree x e (sxNeeds st.header) c = true → y = sxTile x e c p st → landViols (footOf s g.handle) x y e st.entry = [] →
      k = { st with sxUnit := sxNeeds st.header, sxEnd := sxLast p st c } → KeyClear s g (putStream y e k) e c k [] →
      (∀ k ∈ sxOut p st c, k.2.2 ≠ []) →
      ∃ s' ws, exec (.sxStreamStart t e c) s = .next s' ∧ Landed s s' t x (2 + e) c ws ∧
        ws.map (fun w => (w.addr, w.data)) = (sxOut p st c).map (fun k => (k.2.1 % 0x800000, k.2.2)) ∧
        ∀ (i : Nat) (k : Nat × Nat × List Byte) (w : TimedWrite), (sxOut p st c)[i]? = some k → ws[i]? = some w → k.1 ≤ w.cyc) ∧
    (∀ p h k j, j < skJcount k → (sxElems p h k).length = skJcount k ∧
      (ringKey h = true → (sxElems p h k)[j]? =
        some (le (expandBytes (khXof h) (khSeed h) (skD k) (skLidx k) (kindWord p h) (8 * (skJ0 k + skJcount k))) (8 * (skJ0 k + j)) 8 %
          ((p.primes[primeIndex p (skLidx k)]?).getD (1, 0, 0)).1)) ∧
      (ringKey h = false → (sxElems p h k)[j]? =
        some (le (expandBytes (khXof h) (khSeed h) (skD k) (skLidx k) (kindWord p h) (8 * (skJ0 k + skJcount k))) (8 * (skJ0 k + j)) 8 %
          2 ^ (if psWidth p = 4 then 32 else 64)))) ∧
    (∀ p k c, ((sxOut p k c).map (fun o => o.2.2)).flatten =
        ((sxElems p k.header k.entry.word).map (leBytes (psWidth p))).flatten ∧
      ∀ i o, (sxOut p k c)[i]? = some o →
        o.2.1 = (skXaddr k.entry.word + ((((sxOut p k c).take i).map (fun o => o.2.2)).flatten).length) % 0x800000)

/-- When data or an acknowledgement reaches an engine for a request that has left, with what issues before it issued: a device or host read
completes by writing every byte of its elements at its packed address, word by word, no earlier than the arrival; a host write completes by
putting exactly the enabled bytes at the host addresses of its block; an acknowledged device write and a LOCAL copy complete likewise, the
copy with what its source held at issue. Where no row under way reads later, the tile has exactly these writes more. When every transfer of
the oldest command is complete, STREAM_SIGNAL completes in the cycle after its last and adds SIG_N to SIG_SEM.
Completes: STREAM_DATA_ARRIVAL, STREAM_SIGNAL. -/
def Obligations.StreamDataLands : Prop :=
  ∀ (s : State) (t e req c : Nat) (data : HostData) (g : Group) (st : Stream) (r : StreamReq) (x : Tile),
    live s t = some g → x = tileOf s t →
    (streamWith x e req = some (st, r) → arrives s g t x c = true → leaveAt x st r r.at_ ≤ c →
      (∀ m, r.dev = 0 → s.mem.reqs.find? (fun m => m.id == req && m.phase == .served) = some m → m.write = false → Unarmed s t 5 →
        Unarmed s t 3 → landViols (footOf s g.handle) x (arrived x e c st r m.data) e st.entry = [] →
        lateReads (arrived x e c st r m.data) st.entry.num = [] →
        ∃ s' ws, exec (.streamDataArrival t e req c data) s = .next s' ∧ Landed s s' t x (2 + e) c ws ∧
          ws.map (fun w => (w.addr, w.data)) = pieces (elemData st r m.data)) ∧
      (∀ m, r.dev = 0 → s.mem.reqs.find? (fun m => m.id == req && m.phase == .served) = some m → m.write = true →
        ∃ s', exec (.streamDataArrival t e req c data) s = .next s' ∧ Landed s s' t x (2 + e) c []) ∧
      (∀ bytes, r.dev = 1 → st.op ≠ 1 → data = some bytes → Unarmed s t 3 →
        landViols (footOf s g.handle) x (arrived x e c st r bytes) e st.entry = [] →
        lateReads (arrived x e c st r bytes) st.entry.num = [] →
        ∃ s' ws, exec (.streamDataArrival t e req c data) s = .next s' ∧ Landed s s' t x (2 + e) c ws ∧
          ws.map (fun w => (w.addr, w.data)) = pieces (elemData st r bytes)) ∧
      (r.dev = 1 → st.op = 1 → s.out.host.wf = true →
        ∃ s', exec (.streamDataArrival t e req c data) s = .next s' ∧ (tileOf s' t).writes = x.writes ∧ s'.mem.bytes = s.mem.bytes ∧
          ∀ a, s'.out.host.rd a =
            (let key := hostKey (hostPasid s g x (st.entry.desc.getD 0)) r.addr
             if key ≤ a ∧ (blockData x st r 256).2.getD (a - key) false = true ∧ a - key < (blockData x st r 256).1.length
             then (blockData x st r 256).1.getD (a - key) 0 else s.out.host.rd a)) ∧
      (r.dev = 3 → Unarmed s t 3 → landViols (footOf s g.handle) x (copied x e c st) e st.entry = [] →
        lateReads (copied x e c st) st.entry.num = [] →
        ∃ s' ws, exec (.streamDataArrival t e req c data) s = .next s' ∧ Landed s s' t x (2 + e) c ws ∧
          ws.map (fun w => (w.addr, w.data)) = pieces (localData x st))) ∧
    (∀ l a b i, (a, b) ∈ l → i < b.length → ∃ p ∈ byWord l, ∃ q ∈ p.2, q.1 ≤ (a + i) % 0x800000 ∧
      (a + i) % 0x800000 - q.1 < q.2.length ∧ q.2.getD ((a + i) % 0x800000 - q.1) 0 = b.getD i 0) ∧
    (∀ rest, streamsOf x e = st :: rest → streamDone st = true → c = doneAt x st + 1 → c < 2 ^ 40 → due s g t x (9 + e) c = true → x.sigs = [] →
      x.sems.get (hSigSem st.entry.word) 0 + hSigN st.entry.word ≤ 255 →
      lateReads { x with marks := x.marks.map (fun m =>
        if m.num == st.entry.num && m.commit.isNone then { m with commit := some (c - 1) } else m) } st.entry.num = [] →
      ∃ s', exec (.streamSignal t e c) s = .next s' ∧ OnlyTile s s' t ∧ (streamsOf (tileOf s' t) e).length = rest.length ∧
        (tileOf s' t).sigs = (addSig x c (hSigSem st.entry.word) (hSigN st.entry.word) (2 + e) st.entry.pc).sigs ∧
        (tileOf s' t).regs = x.regs ∧ (tileOf s' t).spad = x.spad ∧ (tileOf s' t).writes = x.writes)

/-- For a stream that waits at a host page: ATS_TRANSLATION_COMPLETION records the translation and, when granted, the engine goes on;
TRANSLATION_MISS pauses the command and sends a page request when the function's allocation has room, or with PRI disabled aborts with
0x0405; PRI_RESPONSE Success makes it translate again, the others abort with 0x0405, as does PAGE_REQUEST_TIMEOUT 100 ms after the first
page request; HOST_ABORT aborts with 0x0406, also where the request cannot be sent for want of an IDE stream. An answer that nothing waits
for, and one to the page request of a command that has ended, is taken and discarded (R213); the host answers the page requests of an engine
in their order (the model's choice, log 46). Each abort record names the engine, the PUSH and the host address.
Completes: ATS_TRANSLATION_COMPLETION, TRANSLATION_MISS, PRI_RESPONSE, PAGE_REQUEST_TIMEOUT, HOST_ABORT. -/
def Obligations.HostPagingAndErrors : Prop :=
  ∀ (s : State) (t e req : Nat) (g : Group) (st : Stream) (r : StreamReq),
    (∀ space fn grant, live s t = some g → askedFor s t e = some (st, r, space, fn) → r.addr = req →
      ∃ s' a, exec (.atsTranslationCompletion t e req grant) s = .next s' ∧ cached s' fn space (req / 4096) = some a ∧
        (grant = true → (if st.op = 1 then a.wr else a.rd) = true) ∧ s'.mem.bytes = s.mem.bytes ∧ s'.ts = s.ts) ∧
    (∀ grant, askedFor s t e = none → domainRuns s 1 = true → exec (.atsTranslationCompletion t e req grant) s = .next s) ∧
    (∀ space fn a, live s t = some g → askedFor s t e = some (st, r, space, fn) → r.addr = req →
      cached s fn space (req / 4096) = some a → (if st.op = 1 then a.wr else a.rd) = false →
      ((cfgOf s fn).pri = true → priRoom s fn = true → ∃ s', exec (.translationMiss t e req) s = .next s' ∧
        s'.out.link = s.out.link ++ [.pageRequest fn space (req / 4096) (st.op == 1)] ∧
        s'.hi.pris = s.hi.pris ++ [{ fn := fn, tile := t, engine := e, num := s.mem.nextReq + 1 }] ∧
        (tileOf s' t).regs = (tileOf s t).regs ∧ s'.ts = s.ts ∧ s'.mem = { s.mem with nextReq := s.mem.nextReq + 1 }) ∧
      ((cfgOf s fn).pri = false → exec (.translationMiss t e req) s = .next (hostFail s g t e 0x0405 st r.addr))) ∧
    (∀ s1, s1 = { s with hi := { s.hi with pris := (priAnswered t e s.hi.pris).2 } } →
      (pausedOf s1 t e = none → domainRuns s 1 = true → ∀ k, exec (.priResponse t e k) s = .next s1) ∧
      (pausedOf s1 t e = some (g, st, r) → (priAnswered t e s.hi.pris).1.any (fun q => q.num == st.pri) = false →
        domainRuns s 1 = true → ∀ k, exec (.priResponse t e k) s = .next s1) ∧
      (pausedOf s1 t e = some (g, st, r) → (priAnswered t e s.hi.pris).1.any (fun q => q.num == st.pri) = true →
        (∃ s', exec (.priResponse t e .success) s = .next s' ∧ s'.ts = s.ts ∧ s'.mem.bytes = s.mem.bytes ∧
          cached s' g.fn (spaceOf (hostPasid s g (tileOf s t) (st.entry.desc.getD 0))) (r.addr / 4096) = none) ∧
        (∀ k, k ≠ .success → exec (.priResponse t e k) s = .next (hostFail s1 g t e 0x0405 st r.addr)))) ∧
    (pausedOf s t e = some (g, st, r) → st.firstPri - 1 + 100000000 ≤ s.time →
      exec (.pageRequestTimeout t e) s = .next (hostFail s g t e 0x0405 st r.addr)) ∧
    (live s t = some g → streamWith (tileOf s t) e req = some (st, r) → r.dev = 1 →
      exec (.hostAbort t e req) s = .next (hostFail s g t e 0x0406 st r.addr)) ∧
    (live s t = some g → streamWith (tileOf s t) e req = none → linkOpen s g.fn = false → hostWaiting (tileOf s t) e = some (st, r) →
      exec (.hostAbort t e req) s = .next (hostFail s g t e 0x0406 st r.addr)) ∧
    (∀ status addr en, groupOf s g.handle = some g → entryOf s g.handle = some en → (groupTiles g).Nodup →
      ∃ s1 d, hostFail s g t e status st addr = tileAbort s1 g t d ∧ d.status = status ∧ d.unitA = 2 + e ∧ d.pc = st.entry.pc ∧
        d.address = addr % 2 ^ 32 ∧ d.hostHi = addr / 2 ^ 32 ∧ (∃ st, Ended s (tileAbort s1 g t d) g.handle g st ∧
          (earliest (tileOf s1 t) d = d → st = status)))

/-- WIN writes one entry of the tile's window table and d, 1 when the window was open, else 0; the open of a closed window takes effect in the
cycle in which WIN retires, another one in the next (the cycle that d is usable from is the model's choice, log 46). DESC.MAKE reads two words and leaves their 128
bytes in the descriptor entry. A remote write that its window permits writes exactly its enabled bytes at the window's base plus offset; a
permitted read answers with the 64 bytes of its word; any other access changes nothing and is answered with a NACK. A read answer lands in
its stream; WINDOW_NACK aborts the task with 0x0305. An access meets the window table of its cycle (R183), comes after what arrived from its
source before, and has the bank of its word (R164).
Completes: WIN, DESC.MAKE, REMOTE_ACCESS_ARRIVAL, REMOTE_RESPONSE_ARRIVAL, WINDOW_NACK. -/
def Obligations.RemoteWindows : Prop :=
  ∀ (s : State) (t : Nat) (g : Group) (x : Tile) (w c : Nat),
    (CoreReady s t 0x29 (fun w => [iD w, iA w]) g x w c →
      let imm := imod (iImm w) (2 ^ 14)
      let v := (regOf x (iA w)).toNat
      let base := 64 * (v % 2 ^ 23 / 64)
      let len := v / 2 ^ 32 % 2 ^ 18
      let closes := imm.testBit 13 = true ∨ len = 0
      (closes ∨ (base + 64 * len ≤ 0x800000 ∧ ∀ a ∈ wordsOf base (64 * len), outside (footOf s g.handle) a = false)) →
      ∃ s', exec (.win t) s = .next s' ∧ OnlyTile s s' t ∧ (tileOf s' t).spad = x.spad ∧ (tileOf s' t).writes = x.writes ∧
        (∀ n, regOf (tileOf s' t) n = if n = iD w ∧ 0 < n ∧ n < 64 then
            (if (x.windows.get (imm % 8) window0).open_ then 1 else 0) else regOf x n) ∧
        (∀ k, (if (x.windows.get (imm % 8) window0).open_ then k ≤ c else k < c) → windowsAt (tileOf s' t) k = windowsAt x k) ∧
        ((x.windows.get (imm % 8) window0).open_ = false → (∀ p ∈ x.winPast, p.1 < c) →
          windowsAt (tileOf s' t) c = (tileOf s' t).windows) ∧
        (∀ n, n ≠ imm % 8 → (tileOf s' t).windows.get n window0 = x.windows.get n window0) ∧
        ((¬closes) → (tileOf s' t).windows.get (imm % 8) window0 =
          { open_ := true, base := base, words := Nat.min len 131072, rd := imm.testBit 3, wr := imm.testBit 4 }) ∧
        (closes → ((tileOf s' t).windows.get (imm % 8) window0).open_ = false)) ∧
    (∀ a r0 r1 d, CoreReady s t 0x2A (fun w => [iA w]) g x w c → x.store = none → Unarmed s t 3 →
      a = 64 * ((regOf x (iA w)).toNat % 0x800000 / 64) → r0 = grantFrom x a 64 (Nat.max c x.storeAt) →
      r1 = grantFrom x ((a + 64) % 0x800000) 64 (r0 + 1) → caughtUp x coreEvent (r1 + 1) = true →
      movedViols x (coreClaim (coreClaim x r0 a 64 false) r1 ((a + 64) % 0x800000) 64 false) = [] →
      d = BitVec.ofNat 1024 (leNat (spadBytes x r0 a 64 ++ spadBytes x r1 (a + 64) 64)) →
      readViols (footOf s g.handle) x r0 a 64 5 x.pc 0 false = [] →
      readViols (footOf s g.handle) x r1 ((a + 64) % 0x800000) 64 5 x.pc 0 false = [] → tdCheck (placeIn s g x d) d = 0 →
      ∃ s', exec (.descMake t) s = .next s' ∧ OnlyTile s s' t ∧ (tileOf s' t).cyc = r1 + 3 ∧ (tileOf s' t).pc = nextPc x ∧
        (∀ k, (tileOf s' t).descs.find k = if k = imod (iImm w) 1024 then some d else x.descs.find k) ∧
        (tileOf s' t).regs = x.regs ∧ (tileOf s' t).spad = x.spad ∧ SameWrites (tileOf s' t).writes x.writes) ∧
    (∀ src pre m post, live s t = some g → x = tileOf s t → g.msgs = pre ++ m :: post → m.src = src → m.dst = t → m.kind < 2 →
      (∀ k ∈ pre, ¬(k.src = src ∧ k.dst = t ∧ k.kind < 2)) → accessDue s g t x src c = true → remoteSlot x (accessWord x m c) c = true →
      let own := ownCopy s g t x m
      let num := if own.isSome then m.stream else 0
      (accessOk x m c = false → ∃ s' a, exec (.remoteAccessArrival t src c) s = .next s' ∧ a.nack = true ∧ a.dst = src ∧
        groupOf s' g.handle = groupOf (setGroup s { g with msgs := pre ++ post, answers := g.answers ++ [a] }) g.handle ∧
        (tileOf s' t).writes = x.writes ∧ (tileOf s' t).spad = x.spad ∧ s'.mem = s.mem) ∧
      (accessOk x m c = true → m.kind = 1 → Unarmed s t 3 →
        readViols (footOf s g.handle) x c (accessWord x m c) 64 6 0xFFFFFFFF num own.isSome = [] →
        movedViols x (hear (placeRead x lowRank c (accessWord x m c) 6 num 0xFFFFFFFF) src c) = [] →
        ∃ s' a, exec (.remoteAccessArrival t src c) s = .next s' ∧ a.nack = false ∧ a.dst = src ∧ a.req = m.req ∧
          (own = none → a.data = spadBytes x c (accessWord x m c) 64) ∧
          (∀ st, own = some st → a.data = spadBytes x st.issue (accessWord x m c) 64) ∧
          groupOf s' g.handle = groupOf (setGroup s { g with msgs := pre ++ post, answers := g.answers ++ [a] }) g.handle ∧
          SameWrites (tileOf s' t).writes x.writes ∧ (tileOf s' t).regs = x.regs ∧ s'.mem = s.mem) ∧
      (accessOk x m c = true → m.kind = 0 → Unarmed s t 3 →
        (∀ p ∈ enabledBytes m, writeViols (footOf s g.handle) x c ((accessWord x m c + p.1) % 0x800000) 1 6 0xFFFFFFFF num = []) →
        movedViols x (hear (remoteWrite x m (accessWord x m c) c num) src c) = [] →
        ∃ s' ws, exec (.remoteAccessArrival t src c) s = .next s' ∧ WroteMore x (tileOf s' t) 6 c ws ∧
          ws.map (fun k => (k.cyc, k.addr, k.data)) = (enabledBytes m).map (fun p =>
            (c, (accessWord x m c + p.1) % 0x800000, [p.2])) ∧
          (tileOf s' t).regs = x.regs ∧ s'.mem = s.mem)) ∧
    (∀ a rest, live s t = some g → takeAnswer t g.answers = some (a, rest) →
      (a.nack = false → a.read = false → c < 2 ^ 40 → answered s g t (tileOf s t) a c = true →
        exec (.remoteResponseArrival t c) s = .next (setGroup s { g with answers := rest })) ∧
      (∀ st r y, a.nack = false → a.read = true → c < 2 ^ 40 → streamWith (tileOf s t) (a.unit - 2) a.req = some (st, r) →
        answered s g t (tileOf s t) a c = true → Unarmed s t 3 → y = arrived (tileOf s t) (a.unit - 2) c st r a.data →
        landViols (footOf s g.handle) (tileOf s t) y (a.unit - 2) st.entry = [] → lateReads y st.entry.num = [] →
        ∃ s' ws, exec (.remoteResponseArrival t c) s = .next s' ∧ Landed s s' t (tileOf s t) (2 + (a.unit - 2)) c ws ∧
          ws.map (fun k => (k.addr, k.data)) = pieces (elemData st r a.data)) ∧
      (a.nack = true → ∃ s1 d, exec (.windowNack t) s = .next (tileAbort s1 g t d) ∧ d.status = 0x0305 ∧ d.unitA = a.unit ∧
        d.address = a.ref ∧ d.unitB = 0xFF))

/-- KICK_ALL requests the records of every enabled ring of the function, KICK_RING those of the named enabled submission ring and its
completion ring, each merged with a pending request; a kick that names no enabled ring changes nothing. A due poll timer requests every
enabled ring's record. When the records arrive, each fetched enabled submission ring takes its TAIL and goes on if it had stopped, each
fetched enabled completion ring takes its HEAD, from bytes 0 to 3 of the record at DBR_BASE + 64 i or 64 (SQ_COUNT + j); no other ring
changes, a function whose fetching a full scoreboard had stopped may fetch again where an entry has become free (R305), and a KICK without new
work leaves the poll timer as it stood.
Completes: KICK_ALL, KICK_RING, POLL_TIMER, DOORBELL_RECORD_ARRIVAL. -/
def Obligations.DoorbellsAndPolls : Prop :=
  ∀ (s : State) (fn : Nat),
    (fnReach s fn = true → ∃ s', exec (.kickAll fn) s = .next s' ∧ s' = setPage s fn (pageOf s' fn) ∧
      (pageOf s' fn).fetching = true ∧
      (∀ i, i ∈ (pageOf s' fn).fetchSq ↔ i ∈ (pageOf s fn).fetchSq ∨ i ∈ enabledSqs s fn) ∧
      (∀ i, i ∈ (pageOf s' fn).fetchCq ↔ i ∈ (pageOf s fn).fetchCq ∨ i ∈ enabledCqs s fn)) ∧
    (∀ ring, fnReach s fn = true → ring < 4096 →
      (∀ g, sqGlobal s fn ring = some g → (sqOf s g).enabled = true →
        ∃ s', exec (.kickRing fn ring) s = .next s' ∧ s' = setPage s fn (pageOf s' fn) ∧ (pageOf s' fn).fetching = true ∧
          (∀ i, i ∈ (pageOf s' fn).fetchSq ↔ i ∈ (pageOf s fn).fetchSq ∨ i = ring) ∧
          (∀ i, i ∈ (pageOf s' fn).fetchCq ↔ i ∈ (pageOf s fn).fetchCq ∨ i = (sqOf s g).cq - (fnRecOf s fn).cqBase)) ∧
      (sqGlobal s fn ring = none ∨ (∃ g, sqGlobal s fn ring = some g ∧ (sqOf s g).enabled = false) →
        exec (.kickRing fn ring) s = .next s)) ∧
    (pollDue s fn = true → ∃ s', exec (.pollTimer fn) s = .next s' ∧ s' = setPage s fn (pageOf s' fn) ∧
      (pageOf s' fn).fetching = true ∧ (∀ i ∈ enabledSqs s fn, i ∈ (pageOf s' fn).fetchSq) ∧
      (∀ i ∈ enabledCqs s fn, i ∈ (pageOf s' fn).fetchCq) ∧ (pageOf s' fn).pollAt = s.time + 1000 * (pageOf s fn).period) ∧
    (∀ recs, fetchOpen s fn = true → ∃ s', exec (.doorbellRecordArrival fn recs) s = .next s' ∧
      (pageOf s' fn).fetching = false ∧ (pageOf s' fn).fetchSq = [] ∧ (pageOf s' fn).fetchCq = [] ∧ (pageOf s' fn).paused = ((pageOf s fn).paused && boardFull s fn) ∧
      (∀ i g, i ∈ (pageOf s fn).fetchSq → sqGlobal s fn i = some g → (sqOf s g).enabled = true →
        (∀ r, recs.find? (fun r => r.addr == hostKey (pageOf s fn).dbrPasid ((pageOf s fn).dbrBase + 64 * i)) = some r →
          sqOf s' g = { sqOf s g with tail := le r.data 0 4, stopped := false }) ∧
        (recs.find? (fun r => r.addr == hostKey (pageOf s fn).dbrPasid ((pageOf s fn).dbrBase + 64 * i)) = none →
          sqOf s' g = { sqOf s g with stopped := false })) ∧
      (∀ g, (∀ i ∈ (pageOf s fn).fetchSq, sqGlobal s fn i ≠ some g) → sqOf s' g = sqOf s g) ∧
      (∀ i g k, i ∈ (pageOf s fn).fetchCq → cqGlobal s fn i = some g → (cqOf s g).enabled = true →
        k = hostKey (pageOf s fn).dbrPasid ((pageOf s fn).dbrBase + 64 * ((fnRecOf s fn).sqCount + i)) →
        (∀ r, recs.find? (fun r => r.addr == k) = some r → cqOf s' g = { cqOf s g with head := le r.data 0 4 }) ∧
        (recs.find? (fun r => r.addr == k) = none → cqOf s' g = cqOf s g)) ∧
      ((pageOf s fn).polled = false → newWork s fn recs = false → (pageOf s' fn).pollAt = (pageOf s fn).pollAt) ∧
      (∀ g, (∀ i ∈ (pageOf s fn).fetchCq, cqGlobal s fn i ≠ some g) → cqOf s' g = cqOf s g) ∧
      s'.ts = s.ts ∧ s'.mem = s.mem ∧ s'.tiles = s.tiles ∧ s'.out = s.out)

/-- HI_SQ_RESET gives the selected ring its value as E, the next EPOCH, an empty outcome record and no halt. Enabling a submission ring
applies its LOG2 and completion ring; enabling a completion ring starts it at slot 0, pass 0; while the function's TDI is locked both
writes change nothing. Disabling clears ENABLE alone, and changes nothing of a completion ring still in use. RESUME writes the held
entries of a halted ring in order, and with each COMPLETE entry its handle is freed; where the function may send nothing the ring stays
halted (the model's choice, log 45). That a submission ring's halt ends with HI_SQ_RESET while HI_SQ_HALT keeps its status is the model's
reading too (log 29). CLEAR_NOTICE_LOST clears NOTICE_LOST. Nothing else changes.
Completes: HI_SQ_RESET, SQ_ENABLE, SQ_DISABLE, CQ_ENABLE, CQ_DISABLE, RESUME, CLEAR_NOTICE_LOST. -/
def Obligations.RingRegisters : Prop :=
  ∀ (s : State) (fn g : Nat) (v : BitVec 32), fnReach s fn = true →
    (selSq s fn = some g →
      exec (.hiSqReset fn v) s = .next (setSq s g { sqOf s g with
        expect := v.toNat, tail := v.toNat, epoch := ((sqOf s g).epoch + 1) % 2 ^ 20, halted := false, stopped := false,
        outcome := [], consumed := 0 }) ∧
      (v.toNat.testBit 31 = true → (sqOf s g).enabled = false →
        (tdiLocked s fn = true → exec (.sqEnable fn v) s = .next s) ∧
        (tdiLocked s fn = false → 4 ≤ v.toNat % 16 → ∃ s', exec (.sqEnable fn v) s = .next s' ∧
          s' = setSq s g { sqOf s g with
            cfg := (sqOf s' g).cfg, enabled := true, slots := v.toNat % 16,
            cq := (fnRecOf s fn).cqBase + v.toNat / 2 ^ 16 % 2 ^ 9, outcome := [], enabledAt := s.ts.accepts })) ∧
      (v.toNat.testBit 31 = false → (sqOf s g).enabled = true → tdiLocked s fn = false →
        ∃ s', exec (.sqDisable fn v) s = .next s' ∧
          s' = setSq s g { sqOf s g with cfg := (sqOf s' g).cfg, enabled := false })) ∧
    (selSq s fn = none → exec (.hiSqReset fn v) s = .next s) ∧
    (selCq s fn = some g →
      (v.toNat.testBit 31 = true → (cqOf s g).enabled = false →
        (tdiLocked s fn = true → exec (.cqEnable fn v) s = .next s) ∧
        (tdiLocked s fn = false → 6 ≤ v.toNat % 32 → v.toNat % 32 ≤ 16 → ∃ s', exec (.cqEnable fn v) s = .next s' ∧
          s' = setCq s g { cqOf s g with
            cfg := (cqOf s' g).cfg, enabled := true, halted := false, log2 := v.toNat % 32, vector := v.toNat / 2 ^ 16 % 2 ^ 11,
            next := 0, head := 0, reserved := 0, notices := [], held := [], count := 0, firstAt := none })) ∧
      (v.toNat.testBit 31 = false → (cqOf s g).enabled = true → tdiLocked s fn = false →
        (cqInUse s g = true → exec (.cqDisable fn v) s = .next s) ∧
        (cqInUse s g = false → ∃ s', exec (.cqDisable fn v) s = .next s' ∧
          s' = setCq s g { cqOf s g with cfg := (cqOf s' g).cfg, enabled := false })) ∧
      ((cqOf s g).halted = true → linkOpen s fn = true ∨ (cqOf s g).held = [] → exec (.resume fn) s =
        .next ((cqOf s g).held.foldl (fun s e => settle (writeEntry s g e) e.done)
          (setCq s g { cqOf s g with halted := false, held := [] }))) ∧
      ((cqOf s g).halted = true → linkOpen s fn = false → (cqOf s g).held ≠ [] → exec (.resume fn) s = .next (linkError s fn)) ∧
      ((cqOf s g).halted = false → exec (.resume fn) s = .next s) ∧
      exec (.clearNoticeLost fn) s = .next (setCq s g { cqOf s g with lost := false }))

/-- When a held handle completes on a device that is not unrecoverable, its completion ring being enabled and not halted, its message
not due and its function free to send, one 32-byte entry is written into the ring's next slot:
KIND 2, PHASE the complement of the pass's parity, STATUS, INFO, HANDLE
and COOKIE as given. The ring's next entry is one further, one reservation fewer is held, the handle is no longer held and no held entry
waits for it. Outside that slot no byte of host memory changes. While its ring is halted, the ring holds the entry, and the handle stays
held until it is written (R304). -/
def Obligations.CompletionPostsOneEntry : Prop :=
  ∀ (s : State) (h status info : Nat) (e : Entry) (c : Cq), entryOf s h = some e → c = cqOf s e.cq →
    s.flt.unrecoverable = false → e.state ≠ .completing → c.enabled = true →
    (c.halted = true → ∃ s' x, complete s h status info none false = s' ∧ entryOf s' h = some { e with state := .completing } ∧
      (cqOf s' e.cq).held = c.held ++ [x] ∧ x.done = some (h, status == 0) ∧ s'.out.host = s.out.host ∧ s'.mem = s.mem ∧
      s'.tiles = s.tiles ∧ s'.groups = s.groups) ∧
    (c.halted = false → linkOpen s (cqOwner s e.cq) = true → (dfld e.desc 1 1).testBit 0 = true →
    s.out.host.wf = true →
    ∃ s', complete s h status info none false = s' ∧ entryOf s' h = none ∧
      (∀ x ∈ s'.ts.entries, h ∉ x.deps ∧ h ∉ x.scope ∧ h ∉ x.barriers ∧ h ∉ x.before) ∧
      cqOf s' e.cq = { c with next := (c.next + 1) % 2 ^ 32, reserved := c.reserved - 1 } ∧
      s'.out.host.rdN (hostKey c.pasid (c.base + 32 * (c.next % 2 ^ c.log2))) 32 =
        entryBytes 2 (b2n e.replayed + (if c.next / 2 ^ c.log2 % 2 = 0 then 0x80 else 0)) status info h s.time (dfld e.desc 0x78 8) ∧
      (∀ a, a < hostKey c.pasid (c.base + 32 * (c.next % 2 ^ c.log2)) ∨
          hostKey c.pasid (c.base + 32 * (c.next % 2 ^ c.log2)) + 32 ≤ a → s'.out.host.rd a = s.out.host.rd a) ∧
      s'.mem = s.mem ∧ s'.tiles = s.tiles ∧ s'.groups = s.groups)

/-- A link error on a fetch halts the submission ring with status 0x0406, keeps its E and EPOCH, sets the function's ERROR and touches no
other submission ring. A link error on the write of an entry halts the completion ring, which holds the entry last written for later,
and sets ERROR of its owner; that the write that met the error is the ring's newest entry, whose slot number and count for the message are
taken back and which is kept first, is the model's choice (logs 29, 46). A coalescing timer that has run out sends the ring's message: its count of entries starts again.
An entry that a locked function may not send for want of a keyed IDE stream halts its ring in the same way, unwritten (R300; the model's
choice, log 45).
MSIX_UNMASK clears the mask bit of an entry of the MSI-X table, and sends the message that was pending.
Completes: HOST_FETCH_ERROR, CQ_WRITE_ERROR, MSIX_COALESCE_TIMER, MSIX_UNMASK. -/
def Obligations.RingErrorsAndMessages : Prop :=
  ∀ (s : State) (fn g : Nat),
    (∀ ring, fnReach s fn = true → sqGlobal s fn ring = some g → (sqOf s g).enabled = true → (sqOf s g).halted = false →
      ∃ s', exec (.hostFetchError fn ring) s = .next s' ∧ sqOf s' g = { sqOf s g with halted := true, halt := 0x0406 } ∧
        (pageOf s' fn).error = true ∧ (∀ k, k ≠ g → sqOf s' k = sqOf s k) ∧ s'.ts = s.ts ∧ s'.mem = s.mem ∧ s'.tiles = s.tiles) ∧
    (domainRuns s 1 = true → (cqOf s g).enabled = true → (cqOf s g).halted = false →
      ∃ s', exec (.cqWriteError g) s = .next s' ∧ (cqOf s' g).halted = true ∧ (cqOf s' g).held = lastEntry s g ∧
        (cqOf s' g).next = ((cqOf s g).next + 2 ^ 32 - (lastEntry s g).length) % 2 ^ 32 ∧
        (lastEntry s g = [] → (cqOf s' g).count = (cqOf s g).count) ∧
        (∀ x, lastEntry s g = [x] → x.noirq = false → x.notice = false → (cqOf s' g).count = (cqOf s g).count - 1) ∧
        (pageOf s' (cqOwner s g)).error = true ∧ s'.ts = s.ts ∧ s'.mem = s.mem ∧ s'.tiles = s.tiles) ∧
    (∀ t, domainRuns s 1 = true → (cqOf s g).enabled = true → (cqOf s g).halted = false → (cqOf s g).firstAt = some t →
      linkOpen s (cqOwner s g) = true → 1 ≤ (cqOf s g).coal / 2 ^ 16 % 2 ^ 16 → (cqOf s g).coal / 2 ^ 16 % 2 ^ 16 ≤ 1000 →
      t + 1000 * ((cqOf s g).coal / 2 ^ 16 % 2 ^ 16) ≤ s.time →
      ∃ s', exec (.msixCoalesceTimer g) s = .next s' ∧ cqOf s' g = { cqOf s g with count := 0, firstAt := none } ∧
        s'.ts = s.ts ∧ s'.mem = s.mem ∧
        ((cqOf s g).vector < vectorCount (cqOwner s g) → (cfgOf s (cqOwner s g)).msix = true →
          (cfgOf s (cqOwner s g)).msixMask = false → (msixOf s (cqOwner s g) (cqOf s g).vector).ctrl.testBit 0 = false →
          s'.out.msix = s.out.msix ++ [(cqOwner s g, (cqOf s g).vector)] ∧
          s'.out.host = s.out.host.wrN (msixOf s (cqOwner s g) (cqOf s g).vector).addr
            (leBytes 4 (msixOf s (cqOwner s g) (cqOf s g).vector).data))) ∧
    (∀ x, (cqOf s g).enabled = true → (cqOf s g).halted = false → linkOpen s (cqOwner s g) = false →
      ∃ s', postEntry s g x = s' ∧ (cqOf s' g).halted = true ∧ (cqOf s' g).held = (cqOf s g).held ++ [x] ∧
        (pageOf s' (cqOwner s g)).error = true ∧ s'.out.host = s.out.host ∧ s'.ts = s.ts ∧ s'.mem = s.mem ∧ s'.tiles = s.tiles) ∧
    (∀ vec, fnReach s fn = true → vec < vectorCount fn → ∃ s', exec (.msixUnmask fn vec) s = .next s' ∧
      (msixOf s' fn vec).ctrl = 0 ∧ (msixOf s' fn vec).addr = (msixOf s fn vec).addr ∧
      (msixOf s' fn vec).data = (msixOf s fn vec).data ∧ s'.ts = s.ts ∧ s'.mem = s.mem ∧
      ((msixOf s fn vec).pend = true → (cfgOf s fn).msix = true → (cfgOf s fn).msixMask = false → linkOpen s fn = true →
        (msixOf s' fn vec).pend = false ∧ s'.out.msix = s.out.msix ++ [(fn, vec)]) ∧
      ((msixOf s fn vec).pend = false → s'.out = s.out))

/-- For each of FLT_EVENT, MEM_EVENT and TS_EVENT: when a bit becomes set, the fault interrupt is sent (on PF0's vector FLT_IRQ.VECTOR,
which puts one message out or leaves it pending while PF0 may send) exactly when the bit was clear, its mask bit is set and FLT_IRQ.EN is set; otherwise no
message is sent and none becomes pending. FLT_PENDING reads a block's bit as set exactly when the block holds an unmasked event bit. -/
def Obligations.FaultInterrupt : Prop :=
  ∀ (s : State) (b : Nat),
    (∀ p ∈ [(fltEvent s b, s.flt.event, s.flt.mask, { s with flt := (fltEvent s b).flt }),
            (memEvent s b, s.mem.event, s.mem.mask, { s with mem := (memEvent s b).mem }),
            (tsEvent s b, s.ts.event, s.ts.mask, { s with ts := (tsEvent s b).ts })],
      (p.2.1.testBit b = false → p.2.2.1.testBit b = true → s.flt.irqEn = true → p.1 = msixSend p.2.2.2 0 s.flt.irqVector) ∧
      (p.2.1.testBit b = true ∨ p.2.2.1.testBit b = false ∨ s.flt.irqEn = false → p.1 = p.2.2.2)) ∧
    (fltEvent s b).flt.event = s.flt.event ||| 2 ^ b ∧ (memEvent s b).mem.event = s.mem.event ||| 2 ^ b ∧
    (tsEvent s b).ts.event = s.ts.event ||| 2 ^ b ∧
    (∀ v, v < vectorCount 0 → (cfgOf s 0).msix = true → linkOpen s 0 = true →
      ((msixOf s 0 v).ctrl.testBit 0 = false ∧ (cfgOf s 0).msixMask = false →
        (msixSend s 0 v).out.msix = s.out.msix ++ [(0, v)] ∧ (msixSend s 0 v).hi = s.hi) ∧
      ((msixOf s 0 v).ctrl.testBit 0 = true ∨ (cfgOf s 0).msixMask = true →
        (msixSend s 0 v).out = s.out ∧ (msixOf (msixSend s 0 v) 0 v).pend = true)) ∧
    (∀ p ∈ [(0, s.flt.event, s.flt.mask), (1, s.mem.event, s.mem.mask), (2, s.ts.event, s.ts.mask)],
      (fltPendingWord s).testBit p.1 = decide (p.2.1 &&& p.2.2 ≠ 0))


namespace Sys2Proof.Claims

/-- How far SEQ of a descriptor lies from the ring's E: (SEQ − E) mod 2^32 (R279). -/
def seqGap (s : State) (g : Nat) (d : Desc) : Nat := (dfld d 4 4 + 2 ^ 32 - (sqOf s g).expect % 2 ^ 32) % 2 ^ 32

/-- The session of a descriptor, none for one that opens a session (R282). -/
def tagSession (s : State) (fn : Nat) (d : Desc) : Option Session := if opensSession d then none else sessionOf s fn (dfld d 8 4)

/-- The regions that serve a descriptor (R315). -/
def tagRegions (s : State) (fn : Nat) (d : Desc) : List Region :=
  match tagSession s fn d with
  | some x => x.regions.filter (fun r => !r.removed)
  | none => []

/-- The status of the first failing check among 1 to 5 of R282, 0 for none; 0x07FF on an unrecoverable device (R347). -/
def firstFive (s : State) (fn : Nat) (d : Desc) : Nat :=
  if s.flt.unrecoverable then 0x07FF
  else if ¬(1 ≤ dfld d 0 1 ∧ dfld d 0 1 ≤ 9 ∧ dfld d 1 1 < 8 ∧ (dfld d 0 1 = 5 ∨ dfld d 1 1 < 2) ∧ dfld d 2 1 ≤ 7 ∧ dfld d 3 1 ≤ 4 ∧
      dfld d 0x40 4 ≤ 4096) then 0x0101
  else if opensSession d = false ∧ tagSession s fn d = none then 0x0102
  else if (dfld d 0 1 = 4 ∧ (fnRecOf s fn).pk = false) ∨ (opensSession d = true ∧ s.mgt.diag ≠ none) ∨
      (∃ i, i < dfld d 3 1 ∧ ownsRing s fn (dfld d (0x10 + 8 * i) 8 / 2 ^ 52) = false) then 0x0103
  else if dfld d 0x0C 4 ≠ 0 ∧ dfld d 0x0C 4 ≠ s.ts.bundle.version then 0x0603
  else match tagSession s fn d with
    | some x => if (s.ts.entries.filter (fun e => e.tag == dfld d 8 4)).length < x.qEntries then 0 else 0x0104
    | none => 0

/-- What a fetched descriptor that is not taken leaves: fetching paused (R305), the ring halted at a gap or stopped at a duplicate (R279), or
the descriptor refused with an ACCEPT entry (R282, R285). -/
def NotTaken (s s' : State) (fn g : Nat) (d : Desc) : Prop :=
  (boardFull s fn = true → (pageOf s' fn).paused = true ∧ s'.ts.event.testBit 6 = true ∧ s'.ts.entries = s.ts.entries ∧
    s'.hi.sqs = s.hi.sqs ∧ s'.mem = s.mem) ∧
  (boardFull s fn = false → 0 < seqGap s g d → seqGap s g d < 2 ^ 31 →
    sqOf s' g = { sqOf s g with halted := true, halt := 0x0106 } ∧ (pageOf s' fn).error = true ∧ s'.ts = s.ts ∧ s'.mem = s.mem) ∧
  (boardFull s fn = false → 2 ^ 31 ≤ seqGap s g d →
    sqOf s' g = { sqOf s g with stopped := true } ∧ (pageOf s' fn).dup = satInc (pageOf s fn).dup 0xFFFFFFFF ∧ s'.ts = s.ts ∧
    s'.mem = s.mem ∧ s'.out = s.out) ∧
  (boardFull s fn = false → seqGap s g d = 0 → (sqOf s' g).expect = ((sqOf s g).expect + 1) % 2 ^ 32 ∧ s'.ts.entries = s.ts.entries ∧
    s'.ts.sessions = s.ts.sessions ∧ s'.mem = s.mem ∧
    ∀ c, c = cqOf s (sqOf s g).cq → c.enabled = true → c.halted = false → linkOpen s (cqOwner s (sqOf s g).cq) = true →
      (dfld d 1 1).testBit 0 = true → s.out.host.wf = true →
      s'.out.host.rdN (hostKey c.pasid (c.base + 32 * (c.next % 2 ^ c.log2))) 32 =
        entryBytes 1 (if c.next / 2 ^ c.log2 % 2 = 0 then 0x80 else 0) (firstFive s fn d) 0
          ((g * 2 ^ 52 + (sqOf s g).epoch * 2 ^ 32 + (sqOf s g).expect)) s.time (dfld d 0x78 8) ∧
      cqOf s' (sqOf s g).cq = { c with next := (c.next + 1) % 2 ^ 32 })

/-- The outcome record of the ring that a handle names, or its distance from that ring's E, judges it failed: rows 2 and 3 of R306, for a
handle that is not held. -/
def JudgedFailed (s : State) (h : Nat) : Prop :=
  let q := sqOf s (h / 2 ^ 52)
  let ep := h / 2 ^ 32 % 2 ^ 20
  let later := (ep + 2 ^ 20 - q.epoch) % 2 ^ 20
  entryOf s h = none ∧
    ((ep = q.epoch ∧ 1 ≤ seqDiff q.expect (h % 2 ^ 32) ∧ seqDiff q.expect (h % 2 ^ 32) ≤ q.outcome.length ∧
        ¬ ∃ o, q.outcome.find? (fun o => o.seq == h % 2 ^ 32) = some o ∧ o.taken = true ∧ o.result = some true) ∨
      (¬(ep = q.epoch ∧ 1 ≤ seqDiff q.expect (h % 2 ^ 32) ∧ seqDiff q.expect (h % 2 ^ 32) ≤ q.outcome.length) ∧
        ((ep = q.epoch ∧ seqDiff (h % 2 ^ 32) q.expect < 2 ^ 31) ∨ (1 ≤ later ∧ later < 2 ^ 19))))

/-- What a descriptor of row `row` that passes every check leaves: one scoreboard entry, or for a CANCEL or QUERY that waits for nothing its
run (R282, R284, R288, R304, R306). -/
def Taken (s s1 s' : State) (fn g : Nat) (d : Desc) (b : List Byte) (row : String) : Prop :=
  ∃ e : Entry, e.handle = g * 2 ^ 52 + (sqOf s g).epoch * 2 ^ 32 + (sqOf s g).expect ∧
    e.fn = fn ∧ e.row = row ∧ e.desc = d ∧ e.arg = b ∧ e.state = .waiting ∧ e.version = s1.ts.bundle.version ∧
    (∀ h ∈ e.deps, (entryOf s1 h).isSome = true ∧ ∃ i, i < dfld d 3 1 ∧ h = dfld d (0x10 + 8 * i) 8) ∧
    ((∃ i, i < dfld d 3 1 ∧ JudgedFailed s1 (dfld d (0x10 + 8 * i) 8)) → 0 < e.failed) ∧
    (row ≠ "FENCE" → 0 < e.failed → ∃ i, i < dfld d 3 1 ∧ JudgedFailed s1 (dfld d (0x10 + 8 * i) 8)) ∧
    (∀ i, i < dfld d 3 1 → (entryOf s1 (dfld d (0x10 + 8 * i) 8)).isSome = true → dfld d (0x10 + 8 * i) 8 ∈ e.deps) ∧
    (((row ≠ "CANCEL" ∧ row ≠ "QUERY") ∨ e.deps ≠ []) →
      s'.ts.entries = s1.ts.entries ++ [e] ∧ (sqOf s' g).expect = ((sqOf s1 g).expect + 1) % 2 ^ 32 ∧
      (cqOf s' (sqOf s1 g).cq).reserved = (cqOf s1 (sqOf s1 g).cq).reserved + 1 ∧ s'.mem = s1.mem ∧ s'.groups = s1.groups ∧
      ∀ c, c = cqOf s1 (sqOf s1 g).cq → c.enabled = true → c.halted = false → linkOpen s1 (cqOwner s1 (sqOf s1 g).cq) = true →
        (dfld d 1 1).testBit 0 = true → s1.out.host.wf = true →
        s'.out.host.rdN (hostKey c.pasid (c.base + 32 * (c.next % 2 ^ c.log2))) 32 =
          entryBytes 1 (if c.next / 2 ^ c.log2 % 2 = 0 then 0x80 else 0) 0 0 e.handle s1.time (dfld d 0x78 8) ∧
        (cqOf s' (sqOf s1 g).cq).next = (c.next + 1) % 2 ^ 32) ∧
    (((row = "CANCEL" ∨ row = "QUERY") ∧ e.deps = []) →
      s' = runDirect (insertEntry (postAccept (consumeSeq s1 g (dfld d 8 4) true) g e.handle 0 d) e) e)

end Sys2Proof.Claims

/-- For each of the 53 descriptor commands, when the ring may be fetched and the descriptor is of the command's row: with the scoreboard full
for its function, fetching pauses with FETCH_PAUSED; with a SEQ ahead of E the ring halts with 0x0106, nothing being accepted; with a SEQ
behind E the duplicate counter rises and the ring is left for the next doorbell fetch; with SEQ equal to E and a failing check among 1 to 5
of R282 the descriptor is consumed: E rises by 1, no entry is held, and the next completion slot carries an ACCEPT entry with the status of
the first check that fails.
Where none of these holds and the later checks pass, the same commands complete as AcceptedDescriptorsAreHeld says. -/
def Obligations.DescriptorsAreConsumedOrRefused : Prop :=
  ∀ (s : State) (fn ring g : Nat) (d : Desc) (arg : HostData),
    sqGlobal s fn ring = some g → mayFetch s fn g = true →
    boardFull s fn = true ∨ 0 < seqGap s g d ∨ firstFive s fn d ≠ 0 →
    (rowOf d = "TASK" → ∃ s', exec (.task fn ring d arg) s = .next s' ∧ NotTaken s s' fn g d) ∧
    (rowOf d = "REFRESH" → ∃ s', exec (.refresh fn ring d arg) s = .next s' ∧ NotTaken s s' fn g d) ∧
    (rowOf d = "SWITCH_TO_LWE" → ∃ s', exec (.switchToLwe fn ring d arg) s = .next s' ∧ NotTaken s s' fn g d) ∧
    (rowOf d = "REPACK" → ∃ s', exec (.repack fn ring d arg) s = .next s' ∧ NotTaken s s' fn g d) ∧
    (rowOf d = "PBS" → ∃ s', exec (.pbs fn ring d arg) s = .next s' ∧ NotTaken s s' fn g d) ∧
    (rowOf d = "KEYSWITCH" → ∃ s', exec (.keyswitch fn ring d arg) s = .next s' ∧ NotTaken s s' fn g d) ∧
    (rowOf d = "ROTATE_MANY" → ∃ s', exec (.rotateMany fn ring d arg) s = .next s' ∧ NotTaken s s' fn g d) ∧
    (rowOf d = "RESCALE" → ∃ s', exec (.rescale fn ring d arg) s = .next s' ∧ NotTaken s s' fn g d) ∧
    (rowOf d = "MPC_TRUNC" → ∃ s', exec (.mpcTrunc fn ring d arg) s = .next s' ∧ NotTaken s s' fn g d) ∧
    (rowOf d = "MPC_COMPARE" → ∃ s', exec (.mpcCompare fn ring d arg) s = .next s' ∧ NotTaken s s' fn g d) ∧
    (rowOf d = "MOVE" → ∃ s', exec (.move fn ring d arg) s = .next s' ∧ NotTaken s s' fn g d) ∧
    (rowOf d = "FENCE" → ∃ s', exec (.fence fn ring d arg) s = .next s' ∧ NotTaken s s' fn g d) ∧
    (rowOf d = "CANCEL" → ∃ s', exec (.cancel fn ring d arg) s = .next s' ∧ NotTaken s s' fn g d) ∧
    (rowOf d = "QUERY" → ∃ s', exec (.query fn ring d arg) s = .next s' ∧ NotTaken s s' fn g d) ∧
    (rowOf d = "OPEN" → ∃ s', exec (.openSession fn ring d arg) s = .next s' ∧ NotTaken s s' fn g d) ∧
    (rowOf d = "CLOSE" → ∃ s', exec (.closeSession fn ring d arg) s = .next s' ∧ NotTaken s s' fn g d) ∧
    (rowOf d = "LOAD_PSET" → ∃ s', exec (.loadPset fn ring d arg) s = .next s' ∧ NotTaken s s' fn g d) ∧
    (rowOf d = "UNLOAD_PSET" → ∃ s', exec (.unloadPset fn ring d arg) s = .next s' ∧ NotTaken s s' fn g d) ∧
    (rowOf d = "ADD_REGION" → ∃ s', exec (.addRegion fn ring d arg) s = .next s' ∧ NotTaken s s' fn g d) ∧
    (rowOf d = "REMOVE_REGION" → ∃ s', exec (.removeRegion fn ring d arg) s = .next s' ∧ NotTaken s s' fn g d) ∧
    (rowOf d = "POLICY" → ∃ s', exec (.policy fn ring d arg) s = .next s' ∧ NotTaken s s' fn g d) ∧
    (rowOf d = "EXPORT" → ∃ s', exec (.exportMsg fn ring d arg) s = .next s' ∧ NotTaken s s' fn g d) ∧
    (rowOf d = "IMPORT" → ∃ s', exec (.importMsg fn ring d arg) s = .next s' ∧ NotTaken s s' fn g d) ∧
    (rowOf d = "SHA_256" → ∃ s', exec (.sha256Op fn ring d arg) s = .next s' ∧ NotTaken s s' fn g d) ∧
    (rowOf d = "SHA_384" → ∃ s', exec (.sha384Op fn ring d arg) s = .next s' ∧ NotTaken s s' fn g d) ∧
    (rowOf d = "SHA_512" → ∃ s', exec (.sha512Op fn ring d arg) s = .next s' ∧ NotTaken s s' fn g d) ∧
    (rowOf d = "SHAKE_128" → ∃ s', exec (.shake128Op fn ring d arg) s = .next s' ∧ NotTaken s s' fn g d) ∧
    (rowOf d = "SHAKE_256" → ∃ s', exec (.shake256Op fn ring d arg) s = .next s' ∧ NotTaken s s' fn g d) ∧
    (rowOf d = "RSA_3072_QUOTE" → ∃ s', exec (.rsa3072Quote fn ring d arg) s = .next s' ∧ NotTaken s s' fn g d) ∧
    (rowOf d = "RSA_4096_QUOTE" → ∃ s', exec (.rsa4096Quote fn ring d arg) s = .next s' ∧ NotTaken s s' fn g d) ∧
    (rowOf d = "RSA_3072_PSS_VERIFY" → ∃ s', exec (.rsa3072PssVerify fn ring d arg) s = .next s' ∧ NotTaken s s' fn g d) ∧
    (rowOf d = "RSA_4096_PSS_VERIFY" → ∃ s', exec (.rsa4096PssVerify fn ring d arg) s = .next s' ∧ NotTaken s s' fn g d) ∧
    (rowOf d = "P_256_KEY_PAIR" → ∃ s', exec (.p256KeyPair fn ring d arg) s = .next s' ∧ NotTaken s s' fn g d) ∧
    (rowOf d = "P_256_ECDSA_SIGN" → ∃ s', exec (.p256EcdsaSign fn ring d arg) s = .next s' ∧ NotTaken s s' fn g d) ∧
    (rowOf d = "P_256_ECDSA_VERIFY" → ∃ s', exec (.p256EcdsaVerify fn ring d arg) s = .next s' ∧ NotTaken s s' fn g d) ∧
    (rowOf d = "P_256_ECDH" → ∃ s', exec (.p256Ecdh fn ring d arg) s = .next s' ∧ NotTaken s s' fn g d) ∧
    (rowOf d = "P_384_KEY_PAIR" → ∃ s', exec (.p384KeyPair fn ring d arg) s = .next s' ∧ NotTaken s s' fn g d) ∧
    (rowOf d = "P_384_ECDSA_SIGN" → ∃ s', exec (.p384EcdsaSign fn ring d arg) s = .next s' ∧ NotTaken s s' fn g d) ∧
    (rowOf d = "P_384_ECDSA_VERIFY" → ∃ s', exec (.p384EcdsaVerify fn ring d arg) s = .next s' ∧ NotTaken s s' fn g d) ∧
    (rowOf d = "P_384_ECDH" → ∃ s', exec (.p384Ecdh fn ring d arg) s = .next s' ∧ NotTaken s s' fn g d) ∧
    (rowOf d = "X25519_KEY_PAIR" → ∃ s', exec (.x25519KeyPair fn ring d arg) s = .next s' ∧ NotTaken s s' fn g d) ∧
    (rowOf d = "X25519" → ∃ s', exec (.x25519Op fn ring d arg) s = .next s' ∧ NotTaken s s' fn g d) ∧
    (rowOf d = "ED25519_KEY_PAIR" → ∃ s', exec (.ed25519KeyPair fn ring d arg) s = .next s' ∧ NotTaken s s' fn g d) ∧
    (rowOf d = "ED25519_SIGN" → ∃ s', exec (.ed25519Sign fn ring d arg) s = .next s' ∧ NotTaken s s' fn g d) ∧
    (rowOf d = "ED25519_VERIFY" → ∃ s', exec (.ed25519Verify fn ring d arg) s = .next s' ∧ NotTaken s s' fn g d) ∧
    (rowOf d = "ML_KEM_768_KEY_PAIR" → ∃ s', exec (.mlKem768KeyPair fn ring d arg) s = .next s' ∧ NotTaken s s' fn g d) ∧
    (rowOf d = "ML_KEM_768_ENCAPSULATE" → ∃ s', exec (.mlKem768Encapsulate fn ring d arg) s = .next s' ∧ NotTaken s s' fn g d) ∧
    (rowOf d = "ML_KEM_768_DECAPSULATE" → ∃ s', exec (.mlKem768Decapsulate fn ring d arg) s = .next s' ∧ NotTaken s s' fn g d) ∧
    (rowOf d = "ML_KEM_1024_KEY_PAIR" → ∃ s', exec (.mlKem1024KeyPair fn ring d arg) s = .next s' ∧ NotTaken s s' fn g d) ∧
    (rowOf d = "ML_KEM_1024_ENCAPSULATE" → ∃ s', exec (.mlKem1024Encapsulate fn ring d arg) s = .next s' ∧ NotTaken s s' fn g d) ∧
    (rowOf d = "ML_KEM_1024_DECAPSULATE" → ∃ s', exec (.mlKem1024Decapsulate fn ring d arg) s = .next s' ∧ NotTaken s s' fn g d) ∧
    (rowOf d = "SLOT_LOAD" → ∃ s', exec (.slotLoad fn ring d arg) s = .next s' ∧ NotTaken s s' fn g d) ∧
    (rowOf d = "SLOT_CLEAR" → ∃ s', exec (.slotClear fn ring d arg) s = .next s' ∧ NotTaken s s' fn g d)

/-- For each of the 53 descriptor commands: when the ring may be fetched, the scoreboard has room, SEQ equals E and every check of R282 passes
(leaving the state s1 after the reads of check 6 and 7, with the argument b and the image), the command completes: E rises by 1, one ACCEPT
entry with status 0x0000 is written at the completion ring's next number (stated where that entry asks for no message), and, apart from a CANCEL or QUERY that can run at once, exactly one entry joins the scoreboard. Its handle names ring, epoch
and SEQ; it is WAITING; its open dependencies are those of the handles it names that are held, and it counts a failure exactly when rows 2 and
3 of R306 judge a named handle failed (a FENCE also for its scope); a macro's image and a SLOT_LOAD's check are what s1 found; one more place is reserved in its completion ring.
Completes: every descriptor row, TASK to SLOT_CLEAR, each on its own line. -/
def Obligations.AcceptedDescriptorsAreHeld : Prop :=
  ∀ (s s1 : State) (fn ring g : Nat) (d : Desc) (arg : HostData) (b : List Byte) (img : Option Image),
    sqGlobal s fn ring = some g → mayFetch s fn g = true → boardFull s fn = false → seqGap s g d = 0 →
    checkAll s fn (handleOf g (sqOf s g).epoch (sqOf s g).expect) (tagSession s fn d) (tagRegions s fn d) d arg = .done s1 0 b img →
    (rowOf d = "TASK" → ∃ s', exec (.task fn ring d arg) s = .next s' ∧ Taken s s1 s' fn g d b "TASK") ∧
    (rowOf d = "REFRESH" → ∃ s', exec (.refresh fn ring d arg) s = .next s' ∧ Taken s s1 s' fn g d b "REFRESH") ∧
    (rowOf d = "SWITCH_TO_LWE" → ∃ s', exec (.switchToLwe fn ring d arg) s = .next s' ∧ Taken s s1 s' fn g d b "SWITCH_TO_LWE") ∧
    (rowOf d = "REPACK" → ∃ s', exec (.repack fn ring d arg) s = .next s' ∧ Taken s s1 s' fn g d b "REPACK") ∧
    (rowOf d = "PBS" → ∃ s', exec (.pbs fn ring d arg) s = .next s' ∧ Taken s s1 s' fn g d b "PBS") ∧
    (rowOf d = "KEYSWITCH" → ∃ s', exec (.keyswitch fn ring d arg) s = .next s' ∧ Taken s s1 s' fn g d b "KEYSWITCH") ∧
    (rowOf d = "ROTATE_MANY" → ∃ s', exec (.rotateMany fn ring d arg) s = .next s' ∧ Taken s s1 s' fn g d b "ROTATE_MANY") ∧
    (rowOf d = "RESCALE" → ∃ s', exec (.rescale fn ring d arg) s = .next s' ∧ Taken s s1 s' fn g d b "RESCALE") ∧
    (rowOf d = "MPC_TRUNC" → ∃ s', exec (.mpcTrunc fn ring d arg) s = .next s' ∧ Taken s s1 s' fn g d b "MPC_TRUNC") ∧
    (rowOf d = "MPC_COMPARE" → ∃ s', exec (.mpcCompare fn ring d arg) s = .next s' ∧ Taken s s1 s' fn g d b "MPC_COMPARE") ∧
    (rowOf d = "MOVE" → ∃ s', exec (.move fn ring d arg) s = .next s' ∧ Taken s s1 s' fn g d b "MOVE") ∧
    (rowOf d = "FENCE" → ∃ s', exec (.fence fn ring d arg) s = .next s' ∧ Taken s s1 s' fn g d b "FENCE") ∧
    (rowOf d = "CANCEL" → ∃ s', exec (.cancel fn ring d arg) s = .next s' ∧ Taken s s1 s' fn g d b "CANCEL") ∧
    (rowOf d = "QUERY" → ∃ s', exec (.query fn ring d arg) s = .next s' ∧ Taken s s1 s' fn g d b "QUERY") ∧
    (rowOf d = "OPEN" → ∃ s', exec (.openSession fn ring d arg) s = .next s' ∧ Taken s s1 s' fn g d b "OPEN") ∧
    (rowOf d = "CLOSE" → ∃ s', exec (.closeSession fn ring d arg) s = .next s' ∧ Taken s s1 s' fn g d b "CLOSE") ∧
    (rowOf d = "LOAD_PSET" → ∃ s', exec (.loadPset fn ring d arg) s = .next s' ∧ Taken s s1 s' fn g d b "LOAD_PSET") ∧
    (rowOf d = "UNLOAD_PSET" → ∃ s', exec (.unloadPset fn ring d arg) s = .next s' ∧ Taken s s1 s' fn g d b "UNLOAD_PSET") ∧
    (rowOf d = "ADD_REGION" → ∃ s', exec (.addRegion fn ring d arg) s = .next s' ∧ Taken s s1 s' fn g d b "ADD_REGION") ∧
    (rowOf d = "REMOVE_REGION" → ∃ s', exec (.removeRegion fn ring d arg) s = .next s' ∧ Taken s s1 s' fn g d b "REMOVE_REGION") ∧
    (rowOf d = "POLICY" → ∃ s', exec (.policy fn ring d arg) s = .next s' ∧ Taken s s1 s' fn g d b "POLICY") ∧
    (rowOf d = "EXPORT" → ∃ s', exec (.exportMsg fn ring d arg) s = .next s' ∧ Taken s s1 s' fn g d b "EXPORT") ∧
    (rowOf d = "IMPORT" → ∃ s', exec (.importMsg fn ring d arg) s = .next s' ∧ Taken s s1 s' fn g d b "IMPORT") ∧
    (rowOf d = "SHA_256" → ∃ s', exec (.sha256Op fn ring d arg) s = .next s' ∧ Taken s s1 s' fn g d b "SHA_256") ∧
    (rowOf d = "SHA_384" → ∃ s', exec (.sha384Op fn ring d arg) s = .next s' ∧ Taken s s1 s' fn g d b "SHA_384") ∧
    (rowOf d = "SHA_512" → ∃ s', exec (.sha512Op fn ring d arg) s = .next s' ∧ Taken s s1 s' fn g d b "SHA_512") ∧
    (rowOf d = "SHAKE_128" → ∃ s', exec (.shake128Op fn ring d arg) s = .next s' ∧ Taken s s1 s' fn g d b "SHAKE_128") ∧
    (rowOf d = "SHAKE_256" → ∃ s', exec (.shake256Op fn ring d arg) s = .next s' ∧ Taken s s1 s' fn g d b "SHAKE_256") ∧
    (rowOf d = "RSA_3072_QUOTE" → ∃ s', exec (.rsa3072Quote fn ring d arg) s = .next s' ∧ Taken s s1 s' fn g d b "RSA_3072_QUOTE") ∧
    (rowOf d = "RSA_4096_QUOTE" → ∃ s', exec (.rsa4096Quote fn ring d arg) s = .next s' ∧ Taken s s1 s' fn g d b "RSA_4096_QUOTE") ∧
    (rowOf d = "RSA_3072_PSS_VERIFY" → ∃ s', exec (.rsa3072PssVerify fn ring d arg) s = .next s' ∧ Taken s s1 s' fn g d b "RSA_3072_PSS_VERIFY") ∧
    (rowOf d = "RSA_4096_PSS_VERIFY" → ∃ s', exec (.rsa4096PssVerify fn ring d arg) s = .next s' ∧ Taken s s1 s' fn g d b "RSA_4096_PSS_VERIFY") ∧
    (rowOf d = "P_256_KEY_PAIR" → ∃ s', exec (.p256KeyPair fn ring d arg) s = .next s' ∧ Taken s s1 s' fn g d b "P_256_KEY_PAIR") ∧
    (rowOf d = "P_256_ECDSA_SIGN" → ∃ s', exec (.p256EcdsaSign fn ring d arg) s = .next s' ∧ Taken s s1 s' fn g d b "P_256_ECDSA_SIGN") ∧
    (rowOf d = "P_256_ECDSA_VERIFY" → ∃ s', exec (.p256EcdsaVerify fn ring d arg) s = .next s' ∧ Taken s s1 s' fn g d b "P_256_ECDSA_VERIFY") ∧
    (rowOf d = "P_256_ECDH" → ∃ s', exec (.p256Ecdh fn ring d arg) s = .next s' ∧ Taken s s1 s' fn g d b "P_256_ECDH") ∧
    (rowOf d = "P_384_KEY_PAIR" → ∃ s', exec (.p384KeyPair fn ring d arg) s = .next s' ∧ Taken s s1 s' fn g d b "P_384_KEY_PAIR") ∧
    (rowOf d = "P_384_ECDSA_SIGN" → ∃ s', exec (.p384EcdsaSign fn ring d arg) s = .next s' ∧ Taken s s1 s' fn g d b "P_384_ECDSA_SIGN") ∧
    (rowOf d = "P_384_ECDSA_VERIFY" → ∃ s', exec (.p384EcdsaVerify fn ring d arg) s = .next s' ∧ Taken s s1 s' fn g d b "P_384_ECDSA_VERIFY") ∧
    (rowOf d = "P_384_ECDH" → ∃ s', exec (.p384Ecdh fn ring d arg) s = .next s' ∧ Taken s s1 s' fn g d b "P_384_ECDH") ∧
    (rowOf d = "X25519_KEY_PAIR" → ∃ s', exec (.x25519KeyPair fn ring d arg) s = .next s' ∧ Taken s s1 s' fn g d b "X25519_KEY_PAIR") ∧
    (rowOf d = "X25519" → ∃ s', exec (.x25519Op fn ring d arg) s = .next s' ∧ Taken s s1 s' fn g d b "X25519") ∧
    (rowOf d = "ED25519_KEY_PAIR" → ∃ s', exec (.ed25519KeyPair fn ring d arg) s = .next s' ∧ Taken s s1 s' fn g d b "ED25519_KEY_PAIR") ∧
    (rowOf d = "ED25519_SIGN" → ∃ s', exec (.ed25519Sign fn ring d arg) s = .next s' ∧ Taken s s1 s' fn g d b "ED25519_SIGN") ∧
    (rowOf d = "ED25519_VERIFY" → ∃ s', exec (.ed25519Verify fn ring d arg) s = .next s' ∧ Taken s s1 s' fn g d b "ED25519_VERIFY") ∧
    (rowOf d = "ML_KEM_768_KEY_PAIR" → ∃ s', exec (.mlKem768KeyPair fn ring d arg) s = .next s' ∧ Taken s s1 s' fn g d b "ML_KEM_768_KEY_PAIR") ∧
    (rowOf d = "ML_KEM_768_ENCAPSULATE" → ∃ s', exec (.mlKem768Encapsulate fn ring d arg) s = .next s' ∧ Taken s s1 s' fn g d b "ML_KEM_768_ENCAPSULATE") ∧
    (rowOf d = "ML_KEM_768_DECAPSULATE" → ∃ s', exec (.mlKem768Decapsulate fn ring d arg) s = .next s' ∧ Taken s s1 s' fn g d b "ML_KEM_768_DECAPSULATE") ∧
    (rowOf d = "ML_KEM_1024_KEY_PAIR" → ∃ s', exec (.mlKem1024KeyPair fn ring d arg) s = .next s' ∧ Taken s s1 s' fn g d b "ML_KEM_1024_KEY_PAIR") ∧
    (rowOf d = "ML_KEM_1024_ENCAPSULATE" → ∃ s', exec (.mlKem1024Encapsulate fn ring d arg) s = .next s' ∧ Taken s s1 s' fn g d b "ML_KEM_1024_ENCAPSULATE") ∧
    (rowOf d = "ML_KEM_1024_DECAPSULATE" → ∃ s', exec (.mlKem1024Decapsulate fn ring d arg) s = .next s' ∧ Taken s s1 s' fn g d b "ML_KEM_1024_DECAPSULATE") ∧
    (rowOf d = "SLOT_LOAD" → ∃ s', exec (.slotLoad fn ring d arg) s = .next s' ∧ Taken s s1 s' fn g d b "SLOT_LOAD") ∧
    (rowOf d = "SLOT_CLEAR" → ∃ s', exec (.slotClear fn ring d arg) s = .next s' ∧ Taken s s1 s' fn g d b "SLOT_CLEAR")

/-- A FENCE whose dependencies and scope are empty completes, with 0x0000 when none failed and else 0x0602, INFO counting the failures. A
CANCEL ends a WAITING or READY target unrun (INFO 0), ends a transfer or a group that runs (INFO 1, for a group as R152 gives), and leaves
anything else (INFO 2, or 3 with no effect for a target whose epoch is not current, held or not); the target so ended completes with 0x0601. A
QUERY reports 1, 2, 3 or 4 for a held target's state, 5 for one accepted on the current epoch and no longer held, else 0, and 0 for one on
another epoch. Work that has ended and waits for its entry to be written is left, and counts as RUNNING (the model's choice, log 46). A failed dependency makes either end with 0x0602.
Completes: FENCE_COMPLETE; CANCEL and QUERY run through READINESS_CHECK or their acceptance. -/
def Obligations.FenceCancelQuery : Prop :=
  ∀ (s : State) (h self : Nat) (e : Entry), entryOf s h = some e →
    (e.row = "FENCE" → e.state ≠ .completing → e.deps = [] → e.scope = [] → domainRuns s 3 = true →
      exec (.fenceComplete h) s =
        .next (complete s h (if e.failed = 0 then 0 else 0x0602) (Nat.min e.failed 0xFFFFFFFF) none false)) ∧
    (onEpoch s h = true → h ≠ self → e.state = .waiting ∨ e.state = .ready →
      (cancelTarget s self h).2 = 0 ∧ Closed s (cancelTarget s self h).1 h 0x0601 0 ∧
        (cancelTarget s self h).1.mem = s.mem ∧ (cancelTarget s self h).1.groups = s.groups) ∧
    (onEpoch s h = true → h ≠ self → e.state = .running → isTransfer e = true →
      (cancelTarget s self h).2 = 1 ∧ Closed s (cancelTarget s self h).1 h 0x0601 0 ∧ h ∉ (cancelTarget s self h).1.hi.xfers) ∧
    (∀ g, onEpoch s h = true → h ≠ self → e.state = .running ∨ e.state = .replaying → isTransfer e = false → groupOf s h = some g → g.handle = h →
      (groupTiles g).Nodup → (cancelTarget s self h).2 = 1 ∧ Closed s (cancelTarget s self h).1 h 0x0601 0 ∧
        groupOf (cancelTarget s self h).1 h = none ∧
        (e.image = none ∨ e.prevGen ≠ [] → Ended s (cancelTarget s self h).1 h g 0x0601)) ∧
    (onEpoch s h = true → h ≠ self → e.state = .completing → cancelTarget s self h = (s, 2) ∧ queryInfo s self h = 3) ∧
    (onEpoch s h = true → h ≠ self → e.state = .running → isTransfer e = false → groupOf s h = none → cancelTarget s self h = (s, 2)) ∧
    (onEpoch s h = true → h ≠ self → (e.state = .waiting → queryInfo s self h = 1) ∧ (e.state = .ready → queryInfo s self h = 2) ∧
      (e.state = .running → groupOf s h = none → queryInfo s self h = 3) ∧
      (∀ g, e.state = .running → groupOf s h = some g → queryInfo s self h = if g.fault.isSome then 4 else 3)) ∧
    (∀ t, (t / 2 ^ 32) % 2 ^ 20 ≠ (sqOf s (t / 2 ^ 52)).epoch → cancelTarget s self t = (s, 3) ∧ queryInfo s self t = 0) ∧
    (∀ t, entryOf s t = none → wasAccepted s t = true → cancelTarget s self t = (s, 2) ∧ queryInfo s self t = 5) ∧
    (0 < e.failed → e.handle = h → runDirect s e = complete s h 0x0602 0 none false)

/-- The effective priority of a READY entry is min(PRIORITY, PRIO_CAP of its partition) plus the full AGE_US periods counted for it, up to 7.
PRIORITY_AGE completes exactly when one more full AGE_US has passed since the entry became READY and its priority is below 7, and raises its
effective priority by 1 (completes: PRIORITY_AGE). In the order of READY work, each entry comes before a later one only if its effective priority is higher, or is
equal and it was not accepted later; and the order holds each READY entry of the kind exactly as often as the scoreboard does. -/
def Obligations.EffectivePriority : Prop :=
  ∀ (s : State) (e : Entry) (p : Entry → Bool),
    (e.boost = 0 → effPrio s e = Nat.min 7 (Nat.min (dfld e.desc 2 1) (partOf s (fnRecOf s e.fn).part).prioCap)) ∧
    (entryOf s e.handle = some e → e.state = .ready → domainRuns s 3 = true →
      ((effPrio s e < 7 ∧ (e.boost + 1) * (1000 * s.ts.bundle.ageUs) ≤ s.time - e.readyAt ∧ e.readyAt ≤ s.time) ↔
        ∃ s', exec (.priorityAge e.handle) s = .next s')) ∧
    (∀ s', exec (.priorityAge e.handle) s = .next s' → entryOf s e.handle = some e →
      ∃ f, entryOf s' e.handle = some f ∧ f = { e with boost := e.boost + 1 } ∧ effPrio s' f = effPrio s e + 1 ∧
        s'.mem = s.mem ∧ s'.tiles = s.tiles ∧ s'.groups = s.groups ∧ s'.hi = s.hi) ∧
    (readyOrder s p).Pairwise (fun a b => effPrio s b < effPrio s a ∨ (effPrio s a = effPrio s b ∧ a.acceptAt ≤ b.acceptAt)) ∧
    (readyOrder s p).Perm (s.ts.entries.filter (fun x => x.state == .ready && p x))

/-- READINESS_CHECK of a waiting entry behind no barrier: with a failed dependency it ends with 0x0602 unrun; with none left, an entry that
needs no headers becomes READY now, a PK or EXCHANGE whose ranges lie outside its regions ends with 0x0401, and work for tiles becomes READY
or ends as its checks give. A TASK whose headers have been read and whose data lies in its regions ends, nothing written, with the status of
its first failing check: HEADER_INVALID, PARAM_MISMATCH, KEY_MISMATCH, LEVEL_EXHAUSTED, NOISE_BUDGET, IN_PLACE_FORBIDDEN; or it becomes
READY with its headers recorded and a final header for each DEST with the fields that R58 and R61 derive. DISPATCH ends the first item of the partition's order that is stale, with CONFIG_STALE and its event, or puts
the first that can be placed into RUNNING on an aligned rectangle, within the partition, of tiles that are free, of the active version, and
clean or last used by its session; the tiles then belong to its session. The code of a locked TASK image is read first.
Completes: READINESS_CHECK, DISPATCH. -/
def Obligations.ReadinessAndDispatch : Prop :=
  ∀ (s : State) (h part : Nat) (e : Entry),
    (entryOf s h = some e → e.state = .waiting → e.row ≠ "FENCE" → e.barriers = [] → domainRuns s 3 = true →
      (0 < e.failed → exec (.readinessCheck h) s = .next (complete (undoSession s e) h 0x0602 0 none false)) ∧
      (e.failed = 0 → e.deps = [] →
        (dfld e.desc 0 1 = 3 ∨ dfld e.desc 0 1 = 8 ∨ (dfld e.desc 0 1 = 4 ∧ pkIn e = true) ∨
            (dfld e.desc 0 1 = 9 ∧ exchangeIn e = true) →
          ∃ s', exec (.readinessCheck h) s = .next s' ∧
            entryOf s' h = some { e with state := .ready, readyAt := s.time } ∧ s'.mem = s.mem ∧ s'.tiles = s.tiles ∧ s'.hi = s.hi) ∧
        ((dfld e.desc 0 1 = 4 ∧ pkIn e = false) ∨ (dfld e.desc 0 1 = 9 ∧ exchangeIn e = false) →
          ∃ s', exec (.readinessCheck h) s = .next s' ∧ Closed s s' h 0x0401 0 ∧ s'.mem = s.mem) ∧
        (∀ t, makeReady (noteHeads s) e = some t → exec (.readinessCheck h) s = .next t) ∧
        (∀ i x s1 hs raw args, dfld e.desc 0 1 = 1 → e.image = some i → s.ts.sessions.find (e.tag % 4096) = some x → raw = argWords e.arg →
          readHeads (noteHeads s) e i.objs raw = .got s1 hs → dataIn e.regions i.objs raw hs = true →
          args = argTable { e with headers := hs } i →
          ∃ s' st, exec (.readinessCheck h) s = .next s' ∧ ReadyStatus x e.regions i raw args hs st ∧ s'.mem = s1.mem ∧
            s'.tiles = s.tiles ∧ s'.groups = s1.groups ∧ (st ≠ 0 → Closed s1 s' h st 0) ∧
            (st = 0 → ∃ f, entryOf s' h = some { e with state := .ready, readyAt := s1.time, headers := hs, image := some i, finals := f } ∧
              ∀ p ∈ f, ∃ d ∈ declsOf i.objs 3, p.1 = d.slot ∧
                FinalHeader raw d ((srcHeaders i.objs hs d.srcmask).headD []) (srcHeaders i.objs hs d.srcmask) p.2)))) ∧
    (∀ t, domainRuns s 3 = true → s.flt.mcRestarting = false → (queueFor s part).findSome? (turnOf s) = some t →
      (∀ x, t = .stale x → ∃ s', exec (.dispatch part) s = .next s' ∧ Closed s s' x.handle 0x0603 0 ∧ s'.ts.event.testBit 5 = true ∧
        s'.groups = s.groups) ∧
      (∀ x i o s1 bs, t = .go x i o → dfld x.desc 0 1 ≠ 2 → i.streaming = false →
        readAll (noteHeads s) (partOfFn s x.fn) x.handle (i.roles.map (fun r => (i.addr + r.codeOff, r.codeLen))) = .got s1 (some bs) →
        ∃ s' g, exec (.dispatch part) s = .next s' ∧ s'.groups = s1.groups ++ [g] ∧ g.handle = x.handle ∧ g.gw = i.gw ∧ g.gh = i.gh ∧
          (g.x0, g.y0) = o ∧ g.started = [] ∧ s'.tiles = s1.tiles) ∧
      (∀ x i o, t = .go x i o → dfld x.desc 0 1 = 2 ∨ i.streaming = true → ∃ s' g, exec (.dispatch part) s = .next s' ∧ s'.groups = s.groups ++ [g] ∧
        g.handle = x.handle ∧ g.gw = i.gw ∧ g.gh = i.gh ∧ (g.x0, g.y0) = o ∧ g.started = [] ∧ s'.tiles = s.tiles ∧
        (∀ k ∈ groupTiles g, (infoOf s' k).state = 1 ∧ (infoOf s' k).session = x.tag % 4096 ∧ (infoOf s' k).dirty = true) ∧
        (∀ k, k ∉ groupTiles g → infoOf s' k = infoOf s k)) ∧
      (∀ x i o, t = .go x i o → x.version = s.ts.bundle.version ∧ o ∈ origins i.gw i.gh ∧
        ∀ k ∈ rectangle o.1 o.2 i.gw i.gh, inPart s (fnRecOf s x.fn).part k = true ∧ ((infoOf s k).state = 0 ∨ (infoOf s k).state = 3) ∧
          (infoOf s k).version = s.ts.bundle.version ∧ ((infoOf s k).dirty = false ∨ (infoOf s k).session = x.tag % 4096)))

/-- A further tile of a running group starts: its core runs from CYC 0 with every register zero, its queues and semaphores empty, its
FOOTPRINT groups On and zero, and the others in the idle state of the session at dispatch. The first start of a task writes each destination
header not-VALID, intact, with the generation g that stood there, 0 for none intact, and records g; no other byte changes. A group whose tiles
are all done reads its source headers again: if one is no longer VALID with its recorded GEN the task ends with 0x0205; otherwise each
destination header is written in declaration order, with VALID, the derived fields, GEN g + 1 and its CRC, no other byte changes, and the
handle completes with 0x0000. A macro ends so only in its last planned epoch (R221). An idle tile, held out or not, enters Lull after LULL_US
(that a held-out tile does is the model's choice, log 55); a tile that passes to another session is scrubbed: scratchpad, semaphores, windows
and planes are gone; a held-out tile takes the active version, or counts a failure.
Completes: TILE_TASK_START, TASK_FINAL_HEADERS, LULL_ENTRY, TILE_SCRUB, TILE_RECONFIGURE. -/
def Obligations.TilesStartEndAndIdle : Prop :=
  ∀ (s : State) (t : Nat),
    (∀ g e i, tileGroup s t = some g → entryOf s g.handle = some e → groupOf s g.handle = some g → e.image = some i →
      t ∉ g.started → g.fault = none → s.flt.mcRestarting = false → domainRuns s 7 = true → mayWake s t = true → g.started ≠ [] →
      ∃ s', exec (.tileTaskStart t) s = .next s' ∧ (tileOf s' t).status = .running ∧ (tileOf s' t).cyc = 0 ∧
        (∀ n, regOf (tileOf s' t) n = 0) ∧ (tileOf s' t).queues = [] ∧ (tileOf s' t).sems = [] ∧ (tileOf s' t).windows = [] ∧
        (∀ k, k < 8 → (tileOf s' t).power.get k .on =
          if i.footprint.testBit k then .on else if g.idle = 1 then .penumbra else .umbra) ∧
        (∀ a, a < 0x800000 → i.footprint.testBit (a / 0x100000) = true → (tileOf s' t).spad.rd a = 0) ∧
        (∀ k, k ≠ t → tileOf s' k = tileOf s k) ∧ (groupOf s' g.handle).map (fun k => k.started) = some (g.started ++ [t]) ∧
        s'.mem = s.mem ∧ s'.ts = (setInfo s t { infoOf s t with lull := false }).ts) ∧
    (∀ g e i s1 s2, tileGroup s t = some g → entryOf s g.handle = some e → groupOf s g.handle = some g → e.image = some i →
      g.started = [] → g.fault = none → s.flt.mcRestarting = false → domainRuns s 7 = true → mayWake s t = true →
      clearDests s g e i = some (s1, true) → consumeTriples s1 g e i 0 = some (s2, 0) →
      (∃ s', exec (.tileTaskStart t) s = .next s' ∧ (tileOf s' t).status = .running ∧ (tileOf s' t).cyc = 0 ∧
        (∀ n, regOf (tileOf s' t) n = 0) ∧ (groupOf s' g.handle).map (fun k => k.started) = some [t] ∧ s'.mem = s2.mem) ∧
      (∀ s0 bs, e.prevGen = [] → readAll s g.part g.handle ((destHeads e i).map (fun p => (p.2, 256))) = .got s0 (some bs) →
        ((entryOf s1 g.handle).map (fun k => k.prevGen) =
          some (((destHeads e i).zip bs).map (fun p => (p.1.1, if intactCt p.2 || intactKy p.2 then genOf p.2 else 0)))) ∧
        ∃ l, l.map (fun p => p.1) = (destHeads e i).map (fun p => p.2) ∧ (HeaderUnits s l → HeadersWritten s s1 l) ∧
          ∀ (k : Nat) (q : (Nat × Nat) × List Byte), ((destHeads e i).zip bs)[k]? = some q → ∃ b, l[k]? = some (q.1.2, b) ∧ b.length = 256 ∧ intactCt b = true ∧
            ohValid b = false ∧ ohGen b = (if intactCt q.2 || intactKy q.2 then genOf q.2 else 0) % 2 ^ 64)) ∧
    (∀ h g e i, groupOf s h = some g → g.handle = h → entryOf s h = some e → e.image = some i → groupDone s g = true →
      lastPlanned i g = true → s.flt.mcRestarting = false → closeViols s g = none → (groupTiles g).Nodup →
      (declsOf i.objs 1 = [] → declsOf i.objs 3 = [] → ∃ s', exec (.taskFinalHeaders h) s = .next s' ∧ Ended s s' h g 0x0000) ∧
      (∀ s1 bs, readAll s g.part h ((declsOf i.objs 1).map (fun d => (slotAddr e i d.slot, 256))) = .got s1 (some bs) →
        ((∃ p ∈ (declsOf i.objs 1).zip bs, ¬(intactCt p.2 = true ∧ ohValid p.2 = true ∧ ohGen p.2 = ohGen (headerAt e.headers p.1.slot))) →
          ∃ s', exec (.taskFinalHeaders h) s = .next s' ∧ Ended s1 s' h g 0x0205) ∧
        ((∀ p ∈ (declsOf i.objs 1).zip bs, intactCt p.2 = true ∧ ohValid p.2 = true ∧ ohGen p.2 = ohGen (headerAt e.headers p.1.slot)) →
          ∀ s2, headerWrites s1 g.part h (finalHeads e i) = some s2 → ∃ s', exec (.taskFinalHeaders h) s = .next s' ∧
            Closed s2 s' h 0x0000 0 ∧ groupOf s' h = none ∧ (HeaderUnits s1 (finalHeads e i) → HeadersWritten s1 s' (finalHeads e i))))) ∧
    (∀ e i g, (finalHeads e i).map (fun p => p.1) = (declsOf i.objs 3).map (fun d => slotAddr e i d.slot) ∧
      ∀ d ∈ declsOf i.objs 3, e.prevGen.find? (fun q => q.1 == d.slot) = some (d.slot, g) → (headerAt e.finals d.slot).length = 252 →
        ∃ b, (slotAddr e i d.slot, b) ∈ finalHeads e i ∧ b.length = 256 ∧ crcOk b = true ∧ ohGen b = (g + 1) % 2 ^ 64 ∧
          ∀ k, k < 0x38 ∨ (0x40 ≤ k ∧ k < 0xFC) → b.getD k 0 = (headerAt e.finals d.slot).getD k 0) ∧
    ((infoOf s t).state = 0 ∨ (infoOf s t).state = 2 → (infoOf s t).lull = false → tileGroup s t = none → t < 64 →
      (infoOf s t).freeAt + 1000 * s.ts.bundle.lullUs ≤ s.time →
      ∃ s', exec (.lullEntry t) s = .next s' ∧
        infoOf s' t = { infoOf s t with state := if (infoOf s t).state = 0 then 3 else 2, lull := true } ∧
        (tileOf s' t).spad = spadKept (tileOf s t) (tileOf s' t).power ∧
        (∀ k, k < 8 → (tileOf s' t).power.get k .on ≠ .on) ∧ (∀ k, k ≠ t → tileOf s' k = tileOf s k) ∧ s'.mem = s.mem) ∧
    (tileGroup s t = none → (infoOf s t).dirty = true → (infoOf s t).state ≠ 1 →
      (infoOf s t).state = 4 ∨ 4096 ≤ (infoOf s t).session ∨ wantedByOther s t = true → mayWake s t = true →
      ∃ s', exec (.tileScrub t) s = .next s' ∧ (infoOf s' t).dirty = false ∧ (tileOf s' t).spad = [] ∧ (tileOf s' t).sems = [] ∧
        (tileOf s' t).windows = [] ∧ (tileOf s' t).planes = [] ∧ (tileOf s' t).code = [] ∧ (tileOf s' t).args = [] ∧
        (∀ k, k ≠ t → tileOf s' k = tileOf s k) ∧ s'.mem = s.mem) ∧
    ((infoOf s t).state = 2 → (infoOf s t).fails < 2 → tileGroup s t = none →
      domainRuns s 3 = true →
      (∃ s', exec (.tileReconfigure t true) s = .next s' ∧ (infoOf s' t).state = (if (infoOf s t).lull then 3 else 0) ∧ (infoOf s' t).fails = 0 ∧
        (infoOf s' t).version = s.ts.bundle.version ∧ s'.tiles = s.tiles ∧ s'.mem = s.mem) ∧
      exec (.tileReconfigure t false) s = .next (setInfo s t { infoOf s t with fails := (infoOf s t).fails + 1 }))


/-- For the first READY SESSION operation of the order, e: stale work ends with CONFIG_STALE. OPEN takes the lowest free number and the next
generation, with INFO the tag, or ends with QUOTA, or with PERMISSION while the device is unlocked for diagnosis. CLOSE removes the session, its slots and its cache lines; every byte of its device
regions then reads zero and no other byte changes. LOAD_PSET of a shipped set adds it once, of a set from memory adds it when its descriptor
passes R37 and ends with 0x0204 when not, with 0x0406 when its host read fails; UNLOAD_PSET removes the set or ends with 0x0204;
ADD_REGION adds the region when R315 admits it, marked as removed while a REMOVE_REGION of it has been accepted, else ends with R315's status and changes no session; REMOVE_REGION removes it, its device
bytes then reading zero; POLICY sets the idle state. Each completes the handle. Completes: SESSION_OP_RUN. -/
def Obligations.SessionOperations : Prop :=
  ∀ (s : State) (h n : Nat) (data : HostData) (e : Entry) (rest : List Entry),
    readyOrder s (fun k => isSession k && k.before.isEmpty) = e :: rest → e.handle = h → n = e.tag % 4096 →
    domainRuns s 4 = true → s.flt.mcRestarting = false →
    (e.version ≠ s.ts.bundle.version → ∃ s', exec (.sessionOpRun h data) s = .next s' ∧ Closed s s' h 0x0603 0 ∧
      s'.ts.event.testBit 5 = true ∧ s'.mem = s.mem) ∧
    (e.version = s.ts.bundle.version →
      (e.row = "OPEN" → diagOpen s = true → exec (.sessionOpRun h data) s = .next (complete s h 0x0103 0 none false)) ∧
      (e.row = "OPEN" → diagOpen s = false → ∀ p, p = (fnRecOf s e.fn).part →
        ((openIn_ s p < (partOf s p).sessions → (∃ k, 1 ≤ k ∧ k ≤ 4095 ∧ s.ts.sessions.find k = none) →
          ∃ s2 k x, exec (.sessionOpRun h data) s = .next (complete s2 h 0 (x.gen * 4096 + k) none false) ∧ 1 ≤ k ∧ k ≤ 4095 ∧
            s.ts.sessions.find k = none ∧ (∀ j, 1 ≤ j → j < k → s.ts.sessions.find j ≠ none) ∧ s2.ts.sessions = s.ts.sessions.put k x ∧
            x.gen = (s.ts.gens.get k 0 + 1) % 2 ^ 20 ∧ s2.ts.gens.get k 0 = x.gen ∧ x.fn = e.fn ∧ x.part = p ∧ x.closing = false ∧
            x.regions = [] ∧ x.psets = [] ∧
            x.qEntries = (if ssQEntries e.desc = 0 then (partOf s p).defEntries else Nat.min (ssQEntries e.desc) (partOf s p).entries) ∧
            x.qBytes = (if ssQBytes e.desc = 0 then (partOf s p).defBytes else Nat.min (ssQBytes e.desc) (partOf s p).memLen)) ∧
        ((partOf s p).sessions ≤ openIn_ s p → exec (.sessionOpRun h data) s = .next (complete s h 0x0104 0 none false)))) ∧
      (∀ x, s.ts.sessions.find n = some x →
        (e.row = "CLOSE" → ∃ s2, exec (.sessionOpRun h data) s = .next (complete s2 h 0 0 none false) ∧
          s2.ts.sessions.find n = none ∧ (∀ m, m ≠ n → s2.ts.sessions.find m = s.ts.sessions.find m) ∧ s2.pke.slots.find n = none ∧
          (∀ l ∈ s2.mem.lines, l.session ≠ n) ∧
          (∀ a, (∃ r ∈ x.regions, r.host = false ∧ r.base ≤ a ∧ a < r.base + r.len) → memByte s2.mem a = 0) ∧
          (∀ a, (∀ r ∈ x.regions, r.host = false → ¬(r.base ≤ a ∧ a < r.base + r.len)) → memByte s2.mem a = memByte s.mem a)) ∧
        (∀ p, e.row = "LOAD_PSET" → 0xFFFF0000 ≤ ssPset e.desc → profile (ssPset e.desc) = some p →
          (psetOf x (ssPset e.desc) = none → x.psets.length < 16 → exec (.sessionOpRun h data) s =
            .next (complete (setSession s n { x with psets := x.psets ++ [p] }) h 0 0 none false)) ∧
          (psetOf x (ssPset e.desc) ≠ none → exec (.sessionOpRun h data) s = .next (complete s h 0x0204 0 none false)) ∧
          (psetOf x (ssPset e.desc) = none → 16 ≤ x.psets.length →
            exec (.sessionOpRun h data) s = .next (complete s h 0x0104 0 none false))) ∧
        (∀ b k s1, e.row = "LOAD_PSET" → ssPset e.desc ≠ 0 → ssPset e.desc < 0xFFFF0000 → psetOf x (ssPset e.desc) = none →
          x.psets.length < 16 → k = (ssLength e.desc - 64) / 32 →
          (if loadFromDevice e.desc = true
            then readAll s (fnRecOf s e.fn).part h [(ssBase e.desc, ssLength e.desc)] = .got s1 (some [b])
            else data = some b ∧ linkOpen s e.fn = true ∧ s1 = s) →
          ((parsePset b k).id = ssPset e.desc → (parsePset b k).l + (parsePset b k).k = k → psetOk b k = true →
            exec (.sessionOpRun h data) s =
              .next (complete (setSession s1 n { x with psets := x.psets ++ [parsePset b k] }) h 0 0 none false)) ∧
          ((parsePset b k).id ≠ ssPset e.desc ∨ (parsePset b k).l + (parsePset b k).k ≠ k ∨ psetOk b k = false →
            exec (.sessionOpRun h data) s = .next (complete s1 h 0x0204 0 none false))) ∧
        (e.row = "LOAD_PSET" → ssPset e.desc ≠ 0 → ssPset e.desc < 0xFFFF0000 → psetOf x (ssPset e.desc) = none →
          x.psets.length < 16 → loadFromDevice e.desc = false → data = none ∨ linkOpen s e.fn = false →
          exec (.sessionOpRun h data) s = .next (complete s h 0x0406 0 none false)) ∧
        (e.row = "UNLOAD_PSET" →
          (psetOf x (ssPset e.desc) = none → exec (.sessionOpRun h data) s = .next (complete s h 0x0204 0 none false)) ∧
          (psetOf x (ssPset e.desc) ≠ none → ∃ y, exec (.sessionOpRun h data) s = .next (complete (setSession s n y) h 0 0 none false) ∧
            psetOf y (ssPset e.desc) = none ∧ y.regions = x.regions)) ∧
        (e.row = "ADD_REGION" → ∀ st r, r = newRegion e.desc →
          st = (if ∃ q ∈ x.regions, q.id = r.id then 0x0401
            else if 64 ≤ x.regions.length then 0x0104
            else if r.host = true then (if r.pasid.testBit 31 = true ∧ (cfgOf s e.fn).pasid = false then 0x0401 else 0)
            else if ¬((partOf s x.part).memBase ≤ r.base ∧ r.base + r.len ≤ (partOf s x.part).memBase + (partOf s x.part).memLen) then 0x0401
            else if foreignOverlap s n r.base r.len = true then 0x0103
            else if r.len + deviceBytes x ≤ x.qBytes then 0 else 0x0104) →
          (st = 0 → exec (.sessionOpRun h data) s =
            .next (complete (setSession s n { x with
              regions := x.regions ++ [{ r with removed := removePending s e.tag (ssRegion e.desc) h }] }) h 0 0 none false)) ∧
          (st ≠ 0 → exec (.sessionOpRun h data) s = .next (complete s h st 0 none false))) ∧
        (e.row = "REMOVE_REGION" →
          (∀ r, x.regions.find? (fun q => q.id == ssRegion e.desc) = some r → ∃ s2,
            exec (.sessionOpRun h data) s = .next (complete s2 h 0 0 none false) ∧
            s2.ts.sessions = s.ts.sessions.put n { x with regions := x.regions.filter (fun q => !(q.id == r.id)) } ∧
            (∀ a, memByte s2.mem a = if r.host = false ∧ r.base ≤ a ∧ a < r.base + r.len then 0 else memByte s.mem a)) ∧
          (x.regions.find? (fun q => q.id == ssRegion e.desc) = none →
            exec (.sessionOpRun h data) s = .next (complete s h 0x0401 0 none false))) ∧
        (e.row = "POLICY" → exec (.sessionOpRun h data) s =
          .next (complete (setSession s n { x with idle := if ssIdle e.desc = 0 then (partOf s x.part).idle else ssIdle e.desc })
            h 0 0 none false))))

/-- The first READY transfer starts while fewer than 8 run: it is RUNNING on the engine, or ends stale. A MOVE from the host writes element n
of the bytes read into element n of its destination walk and no other byte of device memory; a MOVE to the host writes, in its walk order,
the elements that device memory holds; an EXPORT writes the exchange header and the object's data; an IMPORT whose checks fail writes
nothing, and one whose checks pass writes its payload at DATA and a VALID share header, with the GEN that stood there plus 1, at OBJ, and no
other byte. A link error ends a transfer with 0x0406, a page that stays missing where ATS is enabled with 0x0405; that an IMPORT so ended has
changed no device memory is the model's reading (log 34). Every end takes the transfer off the engine and completes its handle. Completes: TRANSFER_START, TRANSFER_COMPLETE. -/
def Obligations.Transfers : Prop :=
  ∀ (s : State) (h : Nat) (e : Entry),
    (∀ rest, readyOrder s isTransfer = e :: rest → s.hi.xfers.length < 8 → domainRuns s 1 = true →
      (e.version ≠ s.ts.bundle.version → ∃ s', exec .transferStart s = .next s' ∧ Closed s s' e.handle 0x0603 0 ∧
        s'.ts.event.testBit 5 = true ∧ s'.hi.xfers = s.hi.xfers ∧ s'.mem = s.mem) ∧
      (e.version = s.ts.bundle.version → e.row ≠ "MOVE" ∨ moveHeader s e = none ∨ urgentWaits s (fnRecOf s e.fn).part = false →
        ∃ s', exec .transferStart s = .next s' ∧ s'.hi.xfers = s.hi.xfers ++ [e.handle] ∧
        entryOf s' e.handle = some { e with state := .running } ∧ s'.tiles = s.tiles ∧
        (e.row ≠ "MOVE" ∨ moveHeader s e = none → s'.mem = s.mem) ∧
        (∀ p, e.row = "MOVE" → moveHeader s e = some p → s.mem.bytes.wf = true → ∃ b, HeadersWritten s s' [(p.1, b)] ∧ crcOk b = true ∧
          ohValid b = false ∧ ∀ k, k < 0xFC → k ≠ 6 → b.getD k 0 = p.2.getD k 0))) ∧
    (entryOf s h = some e → h ∈ s.hi.xfers → domainRuns s 1 = true →
      (∃ s', exec (.transferComplete h .linkError 0) s = .next s' ∧ Closed s s' h 0x0406 0 ∧ h ∉ s'.hi.xfers ∧
          (e.row = "IMPORT" → s'.mem = s.mem ∧ s' = endTransfer s h 0x0406)) ∧
      (∀ p, linkOpen s e.fn = true → missingPage s e = some p → (cfgOf s e.fn).pri = false ∨ priRoom s e.fn = true →
        ∃ s', exec (.transferComplete h .pageFault 0) s = .next s' ∧ Closed s s' h 0x0405 0 ∧ h ∉ s'.hi.xfers ∧
          (e.row = "IMPORT" → s'.mem = s.mem ∧ s' = endTransfer (askPage s e p) h 0x0405)) ∧
      (∀ l dst w, s.mem.bytes.wf = true → linkOpen s e.fn = true → e.row = "MOVE" → tdHost (moveSrc e.arg) = true → moveWaits s e = false →
        dst = (moveAddrs e).2 → w = tdE (moveDst e.arg) → 0 < w → l.length = w * dst.length →
        (∀ a ∈ dst, a % 4096 + w ≤ 4096) → dst.Pairwise (fun a b => a + w ≤ b ∨ b + w ≤ a) →
        ∃ s2, exec (.transferComplete h (.bytes l) 0) s = .next (endTransfer s2 h 0) ∧
          (∀ i j, i < dst.length → j < w → memByte s2.mem (dst.getD i 0 + j) = l.getD (w * i + j) 0) ∧
          (∀ a, (∀ b ∈ dst, ¬(b ≤ a ∧ a < b + w)) → memByte s2.mem a = memByte s.mem a)) ∧
      (∀ l, linkOpen s e.fn = true → e.row = "MOVE" → tdHost (moveSrc e.arg) = false → moveWaits s e = false →
        (devGather (translateAll s e []) (fnRecOf s e.fn).part (e.tag % 4096) (tdHint (moveSrc e.arg)) h (moveAddrs e).1).2 = true →
        ∃ s2, exec (.transferComplete h (.bytes l) 0) s = .next (endTransfer (hostPut s2 (sideOf e.regions (tdRegion (moveDst e.arg))).key
            (((moveAddrs e).2.zip (moveAddrs e).1).map (fun p => (p.1, memBytes s.mem p.2 (tdE (moveSrc e.arg)))))) h 0) ∧
          s2.mem.bytes = s.mem.bytes ∧ s2.tiles = s.tiles) ∧
      (∀ l s1 hd s2 pay, linkOpen s e.fn = true → e.row = "EXPORT" →
        readAll (translateAll s e []) (fnRecOf s e.fn).part h [(xgObj e.desc, 256)] = .got s1 (some [hd]) → exportOk e.desc hd = true →
        128 + ohLength hd ≤ xgLen e.desc → inRegion e.regions (ohData hd) (ohLength hd) = true → gatherWaits s1 (exportAddrs hd) = false →
        devGather s1 (fnRecOf s e.fn).part (e.tag % 4096) 0 h (exportAddrs hd) = (s2, true) →
        pay = (List.range (ohLength hd)).map (fun k => memByte s.mem (ohData hd + k)) →
        exec (.transferComplete h (.bytes l) 0) s =
          .next (endTransfer (hostPut s2 (buffer_ e).1 [((buffer_ e).2, exchangeHeader e.desc hd pay ++ pay)]) h 0)) ∧
      (∀ l, linkOpen s e.fn = true → e.row = "IMPORT" → importCheck e.desc l ≠ 0 →
        exec (.transferComplete h (.bytes l) 0) s = .next (endTransfer (translateAll s e []) h (importCheck e.desc l))) ∧
      (∀ l n s1 s2 hd b, linkOpen s e.fn = true → e.row = "IMPORT" → importCheck e.desc l = 0 → n = le l 0x20 8 → 128 + n ≤ l.length →
        inRegion e.regions (xgData e.desc) n = true → inRegion e.regions (xgObj e.desc) 256 = true →
        overlaps (xgData e.desc) n (xgObj e.desc) 256 = false → xgData e.desc % 256 = 0 → xgObj e.desc % 256 = 0 → s.mem.bytes.wf = true →
        readAll (translateAll s e []) (fnRecOf s e.fn).part h [(xgObj e.desc, 256)] = .got s1 (some [hd]) →
        b = importHeader e.desc l ((if intactCt hd then ohGen hd else if intactKy hd then khGen hd else 0) + 1) →
        headerWrites (devScatter s1 (fnRecOf s e.fn).part (e.tag % 4096) 0 h
          ((List.range (n / 256)).map (fun i => (xgData e.desc + 256 * i, sub l (128 + 256 * i) 256)))) (fnRecOf s e.fn).part h
          [(xgObj e.desc, b)] = some s2 →
        exec (.transferComplete h (.bytes l) 0) s = .next (endTransfer s2 h 0) ∧ intactCt b = true ∧ ohValid b = true ∧ ohScheme b = 6 ∧
          ohGen b = ((if intactCt hd then ohGen hd else if intactKy hd then khGen hd else 0) + 1) % 2 ^ 64 ∧ ohData b = xgData e.desc ∧
          ohLength b = n ∧ ohKeyid b = le l 0x10 8 ∧ (∀ k, k < 256 → memByte s2.mem (xgObj e.desc + k) = b.getD k 0) ∧
          (∀ k, k < n → memByte s2.mem (xgData e.desc + k) = l.getD (128 + k) 0) ∧
          ∀ a, ¬(xgObj e.desc ≤ a ∧ a < xgObj e.desc + 256) → ¬(xgData e.desc ≤ a ∧ a < xgData e.desc + n) →
            memByte s2.mem a = memByte s.mem a))

/-- The free engine takes the first waiting short operation, else the first long one: stale work ends; after 4 failed checks the management
core restarts and the entry stays held; a short operation runs to its release, a long one stands on the engine with its engine time; a short
hash releases the digest of the bytes at DATA. A release completes the handle with the operation's status, INFO the length of its output, and
writes nothing elsewhere but its output, at OUT in host or device memory, and its slot; where the function may not send, an output for the host
ends with 0x0406 instead. SLOT_CLEAR empties its slot, and an operation that reads a private key from an empty slot fails with 0x0501. A long operation that
reaches its engine time at a yield point is released; otherwise, with no short operation waiting, it has run 50 µs more. Completes: PKE_OP_START, PKE_YIELD_POINT. -/
def Obligations.PublicKeyEngine : Prop :=
  ∀ (s : State) (e : Entry) (data : HostData),
    (∀ rest fails, pkWaiting s = e :: rest → s.pke.long = none → domainRuns s 1 = true → s.flt.mcRestarting = false →
      ((∃ k ∈ s.ts.entries, k.state = .ready ∧ isPk k = true ∧ pkLong k.desc = false) → pkLong e.desc = false) ∧
      (e.version ≠ s.ts.bundle.version → ∃ s', exec (.pkeOpStart data fails) s = .next s' ∧ Closed s s' e.handle 0x0603 0 ∧
        s'.ts.event.testBit 5 = true) ∧
      (e.version = s.ts.bundle.version → 4 ≤ fails → ∃ s', exec (.pkeOpStart data fails) s = .next s' ∧
        s'.flt.mcRestarting = true ∧ entryOf s' e.handle ≠ none ∧ s'.mem = s.mem) ∧
      (e.version = s.ts.bundle.version → popHash (pkPop e.desc) = false →
        (pkLong e.desc = false → (pkOut e.desc).testBit 63 = true ∨ urgentWaits s (fnRecOf s e.fn).part = false → ∃ s2 o, exec (.pkeOpStart data 0) s = .next (pkRelease s2 e o) ∧ s2.mem = s.mem ∧ s2.ts = s.ts ∧
          s2.pke.slots = s.pke.slots ∧ s2.pke.long = none ∧ s2.tiles = s.tiles ∧
          (e.row = "SLOT_CLEAR" → pkPop e.desc = 0x51 → o.st = 0 ∧ o.out = [] ∧ o.slot = none) ∧
          (pkPop e.desc = 0x31 → pkSlotKey e.desc = true → (s.pke.slots.get (e.tag % 4096) []).find (pkSlot e.desc) = none →
            o.st = 0x0501 ∧ o.out = [])) ∧
        (pkLong e.desc = true → ∃ s' r, exec (.pkeOpStart data 0) s = .next s' ∧ s'.pke.long = some r ∧ r.handle = e.handle ∧
          r.done = 0 ∧ r.total = pkTime e.desc ∧ entryOf s' e.handle ≠ none ∧ s'.mem = s.mem ∧ s'.out = s.out)) ∧
      (∀ m s1, e.version = s.ts.bundle.version → popHash (pkPop e.desc) = true → pkLong e.desc = false →
        (if pkLen e.desc = 0 then m = [] ∧ s1 = s
          else if (pkData e.desc).testBit 63 = true then data = some m ∧ linkOpen s e.fn = true ∧ s1 = s
          else readAll s (fnRecOf s e.fn).part e.handle [(pkData e.desc, pkLen e.desc)] = .got s1 (some [m])) →
        (pkOut e.desc).testBit 63 = true ∨ urgentWaits s1 (fnRecOf s e.fn).part = false →
        ∃ s2 o, exec (.pkeOpStart data 0) s = .next (pkRelease s2 e o) ∧ s2.mem = s1.mem ∧ s2.pke.slots = s.pke.slots ∧ o.st = 0 ∧
          o.slot = none ∧ (pkPop e.desc = 1 → o.out = sha256 m) ∧ (pkPop e.desc = 2 → o.out = sha384 m) ∧
          (pkPop e.desc = 3 → o.out = sha512 m) ∧ (pkPop e.desc = 4 → o.out = shake128 (pkOutLen e.desc) m) ∧
          (pkPop e.desc = 5 → o.out = shake256 (pkOutLen e.desc) m))) ∧
    (∀ o, o.out ≠ [] → (pkOut e.desc).testBit 63 = true → linkOpen s e.fn = false →
      ∃ s2, pkRelease s e o = complete s2 e.handle 0x0406 0 none false ∧ s2.out = s.out ∧ s2.mem = s.mem) ∧
    (∀ o r, o.out ≠ [] → o.st = 0 → (pkOut e.desc).testBit 63 = true → linkOpen s e.fn = true →
      pkHostRegion e.regions (pkOut e.desc) o.out.length = some r →
      ∃ s2, pkRelease s e o = complete s2 e.handle 0 o.out.length none false ∧ s2.mem = s.mem ∧ s2.ts = s.ts ∧
        s2.out.host = s.out.host.wrN (hostKey r.pasid 0 + pkOut e.desc % 2 ^ 63) o.out) ∧
    (∀ o, o.out ≠ [] → o.st = 0 → (pkOut e.desc).testBit 63 = false → s.mem.bytes.wf = true →
      ∃ s2, pkRelease s e o = complete s2 e.handle 0 o.out.length none false ∧
        (∀ k, k < o.out.length → memByte s2.mem (pkOut e.desc + k) = o.out.getD k 0) ∧
        (∀ a, ¬(pkOut e.desc ≤ a ∧ a < pkOut e.desc + o.out.length) → memByte s2.mem a = memByte s.mem a)) ∧
    (∀ o, entryOf s e.handle = some e → o.out = [] → ∃ s2, pkRelease s e o = complete s2 e.handle o.st 0 none false ∧
      s2.mem = s.mem ∧ s2.out = s.out ∧ s2.ts = s.ts ∧ s2.pke.ops = (s.pke.ops + 1) % 2 ^ 64 ∧
      (∀ k, o.slot = some k → (s2.pke.slots.get (e.tag % 4096) []).find (pkSlot e.desc) = some k) ∧
      (o.slot = none → e.row = "SLOT_CLEAR" → (s2.pke.slots.get (e.tag % 4096) []).find (pkSlot e.desc) = none) ∧
      (o.slot = none → e.row ≠ "SLOT_CLEAR" → ∀ m, s2.pke.slots.get m [] = s.pke.slots.get m [])) ∧
    (∀ r ops, s.pke.long = some r → domainRuns s 1 = true → s.flt.mcRestarting = false →
      (r.total ≤ r.done + 50000 → entryOf s r.handle = some e →
        r.output = [] ∨ (pkOut e.desc).testBit 63 = true ∨ urgentWaits s (fnRecOf s e.fn).part = false → exec (.pkeYieldPoint ops) s =
        .next (pkRelease { s with pke := { s.pke with long := none } } e { st := r.status, out := r.output, slot := r.slot })) ∧
      (r.done + 50000 < r.total → (∀ k ∈ s.ts.entries, k.state = .ready → isPk k = true → pkLong k.desc = true) →
        exec (.pkeYieldPoint ops) s = .next { s with pke := { s.pke with long := some { r with done := r.done + 50000 } } }))


/-- A request leaves its port, and its partition is charged, when the partition's level is not negative. A served read of a WRITTEN stripe's
unit that can be read or reconstructed holds the unit's bytes, of an UNWRITTEN one that no line holds zeros, and changes no byte of memory; a
unit whose CRC differs from the table's, or whose burst fails every retry, is reconstructed and rewritten, with CRC_REPAIRED; a read of a lost
unit ends its task with 0x07F1, with bit 4 of FLT_EVENT. What a direct read, which another row carries out, will meet at a unit comes with this
row too and changes no byte (the model's choice, log 28). A served write has put exactly its enabled bytes, every other byte reading as before, and an UNWRITTEN stripe
becomes WRITTEN. A KEEP line untouched for 100 ms becomes a DEFAULT line. A request beyond the user capacity faults. Completes:
BUCKET_RELEASE, MEM_READ, MEM_WRITE, KEEP_EXPIRY. -/
def Obligations.DeviceMemoryRequests : Prop :=
  ∀ (s : State) (req st u : Nat) (r : MemReq) (met : ReadMet),
    (r.phase = .port → s.mem.reqs.find? (fun m => m.id == req && m.phase == .port) = some r → firstAtPort s r = true →
      0 ≤ partLevel s r.part →
      exec (.bucketRelease r.part req) s = .next (setReq (charge s r.part (reqCharge r)) { r with phase := .fabric }) ∧
      partLevel (charge s r.part (reqCharge r)) r.part = partLevel s r.part - 100 * (reqCharge r : Int)) ∧
    (s.mem.reqs.find? (fun m => m.id == req && m.phase == .fabric && !(m.write)) = some r → st = r.addr / 4096 →
      u = r.addr / 256 % 16 →
      (∀ v c, met ≠ .direct v c) →
      (capacity ≤ r.addr → exec (.memRead ⟨req, met⟩) s = .fault (.noSuchAddress (r.addr / 256))) ∧
      (r.addr < capacity → s.mem.trained = true → unitRead s st u ≠ .waits →
        (stripeOf s st = .written → unitRead s st u ≠ .lost → (met = .clean ∨ ∃ c, met = .line c) →
          ∃ s', exec (.memRead ⟨req, met⟩) s = .next s' ∧
            (∀ m ∈ s'.mem.reqs, m.id = r.id → m.phase = .served ∧ m.data = unitBytes s st u) ∧ s'.mem.bytes = s.mem.bytes ∧
            s'.mem.stripes = s.mem.stripes ∧ s'.tiles = s.tiles ∧ s'.groups = s.groups ∧ s'.ts = s.ts) ∧
        (stripeOf s st = .written → lineOf s (17 * st + u) = none → servedDirect s st u = true → unitGood s st u = true →
          (∀ v ∈ otherUnits u, unitGood s st v = true ∧ unitPaused s st v = false) →
          (met = .burst ∨ ∃ c, met = .unit c ∧ c ≠ crcEntry s st u) → ∃ s', exec (.memRead ⟨req, met⟩) s = .next s' ∧
            (∀ m ∈ s'.mem.reqs, m.id = r.id → m.phase = .served ∧ m.data = unitBytes s st u) ∧ s'.mem.bytes = s.mem.bytes ∧
            s'.mem.event.testBit 0 = true ∧ unitBad s' st u = false ∧ s'.flt.logCount = s.flt.logCount + 1 ∧
            lineOf s' (17 * st + u) = none) ∧
        (stripeOf s st = .unwritten → lineOf s (17 * st + u) = none → ∃ s', exec (.memRead ⟨req, met⟩) s = .next s' ∧
          (∀ m ∈ s'.mem.reqs, m.id = r.id → m.phase = .served ∧ m.data = List.replicate 256 0) ∧ s'.mem.bytes = s.mem.bytes) ∧
        (∀ g, unitRead s st u = .lost → tileGroup s r.tile = some g → groupOf s g.handle = some g →
          (∃ e, entryOf s g.handle = some e) → ∃ s', exec (.memRead ⟨req, met⟩) s = .next s' ∧ Closed s s' g.handle 0x07F1 0 ∧
            (∀ e, entryOf s g.handle = some e → e.state ≠ .completing → s.flt.unrecoverable = false → s'.flt.event.testBit 4 = true) ∧
            groupOf s' g.handle = none ∧ s'.mem.bytes = s.mem.bytes ∧ stripeOf s' st = .poisoned))) ∧
    (s.mem.trained = true → exec (.memRead ⟨req, .direct (17 * st + u) (some (crcEntry s st u))⟩) s = .next s ∨ 17 ≤ u) ∧
    (∀ c, s.mem.trained = true → u < 17 → c ≠ some (crcEntry s st u) → servedDirect s st u = true →
      ∃ s', exec (.memRead ⟨req, .direct (17 * st + u) c⟩) s = .next s' ∧ unitBad s' st u = true ∧ s'.mem.bytes = s.mem.bytes ∧
        (∀ k v, (k, v) ≠ (st, u) → unitBad s' k v = unitBad s k v)) ∧
    (s.mem.reqs.find? (fun m => m.id == req && m.phase == .fabric && m.write) = some r → st = r.addr / 4096 →
      (capacity ≤ r.addr → exec (.memWrite req) s = .fault (.noSuchAddress (r.addr / 256))) ∧
      (r.addr < capacity → s.mem.trained = true → r.data.length = 4096 → r.enable.length = 4096 → s.mem.bytes.wf = true → ∃ s', exec (.memWrite req) s = .next s' ∧
        (∀ m ∈ s'.mem.reqs, m.id = r.id → m.phase = .served) ∧
        (∀ a, memByte s'.mem a = if 4096 * st ≤ a ∧ a < 4096 * st + 4096 ∧ r.enable.getD (a - 4096 * st) false = true
          then r.data.getD (a - 4096 * st) 0 else memByte s.mem a) ∧
        (stripeOf s st = .unwritten → (∃ i, i < 4096 ∧ r.enable.getD i false = true) → stripeOf s' st = .written) ∧
        (∀ k, k ≠ st → stripeOf s' k = stripeOf s k) ∧ s'.groups = s.groups ∧ s'.ts = s.ts)) ∧
    (∀ unit l, lineOf s unit = some l → l.keep = true → l.used + 100000000 ≤ s.time → ∃ s', exec (.keepExpiry unit) s = .next s' ∧
      lineOf s' unit = some { l with keep := false } ∧ (∀ k, k ≠ unit → lineOf s' k = lineOf s k) ∧ s'.mem.bytes = s.mem.bytes)

/-- In every memory in canonical form, a byte written is read back, every other byte is as before, and writing keeps the canonical form; two memories in
canonical form that read the same everywhere are equal. The 17 units of a stripe group lie on 17 different stacks, and two different units
of the device that lie on one stack have different local indices. -/
def Obligations.MemoryReadsBack : Prop :=
  (∀ (m : Mem) (a b : Nat) (v : Byte), m.wf = true → (m.wr a v).rd b = if b = a then v else m.rd b) ∧
    (∀ (m : Mem) (a : Nat) (v : Byte), m.wf = true → (m.wr a v).wf = true) ∧
    (∀ m k : Mem, m.wf = true → k.wf = true → (∀ a, m.rd a = k.rd a) → m = k) ∧
    (∀ st u v, u < 17 → v < 17 → u ≠ v → unitStack st u ≠ unitStack st v) ∧
    (∀ st st' u u', u < 17 → u' < 17 → unitStack st u = unitStack st' u' →
      localIndex st (unitStack st u) = localIndex st' (unitStack st' u') → st = st' ∧ u = u')

/-- A failing lane takes a free spare and puts its channel into repair, or, with none, the channel is lost; a finished repair returns it to
service with its event, the spare calibrated at that time. Calibration rotates the lanes of a kind with a free spare, or pauses the channel and counts the pause; the end of
the pause drains its write buffer. A lost channel, or stack, is lost with its event, and the rebuild begins unless the reserve is used up;
the rebuild goes on while an empty queue lets time pass (DESIGN CHOICE, log 28), its progress and the reserve in use never falling, and ends with its event, an
UNWRITTEN stripe staying so. A cooled stack returns to service and,
resynchronised, is in normal use; a stale unit of a POISONED stripe stays so. A patrol scrub repairs what it can. None of them changes a byte of device memory. Completes: LANE_REPAIR,
LANE_REPAIR_DONE, CAL_INTERVAL, CAL_PAUSE, CAL_PAUSE_END, CHANNEL_LOST, STACK_LOST, REBUILD_DONE, RESYNC, RESYNC_DONE, PATROL_SCRUB. -/
def Obligations.StacksAndChannels : Prop :=
  ∀ (s : State) (ch stk : Nat),
    (channelLives s ch = true → (channelOf s ch).state = .inService →
      (∀ ca lane, lane ∈ liveLanes (channelOf s ch) ca → 0 < (if ca then (channelOf s ch).caFree else (channelOf s ch).dqFree) →
        ∃ s' spare, exec (.laneRepair ch ca lane) s = .next s' ∧
          spare ∈ (if ca then (channelOf s ch).caSpares else (channelOf s ch).dqSpares) ∧ channelOf s' ch = { channelOf s ch with
          state := .repair, mend := some (ca, lane, spare), buffered := [],
          caSpares := if ca then (channelOf s ch).caSpares.tail else (channelOf s ch).caSpares,
          dqSpares := if ca then (channelOf s ch).dqSpares else (channelOf s ch).dqSpares.tail } ∧
          s'.flt.logCount = s.flt.logCount + 1 ∧
          s'.mem.bytes = s.mem.bytes ∧ s'.ts = s.ts) ∧
      (∀ ca lane, lane ∈ liveLanes (channelOf s ch) ca → (if ca then (channelOf s ch).caFree else (channelOf s ch).dqFree) = 0 →
        ∃ s', exec (.laneRepair ch ca lane) s = .next s' ∧ (channelOf s' ch).state = .lost ∧ s'.mem.bytes = s.mem.bytes) ∧
      (∀ ca, calDue s (channelOf s ch) ca = true → 0 < (if ca then (channelOf s ch).caFree else (channelOf s ch).dqFree) →
        (if ca then (channelOf s ch).caSpares else (channelOf s ch).dqSpares).Nodup →
        ∃ y, exec (.calInterval ch ca) s = .next (setChannel s ch y) ∧ y.state = .inService ∧
          y.caFree = (channelOf s ch).caFree ∧ y.dqFree = (channelOf s ch).dqFree ∧
          ∀ l k, calLane (channelOf s ch) ca = some l → oldestLane (channelOf s ch) ca = some k →
            l < (if ca then (channelOf s ch).caCal else (channelOf s ch).dqCal).length → calAt y ca l = s.time ∧
              k ∈ (if ca then y.caSpares else y.dqSpares) ∧ l ∉ (if ca then y.caSpares else y.dqSpares)) ∧
      ((((channelOf s ch).dqFree = 0 ∧ calDue s (channelOf s ch) false = true) ∨
          ((channelOf s ch).caFree = 0 ∧ calDue s (channelOf s ch) true = true)) →
        ∃ y, exec (.calPause ch) s = .next (setChannel s ch y) ∧ y.state = .pause ∧
          y.pauses = satInc (channelOf s ch).pauses 8191)) ∧
    ((channelOf s ch).state = .pause → exec (.calPauseEnd ch) s =
      .next (setChannel s ch { channelOf s ch with state := .inService, buffered := [] })) ∧
    (∀ ca lane spare, (channelOf s ch).mend = some (ca, lane, spare) → channelLives s ch = true → (channelOf s ch).state = .repair → ∃ s', exec (.laneRepairDone ch) s = .next s' ∧
      (channelOf s' ch).state = .inService ∧ (channelOf s' ch).mend = none ∧ s'.mem.event.testBit 1 = true ∧
      (spare < (if ca then (channelOf s ch).caCal else (channelOf s ch).dqCal).length → calAt (channelOf s' ch) ca spare = s.time) ∧
      s'.mem.bytes = s.mem.bytes) ∧
    (channelLives s ch = true → ∃ s', exec (.channelLost ch) s = .next s' ∧ (channelOf s' ch).state = .lost ∧
      s'.mem.event.testBit 2 = true ∧ (s.mem.noReserve = false → s'.mem.rebuilding = true) ∧ s'.mem.bytes = s.mem.bytes) ∧
    (s.mem.trained = true → (stackOf s stk).state ≠ 2 → ∃ s', exec (.stackLost stk) s = .next s' ∧ (stackOf s' stk).state = 2 ∧
      s'.mem.event.testBit 3 = true ∧ (s.mem.noReserve = false → s'.mem.rebuilding = true) ∧ s'.mem.bytes = s.mem.bytes) ∧
    (s.mem.rebuilding = true → allLost s ≠ [] → (∀ p ∈ unitsOn s (allLost s), unitRead s p.1 p.2 ≠ .waits) → ∃ s', exec .rebuildDone s = .next s' ∧ s'.mem.rebuilding = false ∧
      s'.mem.rebuilt = 1000 ∧ s'.mem.event.testBit 4 = true ∧ s'.mem.bytes = s.mem.bytes ∧
      (∀ st, stripeOf s st = .unwritten → stripeOf s' st = .unwritten)) ∧
    (s.pending = [] → s.mem.rebuilt ≤ 999 → ∃ s', step s = .next s' ∧ s'.mem.rebuilding = s.mem.rebuilding ∧
      s.mem.rebuilt ≤ s'.mem.rebuilt ∧ s'.mem.rebuilt ≤ 999 ∧ s'.mem.bytes = s.mem.bytes ∧
      (s.mem.reserveUsed ≤ reserveUnits → s.mem.reserveUsed ≤ s'.mem.reserveUsed ∧ s'.mem.reserveUsed ≤ reserveUnits) ∧
      (∀ st, stripeOf s st = .unwritten → stripeOf s' st = .unwritten)) ∧
    ((stackOf s stk).state = 1 → (stackOf s stk).hot105 = false → ∃ s', exec (.resync stk) s = .next s' ∧
      stackOf s' stk = { stackOf s stk with state := 3 } ∧ s'.mem.paused = none ∧ s'.mem.bytes = s.mem.bytes) ∧
    ((stackOf s stk).state = 3 → (∀ p ∈ s.mem.stale, unitChannel s p.1 p.2 / 48 = stk →
        stripeOf s p.1 = .written → resyncWaits s p.1 p.2 = false) →
      ∃ s', exec (.resyncDone stk) s = .next s' ∧ (stackOf s' stk).state = 0 ∧
      s'.mem.bytes = s.mem.bytes ∧
      (∀ p ∈ s'.mem.stale, p ∈ s.mem.stale ∧ (unitChannel s p.1 p.2 / 48 = stk → stripeOf s p.1 = .written →
        ∃ u ∈ otherUnits p.2, unitDirect s p.1 u = false)) ∧
      (∀ p ∈ s.mem.stale, stripeOf s p.1 = .poisoned → p ∈ s'.mem.stale)) ∧
    (∀ stripe bad par, s.mem.trained = true → stripeOf s stripe = .written → stripe < capacity / 4096 →
      ∃ s', exec (.patrolScrub stripe bad par) s = .next s' ∧ s'.mem.bytes = s.mem.bytes ∧
        (∀ k, k ≠ stripe → stripeOf s' k = stripeOf s k) ∧ (bad = [] → par = true → s'.mem.event.testBit 0 = true))


/-- A group that waits with a fault which retires nothing replays: its fault is gone, the replay counter rises by 1, its entry is marked
REPLAYED, and every started tile runs from CYC 0 with empty queues and no write in flight, its registers, semaphores, windows, PC and the
scratchpad groups of FOOTPRINT as its checkpoint holds them; a group outside FOOTPRINT keeps what its power state keeps (R173). A fault detected now in a started tile, or on a link, replays in the same way. No byte of device memory changes. After 250 ms
without every tile at its end the watchdog makes the group wait for its replay; in an epoch that it has replayed already, the task ends with
0x0604 when no tile fails its test, and otherwise the failing tiles wait for their retirement. (That what is in flight is dropped with its
answers is the model's reading: log 36.) Completes: REPLAY, EPOCH_WATCHDOG. -/
def Obligations.ReplayRestoresTheEpoch : Prop :=
  ∀ (s : State) (h src t : Nat) (g : Group) (e : Entry) (i : Image), groupOf s h = some g → entryOf s h = some e → e.image = some i →
    s.flt.mcRestarting = false →
    (retirePending s g = false →
      (∀ f, g.fault = some f → f.source = src → f.tile = t → retires s g f = false → ∃ s', exec (.replay h src t) s = .next s' ∧
        (groupOf s' h).map (fun k => (k.fault, k.epoch)) = some (none, g.epoch) ∧ (entryOf s' h).map (fun k => k.replayed) = some true ∧
        s'.flt.replays = (s.flt.replays + 1) % 2 ^ 64 ∧ s'.mem.bytes = s.mem.bytes ∧ s'.mem.stripes = s.mem.stripes ∧
        (∀ k ∈ g.started, (tileOf s' k).status = .running ∧ (tileOf s' k).cyc = 0 ∧ (tileOf s' k).queues = [] ∧
          (tileOf s' k).writes = [] ∧ (tileOf s' k).streams = [] ∧
          ∀ p v, g.epoch ≠ 0 → g.saves.find? (fun q => q.1 == g.epoch) = some p → p.2.find? (fun w => w.tile == k) = some v →
            (∀ a, i.footprint.testBit (a / 0x100000) = true → (tileOf s' k).spad.rd a = v.spad.rd a) ∧
            (v.spad.wf = true → (tileOf s k).spad.wf = true → (∀ q ∈ v.spad, i.footprint.testBit (q.1 / 0x100000) = true) →
              ∀ a, i.footprint.testBit (a / 0x100000) = false → (tileOf s' k).spad.rd a =
                if (tileOf s k).power.get (a / 0x100000) .on = .umbra then 0 else (tileOf s k).spad.rd a) ∧
            (tileOf s' k).regs = v.regs ∧ (tileOf s' k).pc = v.pc ∧ (tileOf s' k).base = v.base ∧
              (tileOf s' k).sems = v.sems ∧ (tileOf s' k).windows = v.windows) ∧
        (∀ k, k ∉ g.started → tileOf s' k = tileOf s k)) ∧
      (g.fault = none → t ∈ g.started → 1 ≤ src → src ≤ 0x0A → recentFaults s (physOf s t) < 3 → firstBlamed s g ≠ some (physOf s t) →
        ∃ s', exec (.replay h src t) s = .next s' ∧ s'.flt.replays = (s.flt.replays + 1) % 2 ^ 64 ∧ s'.flt.logCount = s.flt.logCount + 1 ∧
          (entryOf s' h).map (fun k => k.replayed) = some true ∧ s'.mem.bytes = s.mem.bytes) ∧
      (g.fault = none → g.started ≠ [] → src = 0x10 ∨ src = 0x11 → t < 0xFFFF → ∃ s', exec (.replay h src t) s = .next s' ∧
        s'.flt.replays = (s.flt.replays + 1) % 2 ^ 64 ∧ s'.flt.logCount = s.flt.logCount + 1 ∧
        (entryOf s' h).map (fun k => k.replayed) = some true ∧ s'.mem.bytes = s.mem.bytes)) ∧
    (g.fault = none → g.pausedAt = 0 → g.epochAt + g.exempt + 250000000 ≤ s.time →
      (∃ k ∈ groupTiles g, reachedEnd (tileOf s k) = false) → (groupTiles g).Nodup → ∀ failing,
      (g.watched = false → ∃ s' f, exec (.epochWatchdog h failing) s = .next s' ∧ f.source = 0x0B ∧ f.tile ∈ groupTiles g ∧
        groupOf s' h = some { g with fault := some f } ∧ s'.tiles = s.tiles ∧ s'.mem = s.mem ∧ s'.flt = s.flt) ∧
      (g.watched = true → (∀ k ∈ groupTiles g, k ∉ failing) → ∃ s', exec (.epochWatchdog h failing) s = .next s' ∧ Ended s s' h g 0x0604) ∧
      (g.watched = true → (∃ k ∈ groupTiles g, k ∈ failing) → ∃ s' f, exec (.epochWatchdog h failing) s = .next s' ∧
        groupOf s' h = some { g with fault := some f } ∧ (∀ k ∈ groupTiles g, k ∈ failing → (infoOf s' k).fails = 3) ∧
        (∀ k, k ∉ groupTiles g ∨ k ∉ failing → infoOf s' k = infoOf s k) ∧ s'.tiles = s.tiles ∧ s'.mem = s.mem))

/-- A tile that runs no task and failed its self-test or its reconfiguration twice is retired while a spare is free: its number moves to the
free spare with the least sum of hops to the positions of its neighbours, no other number moves, its old position counts as retired and the event is set; with no
spare the device is unrecoverable with cause 1. A link that loses a half is recorded and its group waits for a replay; one that loses both
makes the device unrecoverable. GLINT marks the heartbeat, or ends a restart, at a quiesce point; a link reset that came
meanwhile follows it (the span of a restart: log 37; the reload and its quiesce points: log 52; both the model's choice). MC_RESTART, for parity or after 20 ms without
a heartbeat, closes the context, counts the restart and makes every group wait for its replay. A Mirror mismatch is recorded, and takes a
checkpoint, or the running firmware, from the other copy; with both firmware images bad, the flash's is tried. Completes: TILE_RETIRE,
LINK_HALVING, GLINT, MC_RESTART, MIRROR_CRC. -/
def Obligations.RetirementAndRestart : Prop :=
  ∀ (s : State) (t : Nat),
    (∀ code, t < 64 → tileRuns s t = false → s.flt.mcRestarting = false → (code = 0x41 ∧ (infoOf s t).fails = 2) ∨ (code = 0x40 ∧ (infoOf s t).fails = 3) →
      (sparesFree s ≠ 0 → freeSpares s ≠ [] → ∃ s' q, exec (.tileRetire t code 0) s = .next s' ∧ q ∈ freeSpares s ∧
        physOf s' t = q ∧ (∀ p ∈ freeSpares s, spareCost s t q ≤ spareCost s t p) ∧ (∀ k, k ≠ t → physOf s' k = physOf s k) ∧
        s'.flt.fieldRetired = s.flt.fieldRetired ++ [physOf s t] ∧ s'.flt.event.testBit 1 = true ∧ (infoOf s' t).fails = 0 ∧
        s'.mem = s.mem ∧ s'.tiles = s.tiles) ∧
      (sparesFree s = 0 → s.flt.unrecoverable = false → ∃ s', exec (.tileRetire t code 0) s = .next s' ∧
        s'.flt.unrecoverable = true ∧ s'.flt.cause = 1 ∧ s'.clk.pkg = 5 ∧ ∀ h, Over s' h)) ∧
    (∀ h g link, groupOf s h = some g → g.fault = none → s.flt.mcRestarting = false →
      (link ∉ s.flt.tnHalved → ∃ s' f, exec (.linkHalving .tileNetwork link h) s = .next s' ∧
        s'.flt.tnHalved = s.flt.tnHalved ++ [link] ∧ s'.flt.mfHalved = s.flt.mfHalved ∧ s'.flt.event.testBit 3 = true ∧
        f.source = 0x10 ∧ f.link = link ∧ groupOf s' h = some { g with fault := some f } ∧ s'.mem = s.mem ∧ s'.tiles = s.tiles) ∧
      (link ∉ s.flt.mfHalved → ∃ s' f, exec (.linkHalving .memoryFabric link h) s = .next s' ∧
        s'.flt.mfHalved = s.flt.mfHalved ++ [link] ∧ f.source = 0x11 ∧ f.link = link ∧ groupOf s' h = some { g with fault := some f }) ∧
      (link ∈ s.flt.tnHalved → s.flt.unrecoverable = false → ∃ s', exec (.linkHalving .tileNetwork link h) s = .next s' ∧
        s'.flt.unrecoverable = true ∧ s'.flt.cause = 3) ∧
      (link ∈ s.flt.mfHalved → s.flt.unrecoverable = false → ∃ s', exec (.linkHalving .memoryFabric link h) s = .next s' ∧
        s'.flt.unrecoverable = true ∧ s'.flt.cause = 3)) ∧
    (s.flt.mcRestarting = true → s.mir.images ≠ 0 → (∀ i, s.flt.inj = some i → i.kind ≠ 6) →
      (s.flt.linkReset = false → ∃ s', exec .glint s = .next s' ∧ s'.flt.mcRestarting = false ∧
        s'.flt.lastBeat = s.time ∧ (s.flt.unrecoverable = false → domainRuns s' 4 = true) ∧ s'.mem = s.mem ∧
        (s.mgt.blob = none → s'.ts = s.ts ∧ s'.mgt = s.mgt) ∧ s'.mgt.blob = none) ∧
      (s.flt.linkReset = true → s.mgt.blob = none → ∃ s', exec .glint s = .next s' ∧ s'.flt.mcRestarting = false ∧
        s'.flt.linkReset = false ∧ s'.hi.link.up = false ∧ s'.spdm.ide = [] ∧
        ∀ f ∈ presentFns s, (∀ e ∈ s'.ts.entries, e.fn ≠ f) ∧ (∀ p ∈ s'.ts.sessions, p.2.fn ≠ f))) ∧
    (s.flt.mcRestarting = false → domainRuns s 4 = true → s.flt.suppressed = false →
      ∃ z, exec .glint s = .next { s with flt := { s.flt with lastBeat := s.time }, mir := { s.mir with zones := z } } ∧
        (∀ k x, s.mir.zones.find k = some x → z.find k = some { x with sparesUsed := Nat.min 256 (x.sparesUsed + x.failing), failing := 0 })) ∧
    (∀ parity, domainRuns s 4 = true → s.flt.mcRestarting = false → parity = true ∨ s.flt.lastBeat + 20000000 ≤ s.time →
      ∃ s', exec (.mcRestart parity) s = .next s' ∧ s'.flt.mcRestarting = true ∧ s'.mgt.context = none ∧
        s'.flt.mcRestarts = satInc s.flt.mcRestarts 0xFFFF ∧ (∀ g ∈ s'.groups, g.fault ≠ none) ∧ s'.mem = s.mem ∧ s'.tiles = s.tiles ∧
        s'.pke.slots = s.pke.slots ∧ s'.spdm = s.spdm ∧ s'.ts.sessions = s.ts.sessions) ∧
    (domainRuns s 3 = true → ∃ s', exec (.mirrorCrc .twoCopies false) s = .next s' ∧ s'.flt.logCount = s.flt.logCount + 1 ∧
      s'.groups = s.groups ∧ s'.mem = s.mem ∧ s'.mgt = s.mgt ∧ s'.tiles = s.tiles) ∧
    (∀ h g f, domainRuns s 3 = true → groupOf s h = some g → g.fault = some f →
      ∃ s' k, exec (.mirrorCrc (.checkpoint h) false) s = .next s' ∧ groupOf s' h = some k ∧ k.saves = g.saves.tail ∧ k.fault = some f ∧ s'.mem = s.mem) ∧
    (∀ flash, domainRuns s 3 = true → s.mir.images = 3 → ∃ s', exec (.mirrorCrc (.firmware flash) false) s = .next s' ∧
      s'.flt.mcRestarting = true ∧ s'.mir.running = (s.mir.running + 1) % 2 ∧ s'.mir.images = 2 ^ (1 - s.mir.running % 2) ∧
      s'.mem = s.mem) ∧
    (∀ img, domainRuns s 3 = true → allowFlash s = true → flashFails s img = none → reloadOk s img = true →
      ∃ s', exec (.mirrorCrc (.firmware (some img)) true) s = .next s' ∧ s'.flt.mcRestarting = true ∧ s'.mir.images = 3 ∧ s'.mem = s.mem) ∧
    (domainRuns s 3 = true → ∃ s', exec (.mirrorCrc (.firmware none) true) s = .next s' ∧ s'.flt.mcRestarting = true ∧ s'.mir.images = 0 ∧
      s'.mem = s.mem) ∧
    (∀ k both, k < 16 → domainRuns s 3 = true → ∃ s', exec (.mirrorCrc (.connection k) both) s = .next s' ∧
      s'.mir.zones.get k zone0 = { s.mir.zones.get k zone0 with failing := (s.mir.zones.get k zone0).failing + 1 } ∧
      (∀ j, j ≠ k → s'.mir.zones.find j = s.mir.zones.find j) ∧ s'.mem = s.mem ∧ s'.flt = s.flt)


/-- A temperature sample sets the stack's temperature and its three marks, each set above its threshold and cleared 3 °C below; a mark newly
above 95 °C or 105 °C sets its event, and the first stack above 105 °C in normal use pauses. A zone sample does the same with 95 and 92 °C.
Above 115 °C the device
trips instead. After either, every position on its way to a count other than the one the causes request has a command for it. A command that raises the count
applies at once, one that lowers it when the voltage has settled. A power sample records the average, keeps each of the two power steps within
its bound, and raises the fast step at once above 1.1 times POWER_W when it is armed: that a further event raises it again, to 3 at most, and
when it is armed again, is the model's choice (log 42). None but a trip touches memory, tiles or the scheduler.
Completes: STACK_TEMP_SAMPLE, MIRROR_ZONE_TEMP, THROTTLE_COMMAND, VOLT_SETTLED, POWER_SAMPLE. -/
def Obligations.ThermalAndPowerSteps : Prop :=
  ∀ (s : State),
    (∀ stk temp, domainRuns s 6 = true → -128 ≤ temp → temp < 128 →
      ∃ s', exec (.stackTempSample stk temp) s = .next s' ∧
      (115 < temp → s.clk.mainUp = true → Reset s s' ∧ s'.clk.trip = true ∧ s'.clk.thermTrip = true ∧ s'.clk.mainUp = false ∧
        s'.clk.pkg = 1) ∧
      (temp ≤ 115 ∨ s.clk.mainUp = false → (stackOf s' stk).temp = temp ∧
      ((stackOf s' stk).hot85 = if 85 < temp then true else if temp < 82 then false else (stackOf s stk).hot85) ∧
      ((stackOf s' stk).hot95 = if 95 < temp then true else if temp < 92 then false else (stackOf s stk).hot95) ∧
      ((stackOf s' stk).hot105 = if 105 < temp then true else if temp < 102 then false else (stackOf s stk).hot105) ∧
      (105 < temp → (stackOf s stk).state = 0 ∨ (stackOf s stk).state = 3 → s.mem.paused = none → (stackOf s' stk).state = 1 ∧ s'.mem.paused = some stk) ∧
      (95 < temp → (stackOf s stk).hot95 = false → s'.mem.event.testBit 5 = true) ∧
      (105 < temp → (stackOf s stk).hot105 = false → s'.mem.event.testBit 6 = true) ∧
      (stepsMoved s s' = true → ∀ pos, pos < 72 → aimOf (clockOf s' pos) = wantedSteps s' pos) ∧
      s'.mem.bytes = s.mem.bytes ∧ s'.tiles = s.tiles ∧ s'.ts = s.ts)) ∧
    (∀ z temp, domainRuns s 2 = true → -128 ≤ temp → temp < 128 → ∃ s', exec (.mirrorZoneTemp z temp) s = .next s' ∧
      (s'.mir.zones.get z zone0).temp = temp ∧
      ((s'.mir.zones.get z zone0).throttle = if 95 < temp then true else if temp < 92 then false else (s.mir.zones.get z zone0).throttle) ∧
      (stepsMoved s s' = true → s'.clk.event.testBit 2 = true ∧ ∀ pos, pos < 72 → aimOf (clockOf s' pos) = wantedSteps s' pos) ∧
      s'.mem = s.mem ∧ s'.tiles = s.tiles ∧ s'.ts = s.ts) ∧
    (∀ pos w, (clockOf s pos).command = some w →
      ((clockOf s pos).steps ≤ w → exec (.throttleCommand pos) s = .next (setClock s pos { steps := w, command := none, settling := none })) ∧
      (w < (clockOf s pos).steps → exec (.throttleCommand pos) s =
        .next (setClock s pos { steps := (clockOf s pos).steps, command := none, settling := some w }))) ∧
    (∀ pos w, (clockOf s pos).settling = some w → exec (.voltSettled pos) s =
      .next (setClock s pos { clockOf s pos with steps := w, settling := none })) ∧
    (∀ watts avg, s.clk.mainUp = true → watts < 2 ^ 16 → avg < 2 ^ 16 → ∃ s', exec (.powerSample watts avg) s = .next s' ∧
      s'.clk.avgPower = avg ∧ (s.clk.powerStep ≤ 3 → s'.clk.powerStep ≤ 3) ∧ (s.clk.fastStep ≤ 3 → s'.clk.fastStep ≤ 3) ∧
      (s.clk.powerW < avg → s.clk.overSince = none → s'.clk.powerStep = Nat.min 3 (s.clk.powerStep + 1)) ∧
      (avg ≤ s.clk.powerW → s'.clk.powerStep ≤ s.clk.powerStep) ∧
      (11 * s.clk.powerW < 10 * watts → s.clk.fastArmed = true → s'.clk.fastStep = Nat.min 3 (s.clk.fastStep + 1)) ∧
      (∀ pos, pos < 72 → aimOf (clockOf s' pos) = wantedSteps s' pos) ∧
      s'.mem = s.mem ∧ s'.tiles = s.tiles ∧ s'.ts = s.ts ∧ s'.mgt = s.mgt)

/-- COLD_RESET, a loss of PLL lock, 12V below 10.8 V and a thermal trip each put every domain but the standby domain into reset: only domain 0
runs, the rings, the scheduler, tiles, device memory, the PKE and the SPDM sessions are at reset, while fuses, ownership, policy, the audit log,
the committed bundle and the persisted tile map stay. The last two drop the main rails, and a trip,
an event of a compute-die sensor (log 24), holds its pin until a cold reset with main power valid ends it: until then 12V_MAIN does not bring
the rails up. The loss of standby power
leaves the package off. Power valid again puts it in STANDBY, main power in BOOT; with PERST_N released, or the PLL locked again, LINK and ROM
run and the boot chain stands at step 1. A trained link is up, without Flit mode up to 32 GT/s only. (The
model's reading: HEALTHY from that point, log 35; which step releases which domain, log 41.) Completes: COLD_RESET, PLL_UNLOCK,
V12_LOW, THERMAL_TRIP, STBY_POWER_LOSS, STBY_POWER_VALID, MAIN_POWER_VALID, PERST_DEASSERT, PLL_RELOCK, LINK_TRAINED. -/
def Obligations.RailsAndColdReset : Prop :=
  ∀ (s : State) (mv : Nat),
    (s.clk.mainUp = true → mv < 10800 → ∃ s', exec (.v12Low mv) s = .next s' ∧ Reset s s' ∧ s'.clk.mainUp = false ∧ s'.clk.pwrGood = false ∧
      s'.clk.v12mV = mv ∧ s'.clk.pkg = 1 ∧ s'.clk.event.testBit 3 = true) ∧
    (s.clk.mainUp = true → ∃ s', exec .thermalTrip s = .next s' ∧ Reset s s' ∧ s'.clk.trip = true ∧ s'.clk.thermTrip = true ∧ s'.clk.mainUp = false ∧
      s'.clk.event.testBit 6 = true) ∧
    (s.clk.pllLocked = true → ∃ s', exec .pllUnlock s = .next s' ∧ Reset s s' ∧ s'.clk.pllLocked = false ∧
      s'.clk.pllLosses = satInc s.clk.pllLosses 0xFFFF ∧ s'.clk.event.testBit 4 = true) ∧
    (s.clk.pkg ≠ 0 → ∃ s', exec .stbyPowerLoss s = .next s' ∧ Reset s s' ∧ s'.clk.pkg = 0 ∧ s'.clk.run = 0) ∧
    (s.clk.pkg ≠ 0 → ∃ s', exec .coldReset s = .next s' ∧ Reset s s' ∧ s'.clk.perst = true ∧
      (s.clk.trip = false ∨ s.clk.v12Ok = false → s'.clk.pkg = (if s.clk.mainUp then 2 else 1) ∧ s'.clk.mainUp = s.clk.mainUp ∧
        s'.clk.thermTrip = s.clk.thermTrip) ∧
      (s.clk.trip = true → s.clk.v12Ok = true → s'.clk.pkg = 2 ∧ s'.clk.mainUp = true ∧ s'.clk.trip = false ∧ s'.clk.thermTrip = false) ∧
      s'.clk.powerW = s.clk.powerW ∧ s'.clk.event = s.clk.event) ∧
    (s.clk.pkg = 0 → 3135 ≤ mv → mv ≤ 3465 → exec (.stbyPowerValid mv) s =
      .next { s with clk := { s.clk with run := 1, pkg := 1, v3mV := mv } }) ∧
    (s.clk.pkg = 1 → s.clk.mainUp = false → 11040 < mv → mv ≤ 12960 → ∃ s', exec (.mainPowerValid mv) s = .next s' ∧ s'.clk.v12mV = mv ∧
      s'.clk.v12Ok = true ∧ s'.mgt = s.mgt ∧ s'.flt = s.flt ∧
      (s.clk.trip = false ∨ s.clk.perst = true → s'.clk.mainUp = true ∧ s'.clk.pwrGood = true ∧ s'.clk.pkg = 2 ∧ s'.clk.thermTrip = false) ∧
      (s.clk.trip = true → s.clk.perst = false → s'.clk.mainUp = false ∧ s'.clk.pkg = 1 ∧ s'.clk.thermTrip = s.clk.thermTrip)) ∧
    (s.clk.pwrGood = true → s.clk.mainUp = true →
      (s.clk.perst = true → ∃ s', exec .perstDeassert s = .next s' ∧ BootBegun s s') ∧
      (s.clk.perst = false → s.clk.pllLocked = false → ∃ s', exec .pllRelock s = .next s' ∧ BootBegun s s')) ∧
    (∀ rate width flit, domainRuns s 1 = true → s.hi.link.up = false → s.flt.linkReset = false → 1 ≤ rate → rate ≤ 6 → width ∈ [4, 8, 16] →
      flit = true ∨ rate ≤ 5 →
      exec (.linkTrained rate width flit) s =
        .next { s with hi := { s.hi with link := { rate := rate, width := width, flit := flit, l0p := width, up := true } } })

/-- BOOT_CHAIN counts the boot and takes the persisted tile map whatever its tests find, fails at step 1 or 2 with its code, and else, with an image in flash that policy
allows and that passes steps 4 to 6, stands at step 8 with the image's version and SVN; otherwise it stands in BOOT_WAIT. BEGIN opens a push
while one is served; a first CHUNK whose header fails ends it with step and code 4, one whose header passes is kept and the chain stands at step 6, a longer image than its header says with 6; END loads a
whole image that passes, or ends with 6 or 5. A command of the push that nothing waits for changes nothing. SERVICE_READY brings every domain
up, the committed bundle (or the default one) into force and every tile into service but the bad ones, a lane that training finds weak being
replaced, or stays at step 8 with code 7. The image that a restart of the management core may reload (log 52) and the reading of the boot's
order (log 41) are the model's choices. Completes: BOOT_CHAIN, BEGIN, CHUNK, END, SERVICE_READY. -/
def Obligations.BootAndService : Prop :=
  ∀ (s : State),
    (domainRuns s 2 = true → s.mgt.step = 1 → s.mgt.bootWait = false → s.mgt.ready = false →
      (∀ ok conns store flash, ok = false ∨ (∃ n ∈ conns, 256 < n) → ∃ s', exec (.bootChain ⟨ok, conns⟩ store flash) s = .next s' ∧
        s'.mgt.bootWait = true ∧ s'.mgt.step = 1 ∧ s'.mgt.error = 1 ∧ s'.clk.pkg = 3 ∧ s'.mgt.bootCount = (s.mgt.bootCount + 1) % 2 ^ 32) ∧
      (∀ conns flash, (∀ n ∈ conns, n ≤ 256) → ∃ s', exec (.bootChain ⟨true, conns⟩ false flash) s = .next s' ∧ s'.mgt.bootWait = true ∧
        s'.mgt.step = 2 ∧ s'.mgt.error = 2 ∧ s'.mgt.bootCount = (s.mgt.bootCount + 1) % 2 ^ 32) ∧
      (∀ conns flash, (∀ n ∈ conns, n ≤ 256) → ∃ s', exec (.bootChain ⟨true, conns⟩ true flash) s = .next s' ∧
        s'.mgt.bootCount = (s.mgt.bootCount + 1) % 2 ^ 32 ∧ s'.flt.map = s.flt.saved ∧ s'.mgt.fuses = s.mgt.fuses ∧
        s'.flt.factoryUsed = fuseUsed s.mgt.fuses ∧
        (conns ≠ [] → ∀ z, z < 16 → (s'.mir.zones.get z zone0).sparesUsed = conns.getD z 0) ∧
        (∀ img, flash = some img → s.mgt.inForce.testBit 0 = true → s.mgt.inForce.testBit 2 = false → flashFails s img = none →
          s'.mgt.step = 8 ∧ s'.mgt.error = 0 ∧ s'.mgt.fwVersion = le img 0x0C 4 ∧ s'.mgt.fwSvn = le img 8 4 ∧
            s'.mgt.fwDigest = sha256 (img.take (fwLength img)) ∧ s'.mir.images = 3) ∧
        (flash = none ∨ s.mgt.inForce.testBit 0 = false ∨
          (s.mgt.inForce.testBit 2 = true ∧ s.mgt.inForce.testBit 1 = true) ∨ (∃ img, flash = some img ∧ flashFails s img ≠ none) →
          s'.mgt.bootWait = true ∧ s'.clk.pkg = 3))) ∧
    (domainRuns s 2 = true →
      (pushServed s = true → ∃ s', exec .bootBegin s = .next s' ∧ s'.mgt.push = some { header := [], got := 0, image := [] } ∧
        s'.mgt.step = 3 ∧ s'.mgt.error = 0 ∧ s'.mgt.bufFree = 3) ∧
      (pushServed s = false → exec .bootBegin s = .next s ∧ exec .bootEnd s = .next s ∧ ∀ b k, exec (.bootChunk b k) s = .next s) ∧
      (∀ p b k, pushServed s = true → s.mgt.push = some p → b ≤ 1 → 1 ≤ k → k ≤ 128 →
        (p.header = [] → fwHeaderOk s ((s.mgt.bar2.rdN (0x80000 * b) (4096 * k)).take 4096) = false →
          ∃ s', exec (.bootChunk b k) s = .next s' ∧ s'.mgt.push = none ∧ s'.mgt.step = 4 ∧ s'.mgt.error = 4) ∧
        (p.header = [] → fwHeaderOk s ((s.mgt.bar2.rdN (0x80000 * b) (4096 * k)).take 4096) = true →
          p.got + 4096 * k ≤ fwLength ((s.mgt.bar2.rdN (0x80000 * b) (4096 * k)).take 4096) →
          ∃ s', exec (.bootChunk b k) s = .next s' ∧ s'.mgt.step = 6 ∧ s'.mgt.push = some
            { header := (s.mgt.bar2.rdN (0x80000 * b) (4096 * k)).take 4096, got := p.got + 4096 * k,
              image := p.image ++ s.mgt.bar2.rdN (0x80000 * b) (4096 * k) }) ∧
        (p.header ≠ [] → fwLength p.header < p.got + 4096 * k →
          ∃ s', exec (.bootChunk b k) s = .next s' ∧ s'.mgt.push = none ∧ s'.mgt.step = 6 ∧ s'.mgt.error = 6) ∧
        (p.header ≠ [] → p.got + 4096 * k ≤ fwLength p.header → ∃ s', exec (.bootChunk b k) s = .next s' ∧ s'.mgt.push = some
          { header := p.header, got := p.got + 4096 * k, image := p.image ++ s.mgt.bar2.rdN (0x80000 * b) (4096 * k) })) ∧
      (∀ p, pushServed s = true → s.mgt.push = some p →
        (fwBodyOk p.image = false → ∃ s', exec .bootEnd s = .next s' ∧ s'.mgt.error = 6 ∧ s'.mgt.push = none) ∧
        (fwBodyOk p.image = true → reloading s = false → fwSvnOk s p.image = false → ∃ s', exec .bootEnd s = .next s' ∧ s'.mgt.error = 5 ∧ s'.mgt.push = none) ∧
        (fwBodyOk p.image = true → fwSvnOk s p.image = true → reloading s = false → ∃ s', exec .bootEnd s = .next s' ∧ s'.mgt.step = 8 ∧
          s'.mgt.bootWait = false ∧ s'.mgt.fromHost = true ∧ s'.mgt.fwVersion = le p.image 0x0C 4 ∧ s'.mir.images = 3) ∧
        (fwBodyOk p.image = true → fwSvnOk s p.image = true → reloading s = true → reloadOk s p.image = true →
          ∃ s', exec .bootEnd s = .next s' ∧ s'.mir.images = 3 ∧ s'.mgt.push = none ∧ s'.mgt.fwDigest = s.mgt.fwDigest))) ∧
    (domainRuns s 2 = true → s.mgt.step = 8 → s.mgt.ready = false → s.mgt.bootWait = false → ∀ bad weak,
      (∃ s', exec (.serviceReady false ⟨bad, weak⟩) s = .next s' ∧ s'.mgt.step = 8 ∧ s'.mgt.error = 7 ∧ s'.mgt.bootWait = true) ∧
      (∀ c, s.flt.cause = 0 → c < 960 → (∀ l ∈ weak, failsTraining weak l.channel = false) →
        ∃ s', exec (.serviceReady true ⟨bad, weak⟩) s = .next s' ∧ channelOf s' c = trainedChannel s.time weak c) ∧
      (s.flt.cause = 0 → (∀ l ∈ weak, failsTraining weak l.channel = false) → ∃ s', exec (.serviceReady true ⟨bad, weak⟩) s = .next s' ∧
        (∀ d, d < 8 → domainRuns s' d = true) ∧ s'.clk.pkg = 4 ∧ s'.mgt.ready = true ∧ s'.mem.trained = true ∧ s'.ts.bundle = s.mgt.committed.getD defaultBundle ∧
        s'.ts.maxver = s.mgt.maxver ∧ s'.mem.bytes = s.mem.bytes ∧
        ∀ t, t < 64 → (infoOf s' t).state = (if t ∈ bad then 2 else 0) ∧ (infoOf s' t).version = s'.ts.bundle.version))


/-- Each of the eight commands, and the four of audit and diagnosis, completes when the management core serves it: MGT_CMD_RESULT carries its
code and the code of the first failing check, the nonce is fresh, and one record says who asked for what with which result, unless the form
was wrong or the log has no room (the order and the missing record of a full log are the model's reading, log 40). A command that fails a check changes no ownership, lifecycle, policy,
context, unlock, certificate chain or fuse. One that passes has its effect: AUTH_OPEN opens the context for DURATION at least, AUTH_CLOSE
closes it, TAKE_OWNERSHIP installs the key and the default policy and makes the device OWNED, RELEASE_OWNERSHIP removes owner, context, chain
and committed bundle and asks for the release at the next switch point, SET_POLICY stores what the next cold start brings in force, SET_CERT its
chain, FUSE_PROGRAM sets the bits of one word and clears none, SHIP makes the device UNOWNED. A context whose time has passed closes by itself. Completes: AUTH_OPEN, AUTH_CLOSE,
TAKE_OWNERSHIP, RELEASE_OWNERSHIP, SET_POLICY, SET_CERT, FUSE_PROGRAM, SHIP, AUDIT_EXPORT, AUDIT_ACK, DIAG_UNLOCK, DIAG_LOCK, AUTH_EXPIRY. -/
def Obligations.SignedCommands : Prop :=
  ∀ (s : State) (b : List Byte),
    (b = blobNow s → blobServed s (blCode b) = true →
      (blobRow (blCode b) = "AUTH_OPEN" → ∃ s', exec .authOpen s = .next s' ∧ BlobDone s s' b true) ∧
      (blobRow (blCode b) = "AUTH_CLOSE" → ∃ s', exec .authClose s = .next s' ∧ BlobDone s s' b true) ∧
      (blobRow (blCode b) = "TAKE_OWNERSHIP" → ∃ s', exec .takeOwnership s = .next s' ∧ BlobDone s s' b true) ∧
      (blobRow (blCode b) = "RELEASE_OWNERSHIP" → ∃ s', exec .releaseOwnership s = .next s' ∧ BlobDone s s' b true) ∧
      (blobRow (blCode b) = "SET_POLICY" → ∃ s', exec .setPolicy s = .next s' ∧ BlobDone s s' b true) ∧
      (blobRow (blCode b) = "SET_CERT" → ∃ s', exec .setCert s = .next s' ∧ BlobDone s s' b true) ∧
      (blobRow (blCode b) = "SHIP" → ∃ s', exec .ship s = .next s' ∧ BlobDone s s' b true) ∧
      (blobRow (blCode b) = "AUDIT_EXPORT" → ∃ s', exec .auditExport s = .next s' ∧ BlobDone s s' b true) ∧
      (blobRow (blCode b) = "AUDIT_ACK" → ∃ s', exec .auditAck s = .next s' ∧ BlobDone s s' b true) ∧
      (blobRow (blCode b) = "DIAG_UNLOCK" → ∃ s', exec .diagUnlock s = .next s' ∧ BlobDone s s' b true) ∧
      (blobRow (blCode b) = "DIAG_LOCK" → ∃ s', exec .diagLock s = .next s' ∧ BlobDone s s' b true) ∧
      (∀ readBack, blobRow (blCode b) = "FUSE_PROGRAM" → ∃ s', exec (.fuseProgram readBack) s = .next s' ∧ BlobDone s s' b readBack)) ∧
    (∀ t, s.mgt.context = some t → t ≤ s.time → exec .authExpiry s = .next { s with mgt := { s.mgt with context := none } })

/-- One record appended holds its number, time, boot count, actor, result, action, subject and value, is hashed into the chain, and leaves
every record that does not stand 65,536 numbers before it. With its checks passed, AUDIT_EXPORT leaves in BAR2 the header with the
hash of the record before the first (zero before record 0; open where that record is overwritten), the records asked for, its own included,
and the signature of both by IDK-3072; AUDIT_ACK raises the acknowledged count and never lowers it; DIAG_UNLOCK opens the scope until the token's EXPIRY; DIAG_LOCK, or that time,
ends it and scrubs every tile. A command that is refused room, or ill formed, writes no record. (Log 40: the
export range and the acknowledged count.) Completes: AUDIT_EXPORT, AUDIT_ACK,
DIAG_UNLOCK, DIAG_LOCK, CONSENT_EXPIRY. -/
def Obligations.AuditAndDiagnosis : Prop :=
  ∀ (s : State),
    (∀ actor result action subject value key, value.length ≤ 32 → ∃ r t, audit s actor result action subject value key = t ∧
      t = { s with mgt := { s.mgt with records := s.mgt.records.put (s.mgt.auditNext % 65536) r, auditNext := s.mgt.auditNext + 1,
                                       head := r.drop 96 } } ∧
      r.take 8 = leBytes 8 s.mgt.auditNext ∧ sub r 8 8 = leBytes 8 s.time ∧ sub r 16 4 = leBytes 4 s.mgt.bootCount ∧
      sub r 20 4 = leBytes 1 actor ++ leBytes 1 result ++ leBytes 2 action ∧ sub r 24 8 = leBytes 8 subject ∧
      sub r 32 32 = value ++ List.replicate (32 - value.length) 0 ∧ r.drop 96 = sha256 (auditHead s ++ r.take 96)) ∧
    (∀ b, b = blobNow s → blobServed s (blCode b) = true →
      (blCode b = 0x0030 → blobResult s b true = 0 → ∃ s' hd sg prev, exec .auditExport s = .next s' ∧
        hd = leBytes 4 0x45414749 ++ leBytes 4 1 ++ leBytes 8 s.mgt.fuses.serial ++ leBytes 8 (le (blParams b) 0 8) ++
          leBytes 8 (le (blParams b) 8 4) ++ prev ∧ s'.mgt.bar2 = s.mgt.bar2.wrN 0 (hd ++ ((List.range (le (blParams b) 8 4)).map
            (fun i => s'.mgt.records.get ((le (blParams b) 0 8 + i) % 65536) [])).flatten ++ sg) ∧
        (le (blParams b) 0 8 = 0 → prev = List.replicate 32 0) ∧
        (∀ r, le (blParams b) 0 8 ≠ 0 → s'.mgt.records.find ((le (blParams b) 0 8 - 1) % 65536) = some r →
          le r 0 8 = le (blParams b) 0 8 - 1 → prev = r.drop 96) ∧
        ((∀ p ∈ s.mgt.records, p.2.length = 128) → prev.length = 32) ∧
        (∃ u, u.mgt.fuses = s.mgt.fuses ∧ sg = (signIdk u (hd ++ ((List.range (le (blParams b) 8 4)).map
            (fun i => s'.mgt.records.get ((le (blParams b) 0 8 + i) % 65536) [])).flatten)).1) ∧
        s'.mgt.auditNext = s.mgt.auditNext + 1) ∧
      (blCode b = 0x0031 → blobResult s b true = 0 → ∃ s', exec .auditAck s = .next s' ∧
        s'.mgt.acked = Nat.max s.mgt.acked (le (blParams b) 0 8 + 1)) ∧
      (blCode b = 0x0040 → blobResult s b true = 0 → ∃ s', exec .diagUnlock s = .next s' ∧
        s'.mgt.diag = some { scope := le (makerParams b) 5 1, expiry := le (makerParams b) 0x14 4 } ∧ s.ts.sessions = [] ∧
        s'.mgt.owner = s.mgt.owner) ∧
      (blCode b = 0x0041 → blobResult s b true = 0 → ∃ s', exec .diagLock s = .next s' ∧ s'.mgt.diag = none ∧
        (s.mgt.diag ≠ none → ∀ p ∈ s'.tiles, p.2.spad = [] ∧ p.2.sems = [] ∧ p.2.windows = [])) ∧
      (blobResult s b true = 2 ∨ blobResult s b true = 6 →
        (blCode b = 0x0001 → ∃ s', exec .authOpen s = .next s' ∧ s'.mgt.records = s.mgt.records ∧ s'.mgt.auditNext = s.mgt.auditNext) ∧
        (blCode b = 0x0031 → ∃ s', exec .auditAck s = .next s' ∧ s'.mgt.records = s.mgt.records ∧ s'.mgt.auditNext = s.mgt.auditNext))) ∧
    (∀ d, s.mgt.diag = some d → 1000000000 * d.expiry ≤ s.time → ∃ s', exec .consentExpiry s = .next s' ∧ s'.mgt.diag = none ∧
      (∀ p ∈ s'.tiles, p.2.spad = [] ∧ p.2.sems = [] ∧ p.2.windows = []) ∧ s'.mem = s.mem ∧ s'.mgt.owner = s.mgt.owner)


/-- Without an open installer context, or without room in the audit log, a bundle command changes nothing. With both it appends one record and
ends with its code: a STAGE whose checks pass becomes the shadow bundle and raises the highest version; one that fails leaves the shadow; APPLY
and REVERT with nothing in their way wait for the switch point; COMMIT of a bundle under trial commits it; DISCARD drops the shadow. At the
switch point the waiting bundle becomes active in one step: version, power limit and RWL values together, no shadow, every tile of another
version that runs no work held out, the old bundle first in the history; with TRIAL_S 0 it is committed, else under trial. A release brings
the default bundle and UNOWNED. The end of a trial without a storm commits; a storm reverts to the previous bundle. (Model's choices: log 39, the order of STAGE's checks and
when records and results are written.) Completes: STAGE, APPLY,
COMMIT, REVERT, DISCARD, SWITCH_POINT, TRIAL_EXPIRY, AUTO_REVERT. -/
def Obligations.ConfigurationBundles : Prop :=
  ∀ (s : State),
    (domainRuns s 3 = true →
      (contextOpen s = false ∨ roomAny s = false → exec .stage s = .next s ∧ exec .apply s = .next s ∧ exec .commit s = .next s ∧
        exec .revert s = .next s ∧ exec .discard s = .next s) ∧
      (contextOpen s = true → roomAny s = true →
        (∃ s', exec .stage s = .next s' ∧ BundleDone s s' 1) ∧ (∃ s', exec .apply s = .next s' ∧ BundleDone s s' 2) ∧
        (∃ s', exec .commit s = .next s' ∧ BundleDone s s' 3) ∧ (∃ s', exec .revert s = .next s' ∧ BundleDone s s' 4) ∧
        (∃ s', exec .discard s = .next s' ∧ BundleDone s s' 5))) ∧
    (s.ts.trialEnds ≠ none → s.ts.bundle.storm ≤ 1 + (s.ts.stormTimes.filter (fun t => decide (s.time < t + 10000000000))).length →
      (absorbed s).ts.stormHit = true) ∧
    (domainRuns s 3 = true → s.flt.mcRestarting = false →
      (∀ b, s.ts.switchTo = some .apply → s.ts.staged = some b → ∃ s', exec .switchPoint s = .next s' ∧ s'.ts.bundle.version = b.version ∧
        s'.clk.powerW = b.powerW ∧ s'.mem.calInterval = b.cal ∧ s'.ts.staged = none ∧ s'.ts.switchTo = none ∧
        s'.ts.history = (s.ts.bundle :: s.ts.history).take 7 ∧ s'.ts.result = 2 ^ 31 + 512 ∧ s'.ts.event.testBit 0 = true ∧
        (∀ t i, s.ts.tiles.find t = some i → i.state ≠ 1 → i.version ≠ b.version → (infoOf s' t).state = 2) ∧
        (b.trialS = 0 → s'.ts.committed = true ∧ s'.ts.trialEnds = none ∧ s'.mgt.committed = some s'.ts.bundle) ∧
        (b.trialS ≠ 0 → s'.ts.committed = false ∧ s'.ts.trialEnds = some (s.time + 1000000000 * b.trialS)) ∧
        s'.ts.entries = s.ts.entries ∧ s'.mem.bytes = s.mem.bytes) ∧
      (∀ b rest, s.ts.switchTo = some .revert → s.ts.history = b :: rest → ∃ s', exec .switchPoint s = .next s' ∧
        s'.ts.bundle.version = b.version ∧ s'.ts.history = rest ∧ s'.ts.committed = true ∧ s'.ts.event.testBit 2 = true ∧
        s'.ts.result = 2 ^ 31 + 1024) ∧
      (s.ts.switchTo = some .release → ∃ s', exec .switchPoint s = .next s' ∧ s'.ts.bundle = defaultBundle ∧ s'.mgt.lifecycle = 1 ∧
        s'.ts.history = [] ∧ s'.ts.committed = false ∧ s'.ts.switchTo = none)) ∧
    (∀ t, s.ts.trialEnds = some t → t ≤ s.time → s.ts.stormHit = false → domainRuns s 3 = true → ∃ s', exec .trialExpiry s = .next s' ∧
      s'.ts.committed = true ∧ s'.ts.trialEnds = none ∧ s'.ts.event.testBit 1 = true ∧ s'.mgt.committed = some s'.ts.bundle ∧
      s'.ts.bundle.version = s.ts.bundle.version) ∧
    (∀ t b rest, s.ts.trialEnds = some t → s.ts.history = b :: rest → s.ts.stormHit = true → domainRuns s 3 = true →
      s.ts.switchTo = none → ∃ s', exec .autoRevert s = .next s' ∧ s'.ts.bundle.version = b.version ∧ s'.ts.history = rest ∧
        s'.ts.committed = true ∧ s'.ts.trialEnds = none ∧ s'.ts.event.testBit 3 = true ∧ s'.mgt.auditNext = s.mgt.auditNext + 1)

/-- A _LO read answers the low half and holds the high half for the next _HI read, which answers it and lets it go; without one it answers the
current half. A _LO write to an open pair is only staged; the _HI write stores both halves, with nothing staged the present low half, the low
bits that the register hard-wires to zero being zero; a closed pair takes neither. A 64-bit access is the _LO access, then the _HI one. A write
to PF0's BAR2 window writes its bytes there and nothing else. An access to a stopped domain is held, up to 16, or dropped, is logged, and never
reaches the block: a read of MEM_ on an unrecoverable device is answered (log 50), a write is not. A write of ones to an event register clears
the bits they stand at, of zeros nothing. An RW field takes its bits and ignores the reserved ones; a selector chooses what the next read
reports. An installer register takes a write only in an open context with room in the log, and records it first; an RWL register only while it
is unlocked, in such a context or, outside OWNED, without one, clamped to its range. Completes: PAIR_LO_READ, PAIR_HI_READ, PAIR_LO_WRITE,
PAIR_HI_WRITE, PAIR_64_ACCESS, REGISTER_WRITE, STOPPED_DOMAIN_ACCESS. -/
def Obligations.RegisterAccess : Prop :=
  ∀ (s : State) (fn off : Nat),
    (fnReach s fn = true → isLo fn off = true →
      ((∀ o ∈ [off, off + 4], ∀ d, domainOf fn o = some d → domainAnswers s d = true) →
        (∃ s', exec (.pairLoRead fn off) s = .next s' ∧ s'.out.read = some (BitVec.ofNat 64 (pairValue s fn off % 2 ^ 32)) ∧
          (pairOf s' fn off).held = some (BitVec.ofNat 32 (pairValue s fn off / 2 ^ 32)) ∧ s'.ts = s.ts ∧ s'.mem = s.mem ∧
          s'.tiles = s.tiles ∧ s'.hi.sqs = s.hi.sqs) ∧
        (∃ s', exec (.pairHiRead fn (off + 4)) s = .next s' ∧ (pairOf s' fn off).held = none ∧
          s'.out.read = some (((pairOf s fn off).held.getD (BitVec.ofNat 32 (pairValue s fn off / 2 ^ 32))).setWidth 64) ∧
          s'.ts = s.ts ∧ s'.mem = s.mem) ∧
        (∃ s', exec (.pair64Access fn off none) s = .next s' ∧ s'.ts = s.ts ∧ (pairOf s' fn off).held = none ∧
          s'.out.read = some (BitVec.ofNat 64 (pairValue s fn off)))) ∧
      ((∀ o ∈ [off, off + 4], ∀ d, domainOf fn o = some d → domainRuns s d = true) →
        (∀ v, (pairOpen s fn off = false → exec (.pairLoWrite fn off v) s = .next s ∧ exec (.pairHiWrite fn (off + 4) v) s = .next s) ∧
          (pairOpen s fn off = true → exec (.pairLoWrite fn off v) s =
            .next (setPair s fn off { pairOf s fn off with staged := some v })) ∧
          (∀ l, pairOpen s fn off = true → l = ((pairOf s fn off).staged.map (fun b => b.toNat)).getD (pairValue s fn off % 2 ^ 32) →
            ∃ s', exec (.pairHiWrite fn (off + 4) v) s = .next s' ∧ (pairOf s' fn off).staged = none ∧
              pairValue s' fn off = (if pageOff fn off = some 8 then (l + v.toNat * 2 ^ 32) / 64 * 64
                else (l + v.toNat * 2 ^ 32) / 4096 * 4096))) ∧
        (∀ v : BitVec 64, ∃ s1 s2, exec (.pairLoWrite fn off (v.setWidth 32)) s = .next s1 ∧
          exec (.pairHiWrite fn (off + 4) ((v >>> 32).setWidth 32)) s1 = .next s2 ∧ exec (.pair64Access fn off (some v)) s = .next s2)) ∧
      (∀ d, domainOf fn off = some d → domainRuns s d = false →
        (∀ v, exec (.pairLoWrite fn off v) s = .next (stoppedAccess s d fn off (some v))) ∧
        (∀ v : BitVec 64, exec (.pair64Access fn off (some v)) s =
          .next (stoppedAccess (stoppedAccess s d fn off (some (v.setWidth 32))) d fn (off + 4) (some ((v >>> 32).setWidth 32)))) ∧
        (domainAnswers s d = false → exec (.pairLoRead fn off) s = .next (stoppedAccess s d fn off none)))) ∧
    (∀ l, fnReach s 0 = true → off + l.length ≤ 0x100000 → s.mgt.bar2.wf = true → ∃ s', exec (.registerWrite 0 .bar2 off l) s = .next s' ∧
      s' = { s with mgt := { s.mgt with bar2 := s'.mgt.bar2 } } ∧
      ∀ a, s'.mgt.bar2.rd a = if off ≤ a ∧ a < off + l.length then l.getD (a - off) 0 else s.mgt.bar2.rd a) ∧
    (∀ d w, fnReach s fn = true → domainOf fn off = some d → domainRuns s d = false → w ≠ none ∨ domainAnswers s d = false → ∃ s',
      exec (.stoppedDomainAccess fn off w) s = .next s' ∧ s'.clk.event.testBit 5 = true ∧ s'.clk.hangLog = fn * 2 ^ 25 + off ∧
        (s.clk.held.length < 16 → s'.clk.held = s.clk.held ++ [{ domain := d, fn := fn, off := off, write := w }]) ∧
        (16 ≤ s.clk.held.length → s'.clk.held = s.clk.held ∧ s'.clk.hangDropped = satInc s.clk.hangDropped 0xFFFF) ∧
        s'.hi = s.hi ∧ s'.ts = s.ts ∧ s'.mem = s.mem ∧ s'.mgt = s.mgt) ∧
    (∀ l, fnReach s fn = true → domainOf fn off = none → exec (.registerWrite fn .bar0 off l) s = .next s) ∧
    (∀ l b x, fnReach s 0 = true → l.length = 4 → x = leNat l →
      (domainRuns s 3 = true →
        (∃ s', exec (.registerWrite 0 .bar0 0x600004 l) s = .next s' ∧ s'.mem = s.mem ∧
          s'.flt.event.testBit b = (s.flt.event.testBit b && !x.testBit b)) ∧
        (∃ s', exec (.registerWrite 0 .bar0 0x200004 l) s = .next s' ∧ s'.mem = s.mem ∧
          s'.ts.event.testBit b = (s.ts.event.testBit b && !x.testBit b)) ∧
        exec (.registerWrite 0 .bar0 0x600008 l) s = .next { s with flt := { s.flt with mask := x % 2 ^ 8 } } ∧
        exec (.registerWrite 0 .bar0 0x200008 l) s = .next { s with ts := { s.ts with mask := x % 2 ^ 7 } } ∧
        (∃ s', exec (.registerWrite 0 .bar0 0x200030 l) s = .next s' ∧ regValue s' 0 0x200038 = BitVec.ofNat 32 (infoOf s (x % 64)).version) ∧
        (∃ s', exec (.registerWrite 0 .bar0 0x600018 l) s = .next s' ∧ s'.flt.logSel = x ∧ s'.flt.log = s.flt.log) ∧
        (contextOpen s = false ∨ roomAny s = false → exec (.registerWrite 0 .bar0 0x20001C l) s = .next s) ∧
        (contextOpen s = true → roomAny s = true → ∃ s', exec (.registerWrite 0 .bar0 0x20001C l) s = .next s' ∧
          s'.ts.cfgOffset = x / 2 ^ 12 % 2 ^ 8 * 2 ^ 12 ∧ s'.mgt.auditNext = s.mgt.auditNext + 1)) ∧
      (domainRuns s 6 = true →
        (∃ s', exec (.registerWrite 0 .bar0 0x300004 l) s = .next s' ∧
          s'.mem.event.testBit b = (s.mem.event.testBit b && !x.testBit b)) ∧
        (∃ s', exec (.registerWrite 0 .bar0 0x300200 l) s = .next s' ∧ s' = { s with mem := { s.mem with laneSel := x % 2 ^ 10 } } ∧
          regValue s' 0 0x300204 = BitVec.ofNat 32 (laneInfoWord { s with mem := { s.mem with laneSel := x % 2 ^ 10 } })) ∧
        (s.ts.committed = true ∨ roomAny s = false ∨ (s.mgt.lifecycle = 2 ∧ contextOpen s = false) →
          ∀ o ∈ [0x300020, 0x300024, 0x300028], exec (.registerWrite 0 .bar0 o l) s = .next s) ∧
        (s.ts.committed = false → roomAny s = true → contextOpen s = true ∨ s.mgt.lifecycle ≠ 2 →
          ∀ o ∈ [0x300020, 0x300024, 0x300028], ∃ s' r, exec (.registerWrite 0 .bar0 o l) s = .next s' ∧
            s'.mgt.records = s.mgt.records.put (s.mgt.auditNext % 65536) r ∧
            sub r 20 4 = leBytes 1 (if contextOpen s then 1 else 3) ++ leBytes 1 0 ++ leBytes 2 (if contextOpen s then 0x0200 else 0x0301) ∧
            s'.mem.calInterval = (if o = 0x300020 then Nat.max 10 (Nat.min 1000 x) else s.mem.calInterval) ∧
            s'.mem.rebuildShare = (if o = 0x300024 then Nat.max 10 (Nat.min 90 x) else s.mem.rebuildShare) ∧
            s'.mem.patrolPeriod = (if o = 0x300028 then Nat.max 1 (Nat.min 168 x) else s.mem.patrolPeriod) ∧ s'.mem.bytes = s.mem.bytes)))

/-- While the mailbox answers and the management core is not restarting: discovery lists the three protocols; GET_VERSION gives 1.2 and 1.3 and
ends the sessions; a negotiation that offers the device's algorithms takes them; digests, a portion of a provisioned chain, a challenge and
measurements are answered from the state they describe; a key exchange with the negotiated group opens the next of at most 4 sessions, which
FINISH puts in force; HEARTBEAT, KEY_UPDATE and END_SESSION act on a session in force, SET_CERTIFICATE on slot 1. Inside one, KEY_PROG, K_SET_GO
and K_SET_STOP act on the named IDE stream, and the TDISP messages take a present VF from CONFIG_UNLOCKED to CONFIG_LOCKED, to RUN and back, and
report its ranges. During a restart every message is answered Busy (log 37). Whatever the message, nothing outside SPDM state, the answer and,
for SET_CERTIFICATE (whose role log 58 chooses), the slot 1 chain changes, and the DRBG moves on. (Content per log 13.) Completes: DOE_DISCOVERY, GET_VERSION, GET_CAPABILITIES, NEGOTIATE_ALGORITHMS, GET_DIGESTS,
GET_CERTIFICATE, CHALLENGE, GET_MEASUREMENTS, KEY_EXCHANGE, FINISH, HEARTBEAT, KEY_UPDATE, END_SESSION, SET_CERTIFICATE, KEY_PROG, K_SET_GO,
K_SET_STOP, LOCK_INTERFACE_REQUEST, GET_DEVICE_INTERFACE_REPORT, START_INTERFACE_REQUEST, STOP_INTERFACE_REQUEST. -/
def Obligations.AttestationMessages : Prop :=
  ∀ (s : State), doeUp s = true →
    (s.flt.mcRestarting = true → ∀ c, Message c → exec c s = .next (reply s (.errorCode "Busy"))) ∧
    (∀ c, Message c → ∃ s', exec c s = .next s' ∧
      s' = { s with spdm := s'.spdm, out := { s.out with doe := s'.out.doe }, freeCtr := s'.freeCtr, mgt := { s.mgt with chain1 := s'.mgt.chain1 } } ∧
      ((∀ k l, c ≠ .setCertificate k l) → s'.mgt = s.mgt)) ∧
    (s.flt.mcRestarting = false →
      (∀ i, i < 3 → exec (.doeDiscovery i) s = .next (reply s (.protocols (if i = 2 then 0 else i + 1) 1 i))) ∧
      (∃ s', exec .getVersion s = .next s' ∧ s'.out.doe = .version [0x12, 0x13] ∧ s'.spdm.sessions = [] ∧ s'.spdm.ide = s.spdm.ide ∧
        s'.spdm.tdi = s.spdm.tdi ∧ s'.mgt = s.mgt ∧ s'.hi = s.hi ∧ s'.ts = s.ts) ∧
      (∃ l, exec .getCapabilities s = .next (reply s (.capabilities l))) ∧
      (∀ ver a h d e, ver = 0x12 ∨ ver = 0x13 → a.testBit 3 = true → h.testBit 0 = true → d.testBit 3 = true ∨ d.testBit 4 = true →
        e.testBit 1 = true → ∃ s' g, exec (.negotiateAlgorithms ver a h d e) s = .next s' ∧ s'.spdm.negotiated = true ∧
          s'.spdm.version = ver ∧ s'.spdm.dhe = g ∧ (g = 3 ∨ g = 4) ∧ d.testBit g = true ∧ s'.out.doe = .algorithms ver g ∧ s'.mgt = s.mgt) ∧
      (∀ sid x, s.spdm.sessions.find sid = some x → x.finished = false →
        (∃ s', exec (.finish sid true) s = .next s' ∧ s'.spdm.sessions.find sid = some { x with finished := true }) ∧
        (∃ s', exec (.finish sid false) s = .next s' ∧ s'.spdm.sessions.find sid = none)) ∧
      (s.spdm.negotiated = true →
        (∃ m l, exec .getDigests s = .next (reply s (.digests m l)) ∧ l.head? = some (sha256 Config.chain0) ∧
          (m.testBit 1 = true ↔ s.mgt.chain1 ≠ [])) ∧
        (∀ off len, s.mgt.chain1 ≠ [] → off ≤ s.mgt.chain1.length → exec (.getCertificate 1 off len) s =
          .next (reply s (.certificate 1 ((s.mgt.chain1.drop off).take len) (s.mgt.chain1.length - off - len)))) ∧
        (∀ slot nonce, slot = 0 ∨ (slot = 1 ∧ s.mgt.chain1 ≠ []) → nonce.length = 32 → ∃ s' m g, exec (.challenge slot nonce) s = .next s' ∧
          s'.out.doe = .challenge slot (sha256 (if slot = 0 then Config.chain0 else s.mgt.chain1)) m g ∧ s'.mgt = s.mgt ∧ s'.spdm = s.spdm) ∧
        (∀ i nonce, 1 ≤ i → i ≤ 7 → exec (.getMeasurements i false nonce) s = .next (reply s (.measurements [(i, measBlock s i)] []))) ∧
        (∀ pub, pointOk (groupCurve s.spdm.dhe) pub = true → s.spdm.sessions.length < 4 → ∃ s' p g,
          exec (.keyExchange s.spdm.dhe pub) s = .next s' ∧ s'.out.doe = .keyExchange s.spdm.nextSid p g ∧
          s'.spdm.sessions = s.spdm.sessions.put s.spdm.nextSid { finished := false, updates := 0, beats := 0 } ∧
          s'.spdm.nextSid = s.spdm.nextSid + 1) ∧
        (∀ chain, chain.length ≤ 8192 → ∃ s', exec (.setCertificate 1 chain) s = .next s' ∧ s'.mgt = { s.mgt with chain1 := chain })) ∧
      (∀ sid x, s.spdm.sessions.find sid = some x → x.finished = true →
        (∃ s', exec (.heartbeat sid) s = .next s' ∧ s'.spdm.sessions = s.spdm.sessions.put sid { x with beats := x.beats + 1 }) ∧
        (∀ op, 1 ≤ op → op ≤ 3 → ∃ s', exec (.keyUpdate sid op) s = .next s' ∧ s'.spdm.ide = s.spdm.ide ∧
          s'.spdm.sessions = s.spdm.sessions.put sid { x with updates := x.updates + (if op = 3 then 0 else 1) }) ∧
        (∃ s', exec (.endSession sid) s = .next s' ∧ s'.spdm.sessions.find sid = none ∧ s'.spdm.ide = s.spdm.ide) ∧
        (∀ stream kset tx sub key, stream < 8 → kset < 2 → sub < 3 → key.length = 32 → ∃ s',
          exec (.keyProg sid stream kset tx sub key) s = .next s' ∧
          (s'.spdm.ide.get stream ide0).keys.find (6 * kset + 3 * b2n tx + sub) = some key ∧
          ∀ k, k ≠ stream → s'.spdm.ide.find k = s.spdm.ide.find k) ∧
        (∀ stream kset tx, stream < 8 → kset < 2 → ∃ s', exec (.kSetGo sid stream kset tx) s = .next s' ∧
          (if tx then (s'.spdm.ide.get stream ide0).txSet else (s'.spdm.ide.get stream ide0).rxSet) = some kset ∧
          (s'.spdm.ide.get stream ide0).keys = (s.spdm.ide.get stream ide0).keys) ∧
        (∀ stream, stream < 8 → ∃ s', exec (.kSetStop sid stream) s = .next s' ∧ (s'.spdm.ide.get stream ide0).keys = [] ∧
          (s'.spdm.ide.get stream ide0).rxSet = none ∧ (s'.spdm.ide.get stream ide0).txSet = none) ∧
        (∀ fn, fn ≠ 0 → (fnRecOf s fn).present = true →
          (tdiOf s fn = .unlocked → ∃ s', exec (.lockInterfaceRequest sid fn) s = .next s' ∧ tdiOf s' fn = .locked ∧ s'.hi = s.hi) ∧
          (tdiOf s fn = .locked → ∃ s', exec (.startInterfaceRequest sid fn) s = .next s' ∧ tdiOf s' fn = .run ∧ s'.hi = s.hi) ∧
          (tdiOf s fn ≠ .unlocked → ∃ s', exec (.lockInterfaceRequest sid fn) s = .next s' ∧ tdiOf s' fn = tdiOf s fn) ∧
          (∃ s', exec (.stopInterfaceRequest sid fn) s = .next s' ∧ tdiOf s' fn = .unlocked ∧ s'.hi = s.hi ∧
            ∀ k, k ≠ fn → tdiOf s' k = tdiOf s k) ∧
          (tdiOf s fn = .locked ∨ tdiOf s fn = .run → exec (.getDeviceInterfaceReport sid fn) s = .next (reply s (.report fn
            [0, 0x10000, 0, 0x228, 0x8000, 0x400, 0xC000, 8, (fnRecOf s fn).part]))))))

/-- While the standby domain runs, each of the seven commands answers its copy, little end first, with the Packet Error Code (the CRC-8 of
SMBus over the address of the straps, the command and the data: log 57), and changes nothing but the answer; any other
command is refused and changes nothing else. SMB_REFRESH takes the domain and package words, the hottest stack and zone, the averages and the
limit, leaving the copies of stopped domains. The alert pin is asserted exactly above 95 °C, with a power step, or when unrecoverable. TRST_N
holds the test port; with it released boundary scan is always admitted, instruments and the memory self-test only in FACTORY or under a diagnostic unlock in force (which bits of SCOPE: log 25). Completes: SMB_DOMAIN_STATUS,
SMB_PKG_STATE, SMB_TEMPERATURES, SMB_POWER, SMB_BOOT_STATUS, SMB_FLT_STATUS, SMB_SERIAL, SMB_UNSUPPORTED_COMMAND, SMB_REFRESH,
TEST_CONTROLLER_ACCESS. -/
def Obligations.SidebandAndTestController : Prop :=
  ∀ (s : State), domainRuns s 0 = true →
    exec .smbDomainStatus s = .next { s with out := { s.out with smbus := some (withPec s.clk 1 (leBytes 4 s.smb.domain)) } } ∧
    exec .smbPkgState s = .next { s with out := { s.out with smbus := some (withPec s.clk 2 (leBytes 4 s.smb.pkg)) } } ∧
    exec .smbTemperatures s = .next { s with out := { s.out with smbus := some (withPec s.clk 3 ((s.smb.temps.map (fun t => leBytes 1 (t % 256).toNat)).flatten)) } } ∧
    exec .smbPower s = .next { s with out := { s.out with smbus := some (withPec s.clk 4 (leBytes 2 s.smb.power ++ leBytes 2 s.smb.powerW)) } } ∧
    exec .smbBootStatus s = .next { s with out := { s.out with smbus := some (withPec s.clk 5 (leBytes 4 s.smb.boot)) } } ∧
    exec .smbFltStatus s = .next { s with out := { s.out with smbus := some (withPec s.clk 6 (leBytes 4 s.smb.flt)) } } ∧
    exec .smbSerial s = .next { s with out := { s.out with smbus := some (withPec s.clk 7 (leBytes 8 s.smb.serial)) } } ∧
    (∀ cmd l, cmd < 256 → ∃ p, withPec s.clk cmd l = l ++ leBytes 1 p ∧
      (leBytes 1 (2 * (0x58 + s.clk.addrStrap % 4)) ++ leBytes 1 cmd ++ leBytes 1 (2 * (0x58 + s.clk.addrStrap % 4) + 1) ++ l ++
        leBytes 1 p).foldl crc8 0 = 0) ∧
    (∀ cmd, cmd = 0 ∨ 7 < cmd → exec (.smbUnsupportedCommand cmd) s = .next { s with out := { s.out with smbus := none } }) ∧
    (∃ s', exec .smbRefresh s = .next s' ∧ s'.smb.domain = clkDomainWord s ∧ s'.smb.power = s.clk.avgPower ∧ s'.smb.powerW = s.clk.powerW ∧
      (s.clk.pkg < 8 → s'.smb.pkg % 8 = s.clk.pkg ∧ s'.smb.pkg.testBit 31 = s.clk.trip ∧ s'.smb.pkg.testBit 30 = s.clk.v12Ok) ∧
      (∀ d, d < 8 → s'.smb.domain.testBit d = domainRuns s d) ∧
      (domainRuns s 6 = true → (∀ n, n < 20 → (stackOf s n).temp ≤ s'.smb.temps.getD 1 0) ∧
        (s'.smb.temps.getD 1 0 = -128 ∨ ∃ n, n < 20 ∧ s'.smb.temps.getD 1 0 = (stackOf s n).temp)) ∧
      (domainRuns s 6 = false → s'.smb.temps.getD 1 0 = s.smb.temps.getD 1 0) ∧
      (domainRuns s 2 = true → (∀ z, z < 16 → (s.mir.zones.get z zone0).temp ≤ s'.smb.temps.getD 2 0) ∧
        (s'.smb.temps.getD 2 0 = -128 ∨ ∃ z, z < 16 ∧ s'.smb.temps.getD 2 0 = (s.mir.zones.get z zone0).temp)) ∧
      (domainRuns s 2 = false → s'.smb.temps.getD 2 0 = s.smb.temps.getD 2 0) ∧
      (domainRuns s 3 = false → s'.smb.flt = s.smb.flt) ∧ (domainRuns s 2 = false → s'.smb.boot = s.smb.boot ∧ s'.smb.serial = s.smb.serial) ∧
      s'.ts = s.ts ∧ s'.mem = s.mem ∧ s'.mgt = s.mgt ∧ s'.out = s.out) ∧
    (alertNow s = true ↔ (∃ p ∈ s.mem.stks, 95 < p.2.temp) ∨ (∃ p ∈ s.mir.zones, 95 < p.2.temp) ∨ powerSteps s ≠ 0 ∨
      s.flt.unrecoverable = true) ∧
    (∀ low, exec (.testControllerAccess (.trst low)) s = .next { s with clk := { s.clk with tapReset := low } }) ∧
    (∀ k, (∀ low, k ≠ .trst low) → ∃ a, exec (.testControllerAccess k) s = .next { s with out := { s.out with tap := some a } } ∧
      (s.clk.tapReset = true → a = false) ∧
      (s.clk.tapReset = false → (k = .boundaryScan → a = true) ∧ (s.mgt.lifecycle = 0 → a = true) ∧
        (s.mgt.lifecycle ≠ 0 → diagOpen s = false → k ≠ .boundaryScan → a = false) ∧
        (∀ d, s.mgt.lifecycle ≠ 0 → diagOpen s = true → s.mgt.diag = some d →
          (k = .memoryBist → a = d.scope.testBit 1) ∧ (k = .instruments → a = (d.scope.testBit 0 || d.scope.testBit 2)))))


/-- A function-level reset ends every entry, group and session of the function without a completion entry, scrubs its tiles, drops its
translations and key slots, returns its page, rings, MSI-X table and configuration space to reset and its TDI to CONFIG_UNLOCKED; each of its
submission rings has its EPOCH increased by 1. What belongs to other functions, the bundle, the audit records, the IDE streams and an armed
injection stay; without a running transfer of the function, host memory stays and device memory changes only in the regions it releases, which
read as zero. An error of a locked TDI and an Initiate FLR bit do the same. A link reset does it to every function, clears the IDE streams and
the link; during a restart of the management core the link goes down at once and the functions wait for its end. (Log 44: what a link
reset keeps, and that an ERROR is never seen.) Each other configuration field takes what is written, and an invalidation drops the translations of its range and completes.
Completes: FUNCTION_LEVEL_RESET, LINK_RESET, TDI_ERROR, CONFIG_SPACE_WRITE, ATS_INVALIDATE_REQUEST. -/
def Obligations.FunctionResets : Prop :=
  ∀ (s : State) (fn : Nat), fnReach s fn = true →
    (∃ s', exec (.functionLevelReset fn) s = .next s' ∧
      (tdiLocked s fn = true → exec (.tdiError fn) s = .next s') ∧
      (∀ v, v.testBit 0 = true → exec (.configSpaceWrite fn .initiateFlr v) s = .next s') ∧
      ((cfgOf s fn).d3hot = true → exec (.configSpaceWrite fn .powerState 0) s = .next s') ∧
      (∀ e ∈ s'.ts.entries, e.fn ≠ fn) ∧ (∀ g ∈ s'.groups, g.fn ≠ fn) ∧ (∀ p ∈ s'.ts.sessions, p.2.fn ≠ fn) ∧
      pageOf s' fn = freshPage s ∧ cfgOf s' fn = fnCfg0 ∧ s'.hi.msix.get fn [] = [] ∧ tdiOf s' fn = .unlocked ∧
      (∀ a, a ∈ s'.hi.ats ↔ a ∈ s.hi.ats ∧ a.fn ≠ fn) ∧
      (∀ i, i < (fnRecOf s fn).sqCount → sqOf s' ((fnRecOf s fn).sqBase + i) =
        { sq0 with epoch := ((sqOf s ((fnRecOf s fn).sqBase + i)).epoch + 1) % 2 ^ 20 }) ∧
      (∀ i, i < (fnRecOf s fn).cqCount → cqOf s' ((fnRecOf s fn).cqBase + i) = cq0) ∧
      (∀ g ∈ s.groups, g.fn = fn → ∀ t ∈ groupTiles g, (tileOf s' t).spad = [] ∧ (tileOf s' t).status = .idle ∧
        (tileOf s' t).sems = [] ∧ (tileOf s' t).windows = [] ∧ (tileOf s' t).queues = []) ∧
      (∀ p ∈ s.ts.sessions, p.2.fn = fn → s'.pke.slots.find p.1 = none) ∧
      (∀ f, f ≠ fn → pageOf s' f = pageOf s f ∧ cfgOf s' f = cfgOf s f ∧ tdiOf s' f = tdiOf s f) ∧
      (∀ k, k < (fnRecOf s fn).sqBase ∨ (fnRecOf s fn).sqBase + (fnRecOf s fn).sqCount ≤ k → sqOf s' k = sqOf s k) ∧
      (∀ n, (∀ p ∈ s.ts.sessions, p.1 = n → p.2.fn ≠ fn) → s'.ts.sessions.find n = s.ts.sessions.find n) ∧
      (∀ t, (∀ g ∈ s.groups, g.fn = fn → t ∉ groupTiles g) → tileOf s' t = tileOf s t) ∧
      s'.ts.bundle = s.ts.bundle ∧ s'.mgt.records = s.mgt.records ∧ s'.spdm.ide = s.spdm.ide ∧ s'.flt.inj = s.flt.inj ∧
      s'.hi.link = s.hi.link ∧ s'.mgt.context = (if fn = 0 then none else s.mgt.context) ∧
      ((∀ e ∈ s.ts.entries, e.fn = fn → e.handle ∉ s.hi.xfers) →
        s'.out.host = s.out.host ∧
        (∀ p ∈ s.ts.sessions, p.2.fn = fn → ∀ r ∈ p.2.regions, r.host = false → ∀ a, r.base ≤ a → a < r.base + r.len →
          memByte s'.mem a = 0) ∧
        (∀ a, (∀ p ∈ s.ts.sessions, p.2.fn = fn → ∀ r ∈ p.2.regions, r.host = false → a < r.base ∨ r.base + r.len ≤ a) →
          memByte s'.mem a = memByte s.mem a))) ∧
    (s.flt.mcRestarting = true → exec .linkReset s =
      .next { s with flt := { s.flt with linkReset := true }, hi := { s.hi with link := { s.hi.link with up := false, rate := 0, width := 0, flit := false, l0p := 0 } } }) ∧
    (s.flt.mcRestarting = false → ∃ s', exec .linkReset s = .next s' ∧ s'.spdm.ide = [] ∧ s'.hi.link.up = false ∧
      (∀ f ∈ presentFns s, (∀ e ∈ s'.ts.entries, e.fn ≠ f) ∧ (∀ g ∈ s'.groups, g.fn ≠ f) ∧ (∀ p ∈ s'.ts.sessions, p.2.fn ≠ f) ∧
        pageOf s' f = freshPage s ∧ cfgOf s' f = fnCfg0 ∧ tdiOf s' f = .unlocked ∧ (∀ a ∈ s'.hi.ats, a.fn ≠ f)) ∧
      s'.ts.bundle = s.ts.bundle ∧ s'.mgt.records = s.mgt.records ∧ s'.flt.map = s.flt.map ∧ s'.mir.images = s.mir.images) ∧
    (∀ v on, v.testBit 0 = on → ∀ p ∈ [(CfgField.busMaster, { cfgOf s fn with busMaster := on }), (.priEnable, { cfgOf s fn with pri := on }),
        (.atsEnable, { cfgOf s fn with ats := on }), (.pasidEnable, { cfgOf s fn with pasid := on }),
        (.pageRequestAllocation, { cfgOf s fn with prAlloc := v % 2 ^ 32 }), (.msixEnable, { cfgOf s fn with msix := on }),
        (.msixFunctionMask, { cfgOf s fn with msixMask := on })],
      ∃ s', exec (.configSpaceWrite fn p.1 v) s = .next s' ∧ cfgOf s' fn = p.2 ∧ (∀ f, f ≠ fn → cfgOf s' f = cfgOf s f) ∧
        s'.ts = s.ts ∧ s'.mem = s.mem ∧ s'.tiles = s.tiles ∧ s'.mgt = s.mgt ∧ s'.hi.sqs = s.hi.sqs ∧ s'.hi.fns = s.hi.fns ∧
        (p.1 ≠ .msixFunctionMask ∨ on = true → s'.out = s.out ∧ s'.hi.msix = s.hi.msix) ∧
        (p.1 ≠ .atsEnable ∨ on = true → s'.hi.ats = s.hi.ats)) ∧
    (∀ i v, exec (.configSpaceWrite fn (.ideStreamEnable i) v) s = .next (if fn = 0 ∧ i < 8 then { s with spdm := { s.spdm with
      ide := s.spdm.ide.put i { s.spdm.ide.get i ide0 with enabled := v.testBit 0 } } } else s)) ∧
    exec (.configSpaceWrite fn .powerState 3) s = .next (setCfg s fn { cfgOf s fn with d3hot := true }) ∧
    (∀ pasid addr size, ∃ s', exec (.atsInvalidateRequest fn pasid addr size) s = .next s' ∧
      (∀ a, a ∈ s'.hi.ats ↔ a ∈ s.hi.ats ∧ ¬(a.fn = fn ∧ a.space = (match pasid with | some p => 1 + p % 2 ^ 20 | none => 0) ∧
        4096 * a.page < addr + size ∧ addr < 4096 * a.page + 4096 ∧ 0 < size)) ∧
      s'.out.link = s.out.link ++ [.invalidateDone fn] ∧
      s' = { s with hi := { s.hi with ats := s'.hi.ats }, out := { s.out with link := s'.out.link } })

/-- A write that the gates accept is recorded. ARM then ends with the refusal code of R359 for a busy, unknown, unreachable, spare-less or
degraded target; the kinds 1 to 5, 0x10 and 0x11 wait armed; 6, 0x12, 0x13, 0x14, 0x20 and 0x21 fire at once with their effect, DONE, FIRED and
INJ_DONE, but 6 waits for the end of a restart of the management core, and while a spare is free the device does not become unrecoverable. A discarded write changes nothing. An armed CORE injection fires
at the tile's next ALU instruction: its group stops for replay and the tile keeps its state. CANCEL ends an armed injection with code 7, 1 s
without an opportunity with code 4. (Log 38: refusals set no INJ_DONE, and a write without the right is discarded.) Completes: ARM, CANCEL_INJECTION, NO_OPPORTUNITY. -/
def Obligations.FaultInjection : Prop :=
  ∀ (s s1 : State) (v k c t : Nat), v = s.flt.injTarget → k = injKind v → c = injChannel v → t = injTile v →
    (domainRuns s 3 = true →
      (fltWrite s 0 0x0600100 1 = none → exec .arm s = .next s) ∧
      (fltWrite s 0 0x0600100 2 = none → exec .cancelInjection s = .next s) ∧
      (fltWrite s 0 0x0600100 2 = some s1 → s.flt.inj = none → exec .cancelInjection s = .next s1) ∧
      (∀ i, fltWrite s 0 0x0600100 2 = some s1 → s.flt.inj = some i → ∃ s', exec .cancelInjection s = .next s' ∧ s'.flt.inj = none ∧
        s'.flt.injResult = 2 ^ 31 + 256 * i.kind + 7 ∧ s'.flt.event.testBit 7 = true ∧ s'.tiles = s.tiles ∧ s'.mem = s.mem) ∧
      (fltWrite s 0 0x0600100 1 = some s1 →
        (∀ code, (s.flt.inj ≠ none ∧ code = 5) ∨
            (s.flt.inj = none ∧ k ∉ [1, 2, 3, 4, 5, 6, 0x10, 0x11, 0x12, 0x13, 0x14, 0x20, 0x21] ∧ code = 6) ∨
            (s.flt.inj = none ∧ k ∈ [0x10, 0x11, 0x12, 0x13, 0x14] ∧ 960 ≤ c ∧ code = 6) ∨
            (s.flt.inj = none ∧ k = 6 ∧ sparesFree s < 2 ∧ code = 2) ∨
            (s.flt.inj = none ∧ k = 0x12 ∧ c < 960 ∧ (channelOf s c).dqFree = 0 ∧ code = 2) ∨
            (s.flt.inj = none ∧ k ∈ [0x10, 0x13, 0x14] ∧ c < 960 ∧ degraded s = true ∧ code = 3) ∨
            (s.flt.inj = none ∧ k ∈ [0x13, 0x14] ∧ c < 960 ∧ s.mem.noReserve = true ∧ code = 3) →
          exec .arm s = .next { s1 with flt := { s1.flt with injResult := 2 ^ 31 + 256 * k + code } }) ∧
        (s.flt.inj = none →
          (k ∈ [1, 2, 3, 4, 5] ∨ (k ∈ [0x10, 0x11] ∧ c < 960 ∧ (k = 0x10 → degraded s = false)) ∨
              (k = 6 ∧ 2 ≤ sparesFree s ∧ s.flt.mcRestarting = true) →
            exec .arm s = .next { s1 with flt := { s1.flt with
              inj := some { kind := k, ltile := t, channel := c, param := v % 256, armedAt := s.time }, injResult := 256 * k } }) ∧
          ((k = 6 ∧ 2 ≤ sparesFree s ∧ s.flt.mcRestarting = false) ∨ (k = 0x12 ∧ c < 960 ∧ 0 < (channelOf s c).dqFree) ∨
              (k ∈ [0x13, 0x14] ∧ c < 960 ∧ degraded s = false ∧ s.mem.noReserve = false) ∨ k ∈ [0x20, 0x21] →
            ∃ s', exec .arm s = .next s' ∧ s'.flt.inj = none ∧ s'.flt.injResult = 2 ^ 31 + 2 ^ 30 + 256 * k ∧
              s'.flt.event.testBit 7 = true ∧
              (k = 6 → physOf s t ∈ s'.flt.tempRetired ∧ s'.flt.fieldRetired = s.flt.fieldRetired ∧
                ((∃ q ∈ freeSpares s, q ≠ physOf s t) → physOf s' t ∈ freeSpares s ∧ s'.flt.saved = s.flt.saved)) ∧
              (k = 0x12 → channelLives s c = true → (channelOf s c).state = .inService ∨ (channelOf s c).state = .pause →
                (channelOf s' c).state = .repair ∧ (channelOf s' c).dqFree = (channelOf s c).dqFree - 1) ∧
              (k = 0x13 → channelLives s c = true → (channelOf s' c).state = .lost) ∧
              (k = 0x14 → s.mem.trained = true → (stackOf s' (c / 48)).state = 2) ∧
              (k = 0x20 → s'.flt.suppressed = true) ∧ (k = 0x21 → s'.flt.logCount = s.flt.logCount + 1) ∧
              (k ≠ 6 ∨ (∃ q ∈ freeSpares s, q ≠ physOf s t) → s'.flt.unrecoverable = s.flt.unrecoverable))))) ∧
    (∀ i, s.flt.inj = some i → i.armedAt + 1000000000 ≤ s.time → ∃ s', exec .noOpportunity s = .next s' ∧ s'.flt.inj = none ∧
      s'.flt.injResult = 2 ^ 31 + 256 * i.kind + 4 ∧ s'.flt.event.testBit 7 = true ∧ s'.tiles = s.tiles ∧ s'.groups = s.groups ∧
      s'.mem = s.mem) ∧
    (∀ i, s.flt.inj = some i → i.kind = 6 → s.flt.mcRestarting = true → s.flt.linkReset = false → s.mir.images ≠ 0 → s.mgt.blob = none →
      ∃ s', exec .glint s = .next s' ∧ s'.flt.inj = none ∧ s'.flt.injResult = 2 ^ 31 + 2 ^ 30 + 256 * 6) ∧
    (∀ i u g x w cyc, s.flt.inj = some i → i.kind = 4 → i.ltile = u → CoreReady s u 0x00 (fun w => [iD w, iA w, iB w]) g x w cyc →
      iFn w ≤ 0x0F → ∃ s', exec (.alu u) s = .next s' ∧ s'.tiles = s.tiles ∧ s'.mem = s.mem ∧ s'.flt.inj = none ∧
        s'.flt.injResult = 2 ^ 31 + 2 ^ 30 + 256 * 4 ∧
        tileGroup s' u = some { g with fault := some { source := 6, tile := u, link := 0xFFFF, cyc := cyc, unit := 5, injected := true, logged := false } })

/-- For every command c and state s, a step of s with c at the front of its queue is exec of c on s with the queue's rest. On an empty queue
HI_TIME counts one nanosecond while the LINK domain runs, Eddy notes of every group whether it stands still, a rebuild in progress goes on,
and nothing else changes: the model's own choice (logs 4 and 28). No word spells a command,
since the table gives no bits, so withFetchWord leaves the state as it is. -/
def Obligations.StepRunsTheFrontCommand : Prop :=
  ∀ (s : State) (c : Instr) (rest : List Instr),
    step { s with pending := c :: rest } = exec c { s with pending := rest } ∧
    (s.pending = [] → ∃ u, u = (if domainRuns s 1 then { s with time := s.time + 1 } else s) ∧
      step s = .next (rebuildTick { u with groups := s.groups.map (noteStall u) }) ∧
      (s.mem.rebuilding = false → step s = .next { u with groups := s.groups.map (noteStall u) })) ∧
    (∀ nbits w, decodeTableWord nbits w = none ∧ s.withFetchWord nbits w = s)

/-- After reset only the standby domain runs and the package is in STANDBY (that reset is the point where standby power has become valid is the
model's choice, log 1). No entry, session or task is held; every ring is disabled with EPOCH 0, EXPECT 0 and COAL 0x0001_0001; a function page
polls as 0x6401 gives; version 0 of the bundle is active with one partition of 64 tiles for PF0; every stripe is UNWRITTEN and every
device byte reads as zero; no context or unlock is open, no fault is recorded, no injection armed; the result registers hold DONE with OK.
Tile registers read as
zero and tiles idle (DESIGN CHOICE, log 3). -/
def Obligations.ResetState : Prop :=
  State.reset.pending = [] ∧ (∀ d, domainRuns State.reset d = decide (d = 0)) ∧ State.reset.clk.pkg = 1 ∧ State.reset.clk.perst = true ∧
    State.reset.ts.entries = [] ∧ State.reset.ts.sessions = [] ∧ State.reset.groups = [] ∧
    (∀ k, (sqOf State.reset k).enabled = false ∧ (sqOf State.reset k).epoch = 0 ∧ (sqOf State.reset k).expect = 0 ∧
      (cqOf State.reset k).enabled = false ∧ (cqOf State.reset k).coal = 0x00010001) ∧
    (∀ f, (pageOf State.reset f).poll = 0x6401 ∧ (pageOf State.reset f).dbrBase = 0) ∧
    State.reset.ts.bundle.version = 0 ∧ (partOf State.reset 0).tiles = 2 ^ 64 - 1 ∧ presentFns State.reset = [0] ∧
    State.reset.ts.result = 0x80000000 ∧ State.reset.mgt.cmdResult = 0x80000000 ∧
    (∀ st, stripeOf State.reset st = .unwritten) ∧ (∀ a, State.reset.mem.bytes.rd a = 0) ∧ State.reset.mem.bytes.wf = true ∧
    State.reset.mgt.context = none ∧ State.reset.mgt.diag = none ∧ State.reset.flt.unrecoverable = false ∧ State.reset.flt.event = 0 ∧
    State.reset.flt.logCount = 0 ∧ State.reset.flt.inj = none ∧
    (∀ t, (tileOf State.reset t).status = .idle ∧ ∀ n, regOf (tileOf State.reset t) n = 0)

/-- For every state whose device memory stands in the model's canonical form (addresses strictly rising, no listed byte 0) and every next
state that a step answers, whatever the command, device memory stands in that form again. The form itself is the model's (log 8). -/
def Obligations.MemoryFormKept : Prop :=
  ∀ (s s' : State), s.mem.bytes.wf = true → step s = .next s' → s'.mem.bytes.wf = true

/-- Whatever the command, a device that has left FACTORY stays out of it, and the lifecycle stays one of the three states of R361. This covers
resets, restarts, releases of ownership and rollbacks of the bundle. -/
def Obligations.LifecycleNeverReturnsToFactory : Prop :=
  ∀ (s s' : State), step s = .next s' → (s.mgt.lifecycle ≠ 0 → s'.mgt.lifecycle ≠ 0) ∧ (s.mgt.lifecycle ≤ 2 → s'.mgt.lifecycle ≤ 2)
end

