-- ==== Sys2Proof/Laws/Tables.lean ====
section
/-! SUPPORT. The laws of sparse tables: what an entry reads as after a write. -/

namespace Sys2Proof.Machine

variable {α : Type}

@[simp] theorem Tbl.find_nil (k : Nat) : Tbl.find ([] : Tbl α) k = none := rfl

@[simp] theorem Tbl.get_nil (k : Nat) (d : α) : Tbl.get ([] : Tbl α) k d = d := rfl

@[simp] theorem Tbl.find_put_self (t : Tbl α) (k : Nat) (v : α) : (t.put k v).find k = some v := by
  induction t with
  | nil => simp [Tbl.put, Tbl.find]
  | cons p r ih =>
    obtain ⟨j, w⟩ := p
    by_cases h : k < j
    · simp [Tbl.put, Tbl.find, h]
    · by_cases e : k = j
      · simp [Tbl.put, Tbl.find, e]
      · have : j ≠ k := fun x => e x.symm
        simp [Tbl.put, Tbl.find, h, e, this, ih]

theorem Tbl.find_put_ne (t : Tbl α) {k m : Nat} (v : α) (hm : m ≠ k) : (t.put k v).find m = t.find m := by
  have hk : k ≠ m := fun e => hm e.symm
  induction t with
  | nil => simp [Tbl.put, Tbl.find, hk]
  | cons p r ih =>
    obtain ⟨j, w⟩ := p
    by_cases h : k < j
    · simp [Tbl.put, Tbl.find, h, hk]
    · by_cases e : k = j
      · subst e
        simp [Tbl.put, Tbl.find, hk]
      · simp [Tbl.put, Tbl.find, h, e, ih]

@[simp] theorem Tbl.get_put_self (t : Tbl α) (k : Nat) (v d : α) : (t.put k v).get k d = v := by simp [Tbl.get]

theorem Tbl.get_put_ne (t : Tbl α) {k m : Nat} (v d : α) (hm : m ≠ k) : (t.put k v).get m d = t.get m d := by
  simp [Tbl.get, Tbl.find_put_ne t v hm]

theorem Tbl.get_put (t : Tbl α) (k m : Nat) (v d : α) : (t.put k v).get m d = if m = k then v else t.get m d := by
  by_cases h : m = k
  · simp [h]
  · simp [h, Tbl.get_put_ne t v d h]

/-- A second write of one entry replaces the first. -/
@[simp] theorem Tbl.put_put (t : Tbl α) (k : Nat) (v w : α) : (t.put k v).put k w = t.put k w := by
  induction t with
  | nil => simp [Tbl.put]
  | cons p r ih =>
    obtain ⟨j, u⟩ := p
    by_cases h : k < j
    · simp [Tbl.put, h]
    · by_cases e : k = j
      · simp [Tbl.put, e]
      · simp [Tbl.put, h, e, ih]

end Sys2Proof.Machine
end

