-- ==== Sys2Proof/Laws/State.lean ====
section
/-! SUPPORT. What each update of a part of the state reads as, one lemma per field. -/

namespace Sys2Proof.Machine

@[simp] theorem tileOf_setTile (s : State) (t : Nat) (x : Tile) : tileOf (setTile s t x) t = x := by simp [tileOf, setTile]

theorem tileOf_setTile_ne (s : State) {t u : Nat} (x : Tile) (h : u ≠ t) : tileOf (setTile s t x) u = tileOf s u := by
  simp [tileOf, setTile, Tbl.get_put_ne _ _ _ h]

@[simp] theorem setTile_setTile (s : State) (t : Nat) (x y : Tile) : setTile (setTile s t x) t y = setTile s t y := by simp [setTile]

@[simp] theorem pageOf_setPage (s : State) (fn : Nat) (p : FnPage) : pageOf (setPage s fn p) fn = p := by simp [pageOf, setPage]

theorem pageOf_setPage_ne (s : State) {fn k : Nat} (p : FnPage) (h : k ≠ fn) : pageOf (setPage s fn p) k = pageOf s k := by
  simp [pageOf, setPage, Tbl.get_put_ne _ _ _ h]

@[simp] theorem sqOf_setSq (s : State) (g : Nat) (q : Sq) : sqOf (setSq s g q) g = q := by simp [sqOf, setSq]

theorem sqOf_setSq_ne (s : State) {g k : Nat} (q : Sq) (h : k ≠ g) : sqOf (setSq s g q) k = sqOf s k := by
  simp [sqOf, setSq, Tbl.get_put_ne _ _ _ h]

@[simp] theorem cqOf_setCq (s : State) (g : Nat) (q : Cq) : cqOf (setCq s g q) g = q := by simp [cqOf, setCq]

theorem cqOf_setCq_ne (s : State) {g k : Nat} (q : Cq) (h : k ≠ g) : cqOf (setCq s g q) k = cqOf s k := by
  simp [cqOf, setCq, Tbl.get_put_ne _ _ _ h]

@[simp] theorem infoOf_setInfo (s : State) (t : Nat) (i : TileInfo) : infoOf (setInfo s t i) t = i := by simp [infoOf, setInfo]

theorem infoOf_setInfo_ne (s : State) {t u : Nat} (i : TileInfo) (h : u ≠ t) : infoOf (setInfo s t i) u = infoOf s u := by
  simp [infoOf, setInfo, Tbl.get_put_ne _ _ _ h]

@[simp] theorem setTile_pending (s : State) (t : Nat) (x : Tile) : (setTile s t x).pending = s.pending := rfl
@[simp] theorem setTile_freeCtr (s : State) (t : Nat) (x : Tile) : (setTile s t x).freeCtr = s.freeCtr := rfl
@[simp] theorem setTile_time (s : State) (t : Nat) (x : Tile) : (setTile s t x).time = s.time := rfl
@[simp] theorem setTile_clk (s : State) (t : Nat) (x : Tile) : (setTile s t x).clk = s.clk := rfl
@[simp] theorem setTile_hi (s : State) (t : Nat) (x : Tile) : (setTile s t x).hi = s.hi := rfl
@[simp] theorem setTile_ts (s : State) (t : Nat) (x : Tile) : (setTile s t x).ts = s.ts := rfl
@[simp] theorem setTile_groups (s : State) (t : Nat) (x : Tile) : (setTile s t x).groups = s.groups := rfl
@[simp] theorem setTile_mem (s : State) (t : Nat) (x : Tile) : (setTile s t x).mem = s.mem := rfl
@[simp] theorem setTile_mir (s : State) (t : Nat) (x : Tile) : (setTile s t x).mir = s.mir := rfl
@[simp] theorem setTile_flt (s : State) (t : Nat) (x : Tile) : (setTile s t x).flt = s.flt := rfl
@[simp] theorem setTile_mgt (s : State) (t : Nat) (x : Tile) : (setTile s t x).mgt = s.mgt := rfl
@[simp] theorem setTile_pke (s : State) (t : Nat) (x : Tile) : (setTile s t x).pke = s.pke := rfl
@[simp] theorem setTile_spdm (s : State) (t : Nat) (x : Tile) : (setTile s t x).spdm = s.spdm := rfl
@[simp] theorem setTile_smb (s : State) (t : Nat) (x : Tile) : (setTile s t x).smb = s.smb := rfl
@[simp] theorem setTile_out (s : State) (t : Nat) (x : Tile) : (setTile s t x).out = s.out := rfl
@[simp] theorem setGroup_pending (s : State) (g : Group) : (setGroup s g).pending = s.pending := rfl
@[simp] theorem setGroup_freeCtr (s : State) (g : Group) : (setGroup s g).freeCtr = s.freeCtr := rfl
@[simp] theorem setGroup_time (s : State) (g : Group) : (setGroup s g).time = s.time := rfl
@[simp] theorem setGroup_clk (s : State) (g : Group) : (setGroup s g).clk = s.clk := rfl
@[simp] theorem setGroup_hi (s : State) (g : Group) : (setGroup s g).hi = s.hi := rfl
@[simp] theorem setGroup_ts (s : State) (g : Group) : (setGroup s g).ts = s.ts := rfl
@[simp] theorem setGroup_tiles (s : State) (g : Group) : (setGroup s g).tiles = s.tiles := rfl
@[simp] theorem setGroup_mem (s : State) (g : Group) : (setGroup s g).mem = s.mem := rfl
@[simp] theorem setGroup_mir (s : State) (g : Group) : (setGroup s g).mir = s.mir := rfl
@[simp] theorem setGroup_flt (s : State) (g : Group) : (setGroup s g).flt = s.flt := rfl
@[simp] theorem setGroup_mgt (s : State) (g : Group) : (setGroup s g).mgt = s.mgt := rfl
@[simp] theorem setGroup_pke (s : State) (g : Group) : (setGroup s g).pke = s.pke := rfl
@[simp] theorem setGroup_spdm (s : State) (g : Group) : (setGroup s g).spdm = s.spdm := rfl
@[simp] theorem setGroup_smb (s : State) (g : Group) : (setGroup s g).smb = s.smb := rfl
@[simp] theorem setGroup_out (s : State) (g : Group) : (setGroup s g).out = s.out := rfl
@[simp] theorem setPage_pending (s : State) (fn : Nat) (p : FnPage) : (setPage s fn p).pending = s.pending := rfl
@[simp] theorem setPage_freeCtr (s : State) (fn : Nat) (p : FnPage) : (setPage s fn p).freeCtr = s.freeCtr := rfl
@[simp] theorem setPage_time (s : State) (fn : Nat) (p : FnPage) : (setPage s fn p).time = s.time := rfl
@[simp] theorem setPage_clk (s : State) (fn : Nat) (p : FnPage) : (setPage s fn p).clk = s.clk := rfl
@[simp] theorem setPage_ts (s : State) (fn : Nat) (p : FnPage) : (setPage s fn p).ts = s.ts := rfl
@[simp] theorem setPage_groups (s : State) (fn : Nat) (p : FnPage) : (setPage s fn p).groups = s.groups := rfl
@[simp] theorem setPage_tiles (s : State) (fn : Nat) (p : FnPage) : (setPage s fn p).tiles = s.tiles := rfl
@[simp] theorem setPage_mem (s : State) (fn : Nat) (p : FnPage) : (setPage s fn p).mem = s.mem := rfl
@[simp] theorem setPage_mir (s : State) (fn : Nat) (p : FnPage) : (setPage s fn p).mir = s.mir := rfl
@[simp] theorem setPage_flt (s : State) (fn : Nat) (p : FnPage) : (setPage s fn p).flt = s.flt := rfl
@[simp] theorem setPage_mgt (s : State) (fn : Nat) (p : FnPage) : (setPage s fn p).mgt = s.mgt := rfl
@[simp] theorem setPage_pke (s : State) (fn : Nat) (p : FnPage) : (setPage s fn p).pke = s.pke := rfl
@[simp] theorem setPage_spdm (s : State) (fn : Nat) (p : FnPage) : (setPage s fn p).spdm = s.spdm := rfl
@[simp] theorem setPage_smb (s : State) (fn : Nat) (p : FnPage) : (setPage s fn p).smb = s.smb := rfl
@[simp] theorem setPage_out (s : State) (fn : Nat) (p : FnPage) : (setPage s fn p).out = s.out := rfl
@[simp] theorem setPage_hi_link (s : State) (fn : Nat) (p : FnPage) : (setPage s fn p).hi.link = s.hi.link := rfl
@[simp] theorem setPage_hi_cfgs (s : State) (fn : Nat) (p : FnPage) : (setPage s fn p).hi.cfgs = s.hi.cfgs := rfl
@[simp] theorem setPage_hi_fnSel (s : State) (fn : Nat) (p : FnPage) : (setPage s fn p).hi.fnSel = s.hi.fnSel := rfl
@[simp] theorem setPage_hi_sqs (s : State) (fn : Nat) (p : FnPage) : (setPage s fn p).hi.sqs = s.hi.sqs := rfl
@[simp] theorem setPage_hi_cqs (s : State) (fn : Nat) (p : FnPage) : (setPage s fn p).hi.cqs = s.hi.cqs := rfl
@[simp] theorem setPage_hi_msix (s : State) (fn : Nat) (p : FnPage) : (setPage s fn p).hi.msix = s.hi.msix := rfl
@[simp] theorem setPage_hi_pairs (s : State) (fn : Nat) (p : FnPage) : (setPage s fn p).hi.pairs = s.hi.pairs := rfl
@[simp] theorem setPage_hi_ats (s : State) (fn : Nat) (p : FnPage) : (setPage s fn p).hi.ats = s.hi.ats := rfl
@[simp] theorem setPage_hi_pris (s : State) (fn : Nat) (p : FnPage) : (setPage s fn p).hi.pris = s.hi.pris := rfl
@[simp] theorem setPage_hi_xfers (s : State) (fn : Nat) (p : FnPage) : (setPage s fn p).hi.xfers = s.hi.xfers := rfl
@[simp] theorem setPage_hi_recent (s : State) (fn : Nat) (p : FnPage) : (setPage s fn p).hi.recent = s.hi.recent := rfl
@[simp] theorem setSq_pending (s : State) (g : Nat) (q : Sq) : (setSq s g q).pending = s.pending := rfl
@[simp] theorem setSq_freeCtr (s : State) (g : Nat) (q : Sq) : (setSq s g q).freeCtr = s.freeCtr := rfl
@[simp] theorem setSq_time (s : State) (g : Nat) (q : Sq) : (setSq s g q).time = s.time := rfl
@[simp] theorem setSq_clk (s : State) (g : Nat) (q : Sq) : (setSq s g q).clk = s.clk := rfl
@[simp] theorem setSq_ts (s : State) (g : Nat) (q : Sq) : (setSq s g q).ts = s.ts := rfl
@[simp] theorem setSq_groups (s : State) (g : Nat) (q : Sq) : (setSq s g q).groups = s.groups := rfl
@[simp] theorem setSq_tiles (s : State) (g : Nat) (q : Sq) : (setSq s g q).tiles = s.tiles := rfl
@[simp] theorem setSq_mem (s : State) (g : Nat) (q : Sq) : (setSq s g q).mem = s.mem := rfl
@[simp] theorem setSq_mir (s : State) (g : Nat) (q : Sq) : (setSq s g q).mir = s.mir := rfl
@[simp] theorem setSq_flt (s : State) (g : Nat) (q : Sq) : (setSq s g q).flt = s.flt := rfl
@[simp] theorem setSq_mgt (s : State) (g : Nat) (q : Sq) : (setSq s g q).mgt = s.mgt := rfl
@[simp] theorem setSq_pke (s : State) (g : Nat) (q : Sq) : (setSq s g q).pke = s.pke := rfl
@[simp] theorem setSq_spdm (s : State) (g : Nat) (q : Sq) : (setSq s g q).spdm = s.spdm := rfl
@[simp] theorem setSq_smb (s : State) (g : Nat) (q : Sq) : (setSq s g q).smb = s.smb := rfl
@[simp] theorem setSq_out (s : State) (g : Nat) (q : Sq) : (setSq s g q).out = s.out := rfl
@[simp] theorem setSq_hi_link (s : State) (g : Nat) (q : Sq) : (setSq s g q).hi.link = s.hi.link := rfl
@[simp] theorem setSq_hi_cfgs (s : State) (g : Nat) (q : Sq) : (setSq s g q).hi.cfgs = s.hi.cfgs := rfl
@[simp] theorem setSq_hi_fns (s : State) (g : Nat) (q : Sq) : (setSq s g q).hi.fns = s.hi.fns := rfl
@[simp] theorem setSq_hi_fnSel (s : State) (g : Nat) (q : Sq) : (setSq s g q).hi.fnSel = s.hi.fnSel := rfl
@[simp] theorem setSq_hi_cqs (s : State) (g : Nat) (q : Sq) : (setSq s g q).hi.cqs = s.hi.cqs := rfl
@[simp] theorem setSq_hi_msix (s : State) (g : Nat) (q : Sq) : (setSq s g q).hi.msix = s.hi.msix := rfl
@[simp] theorem setSq_hi_pairs (s : State) (g : Nat) (q : Sq) : (setSq s g q).hi.pairs = s.hi.pairs := rfl
@[simp] theorem setSq_hi_ats (s : State) (g : Nat) (q : Sq) : (setSq s g q).hi.ats = s.hi.ats := rfl
@[simp] theorem setSq_hi_pris (s : State) (g : Nat) (q : Sq) : (setSq s g q).hi.pris = s.hi.pris := rfl
@[simp] theorem setSq_hi_xfers (s : State) (g : Nat) (q : Sq) : (setSq s g q).hi.xfers = s.hi.xfers := rfl
@[simp] theorem setSq_hi_recent (s : State) (g : Nat) (q : Sq) : (setSq s g q).hi.recent = s.hi.recent := rfl
@[simp] theorem setCq_pending (s : State) (g : Nat) (q : Cq) : (setCq s g q).pending = s.pending := rfl
@[simp] theorem setCq_freeCtr (s : State) (g : Nat) (q : Cq) : (setCq s g q).freeCtr = s.freeCtr := rfl
@[simp] theorem setCq_time (s : State) (g : Nat) (q : Cq) : (setCq s g q).time = s.time := rfl
@[simp] theorem setCq_clk (s : State) (g : Nat) (q : Cq) : (setCq s g q).clk = s.clk := rfl
@[simp] theorem setCq_ts (s : State) (g : Nat) (q : Cq) : (setCq s g q).ts = s.ts := rfl
@[simp] theorem setCq_groups (s : State) (g : Nat) (q : Cq) : (setCq s g q).groups = s.groups := rfl
@[simp] theorem setCq_tiles (s : State) (g : Nat) (q : Cq) : (setCq s g q).tiles = s.tiles := rfl
@[simp] theorem setCq_mem (s : State) (g : Nat) (q : Cq) : (setCq s g q).mem = s.mem := rfl
@[simp] theorem setCq_mir (s : State) (g : Nat) (q : Cq) : (setCq s g q).mir = s.mir := rfl
@[simp] theorem setCq_flt (s : State) (g : Nat) (q : Cq) : (setCq s g q).flt = s.flt := rfl
@[simp] theorem setCq_mgt (s : State) (g : Nat) (q : Cq) : (setCq s g q).mgt = s.mgt := rfl
@[simp] theorem setCq_pke (s : State) (g : Nat) (q : Cq) : (setCq s g q).pke = s.pke := rfl
@[simp] theorem setCq_spdm (s : State) (g : Nat) (q : Cq) : (setCq s g q).spdm = s.spdm := rfl
@[simp] theorem setCq_smb (s : State) (g : Nat) (q : Cq) : (setCq s g q).smb = s.smb := rfl
@[simp] theorem setCq_out (s : State) (g : Nat) (q : Cq) : (setCq s g q).out = s.out := rfl
@[simp] theorem setCq_hi_link (s : State) (g : Nat) (q : Cq) : (setCq s g q).hi.link = s.hi.link := rfl
@[simp] theorem setCq_hi_cfgs (s : State) (g : Nat) (q : Cq) : (setCq s g q).hi.cfgs = s.hi.cfgs := rfl
@[simp] theorem setCq_hi_fns (s : State) (g : Nat) (q : Cq) : (setCq s g q).hi.fns = s.hi.fns := rfl
@[simp] theorem setCq_hi_fnSel (s : State) (g : Nat) (q : Cq) : (setCq s g q).hi.fnSel = s.hi.fnSel := rfl
@[simp] theorem setCq_hi_sqs (s : State) (g : Nat) (q : Cq) : (setCq s g q).hi.sqs = s.hi.sqs := rfl
@[simp] theorem setCq_hi_msix (s : State) (g : Nat) (q : Cq) : (setCq s g q).hi.msix = s.hi.msix := rfl
@[simp] theorem setCq_hi_pairs (s : State) (g : Nat) (q : Cq) : (setCq s g q).hi.pairs = s.hi.pairs := rfl
@[simp] theorem setCq_hi_ats (s : State) (g : Nat) (q : Cq) : (setCq s g q).hi.ats = s.hi.ats := rfl
@[simp] theorem setCq_hi_pris (s : State) (g : Nat) (q : Cq) : (setCq s g q).hi.pris = s.hi.pris := rfl
@[simp] theorem setCq_hi_xfers (s : State) (g : Nat) (q : Cq) : (setCq s g q).hi.xfers = s.hi.xfers := rfl
@[simp] theorem setCq_hi_recent (s : State) (g : Nat) (q : Cq) : (setCq s g q).hi.recent = s.hi.recent := rfl
@[simp] theorem setEntry_pending (s : State) (e : Entry) : (setEntry s e).pending = s.pending := rfl
@[simp] theorem setEntry_freeCtr (s : State) (e : Entry) : (setEntry s e).freeCtr = s.freeCtr := rfl
@[simp] theorem setEntry_time (s : State) (e : Entry) : (setEntry s e).time = s.time := rfl
@[simp] theorem setEntry_clk (s : State) (e : Entry) : (setEntry s e).clk = s.clk := rfl
@[simp] theorem setEntry_hi (s : State) (e : Entry) : (setEntry s e).hi = s.hi := rfl
@[simp] theorem setEntry_groups (s : State) (e : Entry) : (setEntry s e).groups = s.groups := rfl
@[simp] theorem setEntry_tiles (s : State) (e : Entry) : (setEntry s e).tiles = s.tiles := rfl
@[simp] theorem setEntry_mem (s : State) (e : Entry) : (setEntry s e).mem = s.mem := rfl
@[simp] theorem setEntry_mir (s : State) (e : Entry) : (setEntry s e).mir = s.mir := rfl
@[simp] theorem setEntry_flt (s : State) (e : Entry) : (setEntry s e).flt = s.flt := rfl
@[simp] theorem setEntry_mgt (s : State) (e : Entry) : (setEntry s e).mgt = s.mgt := rfl
@[simp] theorem setEntry_pke (s : State) (e : Entry) : (setEntry s e).pke = s.pke := rfl
@[simp] theorem setEntry_spdm (s : State) (e : Entry) : (setEntry s e).spdm = s.spdm := rfl
@[simp] theorem setEntry_smb (s : State) (e : Entry) : (setEntry s e).smb = s.smb := rfl
@[simp] theorem setEntry_out (s : State) (e : Entry) : (setEntry s e).out = s.out := rfl
@[simp] theorem setEntry_ts_sessions (s : State) (e : Entry) : (setEntry s e).ts.sessions = s.ts.sessions := rfl
@[simp] theorem setEntry_ts_gens (s : State) (e : Entry) : (setEntry s e).ts.gens = s.ts.gens := rfl
@[simp] theorem setEntry_ts_accepts (s : State) (e : Entry) : (setEntry s e).ts.accepts = s.ts.accepts := rfl
@[simp] theorem setEntry_ts_heads (s : State) (e : Entry) : (setEntry s e).ts.heads = s.ts.heads := rfl
@[simp] theorem setEntry_ts_fences (s : State) (e : Entry) : (setEntry s e).ts.fences = s.ts.fences := rfl
@[simp] theorem setEntry_ts_bundle (s : State) (e : Entry) : (setEntry s e).ts.bundle = s.ts.bundle := rfl
@[simp] theorem setEntry_ts_committed (s : State) (e : Entry) : (setEntry s e).ts.committed = s.ts.committed := rfl
@[simp] theorem setEntry_ts_history (s : State) (e : Entry) : (setEntry s e).ts.history = s.ts.history := rfl
@[simp] theorem setEntry_ts_staged (s : State) (e : Entry) : (setEntry s e).ts.staged = s.ts.staged := rfl
@[simp] theorem setEntry_ts_maxver (s : State) (e : Entry) : (setEntry s e).ts.maxver = s.ts.maxver := rfl
@[simp] theorem setEntry_ts_switchTo (s : State) (e : Entry) : (setEntry s e).ts.switchTo = s.ts.switchTo := rfl
@[simp] theorem setEntry_ts_trialEnds (s : State) (e : Entry) : (setEntry s e).ts.trialEnds = s.ts.trialEnds := rfl
@[simp] theorem setEntry_ts_faultTimes (s : State) (e : Entry) : (setEntry s e).ts.faultTimes = s.ts.faultTimes := rfl
@[simp] theorem setEntry_ts_stormHit (s : State) (e : Entry) : (setEntry s e).ts.stormHit = s.ts.stormHit := rfl
@[simp] theorem setEntry_ts_event (s : State) (e : Entry) : (setEntry s e).ts.event = s.ts.event := rfl
@[simp] theorem setEntry_ts_mask (s : State) (e : Entry) : (setEntry s e).ts.mask = s.ts.mask := rfl
@[simp] theorem setEntry_ts_cfgOffset (s : State) (e : Entry) : (setEntry s e).ts.cfgOffset = s.ts.cfgOffset := rfl
@[simp] theorem setEntry_ts_result (s : State) (e : Entry) : (setEntry s e).ts.result = s.ts.result := rfl
@[simp] theorem setEntry_ts_tileSel (s : State) (e : Entry) : (setEntry s e).ts.tileSel = s.ts.tileSel := rfl
@[simp] theorem setEntry_ts_tiles (s : State) (e : Entry) : (setEntry s e).ts.tiles = s.ts.tiles := rfl
@[simp] theorem setSession_pending (s : State) (n : Nat) (x : Session) : (setSession s n x).pending = s.pending := rfl
@[simp] theorem setSession_freeCtr (s : State) (n : Nat) (x : Session) : (setSession s n x).freeCtr = s.freeCtr := rfl
@[simp] theorem setSession_time (s : State) (n : Nat) (x : Session) : (setSession s n x).time = s.time := rfl
@[simp] theorem setSession_clk (s : State) (n : Nat) (x : Session) : (setSession s n x).clk = s.clk := rfl
@[simp] theorem setSession_hi (s : State) (n : Nat) (x : Session) : (setSession s n x).hi = s.hi := rfl
@[simp] theorem setSession_groups (s : State) (n : Nat) (x : Session) : (setSession s n x).groups = s.groups := rfl
@[simp] theorem setSession_tiles (s : State) (n : Nat) (x : Session) : (setSession s n x).tiles = s.tiles := rfl
@[simp] theorem setSession_mem (s : State) (n : Nat) (x : Session) : (setSession s n x).mem = s.mem := rfl
@[simp] theorem setSession_mir (s : State) (n : Nat) (x : Session) : (setSession s n x).mir = s.mir := rfl
@[simp] theorem setSession_flt (s : State) (n : Nat) (x : Session) : (setSession s n x).flt = s.flt := rfl
@[simp] theorem setSession_mgt (s : State) (n : Nat) (x : Session) : (setSession s n x).mgt = s.mgt := rfl
@[simp] theorem setSession_pke (s : State) (n : Nat) (x : Session) : (setSession s n x).pke = s.pke := rfl
@[simp] theorem setSession_spdm (s : State) (n : Nat) (x : Session) : (setSession s n x).spdm = s.spdm := rfl
@[simp] theorem setSession_smb (s : State) (n : Nat) (x : Session) : (setSession s n x).smb = s.smb := rfl
@[simp] theorem setSession_out (s : State) (n : Nat) (x : Session) : (setSession s n x).out = s.out := rfl
@[simp] theorem setSession_ts_entries (s : State) (n : Nat) (x : Session) : (setSession s n x).ts.entries = s.ts.entries := rfl
@[simp] theorem setSession_ts_gens (s : State) (n : Nat) (x : Session) : (setSession s n x).ts.gens = s.ts.gens := rfl
@[simp] theorem setSession_ts_accepts (s : State) (n : Nat) (x : Session) : (setSession s n x).ts.accepts = s.ts.accepts := rfl
@[simp] theorem setSession_ts_heads (s : State) (n : Nat) (x : Session) : (setSession s n x).ts.heads = s.ts.heads := rfl
@[simp] theorem setSession_ts_fences (s : State) (n : Nat) (x : Session) : (setSession s n x).ts.fences = s.ts.fences := rfl
@[simp] theorem setSession_ts_bundle (s : State) (n : Nat) (x : Session) : (setSession s n x).ts.bundle = s.ts.bundle := rfl
@[simp] theorem setSession_ts_committed (s : State) (n : Nat) (x : Session) : (setSession s n x).ts.committed = s.ts.committed := rfl
@[simp] theorem setSession_ts_history (s : State) (n : Nat) (x : Session) : (setSession s n x).ts.history = s.ts.history := rfl
@[simp] theorem setSession_ts_staged (s : State) (n : Nat) (x : Session) : (setSession s n x).ts.staged = s.ts.staged := rfl
@[simp] theorem setSession_ts_maxver (s : State) (n : Nat) (x : Session) : (setSession s n x).ts.maxver = s.ts.maxver := rfl
@[simp] theorem setSession_ts_switchTo (s : State) (n : Nat) (x : Session) : (setSession s n x).ts.switchTo = s.ts.switchTo := rfl
@[simp] theorem setSession_ts_trialEnds (s : State) (n : Nat) (x : Session) : (setSession s n x).ts.trialEnds = s.ts.trialEnds := rfl
@[simp] theorem setSession_ts_faultTimes (s : State) (n : Nat) (x : Session) : (setSession s n x).ts.faultTimes = s.ts.faultTimes := rfl
@[simp] theorem setSession_ts_stormHit (s : State) (n : Nat) (x : Session) : (setSession s n x).ts.stormHit = s.ts.stormHit := rfl
@[simp] theorem setSession_ts_event (s : State) (n : Nat) (x : Session) : (setSession s n x).ts.event = s.ts.event := rfl
@[simp] theorem setSession_ts_mask (s : State) (n : Nat) (x : Session) : (setSession s n x).ts.mask = s.ts.mask := rfl
@[simp] theorem setSession_ts_cfgOffset (s : State) (n : Nat) (x : Session) : (setSession s n x).ts.cfgOffset = s.ts.cfgOffset := rfl
@[simp] theorem setSession_ts_result (s : State) (n : Nat) (x : Session) : (setSession s n x).ts.result = s.ts.result := rfl
@[simp] theorem setSession_ts_tileSel (s : State) (n : Nat) (x : Session) : (setSession s n x).ts.tileSel = s.ts.tileSel := rfl
@[simp] theorem setSession_ts_tiles (s : State) (n : Nat) (x : Session) : (setSession s n x).ts.tiles = s.ts.tiles := rfl
@[simp] theorem setInfo_pending (s : State) (t : Nat) (i : TileInfo) : (setInfo s t i).pending = s.pending := rfl
@[simp] theorem setInfo_freeCtr (s : State) (t : Nat) (i : TileInfo) : (setInfo s t i).freeCtr = s.freeCtr := rfl
@[simp] theorem setInfo_time (s : State) (t : Nat) (i : TileInfo) : (setInfo s t i).time = s.time := rfl
@[simp] theorem setInfo_clk (s : State) (t : Nat) (i : TileInfo) : (setInfo s t i).clk = s.clk := rfl
@[simp] theorem setInfo_hi (s : State) (t : Nat) (i : TileInfo) : (setInfo s t i).hi = s.hi := rfl
@[simp] theorem setInfo_groups (s : State) (t : Nat) (i : TileInfo) : (setInfo s t i).groups = s.groups := rfl
@[simp] theorem setInfo_tiles (s : State) (t : Nat) (i : TileInfo) : (setInfo s t i).tiles = s.tiles := rfl
@[simp] theorem setInfo_mem (s : State) (t : Nat) (i : TileInfo) : (setInfo s t i).mem = s.mem := rfl
@[simp] theorem setInfo_mir (s : State) (t : Nat) (i : TileInfo) : (setInfo s t i).mir = s.mir := rfl
@[simp] theorem setInfo_flt (s : State) (t : Nat) (i : TileInfo) : (setInfo s t i).flt = s.flt := rfl
@[simp] theorem setInfo_mgt (s : State) (t : Nat) (i : TileInfo) : (setInfo s t i).mgt = s.mgt := rfl
@[simp] theorem setInfo_pke (s : State) (t : Nat) (i : TileInfo) : (setInfo s t i).pke = s.pke := rfl
@[simp] theorem setInfo_spdm (s : State) (t : Nat) (i : TileInfo) : (setInfo s t i).spdm = s.spdm := rfl
@[simp] theorem setInfo_smb (s : State) (t : Nat) (i : TileInfo) : (setInfo s t i).smb = s.smb := rfl
@[simp] theorem setInfo_out (s : State) (t : Nat) (i : TileInfo) : (setInfo s t i).out = s.out := rfl
@[simp] theorem setInfo_ts_entries (s : State) (t : Nat) (i : TileInfo) : (setInfo s t i).ts.entries = s.ts.entries := rfl
@[simp] theorem setInfo_ts_sessions (s : State) (t : Nat) (i : TileInfo) : (setInfo s t i).ts.sessions = s.ts.sessions := rfl
@[simp] theorem setInfo_ts_gens (s : State) (t : Nat) (i : TileInfo) : (setInfo s t i).ts.gens = s.ts.gens := rfl
@[simp] theorem setInfo_ts_accepts (s : State) (t : Nat) (i : TileInfo) : (setInfo s t i).ts.accepts = s.ts.accepts := rfl
@[simp] theorem setInfo_ts_heads (s : State) (t : Nat) (i : TileInfo) : (setInfo s t i).ts.heads = s.ts.heads := rfl
@[simp] theorem setInfo_ts_fences (s : State) (t : Nat) (i : TileInfo) : (setInfo s t i).ts.fences = s.ts.fences := rfl
@[simp] theorem setInfo_ts_bundle (s : State) (t : Nat) (i : TileInfo) : (setInfo s t i).ts.bundle = s.ts.bundle := rfl
@[simp] theorem setInfo_ts_committed (s : State) (t : Nat) (i : TileInfo) : (setInfo s t i).ts.committed = s.ts.committed := rfl
@[simp] theorem setInfo_ts_history (s : State) (t : Nat) (i : TileInfo) : (setInfo s t i).ts.history = s.ts.history := rfl
@[simp] theorem setInfo_ts_staged (s : State) (t : Nat) (i : TileInfo) : (setInfo s t i).ts.staged = s.ts.staged := rfl
@[simp] theorem setInfo_ts_maxver (s : State) (t : Nat) (i : TileInfo) : (setInfo s t i).ts.maxver = s.ts.maxver := rfl
@[simp] theorem setInfo_ts_switchTo (s : State) (t : Nat) (i : TileInfo) : (setInfo s t i).ts.switchTo = s.ts.switchTo := rfl
@[simp] theorem setInfo_ts_trialEnds (s : State) (t : Nat) (i : TileInfo) : (setInfo s t i).ts.trialEnds = s.ts.trialEnds := rfl
@[simp] theorem setInfo_ts_faultTimes (s : State) (t : Nat) (i : TileInfo) : (setInfo s t i).ts.faultTimes = s.ts.faultTimes := rfl
@[simp] theorem setInfo_ts_stormHit (s : State) (t : Nat) (i : TileInfo) : (setInfo s t i).ts.stormHit = s.ts.stormHit := rfl
@[simp] theorem setInfo_ts_event (s : State) (t : Nat) (i : TileInfo) : (setInfo s t i).ts.event = s.ts.event := rfl
@[simp] theorem setInfo_ts_mask (s : State) (t : Nat) (i : TileInfo) : (setInfo s t i).ts.mask = s.ts.mask := rfl
@[simp] theorem setInfo_ts_cfgOffset (s : State) (t : Nat) (i : TileInfo) : (setInfo s t i).ts.cfgOffset = s.ts.cfgOffset := rfl
@[simp] theorem setInfo_ts_result (s : State) (t : Nat) (i : TileInfo) : (setInfo s t i).ts.result = s.ts.result := rfl
@[simp] theorem setInfo_ts_tileSel (s : State) (t : Nat) (i : TileInfo) : (setInfo s t i).ts.tileSel = s.ts.tileSel := rfl

end Sys2Proof.Machine
end

