-- ==== Sys2Proof/Laws/Ops.lean ====
section
/-! SUPPORT. What each shared operation of Ops.lean and Tiles.lean can change, said once: the host side only, the host side with the
scheduler or the fault unit, or a task's end. -/

namespace Sys2Proof.Laws

open Sys2Proof Sys2Proof.Machine

/-- Only the Host Interface, the outputs and the draw counter differ. -/
def HostOnly (s s' : State) : Prop := s' = { s with freeCtr := s'.freeCtr, hi := s'.hi, out := s'.out }

/-- Only these and the scheduler differ. -/
def HostTs (s s' : State) : Prop := s' = { s with freeCtr := s'.freeCtr, hi := s'.hi, out := s'.out, ts := s'.ts }

/-- Only the host side, the scheduler and the fault unit differ. -/
def HostFlt (s s' : State) : Prop :=
  s' = { s with freeCtr := s'.freeCtr, hi := s'.hi, out := s'.out, ts := s'.ts, flt := s'.flt }

/-- Only what the end of a task touches differs: the host side, the scheduler, groups, tiles, and at the memory its requests and the
ranges whose bytes are undefined. -/
def TaskOnly (s s' : State) : Prop :=
  s' = { s with freeCtr := s'.freeCtr, hi := s'.hi, out := s'.out, ts := s'.ts, groups := s'.groups, tiles := s'.tiles,
                mem := { s.mem with reqs := s'.mem.reqs, undef := s'.mem.undef } }

theorem HostOnly.refl (s : State) : HostOnly s s := rfl

theorem HostOnly.trans {a b c : State} (h : HostOnly a b) (k : HostOnly b c) : HostOnly a c := by
  unfold HostOnly at *; rw [k, h]

theorem HostOnly.hostTs {a b : State} (h : HostOnly a b) : HostTs a b := by
  unfold HostOnly at h; unfold HostTs; rw [h]

theorem HostTs.refl (s : State) : HostTs s s := rfl

theorem HostTs.trans {a b c : State} (h : HostTs a b) (k : HostTs b c) : HostTs a c := by
  unfold HostTs at *; rw [k, h]

theorem HostTs.hostFlt {a b : State} (h : HostTs a b) : HostFlt a b := by
  unfold HostTs at h; unfold HostFlt; rw [h]

theorem HostFlt.refl (s : State) : HostFlt s s := rfl

theorem HostFlt.trans {a b c : State} (h : HostFlt a b) (k : HostFlt b c) : HostFlt a c := by
  unfold HostFlt at *; rw [k, h]

theorem TaskOnly.refl (s : State) : TaskOnly s s := rfl

theorem TaskOnly.trans {a b c : State} (h : TaskOnly a b) (k : TaskOnly b c) : TaskOnly a c := by
  unfold TaskOnly at *; rw [k, h]

theorem HostTs.taskOnly {a b : State} (h : HostTs a b) : TaskOnly a b := by
  unfold HostTs at h; unfold TaskOnly; rw [h]

theorem HostOnly.mem {a b : State} (h : HostOnly a b) : b.mem = a.mem := by unfold HostOnly at h; rw [h]
theorem HostOnly.tiles {a b : State} (h : HostOnly a b) : b.tiles = a.tiles := by unfold HostOnly at h; rw [h]
theorem HostOnly.groups {a b : State} (h : HostOnly a b) : b.groups = a.groups := by unfold HostOnly at h; rw [h]
theorem HostOnly.ts {a b : State} (h : HostOnly a b) : b.ts = a.ts := by unfold HostOnly at h; rw [h]
theorem HostOnly.mgt {a b : State} (h : HostOnly a b) : b.mgt = a.mgt := by unfold HostOnly at h; rw [h]
theorem HostOnly.flt {a b : State} (h : HostOnly a b) : b.flt = a.flt := by unfold HostOnly at h; rw [h]
theorem HostOnly.time {a b : State} (h : HostOnly a b) : b.time = a.time := by unfold HostOnly at h; rw [h]
theorem HostTs.mem {a b : State} (h : HostTs a b) : b.mem = a.mem := by unfold HostTs at h; rw [h]
theorem HostTs.tiles {a b : State} (h : HostTs a b) : b.tiles = a.tiles := by unfold HostTs at h; rw [h]
theorem HostTs.groups {a b : State} (h : HostTs a b) : b.groups = a.groups := by unfold HostTs at h; rw [h]
theorem HostTs.mgt {a b : State} (h : HostTs a b) : b.mgt = a.mgt := by unfold HostTs at h; rw [h]
theorem HostTs.flt {a b : State} (h : HostTs a b) : b.flt = a.flt := by unfold HostTs at h; rw [h]
theorem HostTs.time {a b : State} (h : HostTs a b) : b.time = a.time := by unfold HostTs at h; rw [h]
theorem HostFlt.mem {a b : State} (h : HostFlt a b) : b.mem = a.mem := by unfold HostFlt at h; rw [h]
theorem HostFlt.tiles {a b : State} (h : HostFlt a b) : b.tiles = a.tiles := by unfold HostFlt at h; rw [h]
theorem HostFlt.groups {a b : State} (h : HostFlt a b) : b.groups = a.groups := by unfold HostFlt at h; rw [h]
theorem HostFlt.mgt {a b : State} (h : HostFlt a b) : b.mgt = a.mgt := by unfold HostFlt at h; rw [h]
theorem TaskOnly.bytes {a b : State} (h : TaskOnly a b) : b.mem.bytes = a.mem.bytes := by unfold TaskOnly at h; rw [h]
theorem TaskOnly.stripes {a b : State} (h : TaskOnly a b) : b.mem.stripes = a.mem.stripes := by unfold TaskOnly at h; rw [h]
theorem TaskOnly.mgt {a b : State} (h : TaskOnly a b) : b.mgt = a.mgt := by unfold TaskOnly at h; rw [h]
theorem TaskOnly.flt {a b : State} (h : TaskOnly a b) : b.flt = a.flt := by unfold TaskOnly at h; rw [h]

/-- A fold of an operation that keeps a transitive relation keeps it. -/
theorem foldl_keeps {α : Type} {R : State → State → Prop} (refl : ∀ s, R s s) (trans : ∀ {a b c}, R a b → R b c → R a c)
    {f : State → α → State} (h : ∀ s x, R s (f s x)) (l : List α) (s : State) : R s (l.foldl f s) := by
  induction l generalizing s with
  | nil => exact refl s
  | cons x l ih => exact trans (h s x) (ih _)

/-- What both branches of a choice keep, the choice keeps. -/
theorem ite_keeps {R : State → State → Prop} {s a b : State} {c : Prop} [Decidable c] (h : R s a) (k : R s b) :
    R s (if c then a else b) := by split <;> assumption

theorem msixSend_frame (s : State) (fn vec : Nat) : HostOnly s (msixSend s fn vec) := by
  unfold msixSend; simp only; split <;> [split <;> rfl; rfl]

theorem faultInterrupt_frame (s : State) : HostOnly s (faultInterrupt s) := by
  unfold faultInterrupt; split
  · exact msixSend_frame ..
  · rfl

theorem cqSignal_frame (s : State) (g : Nat) : HostOnly s (cqSignal s g) := by
  unfold cqSignal; exact HostOnly.trans (b := setCq s g _) rfl (msixSend_frame ..)

theorem writeEntry_frame (s : State) (g : Nat) (h : HeldEntry) : HostOnly s (writeEntry s g h) := by
  unfold writeEntry
  refine ite_keeps (HostOnly.trans ?_ (cqSignal_frame ..)) ?_ <;> rfl

theorem linkError_frame (s : State) (fn : Nat) : HostOnly s (linkError s fn) := rfl

theorem holdEntry_frame (s : State) (g : Nat) (h : HeldEntry) : HostOnly s (holdEntry s g h) := by
  unfold holdEntry; simp only; split <;> rfl

theorem noticeBy_frame {post : State → Nat → HeldEntry → State} (hp : ∀ s g h, HostOnly s (post s g h)) (s : State)
    (fn code status handle : Nat) : HostOnly s (noticeBy post s fn code status handle) := by
  unfold noticeBy
  simp only
  split
  · split
    · rfl
    · split
      · rfl
      · split
        · rfl
        · refine HostOnly.trans ?_ (hp ..); rfl
  · rfl

theorem postEntry_frame (s : State) (g : Nat) (h : HeldEntry) : HostOnly s (postEntry s g h) := by
  unfold postEntry
  simp only
  split
  · rfl
  · split
    · rfl
    · split
      · exact writeEntry_frame ..
      · split
        · exact holdEntry_frame ..
        · exact (holdEntry_frame ..).trans (noticeBy_frame holdEntry_frame ..)

/-- A posted entry is written where its ring is enabled and not halted and its function may send. -/
theorem postEntry_written {s : State} {g : Nat} {h : HeldEntry} (e : (cqOf s g).enabled = true) (n : (cqOf s g).halted = false)
    (o : linkOpen s (cqOwner s g) = true) : postEntry s g h = writeEntry s g h := by
  simp [postEntry, e, n, o]

theorem notice_frame (s : State) (fn code status handle : Nat) : HostOnly s (notice s fn code status handle) :=
  noticeBy_frame postEntry_frame ..

theorem noticeAll_frame (s : State) (code status handle : Nat) : HostOnly s (noticeAll s code status handle) :=
  foldl_keeps HostOnly.refl HostOnly.trans (fun s fn => notice_frame s fn code status handle) _ s

theorem recordOutcome_frame (s : State) (h : Nat) (good : Bool) : HostOnly s (recordOutcome s h good) := by
  unfold recordOutcome; simp only; split <;> rfl

theorem releaseEntry_frame (s : State) (h : Nat) (good : Bool) : HostTs s (releaseEntry s h good) := rfl

theorem setCq_frame (s : State) (g : Nat) (q : Cq) : HostOnly s (setCq s g q) := rfl

theorem settle_frame (s : State) (done : Option (Nat × Bool)) : HostTs s (settle s done) := by
  unfold settle
  split
  · rfl
  · split
    · rfl
    · exact HostTs.trans (HostTs.trans (recordOutcome_frame ..).hostTs (releaseEntry_frame ..)) (setCq_frame ..).hostTs

theorem complete_frame (s : State) (h status info : Nat) (d : Option Detail) (x : Bool) : HostTs s (complete s h status info d x) := by
  unfold complete
  split
  · rfl
  · simp only
    refine ite_keeps (HostTs.refl _) (HostTs.trans (postEntry_frame ..).hostTs (ite_keeps (settle_frame ..) ?_))
    rfl

theorem dropHandle_frame (s : State) (h : Nat) : HostTs s (dropHandle s h) := by
  unfold dropHandle
  split
  · rfl
  · exact HostTs.trans (releaseEntry_frame s h false) rfl

theorem HostOnly.entryOf {a b : State} (k : HostOnly a b) (h : Nat) : entryOf b h = entryOf a h := by
  unfold Machine.entryOf; rw [k.ts]

/-- Completing a held handle whose completion ring can be written leaves the other entries, each having seen its end. -/
theorem complete_entries {s : State} {h : Nat} {e : Entry} (he : entryOf s h = some e) (live : e.state ≠ .completing)
    (sends : (cqOf s e.cq).enabled = false ∨ cqSends s e.cq = true) (status info : Nat) (d : Option Detail) (x : Bool) :
    ∃ good, (complete s h status info d x).ts.entries = (s.ts.entries.filter (fun e => !(e.handle == h))).map (settleDep h good) := by
  refine ⟨(if s.flt.unrecoverable then stUnrecoverable else status) == 0, ?_⟩
  have k : (!((cqOf s e.cq).enabled) || cqSends s e.cq) = true := by rcases sends with k | k <;> simp [k]
  simp only [complete, he, live, if_false, k, if_true, settle, (postEntry_frame ..).entryOf h]
  simp only [setCq, releaseEntry, (recordOutcome_frame ..).ts, (postEntry_frame ..).ts]

/-- Completing a handle that nothing holds changes nothing. -/
theorem complete_of_not_held {s : State} {h : Nat} (he : entryOf s h = none) (status info : Nat) (d : Option Detail) (x : Bool) :
    complete s h status info d x = s := by simp [complete, he]

theorem fltEvent_frame (s : State) (b : Nat) : HostFlt s (fltEvent s b) := by
  unfold fltEvent
  simp only
  split
  · refine HostFlt.trans ?_ (faultInterrupt_frame _).hostTs.hostFlt; rfl
  · rfl

theorem tsEvent_frame (s : State) (b : Nat) : HostTs s (tsEvent s b) := by
  unfold tsEvent
  simp only
  split
  · refine HostTs.trans ?_ (faultInterrupt_frame _).hostTs; rfl
  · rfl

/-- An event of FLT_EVENT is set and counted, whatever interrupt it raises. -/
theorem fltEvent_flt (s : State) (b : Nat) : (fltEvent s b).flt = { s.flt with
    event := s.flt.event ||| 2 ^ b,
    evcnt := counted s.flt.evcnt b (pulse (if b = 3 then s.flt.fabTel else s.flt.tileTel) (if b = 3 then 2 else 1) s.time).2,
    tileTel := if b = 3 then s.flt.tileTel else (pulse s.flt.tileTel 1 s.time).1,
    fabTel := if b = 3 then (pulse s.flt.fabTel 2 s.time).1 else s.flt.fabTel } := by
  unfold fltEvent
  simp only
  split
  · rw [(faultInterrupt_frame _).flt]; split <;> rfl
  · split <;> rfl

/-- An event of TS_EVENT is set, whatever interrupt it raises. -/
theorem tsEvent_ts (s : State) (b : Nat) : (tsEvent s b).ts = { s.ts with event := s.ts.event ||| 2 ^ b } := by
  unfold tsEvent
  simp only
  split
  · rw [(faultInterrupt_frame _).ts]
  · rfl

/-- An event of MEM_EVENT is set and counted, whatever interrupt it raises. -/
theorem memEvent_mem (s : State) (b : Nat) : (memEvent s b).mem = { s.mem with
    event := s.mem.event ||| 2 ^ b, evcnt := counted s.mem.evcnt b (pulse s.mem.tel 0 s.time).2,
    tel := (pulse s.mem.tel 0 s.time).1 } := by
  unfold memEvent
  simp only
  split
  · rw [(faultInterrupt_frame _).mem]
  · rfl

theorem logFault_frame (s : State) (source action ltile ptile channel part handle detail : Nat) :
    HostFlt s (logFault s source action ltile ptile channel part handle detail) := by
  unfold logFault
  simp only
  split
  · refine HostFlt.trans ?_ (fltEvent_frame ..); rfl
  · rfl

theorem offerTile_frame (s : State) (t : Nat) : HostTs s (offerTile s t) := by
  unfold offerTile
  simp only
  split
  · rfl
  · refine HostTs.trans ?_ (tsEvent_frame ..); rfl

theorem freeTiles_frame (s : State) (g : Group) : TaskOnly s (freeTiles s g) :=
  foldl_keeps TaskOnly.refl TaskOnly.trans (fun _ _ => TaskOnly.trans (by rfl) (offerTile_frame ..).taskOnly) _ s

theorem endGroup_frame (s : State) (g : Group) : TaskOnly s (endGroup s g) := by
  unfold endGroup
  refine TaskOnly.trans ?_ (freeTiles_frame ..); rfl

theorem drawBytes_frame (s : State) (n : Nat) : TaskOnly s (drawBytes s n).2 := rfl

theorem blurWrites_frame (c : Nat) (s : State) (l : List TimedWrite) : TaskOnly s (blurWrites c s l).1 := by
  induction l generalizing s with
  | nil => rfl
  | cons w r ih =>
    unfold blurWrites
    by_cases k : w.cyc ≤ c
    · simp only [k, if_true]; exact ih s
    · simp only [k, if_false]; exact (drawBytes_frame ..).trans (ih _)

theorem cutTile_frame (d : Option Detail) (s : State) (t : Nat) : TaskOnly s (cutTile d s t) := by
  unfold cutTile
  simp only
  split
  · rfl
  · refine TaskOnly.trans ?_ (b := (blurWrites _ _ _).1) (by rfl)
    refine TaskOnly.trans ?_ (blurWrites_frame ..)
    split <;> rfl

theorem spoilHost_frame (s : State) (t : Nat) : TaskOnly s (spoilHost s t) :=
  foldl_keeps TaskOnly.refl TaskOnly.trans (fun _ _ => by rfl) _ s

theorem spoilRange_frame (s : State) (a n : Nat) : TaskOnly s (spoilRange s a n) := rfl

theorem spoilOutputs_frame (s : State) (g : Group) : TaskOnly s (spoilOutputs s g) := by
  unfold spoilOutputs
  split
  · rfl
  · exact foldl_keeps TaskOnly.refl TaskOnly.trans (fun s (r : Nat × Nat) => spoilRange_frame s r.1 r.2) _ s

theorem cutGroup_frame (s : State) (g : Group) (d : Option Detail) : TaskOnly s (cutGroup s g d) :=
  (foldl_keeps TaskOnly.refl TaskOnly.trans spoilHost_frame _ s).trans
    ((foldl_keeps TaskOnly.refl TaskOnly.trans (cutTile_frame d) _ _).trans (spoilOutputs_frame ..))

theorem abortTask_frame (s : State) (h status : Nat) (d : Option Detail) : TaskOnly s (abortTask s h status d) := by
  unfold abortTask
  split
  · exact (complete_frame ..).taskOnly
  · exact (cutGroup_frame ..).trans ((endGroup_frame ..).trans (complete_frame ..).taskOnly)

theorem tileAbort_frame (s : State) (g : Group) (t : Nat) (d : Detail) : TaskOnly s (tileAbort s g t d) := abortTask_frame ..

/-- A unit's work either replaces its tile or aborts the task of it. -/
theorem settleTile_frame (s : State) (g : Group) (t : Nat) (x : Tile) (v : List Detail) : TaskOnly s (settleTile s g t x v) := by
  unfold settleTile
  split
  · rfl
  · exact TaskOnly.trans (b := setTile s t x) (by rfl) (tileAbort_frame ..)

/-- With no violation the tile is replaced and nothing else changes. -/
theorem settleTile_ok (s : State) (g : Group) (t : Nat) (x : Tile) : settleTile s g t x [] = setTile s t x := rfl

theorem endInjection_frame (s : State) (fired : Bool) (kind code : Nat) : HostFlt s (endInjection s fired kind code) := by
  unfold endInjection
  refine HostFlt.trans ?_ (fltEvent_frame ..); rfl

end Sys2Proof.Laws
end

