-- ==== Sys2Proof/Laws/Rows.lean ====
section
/-! SUPPORT. What each shared row of several commands answers, by cases: core instructions, fetched descriptors, messages on the
mailbox, signed commands and transfers. -/

namespace Sys2Proof.Laws

open Sys2Proof Sys2Proof.Machine

/-- What `coreAt` answers: the live group, the tile as it stands, running, with its code at hand, and the word at its pc, with the asked
opcode (R127, R129, R135). -/
theorem coreAt_tile {s : State} {t op : Nat} {g : Group} {x : Tile} {w : Nat} (h : coreAt s t op = some (g, x, w)) :
    x = tileOf s t ∧ live s t = some g ∧ x.status = .running ∧ coreWord x = some w ∧ iOp w = op ∧ lineHere s g x x.pc = true ∧
      (op = 0x15 → lineHere s g x (cldAt x w).toNat = true) := by
  unfold coreAt at h
  split at h
  · simp at h
  · rename_i g' hg
    simp only at h
    split at h
    · rename_i w' h1 h2
      split at h
      · rename_i h3
        simp only [Bool.and_eq_true, Bool.or_eq_true, bne_iff_ne, ne_eq, decide_eq_true_eq] at h3
        simp only [Option.some.injEq, Prod.mk.injEq] at h
        obtain ⟨rfl, rfl, rfl⟩ := h
        exact ⟨rfl, hg, h1, h2, h3.1.1, h3.1.2, fun o => h3.2.resolve_left (fun k => k o)⟩
      · simp at h
    · simp at h

/-- An instruction at hand needs no refill of the instruction cache (R135). -/
theorem missing_of_coreAt {s : State} {t op : Nat} {g : Group} {x : Tile} {w : Nat} (h : coreAt s t op = some (g, x, w)) :
    missing s t = none := by
  obtain ⟨rfl, a, b, c, rfl, d, e⟩ := coreAt_tile h
  simp only [missing, a, b, c, d]
  by_cases k : iOp w = 0x15
  · simp [e k]
  · simp [k]

/-- A row that needs no refill runs as it stands. -/
theorem fetched_of_here {n : Nat} {row : String} {t : Nat} {s : State} (h : missing s t = none) (f : State → Res) :
    fetched (n + 1) row t s f = f s := by
  simp [fetched, h]

/-- A core instruction at hand runs its effect at the cycle in which it may start, where its row takes it. -/
theorem coreInstrIf_of {row : String} {op t : Nat} {s : State} {g : Group} {x : Tile} {w : Nat} (h : coreAt s t op = some (g, x, w))
    (ok : Tile → Nat → Nat → Bool) (named : Nat → List Nat) (f : State → Group → Tile → Nat → Nat → State) :
    coreInstrIf row op t ok s named f =
      if (ok x w (startAt x (named w)) && decide (startAt x (named w) < 2 ^ 40)) = true then .next (f s g x w (startAt x (named w)))
      else no row := by
  simp only [coreInstrIf, fetched_of_here (missing_of_coreAt h), h]

/-- A core instruction that answers with its code at hand runs its effect at the cycle in which it may start. -/
theorem coreInstr_next {row : String} {op t : Nat} {s s' : State} {named : Nat → List Nat} {f : State → Group → Tile → Nat → Nat → State}
    (here : missing s t = none) (h : coreInstr row op t s named f = .next s') :
    ∃ g x w, coreAt s t op = some (g, x, w) ∧ startAt x (named w) < 2 ^ 40 ∧ s' = f s g x w (startAt x (named w)) := by
  unfold coreInstr coreInstrIf at h
  rw [fetched_of_here here] at h
  split at h
  · simp [no] at h
  · rename_i g x w e
    simp only [Bool.true_and, decide_eq_true_eq] at h
    split at h
    · rename_i k
      cases h
      exact ⟨g, x, w, e, k, rfl⟩
    · simp [no] at h

/-- A fetched descriptor that answers: a full scoreboard pauses the function, a SEQ ahead halts the ring, one behind is counted and
ignored, and the expected one is accepted or rejected (R279, R305). -/
theorem consume_next {row : String} {fn ring : Nat} {d : Desc} {arg : HostData} {s s' : State} (h : consume row fn ring d arg s = .next s') :
    ∃ g, sqGlobal s fn ring = some g ∧ mayFetch s fn g = true ∧ rowOf d = row ∧
      ((boardFull s fn = true ∧ s' = tsEvent (setPage s fn { pageOf s fn with paused := true }) 6) ∨
        (boardFull s fn = false ∧ seqDiff (sdSeq d) (sqOf s g).expect = 0 ∧ acceptOne row fn g d arg s = .next s') ∨
        (boardFull s fn = false ∧ 0 < seqDiff (sdSeq d) (sqOf s g).expect ∧ seqDiff (sdSeq d) (sqOf s g).expect < 2 ^ 31 ∧
          s' = haltSq s fn g stRingSeqGap) ∨
        (boardFull s fn = false ∧ 2 ^ 31 ≤ seqDiff (sdSeq d) (sqOf s g).expect ∧
          s' = setPage (setSq s g { sqOf s g with stopped := true }) fn
            { pageOf s fn with dup := satInc (pageOf s fn).dup 0xFFFFFFFF })) := by
  unfold consume at h
  split at h
  · simp [no] at h
  · rename_i g e
    split at h
    · simp [no] at h
    · rename_i k
      simp only [Bool.or_eq_true, Bool.not_eq_true', not_or, Bool.not_eq_false, bne_iff_ne, ne_eq, not_not] at k
      refine ⟨g, e, k.1, k.2, ?_⟩
      split at h
      · rename_i b
        cases h
        exact .inl ⟨b, rfl⟩
      · rename_i b
        have b : boardFull s fn = false := by simpa using b
        simp only at h
        split at h
        · rename_i z
          exact .inr (.inl ⟨b, z, h⟩)
        · rename_i z
          split at h
          · rename_i y
            cases h
            exact .inr (.inr (.inl ⟨b, by omega, y, rfl⟩))
          · rename_i y
            cases h
            exact .inr (.inr (.inr ⟨b, by omega, rfl⟩))

/-- A halted ring changes only the host side. -/
theorem haltSq_frame (s : State) (fn g status : Nat) : HostOnly s (haltSq s fn g status) := by
  unfold haltSq
  refine HostOnly.trans ?_ (notice_frame ..)
  rfl

/-- A message on the mailbox answers exactly while the mailbox is up: Busy during a restart, otherwise its own effect (R367). -/
theorem onDoe_next {row : String} {s f s' : State} (h : onDoe row s f = .next s') :
    doeUp s = true ∧ ((s.flt.mcRestarting = true ∧ s' = reply s (.errorCode "Busy")) ∨ (s.flt.mcRestarting = false ∧ s' = f)) := by
  unfold onDoe at h
  split at h
  · simp [no] at h
  · rename_i u
    have u : doeUp s = true := by simpa using u
    split at h
    · rename_i m
      cases h
      exact ⟨u, .inl ⟨m, rfl⟩⟩
    · rename_i m
      cases h
      exact ⟨u, .inr ⟨by simpa using m, rfl⟩⟩

/-- A signed command answers exactly where the management core serves the blob that is processing, or the one in place, and its code is
the row's (R371, R372). -/
theorem blobGo_next {row : String} {readBack : Bool} {s s' : State} (h : blobGo row readBack s = .next s') :
    blobServed s (blCode (blobNow s)) = true ∧ blobRow (blCode (blobNow s)) = row ∧ s' = endBlob s (blobNow s) readBack := by
  unfold blobGo at h
  simp only at h
  split at h
  · rename_i k
    simp only [Bool.and_eq_true, beq_iff_eq] at k
    cases h
    exact ⟨k.1, k.2, rfl⟩
  · simp [no] at h

/-- The result and the nonce of a processed blob are those of this run, whatever its effect, and no blob is processing then. -/
theorem endBlob_result (s : State) (b : List Byte) (readBack : Bool) :
    (endBlob s b readBack).mgt.cmdResult = 2 ^ 31 + 256 * blCode b + blobResult s b readBack ∧
      (endBlob s b readBack).mgt.nonce.length = 32 ∧ (endBlob s b readBack).mgt.blob = none := by
  refine ⟨rfl, ?_, rfl⟩
  simp [endBlob, drawBytes, freeBytes]

/-- The end of a transfer touches the host side and the scheduler. -/
theorem endTransfer_frame (s : State) (h st : Nat) : HostTs s (endTransfer s h st) := by
  unfold endTransfer
  refine HostTs.trans ?_ (complete_frame ..)
  rfl

end Sys2Proof.Laws
end

