-- ==== Sys2Proof/Laws/Core.lean ====
section
/-! SUPPORT. The laws of the Jubo core's shared operations: what a register reads as after a write, which
core instruction is at the pc, and what retiring one leaves. -/

namespace Sys2Proof.Laws

open Sys2Proof Sys2Proof.Machine Sys2Proof.Claims

/-- Every register after a write of one: register 0 reads zero, a write to it is discarded (R127). -/
theorem regOf_putReg (x : Tile) (d n : Nat) (v : Word64) (r : Nat) :
    regOf (putReg x d v r) n = if n = d ∧ 0 < n ∧ n < 64 then v else regOf x n := by
  unfold putReg
  split
  · rename_i h
    split
    · rename_i h2; omega
    · rfl
  · rename_i h
    simp only [regOf]
    split
    · rename_i h2; split
      · omega
      · rfl
    · rename_i h2
      rw [Tbl.get_put]
      split
      · rename_i h3; simp [h3]; omega
      · rename_i h3; simp [h3]

/-- A tile with no injection armed at a place raises no injected fault there (R357). -/
theorem fire_none {s : State} {t k : Nat} (h : Unarmed s t k) (g : Group) (src c u : Nat) : fireTile s g t k src c u = none := by
  unfold fireTile
  split
  · rfl
  · rename_i i hi
    have := h i hi
    split
    · rename_i h2; omega
    · rfl

/-- Retiring an instruction after a write of one register is all that `CoreWrote` says. -/
theorem core_wrote (s : State) (t d : Nat) (v : Word64) (c occ lat pc : Nat) :
    CoreWrote s (setTile s t (retire (putReg (tileOf s t) d v (c + lat)) c occ pc)) t d v c occ lat (pc % 2 ^ 64) := by
  refine ⟨by simp [OnlyTile], ?_, ?_, ?_, by simp [retire], by simp [retire]⟩
  · simp only [tileOf_setTile, OnlyCore, retire, putReg]; split <;> rfl
  · intro n; simp only [tileOf_setTile]; exact regOf_putReg (tileOf s t) d n v (c + lat)
  · intro h1 h2; simp only [tileOf_setTile, retire, putReg]
    have : ¬ (d = 0 ∨ 63 < d) := by omega
    simp [this]

/-- Retiring an instruction that writes no register is all that `CoreMoved` says. -/
theorem core_moved (s : State) (t c occ pc : Nat) : CoreMoved s (setTile s t (retire (tileOf s t) c occ pc)) t c occ (pc % 2 ^ 64) := by
  refine ⟨by simp [OnlyTile], ?_, ?_, by simp [retire], by simp [retire]⟩
  · simp only [tileOf_setTile, OnlyCore, retire]
  · intro n; simp only [tileOf_setTile]; rfl

/-- Every core instruction that writes one register from its operands completes and is all that `CoreWrote` says (R130 to R132). -/
theorem alu_next {row : String} {op t : Nat} {s : State} {named : Nat → List Nat} {lat : Nat → Nat} {f : Tile → Nat → Word64}
    {g : Group} {x : Tile} {w c : Nat} (hu : Unarmed s t 4) (h : CoreReady s t op named g x w c) :
    ∃ s', aluInstr row op t s named lat f = .next s' ∧ CoreWrote s s' t (iD w) (f x w) c 1 (lat w) (nextPc x) := by
  obtain ⟨h1, rfl, h3⟩ := h
  obtain ⟨rfl, -⟩ := coreAt_tile h1
  rw [aluInstr, aluInstrIf, coreInstrIf_of h1]
  simp only [h3, fire_none hu, decide_true, Bool.true_and, if_true]
  exact ⟨_, rfl, core_wrote s t _ _ _ 1 _ _⟩

end Sys2Proof.Laws
end

