-- ==== Sys2Proof/Laws/Memory.lean ====
section
/-! SUPPORT. The laws of sparse memories: every operation keeps the canonical form, and what a byte reads as after it. -/

namespace Sys2Proof.Machine

theorem Mem.wfFrom_mono {lo hi : Nat} (m : Mem) (h : lo ≤ hi) (w : m.wfFrom hi = true) : m.wfFrom lo = true := by
  cases m with
  | nil => rfl
  | cons p r =>
    obtain ⟨k, v⟩ := p
    simp only [Mem.wfFrom, Bool.and_eq_true, decide_eq_true_eq] at w ⊢
    exact ⟨⟨Nat.le_trans h w.1.1, w.1.2⟩, w.2⟩

/-- Below the bound of a canonical memory nothing is listed. -/
theorem Mem.rd_below {lo a : Nat} (m : Mem) (w : m.wfFrom lo = true) (h : a < lo) : m.rd a = 0 := by
  induction m generalizing lo with
  | nil => rfl
  | cons p r ih =>
    obtain ⟨k, v⟩ := p
    simp only [Mem.wfFrom, Bool.and_eq_true, decide_eq_true_eq] at w
    have hk : k ≠ a := by omega
    simp only [Mem.rd, hk, if_false]
    exact ih w.2 (by omega)

theorem Mem.wr_wfFrom {lo : Nat} (m : Mem) (a : Nat) (b : Byte) (w : m.wfFrom lo = true) (h : lo ≤ a) :
    (m.wr a b).wfFrom lo = true := by
  induction m generalizing lo with
  | nil =>
    rw [Mem.wr]
    split
    · rfl
    · rename_i hb
      have hb' : ¬b = 0#8 := hb
      simp [Mem.wfFrom, h, hb']
  | cons p r ih =>
    obtain ⟨k, v⟩ := p
    have w0 := w
    simp only [Mem.wfFrom, Bool.and_eq_true, decide_eq_true_eq] at w
    obtain ⟨⟨hk, hv⟩, hr⟩ := w
    rw [Mem.wr]
    split
    · rename_i h1
      split
      · exact w0
      · rename_i hb
        have hb' : ¬b = 0#8 := hb
        have h1' : a + 1 ≤ k := h1
        simp only [Mem.wfFrom, Bool.and_eq_true, decide_eq_true_eq]
        exact ⟨⟨h, by simp [hb']⟩, ⟨h1', hv⟩, hr⟩
    · split
      · rename_i h2
        subst h2
        split
        · exact Mem.wfFrom_mono (hi := a + 1) r (by omega) hr
        · rename_i hb
          have hb' : ¬b = 0#8 := hb
          simp [Mem.wfFrom, h, hb', hr]
      · simp only [Mem.wfFrom, Bool.and_eq_true, decide_eq_true_eq]
        exact ⟨⟨hk, hv⟩, ih hr (by omega)⟩

/-- Writing one byte keeps the canonical form. -/
theorem Mem.wr_wf (m : Mem) (a : Nat) (b : Byte) (w : m.wf = true) : (m.wr a b).wf = true :=
  Mem.wr_wfFrom m a b w (Nat.zero_le a)

/-- Writing a byte string keeps the canonical form. -/
theorem Mem.wrN_wf (m : Mem) (a : Nat) (l : List Byte) (w : m.wf = true) : (m.wrN a l).wf = true := by
  induction l generalizing m a with
  | nil => exact w
  | cons b r ih => exact ih (m.wr a b) (a + 1) (Mem.wr_wf m a b w)

theorem Mem.filter_wfFrom {lo : Nat} (m : Mem) (p : Host.Cell → Bool) (w : m.wfFrom lo = true) :
    Mem.wfFrom lo (m.filter p) = true := by
  induction m generalizing lo with
  | nil => rfl
  | cons q r ih =>
    obtain ⟨k, v⟩ := q
    simp only [Mem.wfFrom, Bool.and_eq_true, decide_eq_true_eq] at w
    by_cases hp : p (k, v)
    · simp only [List.filter, hp, Mem.wfFrom, Bool.and_eq_true, decide_eq_true_eq]
      exact ⟨w.1, ih w.2⟩
    · simp only [List.filter, hp]
      exact ih (Mem.wfFrom_mono r (by omega) w.2)

/-- Dropping listed bytes keeps the canonical form. -/
theorem Mem.filter_wf (m : Mem) (p : Host.Cell → Bool) (w : m.wf = true) : Mem.wf (m.filter p) = true :=
  Mem.filter_wfFrom m p w

theorem Mem.clear_wf (m : Mem) (a n : Nat) (w : m.wf = true) : (m.clear a n).wf = true := Mem.filter_wf m _ w

theorem Mem.restrict_wf (m : Mem) (a n : Nat) (w : m.wf = true) : (m.restrict a n).wf = true := Mem.filter_wf m _ w

theorem Mem.rd_wr_self {lo : Nat} (m : Mem) (a : Nat) (b : Byte) (w : m.wfFrom lo = true) : (m.wr a b).rd a = b := by
  induction m generalizing lo with
  | nil =>
    rw [Mem.wr]
    split
    · rename_i hb
      exact hb.symm
    · simp [Mem.rd]
  | cons p r ih =>
    obtain ⟨k, v⟩ := p
    simp only [Mem.wfFrom, Bool.and_eq_true, decide_eq_true_eq] at w
    rw [Mem.wr]
    split
    · split
      · rename_i hb
        have hk : k ≠ a := by omega
        simp only [Mem.rd, hk, if_false]
        rw [Mem.rd_below r w.2 (by omega), hb]
      · simp [Mem.rd]
    · split
      · rename_i h2
        subst h2
        split
        · rename_i hb
          rw [Mem.rd_below r w.2 (by omega), hb]
        · simp [Mem.rd]
      · rename_i h2
        have hk : k ≠ a := fun e => h2 e.symm
        simp only [Mem.rd, hk, if_false]
        exact ih w.2

/-- A byte reads as what was written to it. -/
theorem Mem.rd_wr_same (m : Mem) (a : Nat) (b : Byte) (w : m.wf = true) : (m.wr a b).rd a = b := Mem.rd_wr_self m a b w

/-- A write of one byte leaves every other. -/
theorem Mem.rd_wr_ne (m : Mem) {a c : Nat} (b : Byte) (h : c ≠ a) : (m.wr a b).rd c = m.rd c := by
  have h' : a ≠ c := fun e => h e.symm
  induction m with
  | nil =>
    rw [Mem.wr]
    split
    · rfl
    · simp [Mem.rd, h']
  | cons p r ih =>
    obtain ⟨k, v⟩ := p
    rw [Mem.wr]
    split
    · split
      · rfl
      · simp [Mem.rd, h']
    · split
      · rename_i h2
        subst h2
        split
        · simp [Mem.rd, h']
        · simp [Mem.rd, h']
      · simp only [Mem.rd]
        split
        · rfl
        · exact ih

/-- A write of a string leaves every byte outside it. -/
theorem Mem.rd_wrN_outside (m : Mem) (a c : Nat) (l : List Byte) (h : c < a ∨ a + l.length ≤ c) : (m.wrN a l).rd c = m.rd c := by
  induction l generalizing m a with
  | nil => rfl
  | cons b r ih =>
    simp only [List.length_cons] at h
    rw [Mem.wrN, ih (m.wr a b) (a + 1) (by omega), Mem.rd_wr_ne m b (by omega)]

/-- A byte of a written string reads as it was written. -/
theorem Mem.rd_wrN_inside (m : Mem) (a i : Nat) (l : List Byte) (w : m.wf = true) (h : i < l.length) :
    (m.wrN a l).rd (a + i) = l.getD i 0 := by
  induction l generalizing m a i with
  | nil => simp at h
  | cons b r ih =>
    cases i with
    | zero =>
      rw [Mem.wrN, Mem.rd_wrN_outside _ _ _ _ (by omega)]
      exact Mem.rd_wr_same m a b w
    | succ j =>
      have e : a + (j + 1) = a + 1 + j := by omega
      rw [Mem.wrN, e, ih (m.wr a b) (a + 1) j (Mem.wr_wf m a b w) (by simpa using h)]
      rfl

/-- Two canonical memories that read alike are equal. -/
theorem Mem.ext_wf {lo : Nat} (m k : Mem) (hm : m.wfFrom lo = true) (hk : k.wfFrom lo = true) (h : ∀ a, m.rd a = k.rd a) : m = k := by
  induction m generalizing k lo with
  | nil =>
    cases k with
    | nil => rfl
    | cons q r =>
      obtain ⟨j, v⟩ := q
      simp only [Mem.wfFrom, Bool.and_eq_true] at hk
      have := h j
      simp only [Mem.rd, if_true] at this
      simp [← this] at hk
  | cons p r ih =>
    obtain ⟨i, u⟩ := p
    have hm0 := hm
    simp only [Mem.wfFrom, Bool.and_eq_true, decide_eq_true_eq] at hm
    cases k with
    | nil =>
      have := h i
      simp only [Mem.rd, if_true] at this
      simp [this] at hm
    | cons q t =>
      obtain ⟨j, v⟩ := q
      have hk0 := hk
      simp only [Mem.wfFrom, Bool.and_eq_true, decide_eq_true_eq] at hk
      have hu : u ≠ 0 := by simpa using hm.1.2
      have hv : v ≠ 0 := by simpa using hk.1.2
      have e : i = j := by
        rcases Nat.lt_trichotomy i j with l | l | l
        · have a1 := h i
          have ne : j ≠ i := by omega
          simp only [Mem.rd, if_true, ne, if_false] at a1
          rw [Mem.rd_below t hk.2 (by omega)] at a1
          exact absurd a1 hu
        · exact l
        · have a1 := h j
          have ne : i ≠ j := by omega
          simp only [Mem.rd, if_true, ne, if_false] at a1
          rw [Mem.rd_below r hm.2 (by omega)] at a1
          exact absurd a1.symm hv
      subst e
      have e2 : u = v := by simpa [Mem.rd] using h i
      subst e2
      have : r = t := ih t hm.2 hk.2 (fun a => by
        by_cases ha : i = a
        · subst ha
          rw [Mem.rd_below r hm.2 (by omega), Mem.rd_below t hk.2 (by omega)]
        · have := h a
          simpa [Mem.rd, ha] using this)
      rw [this]

end Sys2Proof.Machine
end

