-- ==== Sys2Proof/Laws/Device.lean ====
section
/-! SUPPORT. What the operations on device memory can change, and that each keeps the canonical form of its bytes. -/

namespace Sys2Proof.Laws

open Sys2Proof Sys2Proof.Machine

/-- Only the host side, the scheduler, the fault unit and device memory differ. -/
def MemOnly (s s' : State) : Prop :=
  s' = { s with freeCtr := s'.freeCtr, hi := s'.hi, out := s'.out, ts := s'.ts, flt := s'.flt, mem := s'.mem }

/-- As `MemOnly`, with every stored byte as it was. -/
def BytesKept (s s' : State) : Prop := MemOnly s s' ∧ s'.mem.bytes = s.mem.bytes

theorem MemOnly.refl (s : State) : MemOnly s s := rfl

theorem MemOnly.trans {a b c : State} (h : MemOnly a b) (k : MemOnly b c) : MemOnly a c := by
  unfold MemOnly at *; rw [k, h]

theorem HostFlt.memOnly {a b : State} (h : HostFlt a b) : MemOnly a b := by
  unfold HostFlt at h; unfold MemOnly; rw [h]

theorem MemOnly.tiles {a b : State} (h : MemOnly a b) : b.tiles = a.tiles := by unfold MemOnly at h; rw [h]
theorem MemOnly.groups {a b : State} (h : MemOnly a b) : b.groups = a.groups := by unfold MemOnly at h; rw [h]
theorem MemOnly.mgt {a b : State} (h : MemOnly a b) : b.mgt = a.mgt := by unfold MemOnly at h; rw [h]

theorem BytesKept.refl (s : State) : BytesKept s s := ⟨rfl, rfl⟩

theorem BytesKept.trans {a b c : State} (h : BytesKept a b) (k : BytesKept b c) : BytesKept a c :=
  ⟨h.1.trans k.1, k.2.trans h.2⟩

theorem HostFlt.bytesKept {a b : State} (h : HostFlt a b) : BytesKept a b := ⟨h.memOnly, by rw [h.mem]⟩

theorem memEvent_frame (s : State) (b : Nat) : BytesKept s (memEvent s b) := by
  refine ⟨?_, by rw [memEvent_mem]⟩
  unfold memEvent
  refine ite_keeps ?_ rfl
  refine MemOnly.trans ?_ (faultInterrupt_frame _).hostTs.hostFlt.memOnly
  rfl

theorem crcRepaired_frame (s : State) (source part handle st u : Nat) : BytesKept s (crcRepaired s source part handle st u) := by
  unfold crcRepaired
  refine BytesKept.trans ?_ (logFault_frame ..).bytesKept
  refine BytesKept.trans ?_ (memEvent_frame ..)
  exact ⟨rfl, rfl⟩

theorem poison_frame (s : State) (st : Nat) : BytesKept s (poison s st) := by
  unfold poison
  refine BytesKept.trans ?_ (memEvent_frame ..)
  exact ⟨rfl, rfl⟩

theorem loseUnit_frame (source : Nat) (s : State) (part handle st u : Nat) : BytesKept s (loseUnit source s part handle st u) := by
  unfold loseUnit
  refine BytesKept.trans ?_ (poison_frame ..)
  exact ite_keeps (R := BytesKept) (logFault_frame ..).bytesKept (.refl s)

theorem fireUnit_frame (s : State) (part handle st u : Nat) : BytesKept s (fireUnit s part handle st u) := by
  unfold fireUnit
  split
  · exact (endInjection_frame ..).bytesKept.trans (crcRepaired_frame ..)
  · exact .refl s

/-- A read of a unit changes no stored byte. -/
theorem fetchUnitBy_frame (source : Nat) (s : State) (part handle st u : Nat) :
    BytesKept s (fetchUnitBy source s part handle st u).1 := by
  unfold fetchUnitBy
  split
  · exact (endInjection_frame ..).bytesKept.trans (crcRepaired_frame ..)
  · split
    · exact .refl s
    · exact .refl s
    · exact ite_keeps (R := BytesKept) (crcRepaired_frame ..) (.refl s)
    · exact .refl s
    · exact loseUnit_frame ..

theorem fetchUnit_frame (s : State) (part handle st u : Nat) : BytesKept s (fetchUnit s part handle st u).1 :=
  fetchUnitBy_frame ..

/-- The record of a lost stripe touches the host side and the fault unit. -/
theorem lostRecord_frame (s : State) (h part st : Nat) : HostFlt s (lostRecord s h part st) := by
  unfold lostRecord
  exact HostFlt.trans (b := (drawBytes s 1).2) rfl (logFault_frame ..)

theorem readUnit_frame (part handle : Nat) (acc : State × Option (List Byte) × Option Nat) (p : Nat × Nat) :
    BytesKept acc.1 (readUnit part handle acc p).1 := by
  have h := fetchUnit_frame acc.1 part handle p.1 p.2
  unfold readUnit
  revert h
  generalize fetchUnit acc.1 part handle p.1 p.2 = r
  obtain ⟨s, b⟩ := r
  obtain ⟨a, o, l⟩ := acc
  intro h
  cases o <;> cases b
  · exact ite_keeps (R := BytesKept) h (h.trans (lostRecord_frame ..).bytesKept)
  · exact h
  · exact ite_keeps (R := BytesKept) h (h.trans (lostRecord_frame ..).bytesKept)
  · exact h

/-- A read of a range of units changes no stored byte. -/
theorem rawRead_frame (s : State) (part handle a n : Nat) : BytesKept s (rawRead s part handle a n).1 := by
  have go : ∀ (l : List (Nat × Nat)) (acc : State × Option (List Byte) × Option Nat), BytesKept s acc.1 →
      BytesKept s (l.foldl (readUnit part handle) acc).1 := by
    intro l
    induction l with
    | nil => intro acc h; exact h
    | cons p l ih => intro acc h; exact ih _ (h.trans (readUnit_frame ..))
  exact go _ _ (.refl s)

theorem charge_frame (s : State) (p : Nat) (n : Int) : BytesKept s (charge s p n) := ⟨rfl, rfl⟩

theorem chargeUrgent_frame (s : State) (p n : Nat) : BytesKept s (chargeUrgent s p n) := by
  unfold chargeUrgent
  exact ite_keeps (R := BytesKept) (charge_frame ..) ⟨rfl, rfl⟩

/-- A direct read changes no stored byte. -/
theorem devRead_frame (s : State) (part handle a n : Nat) : BytesKept s (devRead s part handle a n).1 :=
  (chargeUrgent_frame ..).trans (rawRead_frame ..)

/-- The enabled bytes of a write keep the form. -/
theorem putEnabled_wf (m : Mem) (a : Nat) (l : List Byte) (en : List Bool) (h : m.wf = true) : (putEnabled m a l en).wf = true := by
  induction l generalizing m a en with
  | nil => unfold putEnabled; exact h
  | cons b l ih =>
    cases en with
    | nil => unfold putEnabled; exact h
    | cons e en =>
      unfold putEnabled
      refine ih _ _ _ ?_
      split
      · exact Mem.wr_wf m a b h
      · exact h

/-- A byte outside the range of a write reads as before. -/
theorem putEnabled_outside (m : Mem) (a c : Nat) (l : List Byte) (en : List Bool) (h : c < a ∨ a + l.length ≤ c) :
    (putEnabled m a l en).rd c = m.rd c := by
  induction l generalizing m a en with
  | nil => unfold putEnabled; rfl
  | cons b l ih =>
    cases en with
    | nil => unfold putEnabled; rfl
    | cons e en =>
      unfold putEnabled
      simp only [List.length_cons] at h
      rw [ih _ _ _ (by omega)]
      split
      · exact Mem.rd_wr_ne m b (by omega)
      · rfl

theorem unitMended_frame (s : State) (st u : Nat) : BytesKept s (unitMended s st u) := ⟨rfl, rfl⟩

theorem journal_frame (s : State) (st : Nat) (us keep : List Nat) : BytesKept s (journal s st us keep) := by
  have h := foldl_keeps BytesKept.refl BytesKept.trans (fun s u => unitMended_frame s st u)
    (us.filter (fun u => !(channelOut s (unitChannel s st u)) && !(keep.contains u))) s
  exact h.trans ⟨rfl, rfl⟩

/-- What a write of one stripe does to the bytes: the enabled ones are put, or, with none enabled, nothing. -/
theorem stripeWrite_bytes (s : State) (st : Nat) (data : List Byte) (en : List Bool) :
    (stripeWrite s st data en).mem.bytes = s.mem.bytes ∨
      (stripeWrite s st data en).mem.bytes = putEnabled s.mem.bytes (4096 * st) data en := by
  unfold stripeWrite
  simp only
  split
  · exact .inl rfl
  · refine .inr ?_
    split
    · rw [(journal_frame ..).2]
    · split
      · rw [(journal_frame ..).2]
      · rw [(journal_frame ..).2]
        simp only [(poison_frame ..).2]
    · split <;> rw [(journal_frame ..).2]

/-- A write of one stripe touches device memory and what its events touch. -/
theorem stripeWrite_frame (s : State) (st : Nat) (data : List Byte) (en : List Bool) : MemOnly s (stripeWrite s st data en) := by
  unfold stripeWrite
  simp only
  split
  · exact .refl s
  · split
    · exact MemOnly.trans (by rfl) (journal_frame ..).1
    · split
      · exact MemOnly.trans (by rfl) (journal_frame ..).1
      · refine MemOnly.trans (poison_frame s st).1 ?_
        exact MemOnly.trans (by rfl) (journal_frame ..).1
    · split <;> exact MemOnly.trans (by rfl) (journal_frame ..).1

theorem stripeWrite_wf (s : State) (st : Nat) (data : List Byte) (en : List Bool) (h : s.mem.bytes.wf = true) :
    (stripeWrite s st data en).mem.bytes.wf = true := by
  rcases stripeWrite_bytes s st data en with e | e
  · rw [e]; exact h
  · rw [e]; exact putEnabled_wf _ _ _ _ h

/-- A write of a stripe with its reads keeps the form. -/
theorem writeStripe_wf (s : State) (part handle st : Nat) (data : List Byte) (en : List Bool) (h : s.mem.bytes.wf = true) :
    (writeStripe s part handle st data en).mem.bytes.wf = true := by
  unfold writeStripe
  refine stripeWrite_wf _ _ _ _ ?_
  rw [(foldl_keeps BytesKept.refl BytesKept.trans (fun s u => fireUnit_frame s part handle st u) _ s).2]
  exact h

/-- A write of a stripe with its reads touches the memory side alone. -/
theorem writeStripe_frame (s : State) (part handle st : Nat) (data : List Byte) (en : List Bool) :
    MemOnly s (writeStripe s part handle st data en) :=
  (foldl_keeps BytesKept.refl BytesKept.trans (fun s u => fireUnit_frame s part handle st u) _ s).1.trans (stripeWrite_frame ..)

/-- A direct write keeps the form. -/
theorem devWrite_wf (s : State) (part handle a : Nat) (b : List Byte) (h : s.mem.bytes.wf = true) :
    (devWrite s part handle a b).mem.bytes.wf = true := by
  unfold devWrite
  split
  · exact h
  · refine foldl_keeps (R := fun x y => x.mem.bytes.wf = true → y.mem.bytes.wf = true) (fun _ k => k) (fun k l m => l (k m)) ?_ _ s h
    intro s i k
    exact writeStripe_wf _ _ _ _ _ _ (by rw [(chargeUrgent_frame ..).2]; exact k)

/-- A direct write touches device memory and what its events touch. -/
theorem devWrite_frame (s : State) (part handle a : Nat) (b : List Byte) : MemOnly s (devWrite s part handle a b) := by
  unfold devWrite
  refine ite_keeps (.refl s) ?_
  exact foldl_keeps MemOnly.refl MemOnly.trans (fun s i => (chargeUrgent_frame ..).1.trans (writeStripe_frame ..)) _ s

theorem releaseRange_frame (s : State) (a n : Nat) : MemOnly s (releaseRange s a n) := rfl

theorem releaseRange_wf (s : State) (a n : Nat) (h : s.mem.bytes.wf = true) : (releaseRange s a n).mem.bytes.wf = true :=
  Mem.clear_wf _ _ _ h

end Sys2Proof.Laws
end

