-- ==== Sys2Proof/Tests/Bench.lean ====
section
/-! SUPPORT. The small states on which the tests and the witnesses of the statements stand. -/

open Sys2Proof Sys2Proof.Machine Sys2Proof.Claims

namespace Sys2Proof.Tests

/-- A sparse memory that holds these bytes from an address. -/
def memAt (a : Nat) (l : List Byte) : Mem := Mem.wrN [] a l

/-- A core word with OP, [25:20], [19:14] and the low 14 bits. -/
def cw (op d a low : Nat) : Nat := op * 2 ^ 26 + d * 2 ^ 20 + a * 2 ^ 14 + low % 2 ^ 14

/-- A group of the tiles 0 and 1, both started. -/
def g2 : Group :=
  { handle := 7, fn := 0, session := 1, part := 0, version := 0, x0 := 0, y0 := 0, gw := 2, gh := 1, started := [0, 1],
    epoch := 0, epochAt := 0, barSent := [], barHere := [], release := [], saves := [], msgs := [], answers := [], fault := none,
    lastFault := none, watched := false, exempt := 0, pausedAt := 0, triples := [], idle := 0, stalled := none }

/-- A running tile whose code is one word. -/
def tileAt (w : Nat) : Tile :=
  { tile0 with status := .running, code := memAt 0 (leBytes 4 w), codeLen := 4, group := 7, regs := [(1, 5), (2, 9)] }

/-- The machine with a group on the tiles 0 and 1. -/
def withGroup (g : Group) (l : Tbl Tile) : State := { State.reset with groups := [g], tiles := l }

/-- The machine with that tile as tile 0. -/
def onTile (x : Tile) : State := withGroup g2 [(0, x)]

/-- The core of tile 0 stands at this word and may issue it in cycle 0. -/
abbrev Ready (op d a low : Nat) (named : Nat → List Nat) : Prop :=
  CoreReady (onTile (tileAt (cw op d a low))) 0 op named g2 (tileAt (cw op d a low)) (cw op d a low) 0

theorem unarmed_of_none {s : State} {t k : Nat} (h : s.flt.inj = none) : Unarmed s t k := by
  intro i hi
  rw [h] at hi
  cases hi

/-- No injection is armed on the bench. -/
theorem bench_unarmed (x : Tile) (t k : Nat) : Unarmed (onTile x) t k := unarmed_of_none rfl

end Sys2Proof.Tests
end

