-- ==== Sys2Proof/Tests/WitnessRings.lean ====
section
/-! SUPPORT. For the statements about rings, doorbells, completion and interrupts: states and operands that meet the hypotheses. -/

open Sys2Proof Sys2Proof.Machine Sys2Proof.Claims

namespace Sys2Proof.Tests

set_option Elab.async false

/-- Submission ring 3, of 16 slots, with one descriptor to fetch, and completion ring 2 of 64 slots in its second pass. -/
def sq3 : Sq := { sq0 with enabled := true, slots := 4, cq := 2, tail := 6, expect := 5 }
def cq2 : Cq := { cq0 with enabled := true, log2 := 6, vector := 9, next := 70, head := 60, base := 0x100000, reserved := 1 }

/-- The page of PF0 with both rings selected and a fetch of their records pending. -/
def page3 : FnPage := { fnPage0 with sqSel := 3, cqSel := 2, fetching := true, fetchSq := [3], fetchCq := [2], pollAt := 0 }

/-- Every domain runs; PF0 is a bus master with MSI-X on and vector 9 unmasked. -/
def hostWith (p : FnPage) (q : Sq) (c : Cq) : State :=
  { State.reset with clk := { clk0 with run := 255 },
                     hi := { hi0 with cfgs := [(0, { fnCfg0 with busMaster := true, msix := true })], fns := [(0, p)], sqs := [(3, q)], cqs := [(2, c)],
                                      msix := [(0, [(9, { addr := 0xFEE00000, data := 77, ctrl := 0, pend := false })])] } }

/-- A VF beside PF0, its interface locked, with these rings. -/
def lockedWith (p : FnPage) (q : Sq) (c : Cq) : State :=
  let s := hostWith p q c
  { s with hi := { s.hi with fns := [(1, p)] }, spdm := { s.spdm with tdi := [(1, .locked)] },
           ts := { s.ts with bundle := { s.ts.bundle with fns := [(1, { fnRec0 with present := true, sqCount := 8, cqCount := 8 })] } } }

/-- A held entry on completion ring 2. -/
def entry2 (row : String) (d : Desc) (st : EntryState) : Entry :=
  { handle := 3 * 2 ^ 52 + 4, fn := 0, tag := 4097, row := row, desc := d, arg := [], version := 0, state := st, deps := [], scope := [],
    failed := 0, barriers := [], no := 1, acceptAt := 0, readyAt := 0, boost := 0, replayed := false, cq := 2, image := none, headers := [],
    finals := [], prevGen := [], before := [], regions := [] }
def holding (e : Entry) (q : Sq) (c : Cq) : State := let s := hostWith page3 q c; { s with ts := { s.ts with entries := [e] } }

theorem witness_DoorbellsAndPolls :
    let s := hostWith page3 sq3 cq2
    fnReach s 0 = true ∧ sqGlobal s 0 3 = some 3 ∧ (sqOf s 3).enabled = true ∧ sqGlobal s 0 4 = some 4 ∧ (sqOf s 4).enabled = false ∧
      sqGlobal (lockedWith page3 sq3 cq2) 1 8 = none ∧ fnReach (lockedWith page3 sq3 cq2) 1 = true ∧ pollDue s 0 = true ∧
      fetchOpen s 0 = true ∧ cqGlobal s 0 2 = some 2 ∧ (cqOf s 2).enabled = true ∧
      (∀ i ∈ (pageOf s 0).fetchSq, sqGlobal s 0 i ≠ some 4) ∧ (∀ i ∈ (pageOf s 0).fetchCq, cqGlobal s 0 i ≠ some 4) := by
  decide +kernel

/-- The records of submission ring 3 and of completion ring 2, with the TAIL and HEAD that stand already. -/
def recs3 : List DbRec :=
  [{ addr := hostKey page3.dbrPasid (page3.dbrBase + 64 * 3), data := leBytes 4 6 },
   { addr := hostKey page3.dbrPasid (page3.dbrBase + 64 * (4096 + 2)), data := leBytes 4 60 }]

theorem witness_DoorbellsAndPolls_records :
    let s := hostWith page3 sq3 cq2
    (fnRecOf s 0).sqCount = 4096 ∧
      (recs3.find? (fun r => r.addr == hostKey (pageOf s 0).dbrPasid ((pageOf s 0).dbrBase + 64 * 3))).isSome = true ∧
      (recs3.find? (fun r => r.addr == hostKey (pageOf s 0).dbrPasid ((pageOf s 0).dbrBase + 64 * ((fnRecOf s 0).sqCount + 2)))).isSome =
        true ∧
      (pageOf s 0).polled = false ∧ newWork s 0 recs3 = false := by
  decide +kernel

theorem witness_RingRegisters :
    (let s := hostWith page3 { sq3 with enabled := false } { cq2 with enabled := false };
      fnReach s 0 = true ∧ selSq s 0 = some 3 ∧ selCq s 0 = some 2 ∧ (sqOf s 3).enabled = false ∧ (cqOf s 2).enabled = false ∧
        tdiLocked s 0 = false ∧ (0x80020004#32).toNat.testBit 31 = true ∧ 4 ≤ (0x80020004#32).toNat % 16 ∧
        6 ≤ (0x80090006#32).toNat % 32 ∧ (0x80090010#32).toNat % 32 ≤ 16) ∧
    (let s := lockedWith page3 { sq3 with enabled := false } { cq2 with enabled := false };
      fnReach s 1 = true ∧ selSq s 1 = some 3 ∧ selCq s 1 = some 2 ∧ tdiLocked s 1 = true) ∧
    (let s := hostWith { page3 with cqSel := 4 } sq3 cq2;
      (0#32).toNat.testBit 31 = false ∧ (sqOf s 3).enabled = true ∧ selCq s 0 = some 4 ∧ cqInUse s 4 = false) ∧
    (let s := hostWith page3 sq3 { cq2 with halted := true };
      (cqOf s 2).enabled = true ∧ cqInUse s 2 = true ∧ (cqOf s 2).halted = true ∧ linkOpen s 0 = true) ∧
    (let s := lockedWith page3 sq3 { cq2 with halted := true, held := [{ entry := List.replicate 32 1, detail := [], noirq := false, notice := false, done := none }] };
      fnReach s 1 = true ∧ selCq s 1 = some 2 ∧ (cqOf s 2).halted = true ∧ linkOpen s 1 = false ∧ (cqOf s 2).held ≠ []) ∧
    (let s := hostWith page3 { sq3 with enabled := false } cq2;
      (cqOf s 2).enabled = true ∧ (cqOf s 2).halted = false) ∧
    selSq (lockedWith { page3 with sqSel := 8 } sq3 cq2) 1 = none := by
  decide +kernel

theorem witness_CompletionPostsOneEntry :
    let s := holding (entry2 "TASK" (BitVec.ofNat 1024 (1 + 2 ^ 8)) .running) sq3 cq2
    entryOf s (3 * 2 ^ 52 + 4) = some (entry2 "TASK" (BitVec.ofNat 1024 (1 + 2 ^ 8)) .running) ∧ cqOf s 2 = cq2 ∧
      s.flt.unrecoverable = false ∧ cq2.enabled = true ∧ cq2.halted = false ∧ linkOpen s (cqOwner s 2) = true ∧ s.out.host.wf = true ∧
      (dfld (BitVec.ofNat 1024 (1 + 2 ^ 8)) 1 1).testBit 0 = true ∧
      (entry2 "TASK" (BitVec.ofNat 1024 (1 + 2 ^ 8)) .running).state ≠ .completing ∧
      cqOf (holding (entry2 "TASK" 0 .running) sq3 { cq2 with halted := true }) 2 = { cq2 with halted := true } := by
  decide +kernel

theorem witness_RingErrorsAndMessages :
    (let s := hostWith page3 sq3 { cq2 with count := 1, firstAt := some 0 };
      let s := { s with time := 1000 };
      fnReach s 0 = true ∧ sqGlobal s 0 3 = some 3 ∧ (sqOf s 3).enabled = true ∧ (sqOf s 3).halted = false ∧ domainRuns s 1 = true ∧
        (cqOf s 2).enabled = true ∧ (cqOf s 2).halted = false ∧ (cqOf s 2).firstAt = some 0 ∧ 1 ≤ (cqOf s 2).coal / 2 ^ 16 % 2 ^ 16 ∧
        (cqOf s 2).coal / 2 ^ 16 % 2 ^ 16 ≤ 1000 ∧ 0 + 1000 * ((cqOf s 2).coal / 2 ^ 16 % 2 ^ 16) ≤ s.time ∧
        linkOpen s (cqOwner s 2) = true ∧ linkOpen s 0 = true ∧
        (cqOf s 2).vector < vectorCount (cqOwner s 2) ∧ (cfgOf s (cqOwner s 2)).msix = true ∧
        (cfgOf s (cqOwner s 2)).msixMask = false ∧ (msixOf s (cqOwner s 2) (cqOf s 2).vector).ctrl.testBit 0 = false) ∧
    (let s := hostWith page3 sq3 cq2;
      let s := setMsix s 0 9 { msixOf s 0 9 with ctrl := 1, pend := true };
      9 < vectorCount 0 ∧ (msixOf s 0 9).pend = true ∧ (cfgOf s 0).msix = true ∧ (cfgOf s 0).msixMask = false ∧
        (msixOf s 0 2047).pend = false) ∧
    (let s := lockedWith page3 sq3 cq2;
      (cqOf s 2).enabled = true ∧ (cqOf s 2).halted = false ∧ cqOwner s 2 = 1 ∧ linkOpen s 1 = false) := by
  decide +kernel

theorem witness_FaultInterrupt :
    (let s := hostWith page3 sq3 cq2;
      let s := { s with flt := { s.flt with mask := 8, irqEn := true }, mem := { s.mem with mask := 8 }, ts := { s.ts with mask := 8 } };
      (∀ p ∈ [(s.flt.event, s.flt.mask), (s.mem.event, s.mem.mask), (s.ts.event, s.ts.mask)],
        p.1.testBit 3 = false ∧ p.2.testBit 3 = true ∧ p.2.testBit 4 = false) ∧ s.flt.irqEn = true ∧
      9 < vectorCount 0 ∧ linkOpen s 0 = true ∧ (cfgOf s 0).msix = true ∧ (msixOf s 0 9).ctrl.testBit 0 = false ∧ (cfgOf s 0).msixMask = false ∧
      (msixOf s 0 2047).ctrl.testBit 0 = true) := by
  decide +kernel

end Sys2Proof.Tests
end

