-- ==== Sys2Proof/Tests/WitnessAccept.lean ====
section
/-! SUPPORT. For the statements about the acceptance of descriptors: one state and descriptor for each command. -/

open Sys2Proof Sys2Proof.Machine Sys2Proof.Claims

namespace Sys2Proof.Tests

set_option Elab.async false

/-- A descriptor with FLAGS 1, SEQ 5 and SESSION 4097, and these fields. -/
def sdOf (op tag : Nat) (l : List (Nat × Nat)) : Desc :=
  BitVec.ofNat 1024 (op + 2 ^ 8 + 5 * 2 ^ 32 + tag * 2 ^ 64 + l.foldl (fun n p => n + p.2 * 2 ^ (8 * p.1)) 0)
def sd (op : Nat) (l : List (Nat × Nat)) : Desc := sdOf op 4097 l

/-- A task image of one tile without declarations, whose one epoch has no record; its code is one word. -/
def image16 : List Byte :=
  leBytes 4 magicTi ++ leBytes 1 1 ++ leBytes 1 0 ++ leBytes 1 1 ++ leBytes 1 1 ++ leBytes 4 1 ++ leBytes 1 1 ++ leBytes 1 1 ++ leBytes 1 255 ++
    leBytes 1 0 ++ leBytes 2 0 ++ leBytes 2 0 ++ leBytes 4 0 ++ leBytes 8 256 ++ leBytes 8 288 ++ leBytes 8 288 ++ leBytes 8 288 ++ leBytes 8 320 ++
    List.replicate 64 0 ++ List.replicate 124 0 ++ leBytes 4 157211286 ++
    leBytes 8 300 ++ leBytes 4 4 ++ leBytes 4 0 ++ List.replicate 16 0 ++ List.replicate 8 0 ++ leBytes 4 0 ++ leBytes 4 0

/-- Session 1 of PF0 with a device region 1 and a host region 2; the device region holds the image. -/
def session1 : Session :=
  { gen := 1, fn := 0, part := 0, qEntries := 8, qBytes := 2 ^ 20, idle := 1, closing := false,
    regions := [{ id := 1, host := false, pasid := 0, base := 0x10000, len := 0x1000, removed := false },
                { id := 2, host := true, pasid := 0, base := 0x20000, len := 0x1000, removed := false }],
    psets := [], openAt := 0 }
def accepting (q : Sq) (c : Cq) : State :=
  let s := hostWith page3 q c
  { s with ts := { s.ts with sessions := [(1, session1)], gens := [(1, 1)] },
           mem := { s.mem with trained := true, bytes := memAt 0x10000 image16, stripes := [(16, .written)] } }

/-- A tensor of 64 bytes in the device region, and one in the host region. -/
def tdDev : Desc := BitVec.ofNat 1024 (1 + 3 * 2 ^ 16 + 2 ^ 24 + 8 * 2 ^ 128 + 8 * 2 ^ 320)
def tdHostWr : Desc := BitVec.ofNat 1024 (2 + 3 * 2 ^ 16 + 2 ^ 24 + 3 * 2 ^ 32 + 8 * 2 ^ 128 + 8 * 2 ^ 320)
def descArg (d : Desc) : List Byte := leBytes 128 d.toNat

/-- A PK operation with its argument block in host memory. -/
def pk (pop flags arglen out : Nat) (l : List (Nat × Nat)) : Desc :=
  sd 4 ([(0x38, 2 ^ 63), (0x40, arglen), (0x48, pop), (0x4A, flags), (0x60, 0x10000), (0x68, out)] ++ l)

/-- The row, a descriptor of it and the bytes that the host gives for its argument block. -/
def samples : List (String × Desc × HostData) :=
  [("FENCE", sd 5 [], none), ("CANCEL", sd 6 [(0x48, 3 * 2 ^ 52 + 4)], none), ("QUERY", sd 7 [(0x48, 3 * 2 ^ 52 + 4)], none),
   ("OPEN", sdOf 8 0 [(0x48, 1)], none), ("CLOSE", sd 8 [(0x48, 2)], none), ("LOAD_PSET", sd 8 [(0x48, 3), (0x50, 0xFFFF0001)], none),
   ("UNLOAD_PSET", sd 8 [(0x48, 4), (0x50, 9)], none), ("ADD_REGION", sd 8 [(0x48, 5), (0x4C, 3), (0x58, 0x20000), (0x60, 0x1000)], none),
   ("REMOVE_REGION", sd 8 [(0x48, 6), (0x4C, 1)], none), ("POLICY", sd 8 [(0x48, 7), (0x49, 2)], none),
   ("EXPORT", sd 9 [(0x48, 1), (0x4A, 2), (0x4C, 64), (0x58, 0x10000), (0x68, 8)], none),
   ("IMPORT", sd 9 [(0x48, 2), (0x4A, 2), (0x4C, 64), (0x58, 0x10000), (0x60, 0x10000), (0x68, 8)], none),
   ("MOVE", sd 3 [(0x38, 2 ^ 63), (0x40, 256)], some (descArg tdDev ++ descArg tdHostWr)), ("TASK", sd 1 [(0x30, 0x10000), (0x44, 1)], none)]

/-- The same for the PK operations: row, POP, flags, ARGLEN and OUTLEN. -/
def pkSamples : List (String × Desc × HostData) :=
  [("SHA_256", pk 0x01 0 0 32 []), ("SHA_384", pk 0x02 0 0 48 []), ("SHA_512", pk 0x03 0 0 64 []), ("SHAKE_128", pk 0x04 0 0 16 []),
   ("SHAKE_256", pk 0x05 0 0 65536 []), ("RSA_3072_QUOTE", pk 0x10 0 32 464 []), ("RSA_4096_QUOTE", pk 0x11 0 32 592 []),
   ("RSA_3072_PSS_VERIFY", pk 0x12 0 804 0 []), ("RSA_4096_PSS_VERIFY", pk 0x13 0 1092 0 []), ("P_256_KEY_PAIR", pk 0x20 2 0 64 []),
   ("P_256_ECDSA_SIGN", pk 0x21 0 64 64 []), ("P_256_ECDSA_VERIFY", pk 0x22 0 160 0 []), ("P_256_ECDH", pk 0x23 1 64 32 []),
   ("P_384_KEY_PAIR", pk 0x24 0 0 144 []), ("P_384_ECDSA_SIGN", pk 0x25 0 96 96 []), ("P_384_ECDSA_VERIFY", pk 0x26 0 240 0 []),
   ("P_384_ECDH", pk 0x27 0 144 48 []), ("X25519_KEY_PAIR", pk 0x30 0 0 64 []), ("X25519", pk 0x31 0 64 32 []),
   ("ED25519_KEY_PAIR", pk 0x32 0 0 64 []), ("ED25519_SIGN", pk 0x33 0 4032 64 []), ("ED25519_VERIFY", pk 0x34 0 96 0 []),
   ("ML_KEM_768_KEY_PAIR", pk 0x40 2 0 1184 []), ("ML_KEM_768_ENCAPSULATE", pk 0x41 0 1184 1120 []),
   ("ML_KEM_768_DECAPSULATE", pk 0x42 1 1088 32 []), ("ML_KEM_1024_KEY_PAIR", pk 0x44 2 0 1568 []),
   ("ML_KEM_1024_ENCAPSULATE", pk 0x45 0 1568 1600 []), ("ML_KEM_1024_DECAPSULATE", pk 0x46 1 1568 32 []),
   ("SLOT_CLEAR", pk 0x51 0 0 0 [])].map (fun p => (p.1, p.2, some []))

/-- Whether every check of R282 passes. -/
def passes (s : State) (fn g : Nat) (d : Desc) (arg : HostData) : Bool :=
  match checkAll s fn (handleOf g (sqOf s g).epoch (sqOf s g).expect) (tagSession s fn d) (tagRegions s fn d) d arg with
  | .done _ st _ _ => st == 0
  | .wait => false

theorem witness_DescriptorsAreConsumedOrRefused :
    (let s := accepting sq3 cq2;
      sqGlobal s 0 3 = some 3 ∧ mayFetch s 0 3 = true ∧ boardFull s 0 = false ∧ (cqOf s (sqOf s 3).cq).halted = false ∧
        linkOpen s (cqOwner s (sqOf s 3).cq) = true ∧ s.out.host.wf = true ∧
        (∀ p ∈ samples ++ pkSamples, rowOf p.2.1 = p.1 ∧ seqGap s 3 p.2.1 = 0 ∧ (dfld p.2.1 1 1).testBit 0 = true) ∧
        ¬(dfld (sdOf 1 4097 [(2, 8)]) 2 1 ≤ 7) ∧ firstFive s 0 (sdOf 1 4096 []) = 0x0102 ∧
        firstFive { s with mgt := { s.mgt with diag := some { scope := 1, expiry := 9 } } } 0 (sdOf 8 0 [(0x48, 1)]) = 0x0103 ∧
        firstFive s 0 (sdOf 9 4097 [(0x0C, 7)]) = 0x0603) ∧
    (let s := accepting { sq3 with expect := 4 } cq2; mayFetch s 0 3 = true ∧ seqGap s 3 (sd 5 []) = 1) ∧
    (let s := accepting { sq3 with expect := 6, tail := 9 } cq2; mayFetch s 0 3 = true ∧ seqGap s 3 (sd 5 []) = 2 ^ 32 - 1) ∧
    (let s := accepting sq3 cq2;
      let b := { s with ts := { s.ts with bundle := { s.ts.bundle with parts := [{ part0 with entries := 0 }] } } };
      mayFetch b 0 3 = true ∧ boardFull b 0 = true) := by
  decide +kernel

theorem witness_AcceptedDescriptorsAreHeld : ∀ p ∈ samples, rowOf p.2.1 = p.1 ∧ passes (accepting sq3 cq2) 0 3 p.2.1 p.2.2 = true := by
  decide +kernel

/-- A FENCE that names a handle of the next epoch, judged failed, and one that is held. -/
theorem witness_AcceptedDescriptorsAreHeld_deps :
    (let d := sd 5 [(3, 2), (0x10, 3 * 2 ^ 52 + 2 ^ 32), (0x18, 3 * 2 ^ 52 + 4)];
      let s := accepting sq3 cq2;
      let s := { s with ts := { s.ts with entries := [entry2 "TASK" 0 .running] } };
      rowOf d = "FENCE" ∧ passes s 0 3 d none = true ∧ dfld d 3 1 = 2 ∧ dfld d 0x10 8 = 3 * 2 ^ 52 + 2 ^ 32 ∧
        (entryOf s (dfld d 0x18 8)).isSome = true) ∧
    JudgedFailed (accepting sq3 cq2) (3 * 2 ^ 52 + 2 ^ 32) :=
  ⟨by decide +kernel, by decide +kernel, Or.inr ⟨by decide +kernel, Or.inr (by decide +kernel)⟩⟩

theorem witness_AcceptedDescriptorsAreHeld_pk :
    ∀ p ∈ pkSamples, rowOf p.2.1 = p.1 ∧ passes (accepting sq3 cq2) 0 3 p.2.1 p.2.2 = true := by
  decide +kernel

/-- A macro of this code on this many tiles, with its COUNT, P1 and P2. -/
def mac (code tiles count p1 p2 : Nat) : Desc :=
  sd 2 [(0x38, 2 ^ 63), (0x40, 1024), (0x44, tiles), (0x48, code), (0x49, 1), (0x4C, count), (0x58, p1), (0x60, p2)]

/-- The macros: row and descriptor. -/
def macSamples : List (String × Desc) :=
  [("REFRESH", mac 1 16 1 0 0), ("SWITCH_TO_LWE", mac 2 4 1 1 0), ("REPACK", mac 3 4 1 1 0), ("PBS", mac 4 1 256 0 0),
   ("KEYSWITCH", mac 5 1 1 0 0), ("ROTATE_MANY", mac 6 2 15 0 0), ("RESCALE", mac 7 2 16 0 0), ("MPC_TRUNC", mac 8 8 0 0 63),
   ("MPC_COMPARE", mac 9 8 0 0 0)]

/-- The form of a macro is right when the device provides its version. -/
theorem macSamples_form : ∀ p ∈ macSamples, macroFormOk p.2 = Config.macroProvided (mcCode p.2) 1 := by
  have hf : ∀ p ∈ macSamples, mcVer p.2 = 1 ∧ ∀ b, (dfld p.2 0x30 8 == 0 && dfld p.2 0x40 4 == 1024 && dfld p.2 0x4A 2 == 0 &&
      dfld p.2 0x68 16 == 0 && decide (1 ≤ mcVer p.2) && b && macroTilesOk (mcCode p.2) (sdTiles p.2) && macroParamsOk p.2) = b := by
    decide +kernel
  intro p hp
  rw [macroFormOk, (hf p hp).2, (hf p hp).1]

/-- On a device that provides version 1 of every macro (R217). -/
theorem witness_AcceptedDescriptorsAreHeld_macros (h : ∀ m, Config.macroProvided m 1 = true) :
    ∀ p ∈ macSamples, rowOf p.2 = p.1 ∧ passes (accepting sq3 cq2) 0 3 p.2 (some (List.replicate 1024 0)) = true := by
  intro p hp
  have hm := macSamples_form p hp
  rw [h] at hm
  simp only [passes, checkAll, checkOwn, ownMacro, hm]
  clear hm
  revert p
  decide +kernel

/-- SLOT_LOAD of 32 bytes with the type 0. -/
def slotLoad : Desc := pk 0x50 0 36 0 []

/-- On a device whose slot type 0 is a P-256 private key (R383). -/
theorem witness_AcceptedDescriptorsAreHeld_slotLoad (h : kindOf (Config.slotKind 0) = some .p256) :
    rowOf slotLoad = "SLOT_LOAD" ∧ passes (accepting sq3 cq2) 0 3 slotLoad (some (List.replicate 36 0)) = true := by
  refine ⟨by decide +kernel, ?_⟩
  have hr : ∀ s part h rs, readArg s part h rs slotLoad (some (List.replicate 36 0)) = .done s 0 (List.replicate 36 0) := by
    intro s part h rs
    have h1 : sdArgLen slotLoad = 36 ∧ bitAt (sdArg slotLoad) 63 = true := by decide +kernel
    simp [readArg, h1.1, h1.2, stOk]
  have ha : pkArgOk slotLoad (List.replicate 36 0) = true := by
    have h1 : le (List.replicate 36 0) 0 4 = 0 ∧ pkPop slotLoad = 0x50 ∧ dfld slotLoad 0x40 4 = 36 := by decide +kernel
    simp only [pkArgOk, h1.1, h1.2.1, h1.2.2, h]
    decide
  simp only [passes, checkAll, hr, checkOwn, ownPk, ha]
  decide +kernel

end Sys2Proof.Tests
end

