-- ==== Sys2Proof/Tests/WitnessControl.lean ====
section
/-! SUPPORT. For the statements about control, readiness, dispatch and tiles: states and operands that meet the hypotheses. -/

open Sys2Proof Sys2Proof.Machine Sys2Proof.Claims

namespace Sys2Proof.Tests

set_option Elab.async false

/-- The handle of the held entry, an entry of it, and the machine that holds it for session 1. -/
def h4 : Nat := 3 * 2 ^ 52 + 4
def entryOp (op : Nat) (st : EntryState) : Entry := let d := sd op [(0x48, 1)]; entry2 (rowOf d) d st
def held (e : Entry) : State := let s := accepting sq3 cq2; { s with ts := { s.ts with entries := [e] }, time := 5000000 }

/-- The group of that handle on tiles 0 and 1. -/
def g4 : Group := { g2 with handle := h4 }
def heldBy (g : Group) (e : Entry) (l : Tbl Tile) : State := { held e with groups := [g], tiles := l }

theorem witness_FenceCancelQuery :
    (let e := entryOp 5 .waiting;
      entryOf (held e) h4 = some e ∧ onEpoch (held e) h4 = true ∧ e.row = "FENCE" ∧ e.deps = [] ∧ e.scope = [] ∧ domainRuns (held e) 3 = true ∧ h4 ≠ 9) ∧
    (∀ st ∈ [EntryState.waiting, .ready], let e := entryOp 1 st; entryOf (held e) h4 = some e ∧ h4 ≠ 9 ∧ e.state = st) ∧
    (let e := entryOp 3 .running; entryOf (held e) h4 = some e ∧ e.state = .running ∧ isTransfer e = true) ∧
    (let e := entryOp 1 .running;
      entryOf (heldBy g4 e []) h4 = some e ∧ isTransfer e = false ∧ groupOf (heldBy g4 e []) h4 = some g4 ∧ g4.handle = h4 ∧
        (groupTiles g4).Nodup) ∧
    (let e := entryOp 4 .running; entryOf (held e) h4 = some e ∧ isTransfer e = false ∧ groupOf (held e) h4 = none) ∧
    (let s := held (entryOp 1 .running);
      entryOf s (3 * 2 ^ 52 + 7 * 2 ^ 32) = none ∧
        (3 * 2 ^ 52 + 7 * 2 ^ 32) / 2 ^ 32 % 2 ^ 20 ≠ (sqOf s ((3 * 2 ^ 52 + 7 * 2 ^ 32) / 2 ^ 52)).epoch) ∧
    (let e := entryOp 1 .completing; entryOf (held e) h4 = some e ∧ h4 ≠ 9 ∧ e.state = .completing) ∧
    (let e := entryOp 1 .replaying;
      entryOf (heldBy g4 e []) h4 = some e ∧ e.state = .replaying ∧ groupOf (heldBy g4 e []) h4 = some g4 ∧ e.image = none) ∧
    (let q := { sq3 with consumed := 5, outcome := [{ seq := 3, no := 1, tag := 4097, taken := true, result := some true }] };
      let s := { accepting q cq2 with ts := { (accepting q cq2).ts with entries := [entryOp 1 .running] } };
      entryOf s (3 * 2 ^ 52 + 3) = none ∧ wasAccepted s (3 * 2 ^ 52 + 3) = true) ∧
    (let e := { entryOp 6 .waiting with failed := 1 }; entryOf (held e) h4 = some e ∧ 0 < e.failed ∧ e.handle = h4) := by
  decide +kernel

theorem witness_EffectivePriority :
    let e := entryOp 1 .ready
    e.boost = 0 ∧ entryOf (held e) e.handle = some e ∧ e.state = .ready ∧ domainRuns (held e) 3 = true ∧ effPrio (held e) e < 7 ∧
      (match exec (.priorityAge e.handle) (held e) with
        | .next _ => true
        | _ => false) = true := by
  decide +kernel

/-- An image of one tile without declarations or code, and a task with it. -/
def image1 : Image :=
  { addr := 0x10000, streaming := false, gw := 1, gh := 1, footprint := 255, semode := 0, roles := [], roleMap := [], descs := [], objs := [],
    epochs := [[]], codes := [], plan := [] }
def task1 (op : Nat) (st : EntryState) : Entry := { entryOp op st with image := some image1 }

/-- The same machine with tiles 0 and 1 free and of the active version. -/
def freeTile : TileInfo := { tileInfo0 with state := 0 }
def freed (s : State) : State := { s with ts := { s.ts with tiles := [(0, freeTile), (1, freeTile)] } }

/-- What the next dispatch of partition 0 does: 1 ends stale work, 2 places a macro, 3 places a task. -/
def nextTurn (s : State) : Nat :=
  match (queueFor s 0).findSome? (turnOf s) with
  | some (.stale _) => 1
  | some (.go e _ _) => if dfld e.desc 0 1 = 2 then 2 else 3
  | none => 0

theorem witness_ReadinessAndDispatch :
    (let e := { entryOp 3 .waiting with failed := 1 };
      entryOf (held e) h4 = some e ∧ e.state = .waiting ∧ e.row ≠ "FENCE" ∧ e.barriers = [] ∧ domainRuns (held e) 3 = true ∧ 0 < e.failed) ∧
    (∀ op ∈ [3, 8], let e := entryOp op .waiting; entryOf (held e) h4 = some e ∧ e.failed = 0 ∧ e.deps = [] ∧ dfld e.desc 0 1 = op) ∧
    (let r := session1.regions;
      let e := { entry2 "SHA_256" (pk 1 0 0 32 [(0x58, 64)]) .waiting with regions := r };
      entryOf (held e) h4 = some e ∧ dfld e.desc 0 1 = 4 ∧ pkIn e = false ∧ pkIn { e with desc := pk 0x20 2 0 64 [] } = true) ∧
    (∀ p ∈ [(0x10000, true), (0x30000, false)],
      let d := sd 9 [(0x48, 1), (0x4A, 2), (0x4C, 64), (0x58, p.1), (0x68, 8)];
      let e := { entry2 "EXPORT" d .waiting with regions := session1.regions };
      entryOf (held e) h4 = some e ∧ dfld e.desc 0 1 = 9 ∧ exchangeIn e = p.2) ∧
    (let e := task1 1 .waiting;
      entryOf (held e) h4 = some e ∧ dfld e.desc 0 1 < 3 ∧ e.barriers = [] ∧ (makeReady (noteHeads (held e)) e).isSome = true) ∧
    (let s := freed (held { task1 1 .ready with version := 3 });
      domainRuns s 3 = true ∧ s.flt.mcRestarting = false ∧ nextTurn s = 1) ∧
    nextTurn (freed (held (task1 2 .ready))) = 2 ∧ nextTurn (freed (held (task1 1 .ready))) = 3 ∧
    (match readAll (noteHeads (freed (held (task1 1 .ready)))) 0 h4 (image1.roles.map (fun r => (image1.addr + r.codeOff, r.codeLen))) with
      | .got _ (some _) => true
      | _ => false) = true ∧
    nextTurn (freed (held { task1 1 .ready with image := some { image1 with streaming := true } })) = 3 := by
  decide +kernel

/-- A VALID share header of party 0 of 2, its 256 bytes of data at 0x10100. -/
def share : List Byte :=
  leBytes 4 magicCt ++ leBytes 1 1 ++ leBytes 1 6 ++ leBytes 2 1 ++ leBytes 4 0xFFFF0006 ++ leBytes 1 16 ++ leBytes 1 8 ++ leBytes 2 1 ++
    leBytes 8 77 ++ leBytes 12 0 ++ leBytes 1 0 ++ leBytes 1 2 ++ leBytes 2 0 ++ leBytes 8 0x10100 ++ leBytes 8 256 ++ leBytes 8 1 ++
    List.replicate 188 0 ++ leBytes 4 1808460149

/-- An image with a SOURCE in slot 5 and a DEST in slot 4, an argument block that puts their headers at 0x10000 and 0x10400, a task with both,
and the machine whose memory holds the share. -/
def declOf (slot role : Nat) : ObjDecl :=
  { slot := slot, role := role, kind := 6, drop := 0, srcmask := if role = 3 then 2 ^ 5 else 0, galois := 0, scaleRule := 0, target := 0,
    dec := 0, ptScale := 0, targetArg := 0, polys := 0 }
def image2D : Image := { image1 with objs := [declOf 5 1, declOf 4 3] }
def argBlock : List Byte :=
  ((List.range 128).map (fun k => leBytes 8 (if k = 4 then 0x10400 else if k = 5 then 0x10000 else if k = 68 then 0x10600 else
    if k = 100 then 256 else if k = 69 then 0x10100 else if k = 101 then 256 else 0))).flatten
def task2 (st : EntryState) : Entry :=
  { entryOp 1 st with image := some image2D, arg := argBlock, regions := session1.regions }
def sharing (g : Group) (e : Entry) (l : Tbl Tile) : State := let s := heldBy g e l; { s with mem := { s.mem with bytes := memAt 0x10000 share } }

/-- Its headers are read, and its data lies in its regions. -/
def readsIn : Bool :=
  let e := task2 .waiting
  let s := sharing g4 e []
  match readHeads (noteHeads s) e image2D.objs (argWords e.arg) with
  | .got _ hs => dataIn e.regions image2D.objs (argWords e.arg) hs
  | _ => false

theorem witness_ReadinessAndDispatch_task :
    readsIn = true ∧ (sharing g4 (task2 .waiting) []).ts.sessions.find ((task2 .waiting).tag % 4096) = some session1 ∧
      dfld (task2 .waiting).desc 0 1 = 1 ∧ entryOf (sharing g4 (task2 .waiting) []) h4 = some (task2 .waiting) := by
  decide +kernel

/-- The destination header of the task is written not-VALID before its first tile starts, and its triples are consumed: it has none. -/
def clears (e : Entry) (i : Image) : Bool :=
  let g := { g4 with started := [] }
  let s := sharing g e []
  match clearDests s g e i with
  | some (s1, true) => match consumeTriples s1 g e i 0 with
    | some (_, 0) => true
    | _ => false
  | _ => false

theorem witness_TilesStartEndAndIdle_first :
    clears (task1 1 .running) image1 = true ∧ clears (task2 .running) image2D = true ∧ (task2 .running).prevGen = [] ∧
      (let g := { g4 with started := [] };
        let s := sharing g (task2 .running) [];
        tileGroup s 0 = some g ∧ entryOf s g.handle = some (task2 .running) ∧ groupOf s g.handle = some g ∧ mayWake s 0 = true ∧
          (match readAll s g.part g.handle ((destHeads (task2 .running) image2D).map (fun p => (p.2, 256))) with
            | .got _ (some _) => true
            | _ => false) = true) := by
  decide +kernel

/-- A tile whose core has ended. -/
def endedTile : Tile := { tile0 with status := .ended, group := h4 }

theorem witness_TilesStartEndAndIdle :
    (let e := task1 1 .running;
      let g := { g4 with started := [0] };
      let s := heldBy g e [];
      tileGroup s 1 = some g ∧ entryOf s g.handle = some e ∧ groupOf s g.handle = some g ∧ e.image = some image1 ∧ 1 ∉ g.started ∧
        g.fault = none ∧ s.flt.mcRestarting = false ∧ domainRuns s 7 = true ∧ mayWake s 1 = true ∧ g.started ≠ []) ∧
    (let e := task1 1 .running;
      let g := { g4 with started := [] };
      let s := heldBy g e [];
      tileGroup s 0 = some g ∧ entryOf s g.handle = some e) ∧
    (let e := task1 1 .running;
      let s := heldBy g4 e [(0, endedTile), (1, endedTile)];
      groupOf s h4 = some g4 ∧ groupDone s g4 = true ∧ lastPlanned image1 g4 = true ∧ closeViols s g4 = none ∧ declsOf image1.objs 1 = [] ∧ declsOf image1.objs 3 = []) ∧
    (let s := freed (held (entryOp 1 .ready));
      (infoOf s 0).state = 0 ∧ (infoOf s 0).lull = false ∧ tileGroup s 0 = none ∧ (infoOf s 0).freeAt + 1000 * s.ts.bundle.lullUs ≤ s.time) ∧
    (let s := setInfo (held (entryOp 1 .ready)) 5 { tileInfo0 with dirty := true, session := 4096 };
      tileGroup s 5 = none ∧ (infoOf s 5).dirty = true ∧ (infoOf s 5).state ≠ 1 ∧ 4096 ≤ (infoOf s 5).session ∧ mayWake s 5 = true) ∧
    (let s := setInfo (held (entryOp 1 .ready)) 5 { tileInfo0 with version := 8 };
      (infoOf s 5).state = 2 ∧ (infoOf s 5).lull = false ∧ (infoOf s 5).freeAt + 1000 * s.ts.bundle.lullUs ≤ s.time ∧ (infoOf s 5).fails < 2 ∧ (infoOf s 5).version ≠ s.ts.bundle.version ∧ tileGroup s 5 = none ∧
        domainRuns s 3 = true) := by
  decide +kernel

/-- The source header is read again before the final headers: as it was at readiness, or with another GEN; then the DEST header is written. -/
def finalsOf (hd : List (Nat × List Byte)) (same : Bool) : Bool :=
  let e := { task2 .running with headers := hd, finals := [(4, share.take 252)], prevGen := [(4, 0)] }
  let s := sharing g4 e [(0, endedTile), (1, endedTile)]
  match readAll s g4.part h4 ((declsOf image2D.objs 1).map (fun d => (slotAddr e image2D d.slot, 256))) with
  | .got s1 (some bs) =>
    ((declsOf image2D.objs 1).zip bs).all (fun p => intactCt p.2 && ohValid p.2 && ohGen p.2 == ohGen (headerAt e.headers p.1.slot)) == same &&
      (headerWrites s1 g4.part h4 (finalHeads e image2D)).isSome && s1.mem.bytes.wf &&
      (finalHeads e image2D).all (fun p => p.1 % 256 == 0 && p.2.length == 256)
  | _ => false

theorem witness_TilesStartEndAndIdle_final : finalsOf [(5, share)] true = true ∧ finalsOf [] false = true := by decide +kernel

end Sys2Proof.Tests
end

