-- ==== Sys2Proof/Tests/WitnessCore.lean ====
section
/-! SUPPORT. For the statements about the core and its synchronisation: states and operands that meet the hypotheses. -/

open Sys2Proof Sys2Proof.Machine Sys2Proof.Claims

namespace Sys2Proof.Tests

set_option Elab.async false

theorem witness_ScalarRegisterFile : (0 = 0 ∨ 63 < 0) ∧ (64 = 0 ∨ 63 < 64) ∧ (0 < 1 ∧ 1 < 64 ∧ 2 ≠ 1) ∧ (0 < 63 ∧ 63 < 64) := by decide

theorem witness_ImmediateFormsWriteTheirResult :
    (∀ op ∈ [1, 2, 3, 4, 5, 6, 7, 8, 9], Ready op 3 1 7 (fun w => [iD w, iA w])) ∧ Unarmed (onTile (tileAt (cw 1 3 1 7))) 0 4 :=
  ⟨by decide +kernel, bench_unarmed _ _ _⟩

theorem witness_AluFunctionsWriteTheirResult :
    ∀ fn, fn < 16 → Ready 0 3 1 (256 * 2 + fn) (fun w => [iD w, iA w, iB w]) ∧ iFn (cw 0 3 1 (256 * 2 + fn)) = fn := by decide +kernel

theorem witness_BitFieldInstructions :
    Ready 0x0A 3 8 0x1234 (fun w => [iD w]) ∧ Ready 0x0B 3 1 (256 * 60 + 4 * 8) (fun w => [iD w, iA w]) ∧
      Ready 0x0C 3 1 0 (fun w => [iD w, iA w]) := by decide +kernel

/-- An image whose FOOTPRINT is all of scratchpad. -/
def image2 : Image :=
  { addr := 0, streaming := false, gw := 2, gh := 1, footprint := 255, semode := 0, roles := [], roleMap := [], descs := [], objs := [],
    epochs := [], codes := [], plan := [] }

/-- The running task of the bench's group. -/
def entryOn (i : Image) : Entry :=
  { handle := 7, fn := 0, tag := 4097, row := "TASK", desc := 0, arg := [], version := 0, state := .running, deps := [], scope := [],
    failed := 0, barriers := [], no := 0, acceptAt := 0, readyAt := 0, boost := 0, replayed := false, cq := 0, image := some i,
    headers := [], finals := [], prevGen := [], before := [], regions := [] }

/-- A task whose image covers all of scratchpad. -/
def wholeFoot (x : Tile) : State := { onTile x with ts := { ts0 with entries := [entryOn image2] } }

/-- A task in streaming mode with nothing in its instruction cache. -/
def streamed (x : Tile) : State :=
  { onTile x with ts := { ts0 with entries := [entryOn { image2 with streaming := true }] }, mem := { devMem0 with trained := true } }

/-- A refill brings all that the core of tile 0 misses. -/
theorem refill_brings : ∃ s1, refill (streamed (tileAt 0)) g2 0 0 = .got s1 ∧ missing s1 0 = none := by
  have h : (match refill (streamed (tileAt 0)) g2 0 0 with
    | .got s1 => (missing s1 0).isNone
    | _ => false) = true := by decide +kernel
  split at h
  · rename_i s1 hs
    exact ⟨s1, hs, by simpa using h⟩
  · cases h

theorem witness_ControlFlowOfTheCore :
    (∀ op ∈ [0x18, 0x19, 0x1A, 0x1B, 0x1C, 0x1D], Ready op 1 2 3 (fun w => [iD w, iA w])) ∧ Ready 0x1E 3 0 8 (fun w => [iD w]) ∧
      Ready 0x1F 3 1 3 (fun w => [iD w, iA w]) ∧
      (∀ w ∈ [cw 0x0D 0 0 0, cw 0x3F 0 0 0, cw 0 0 0 0x10],
        live (onTile (tileAt w)) 0 = some g2 ∧ (tileOf (onTile (tileAt w)) 0).status = .running ∧ missing (onTile (tileAt w)) 0 = none ∧
          coreWord (tileOf (onTile (tileAt w)) 0) = some w ∧ (tileOf (onTile (tileAt w)) 0).cyc < 2 ^ 40 ∧
          (iOp w ∈ [0x0D, 0x0E, 0x0F, 0x16, 0x17] ∨ 0x2C < iOp w ∨ (iOp w = 0 ∧ 0x0F < iFn w))) ∧
      coreWord (tileOf (onTile (tileAt (cw 0x2C 0 0 0))) 0) = some (cw 0x2C 0 0 0) ∧ iOp (cw 0x2C 0 0 0) = 0x2C ∧
      coreWord (tileOf (onTile { tileAt 0 with pc := 4 }) 0) = none ∧ missing (streamed (tileAt 0)) 0 = some (g2, 0) ∧
      ∃ s1, refill (streamed (tileAt 0)) g2 0 0 = .got s1 ∧ missing s1 0 = none :=
  ⟨by decide +kernel, by decide +kernel, by decide +kernel, by decide +kernel, by decide +kernel, by decide +kernel, by decide +kernel,
    by decide +kernel, refill_brings⟩

theorem witness_QueuesRead : caughtUp (tileAt (cw 0x28 3 0 9)) coreEvent 1 = true ∧ ∀ q, q < 5 → queueUse (tileAt (cw 0x28 3 0 9)) q 0 ≤ 32 := by
  decide +kernel

theorem witness_SpecialCoreInstructions :
    Ready 0x14 3 1 0x3FFF (fun w => [iD w, iA w]) ∧ Ready 0x15 60 0 0 (fun w => [iD w, iD w + 1, iD w + 2, iD w + 3]) ∧
      (∀ k ∈ [0, 1, 2, 3, 4, 5, 6, 7, 8, 9, 10, 11, 255], Ready 0x28 3 0 k (fun w => [iD w]) ∧ imod (iImm (cw 0x28 3 0 k)) 256 = k) ∧
      Ready 0x26 0 1 3 (fun w => [iA w]) ∧
      (Ready 0x27 0 0 0 (fun w => [iA w]) ∧ imod ((regOf (tileAt (cw 0x27 0 0 0)) 0).toNat + iImm (cw 0x27 0 0 0)) (2 ^ 64) ≤ 0) ∧
      (Ready 0x27 0 1 3 (fun w => [iA w]) ∧ 0 < imod ((regOf (tileAt (cw 0x27 0 1 3)) 1).toNat + iImm (cw 0x27 0 1 3)) (2 ^ 64)) ∧
      live (onTile { tileAt 0 with status := .waiting (.until 40) }) 0 = some g2 ∧
      (tileOf (onTile { tileAt 0 with status := .waiting (.until 40) }) 0).status = .waiting (.until 40) := by decide +kernel

/-- A tile with a store of 8 bytes that waits for its grant. -/
def storing : Tile := { tileAt 0 with store := some { from_ := 3, addr := 0x7FFFFC, data := leBytes 8 0x1122334455667788, pc := 0 } }


theorem witness_CoreLoadsAndStores :
    (∀ op ∈ [0x10, 0x11],
      CoreReady (wholeFoot (tileAt (cw op 3 1 3))) 0 op (fun w => [iD w, iA w]) g2 (tileAt (cw op 3 1 3)) (cw op 3 1 3) 0 ∧
        (tileAt (cw op 3 1 3)).store = none ∧ imod ((regOf (tileAt (cw op 3 1 3)) 1).toNat + iImm (cw op 3 1 3)) 0x800000 = 8 ∧
        readViols (footOf (wholeFoot (tileAt (cw op 3 1 3))) 7) (tileAt (cw op 3 1 3)) (grantFrom (tileAt (cw op 3 1 3)) 8 8 (Nat.max 0 0))
          8 8 5 0 0 false = [] ∧
        caughtUp (tileAt (cw op 3 1 3)) coreEvent (grantFrom (tileAt (cw op 3 1 3)) 8 8 (Nat.max 0 0) + 1) = true ∧
        movedViols (tileAt (cw op 3 1 3)) (coreClaim (tileAt (cw op 3 1 3)) (grantFrom (tileAt (cw op 3 1 3)) 8 8 (Nat.max 0 0)) 8 8 false) = []) ∧
      NoLowRanks (tileAt 0) ∧ Unarmed (wholeFoot (tileAt 0)) 0 3 ∧
      (∀ op ∈ [0x12, 0x13], Ready op 2 1 3 (fun w => [iD w, iA w]) ∧ (tileAt (cw op 2 1 3)).store = none) ∧
      live (wholeFoot storing) 0 = some g2 ∧ (tileOf (wholeFoot storing) 0).store = storing.store ∧
      movedViols storing (coreClaim storing (grantFrom storing 0x7FFFFC 8 3) 0x7FFFFC 8 true) = [] ∧
      caughtUp storing 5 (grantFrom storing 0x7FFFFC 8 3 + 1) = true ∧ NoLowRanks storing ∧ Settled storing (grantFrom storing 0x7FFFFC 8 3) ∧
      storing.writes = [] ∧ writeViols (footOf (wholeFoot storing) 7) storing (grantFrom storing 0x7FFFFC 8 3) 0x7FFFFC 8 5 0 0 = [] :=
  ⟨by decide +kernel, by decide, unarmed_of_none rfl, by decide +kernel, by decide +kernel, by decide +kernel, by decide +kernel, by decide +kernel, by decide,
    by decide +kernel, rfl, by decide +kernel⟩

/-- A core word of format Q. -/
def qw (n q rel : Nat) : Nat := 0x20 * 2 ^ 26 + n * 2 ^ 20 + q * 2 ^ 17 + rel * 2 ^ 16

/-- A queue entry with nothing in it, pushed in cycle `c`. -/
def entryAt (c : Nat) : QEntry := { word := 0, pushed := c, pc := 0, num := 1, scalars := [], desc := none }

/-- A PUSH of a NOP to Q_MMA, and the same with a full queue that empties after cycle 5. -/
def pushing : Tile := tileAt (qw 4 0 0)
def fullQueue : Tile := { pushing with queues := [(0, List.replicate 31 (entryAt 0))], issued := [(0, [5])] }

/-- The same tiles with TIMED set in the command pushed, and with REL and a BASE of 100. -/
def timedPush : Tile := { pushing with regs := [(7, 2 ^ 52)] }
def timedStall : Tile := { fullQueue with regs := [(7, 2 ^ 52)], status := .waiting .pushing }
def cachedPush : Tile := { timedPush with icache := [(0, [0])] }
def relPush : Tile := { tileAt (qw 4 0 1) with regs := [(7, 2 ^ 52)], base := 100 }

theorem witness_PushLate :
    (CoreReady (onTile timedPush) 0 0x20 (fun w => [iD w, iD w + 1, iD w + 2, iD w + 3]) g2 timedPush (qw 4 0 0) 0 ∧
      iQueue (qw 4 0 0) < 4 ∧ caughtUp timedPush coreEvent 1 = true ∧ overBy timedPush 0 = none ∧ openViols timedPush 0 = [] ∧
      pushClear timedPush 0 0 (pushNeed (onTile timedPush) g2 timedPush (qw 4 0 0) 0) = true ∧
      hTimed (pushCmd (onTile timedPush) g2 timedPush (qw 4 0 0)) = true ∧
      hAt (pushCmd (onTile timedPush) g2 timedPush (qw 4 0 0)) ≤ 0 + 15) ∧
    (live (onTile timedStall) 0 = some g2 ∧ timedStall = tileOf (onTile timedStall) 0 ∧ timedStall.status = .waiting .pushing ∧
      coreWord timedStall = some (qw 4 0 0) ∧ timedStall.cyc < 5 ∧ caughtUp timedStall coreEvent 6 = true ∧ overBy timedStall 5 = none ∧
      openViols timedStall 5 = [] ∧
      pushClear timedStall 0 4 (pushNeed (onTile timedStall) g2 timedStall (qw 4 0 0) 4) = false ∧
      pushClear timedStall 0 5 (pushNeed (onTile timedStall) g2 timedStall (qw 4 0 0) 5) = true ∧
      hTimed (pushCmd (onTile timedStall) g2 timedStall (qw 4 0 0)) = true ∧
      hAt (pushCmd (onTile timedStall) g2 timedStall (qw 4 0 0)) ≤ 5 + 15) := by decide +kernel

theorem witness_PushRelAndStreaming :
    (CoreReady (onTile relPush) 0 0x20 (fun w => [iD w, iD w + 1, iD w + 2, iD w + 3]) g2 relPush (qw 4 0 1) 0 ∧
      iQueue (qw 4 0 1) ≤ 4 ∧ caughtUp relPush coreEvent 1 = true ∧ pushClear relPush 0 0 (pushNeed (onTile relPush) g2 relPush (qw 4 0 1) 0) = true ∧
      pushViols relPush 0 (pushCmd (onTile relPush) g2 relPush (qw 4 0 1)) 0 = [] ∧
      streamingOf (onTile relPush) 7 = false ∧ iRel (qw 4 0 1) = true ∧ hTimed (pushWord relPush 4) = true) ∧
    (CoreReady (streamed cachedPush) 0 0x20 (fun w => [iD w, iD w + 1, iD w + 2, iD w + 3]) g2 cachedPush (qw 4 0 0) 0 ∧
      streamingOf (streamed cachedPush) 7 = true ∧ caughtUp cachedPush coreEvent 1 = true ∧ hTimed (pushWord cachedPush 4) = true ∧
      pushClear cachedPush 0 0 (pushNeed (streamed cachedPush) g2 cachedPush (qw 4 0 0) 0) = true ∧
      pushViols cachedPush 0 (pushCmd (streamed cachedPush) g2 cachedPush (qw 4 0 0)) 0 = []) := by decide +kernel

theorem witness_PushAppendsOrStalls :
    (CoreReady (onTile (tileAt (qw 4 7 0))) 0 0x20 (fun w => [iD w, iD w + 1, iD w + 2, iD w + 3]) g2 (tileAt (qw 4 7 0)) (qw 4 7 0) 0 ∧
      4 < iQueue (qw 4 7 0)) ∧
    (CoreReady (onTile fullQueue) 0 0x20 (fun w => [iD w, iD w + 1, iD w + 2, iD w + 3]) g2 fullQueue (qw 4 0 0) 0 ∧
      iQueue (qw 4 0 0) ≤ 4 ∧ caughtUp fullQueue coreEvent 1 = true ∧ pushClear fullQueue 0 0 (pushNeed (onTile fullQueue) g2 fullQueue (qw 4 0 0) 0) = false) ∧
    (CoreReady (onTile pushing) 0 0x20 (fun w => [iD w, iD w + 1, iD w + 2, iD w + 3]) g2 pushing (qw 4 0 0) 0 ∧
      caughtUp pushing coreEvent 1 = true ∧ pushClear pushing 0 0 (pushNeed (onTile pushing) g2 pushing (qw 4 0 0) 0) = true ∧
      pushViols pushing 0 (pushCmd (onTile pushing) g2 pushing (qw 4 0 0)) 0 = []) ∧
    (let x : Tile := { fullQueue with status := .waiting .pushing };
      live (onTile x) 0 = some g2 ∧ x = tileOf (onTile x) 0 ∧ coreWord x = some (qw 4 0 0) ∧ x.cyc < 5 ∧ caughtUp x coreEvent 6 = true ∧
        pushClear x 0 4 (pushNeed (onTile x) g2 x (qw 4 0 0) 4) = false ∧ pushClear x 0 5 (pushNeed (onTile x) g2 x (qw 4 0 0) 5) = true ∧
        pushViols x 0 (pushCmd (onTile x) g2 x (qw 4 0 0)) 5 = []) := by decide +kernel

/-- A core word of format S. -/
def sw (op d sem n : Nat) : Nat := op * 2 ^ 26 + d * 2 ^ 20 + sem * 2 ^ 14 + n * 2 ^ 6

/-- A tile at a word whose semaphore 9 holds 3. -/
def semTile (w : Nat) : Tile := { tileAt w with sems := [(9, 3)] }

abbrev SemReady (op n : Nat) (named : Nat → List Nat) : Prop :=
  CoreReady (onTile (semTile (sw op 3 9 n))) 0 op named g2 (semTile (sw op 3 9 n)) (sw op 3 9 n) 0

theorem witness_SemaphoreInstructions :
    (SemReady 0x21 0 (fun _ => []) ∧ iCount (sw 0x21 3 9 0) = 0) ∧
    (SemReady 0x21 3 (fun _ => []) ∧ iCount (sw 0x21 3 9 3) = 3 ∧ waitTurn (semTile (sw 0x21 3 9 3)) 5 9 0 = true ∧ semAvail (semTile (sw 0x21 3 9 3)) 9 0 = 3 ∧ caughtUp (semTile (sw 0x21 3 9 3)) coreEvent 1 = true ∧
      (takeSem (semTile (sw 0x21 3 9 3)) 9 3 0).2 = []) ∧
    (SemReady 0x21 4 (fun _ => []) ∧ semAvail (semTile (sw 0x21 3 9 4)) 9 0 < iCount (sw 0x21 3 9 4)) ∧
    (let x : Tile := { semTile 0 with status := .waiting (.sem 9 4), sigs := [{ cyc := 6, sem := 9, n := 1, unit := 6, pc := 0 }] };
      live (onTile x) 0 = some g2 ∧ x = tileOf (onTile x) 0 ∧ x.status = .waiting (.sem 9 4) ∧ waitFrom x 9 4 x.cyc = some 7 ∧
        waitTurn x 5 9 7 = true ∧ caughtUp x coreEvent 8 = true ∧ (takeSem x 9 4 7).2 = []) ∧
    (SemReady 0x22 252 (fun _ => []) ∧ overBy (addSig (semTile (sw 0x22 3 9 252)) 0 9 252 5 0) 1 = none) ∧
    (SemReady 0x23 0 (fun w => [iD w]) ∧ caughtUp (semTile (sw 0x23 3 9 0)) coreEvent 1 = true) ∧
    (let x := semTile 0;
      x.semAt.get 9 0 ≤ 0 ∧ x.sigs = [] ∧ 3 ≤ semAvail x 9 0 ∧ (takeSem x 9 3 0).2 = [] ∧
        semAvail x 9 0 + 252 ≤ 255) :=
  ⟨by decide +kernel, by decide +kernel, by decide +kernel, by decide +kernel, by decide +kernel, by decide +kernel, by decide +kernel⟩

/-- A signal and a remote write from tile 1 to tile 0. -/
def sig10 : Msg := { msg0 with src := 1, dst := 0, kind := 2, sem := 9, count := 1, unit := 5 }
def write10 : Msg := { msg0 with src := 1, dst := 0, kind := 0 }

theorem witness_RemoteSignals :
    (Ready 0x24 2 9 (3 * 64) (fun w => [iD w]) ∧ groupTarget g2 (regOf (tileAt (cw 0x24 2 9 192)) 2).toNat = 1 ∧
      iCount (cw 0x24 2 9 192) = 3 ∧ caughtUp (tileAt (cw 0x24 2 9 192)) coreEvent 1 = true) ∧
    (Ready 0x24 2 9 0 (fun w => [iD w]) ∧ iCount (cw 0x24 2 9 0) = 0 ∧ caughtUp (tileAt (cw 0x24 2 9 0)) coreEvent 1 = true) ∧
    (Ready 0x24 0 9 192 (fun w => [iD w]) ∧ caughtUp (tileAt (cw 0x24 0 9 192)) coreEvent 1 = true ∧ groupTarget g2 (regOf (tileAt (cw 0x24 0 9 192)) 0).toNat = 0 ∧
      overBy (addSig (tileAt (cw 0x24 0 9 192)) 0 9 3 5 0) 1 = none) ∧
    (let g : Group := { g2 with msgs := [] ++ sig10 :: [write10] };
      live (withGroup g [(0, tileAt 0)]) 0 = some g ∧ sig10.src = 1 ∧ sig10.dst = 0 ∧ sig10.kind = 2 ∧
        (tileAt 0).heard.get 1 0 ≤ 5 ∧ observed (tileAt 0) ≤ 5 ∧ overBy (addSig (hear (tileAt 0) 1 5) 5 9 1 6 0xFFFFFFFF) 6 = none) ∧
    (let g : Group := { g2 with msgs := [] ++ write10 :: [sig10] };
      live (withGroup g [(0, tileAt 0)]) 0 = some g ∧ write10.src = 1 ∧ write10.dst = 0 ∧ write10.kind = 0) := by decide +kernel

theorem witness_GroupBarrier :
    Ready 0x25 0 0 5 (fun _ => []) ∧
    (let g : Group := { g2 with barSent := [(0, 5)], barHere := [(1, 5)] };
      live (withGroup g []) 0 = some g ∧ g.barSent.find? (fun p => p.1 == 0) = some (0, 5) ∧
        (∀ k ∈ groupTiles g, (k, 5) ∈ g.barHere ++ [(0, 5)])) ∧
    (let g : Group := { g2 with barSent := [(0, 5)], barHere := [(1, 4)] };
      live (withGroup g []) 0 = some g ∧ g.barSent.find? (fun p => p.1 == 0) = some (0, 5) ∧
        (∃ k ∈ groupTiles g, (k, 5) ∉ g.barHere ++ [(0, 5)])) ∧
    (let g : Group := { g2 with release := [0, 1] };
      let x : Tile := { tileAt 0 with status := .waiting (.bar 5) };
      live (withGroup g [(0, x)]) 0 = some g ∧ x = tileOf (withGroup g [(0, x)]) 0 ∧ 0 ∈ g.release ∧ x.cyc < 9 ∧ observed x ≤ 9) := by decide +kernel

/-- A tile that waits at EPOCH with nothing left to do. -/
def atEpoch : Tile := { tileAt (cw 0x2B 0 0 0) with status := .waiting .quiesce }

/-- Both tiles of the group wait at EPOCH. -/
def joined : State := { wholeFoot atEpoch with tiles := [(0, atEpoch), (1, atEpoch)] }

theorem witness_EpochAndCheckpoint :
    Ready 0x2B 0 0 0 (fun _ => []) ∧ groupOf joined 7 = some g2 ∧ g2.fault = none ∧ allJoined joined g2 = true ∧
      closeViols joined g2 = none ∧ (groupTiles g2).Nodup ∧
      (∃ e ∈ joined.ts.entries, entryOf joined 7 = some e ∧ ∃ i, e.image = some i ∧ epochPlanned i (g2.epoch + 1) = true ∧ ∀ d ∈ i.objs, d.role ≠ 4) :=
  ⟨by decide +kernel, by decide +kernel, rfl, by decide +kernel, by decide +kernel, by decide +kernel,
    ⟨_, List.mem_cons_self .., rfl, _, rfl, by decide, by decide⟩⟩

/-- Both tiles wait for semaphore 9. -/
def stuck : State :=
  let x : Tile := { tileAt (sw 0x21 0 9 1) with status := .waiting (.sem 9 1) }
  { wholeFoot x with tiles := [(0, x), (1, x)], time := 5000 }

/-- The group of `stuck`, whose stall Eddy noted at time 2,952. -/
def gStuck : Group := { g2 with stalled := some (2952, stallKey stuck g2) }

/-- The same state with that group, and with a signal that overflows a semaphore of tile 1. -/
def stuckHeld : State := { stuck with groups := [gStuck] }
def stuckOver : State :=
  { stuckHeld with tiles := stuckHeld.tiles.put 1 { tileOf stuckHeld 1 with
      sems := [(5, 250)], sigs := [{ cyc := 0, sem := 5, n := 9, unit := 0, pc := 0 }] } }

/-- The other ways in which CYC would pass 2^40 − 1: an instruction, WAITC, SEMW, and a stall that nothing ends. -/
theorem witness_OverflowWhileWaiting :
    (let x : Tile := { tileAt (cw 1 3 1 7) with cyc := 2 ^ 40 };
      live (wholeFoot x) 0 = some g2 ∧ coreWord x = some (cw 1 3 1 7) ∧ 2 ^ 40 ≤ startAt x (namedOf (cw 1 3 1 7))) ∧
    (let x : Tile := { tileAt 0 with status := .waiting (.until (2 ^ 40)) };
      live (wholeFoot x) 0 = some g2 ∧ (tileOf (wholeFoot x) 0).status = .waiting (.until (2 ^ 40))) ∧
    (let x : Tile := { tileAt 0 with sems := [(9, 3)], status := .waiting (.sem 9 4),
                                     sigs := [{ cyc := 2 ^ 40, sem := 9, n := 1, unit := 6, pc := 0 }] };
      live (wholeFoot x) 0 = some g2 ∧ waitFrom x 9 4 x.cyc = some (2 ^ 40 + 1)) ∧
    (let x : Tile := { tileAt 0 with status := .waiting .pushing };
      live { wholeFoot x with time := 2 ^ 40 } 0 = some g2 ∧ 2 ^ 40 ≤ 3 * ({ wholeFoot x with time := 2 ^ 40 }.time - g2.epochAt)) ∧
    (let x : Tile := { tileAt 0 with status := .waiting (.sem 9 4) };
      live { wholeFoot x with time := 2 ^ 40 } 0 = some g2 ∧ waitFrom x 9 4 x.cyc = none) := by decide +kernel

theorem witness_DeadlockAndOverflowEndTheTask :
    groupOf stuck 7 = some g2 ∧ (entryOf stuck 7).isSome = true ∧ (groupTiles g2).Nodup ∧ deadlocked stuck g2 = true ∧
    g2.stalled = none ∧ deadlocked (wholeFoot (tileAt 0)) g2 = false ∧
    (groupOf stuckHeld 7 = some gStuck ∧ deadlocked stuckHeld gStuck = true ∧ gStuck.stalled = some (2952, stallKey stuckHeld gStuck) ∧
      2952 + 2048 ≤ stuckHeld.time ∧ closeViols stuckHeld gStuck = none) ∧
    (groupOf stuckOver 7 = some gStuck ∧ deadlocked stuckOver gStuck = true ∧ stallHeld stuckOver gStuck = true ∧
      (closeViols stuckOver gStuck).isSome = true) ∧
    (let x : Tile := { tileAt 0 with pc := 4, cyc := 2 ^ 40 };
      groupOf (wholeFoot x) 7 = some g2 ∧ (entryOf (wholeFoot x) 7).isSome = true ∧ live (wholeFoot x) 0 = some g2 ∧
        (tileOf (wholeFoot x) 0).status = .running ∧ coreWord (tileOf (wholeFoot x) 0) = none ∧ 2 ^ 40 ≤ (tileOf (wholeFoot x) 0).cyc) :=
  by decide +kernel

end Sys2Proof.Tests
end

