-- ==== Sys2Proof/Tests/WitnessEngines.lean ====
section
/-! SUPPORT. For the statements about MMA, VE and Q_SP: states and operands that meet the hypotheses. -/

open Sys2Proof Sys2Proof.Machine Sys2Proof.Claims

namespace Sys2Proof.Tests

set_option Elab.async false

/-- An engine command with OPCODE, QUEUE and a body. -/
def ec (op q body : Nat) : Cmd := BitVec.ofNat 256 (op * 2 ^ 248 + q * 2 ^ 245 + body)

/-- A command at the head of its queue since cycle 3. -/
def headE (w : Cmd) : QEntry := { word := w, pushed := 3, pc := 0, num := 1, scalars := [], desc := none }

/-- A tile of an image that covers all of scratchpad, with a command at the head of queue `q`. -/
def queued (q : Nat) (w : Cmd) : Tile := { tileAt 0 with cyc := 2000, queues := [(q, [headE w])] }

/-- No injection is armed there. -/
theorem foot_unarmed (x : Tile) (t k : Nat) : Unarmed (wholeFoot x) t k := unarmed_of_none rfl

/-- The command issues in cycle 4 from the head of its queue. -/
abbrev Heads (q : Nat) (k : EKind) (w : Cmd) : Prop := headIs (wholeFoot (queued q w)) 0 q k = some (g2, queued q w, headE w)

theorem witness_EngineNopsWaitAndSignal :
    Heads 0 .nop (ec 0 0 0) ∧ Heads 1 .nop (ec 0 1 0) ∧
      (∀ q ∈ [0, 1], issueOf (queued q (ec 0 q 0)) q (headE (ec 0 q 0)) 0 0 = .go 4 ∧
        inTurn (wholeFoot (queued q (ec 0 q 0))) g2 0 (queued q (ec 0 q 0)) q 4 (headE (ec 0 q 0)) = true ∧
        (popIssue (queued q (ec 0 q 0)) q 4 (headE (ec 0 q 0))).2 = []) ∧
      spHead (wholeFoot (queued 4 0)) 0 .nop = some (g2, queued 4 0, headE 0, 4) ∧ (popIssue (queued 4 0) 4 4 (headE 0)).2 = [] := by
  decide +kernel

/-- MMA.LOAD of one row to plane 1 in RING32 from 0x100; MMA.LOADT of a 2^10 polynomial in RING64. -/
def cLoad : Cmd := ec 0x10 0 (2 * 2 ^ 158 + 2 ^ 157 + 0x100 * 2 ^ 133 + 2 ^ 102)
def cLoadt : Cmd := ec 0x11 0 (3 * 2 ^ 158 + 2 ^ 155 + 10 * 2 ^ 151 + 5 * 2 ^ 111)

theorem witness_MmaLoadsFillThePlane :
    (Heads 0 .load cLoad ∧
      issueOf (queued 0 cLoad) 0 (headE cLoad) (loadStruct (queued 0 cLoad)) (loadFull (queued 0 cLoad) (headE cLoad)) = .go 4 ∧
      inTurn (wholeFoot (queued 0 cLoad)) g2 0 (queued 0 cLoad) 0 4 (headE cLoad) = true ∧
      loadViols (footOf (wholeFoot (queued 0 cLoad)) 7) (queued 0 cLoad) (headE cLoad) 4 (loadReads cLoad 4)
        (rowClaims (headE cLoad) 4) (4 + 129) = []) ∧
    (Heads 0 .loadt cLoadt ∧
      issueOf (queued 0 cLoadt) 0 (headE cLoadt) (loadStruct (queued 0 cLoadt)) (loadFull (queued 0 cLoadt) (headE cLoadt)) = .go 4 ∧
      inTurn (wholeFoot (queued 0 cLoadt)) g2 0 (queued 0 cLoadt) 0 4 (headE cLoadt) = true ∧
      loadViols (footOf (wholeFoot (queued 0 cLoadt)) 7) (queued 0 cLoadt) (headE cLoadt) 4 (toeReads cLoadt 4)
        (toeClaims (headE cLoadt) 4) (4 + 5) = []) := by
  decide +kernel

/-- MMA.MUL with accumulation, two rows of one element. -/
def cMul : Cmd := ec 0x12 0 (2 ^ 158 + 0x1000 * 2 ^ 88 + 64 * 2 ^ 65 + 2 * 2 ^ 49 + 2 ^ 41 + 2 ^ 34)

theorem witness_MmaMulMultipliesModulo :
    Heads 0 .mul cMul ∧ (queued 0 cMul).planes.get (mPlane cMul) plane0 = plane0 ∧
      issueOf (queued 0 cMul) 0 (headE cMul) (mulStruct (queued 0 cMul) 2) (mulFull (queued 0 cMul) (headE cMul)) = .go 4 ∧
      inTurn (wholeFoot (queued 0 cMul)) g2 0 (queued 0 cMul) 0 4 (headE cMul) = true ∧
      mulFault plane0 cMul 4 (mulRows (queued 0 cMul) (headE cMul) 4 (mM cMul)) (mM cMul) none = none ∧
      (Settled (queued 0 cMul) (4 + 204) ∧ NoLowRanks (queued 0 cMul)) ∧
      mulViols (footOf (wholeFoot (queued 0 cMul)) 7) (queued 0 cMul) (headE cMul) 4 = [] ∧
      Unarmed (wholeFoot (queued 0 cMul)) 0 3 ∧ Unarmed (wholeFoot (queued 0 cMul)) 0 1 :=
  ⟨by decide +kernel, by decide +kernel, by decide +kernel, by decide +kernel, by decide +kernel, by decide, by decide +kernel,
    foot_unarmed _ _ _, foot_unarmed _ _ _⟩

theorem witness_VectorLaneOperations :
    (32 = 32 ∨ 32 = 64) ∧ 0 < 2 ^ 32 ∧ 96 < 2 ^ 32 ∧ 97 < 2 ^ 32 ∧ 2 ^ 32 - 1 < 2 ^ 32 ∧ 97 % 2 = 1 ∧ 96 % 2 = 0 ∧ (1 ≤ 16 ∧ 16 ≤ 16) ∧
      (∀ op ∈ [0x01, 0x02, 0x03, 0x04, 0x05, 0x06, 0x07, 0x08, 0x09, 0x10, 0x11, 0x12, 0x13, 0x14, 0x15, 0x16, 0x18, 0x19, 0x1A, 0x1B, 0x20, 0x30, 0x31, 0x32, 0x33, 0x21,
          0x22, 0x28, 0x29, 0x2A, 0x2B, 0x2C, 0x00, 0x0A, 0x3F],
        (chainStage (op * 2 ^ 34 + 16 * 2 ^ 10) 0).op = op ∧ (chainStage (op * 2 ^ 34 + 16 * 2 ^ 10) 0).imm2 = 16) := by decide

/-- Set-up commands of the VE: chain slot 15, modulus register 7 from a vector and from MQ, permutation table 3. -/
def cChain : Cmd := ec 0x20 1 (15 * 2 ^ 156 + 3 * 2 ^ 139)
def cSetq (vec : Nat) : Cmd := ec 0x21 1 (7 * 2 ^ 157 + vec * 2 ^ 156 + 3 * 2 ^ 139)
def cPerm : Cmd := ec 0x22 1 (3 * 2 ^ 158 + 3 * 2 ^ 141)

theorem witness_VectorSetUp :
    (Heads 1 .setchain cChain ∧ issueOf (queued 1 cChain) 1 (headE cChain) 0 0 = .go 4 ∧ inTurn (wholeFoot (queued 1 cChain)) g2 0 (queued 1 cChain) 1 4 (headE cChain) = true ∧
      setupViols (footOf (wholeFoot (queued 1 cChain)) 7) (queued 1 cChain) (headE cChain) 4 1 [(4, vcAddr cChain, 64)] = []) ∧
    (∀ v ∈ [0, 1], Heads 1 .setq (cSetq v) ∧ issueOf (queued 1 (cSetq v)) 1 (headE (cSetq v)) (setqStruct (queued 1 (cSetq v)))
        (setqStruct (queued 1 (cSetq v))) = .go 4 ∧ inTurn (wholeFoot (queued 1 (cSetq v))) g2 0 (queued 1 (cSetq v)) 1 4 (headE (cSetq v)) = true ∧
      setupViols (footOf (wholeFoot (queued 1 (cSetq v))) 7) (queued 1 (cSetq v)) (headE (cSetq v)) 4 2 (setqReads (cSetq v) 4) = []) ∧
    (Heads 1 .setperm cPerm ∧ issueOf (queued 1 cPerm) 1 (headE cPerm) 0 0 = .go 4 ∧ inTurn (wholeFoot (queued 1 cPerm)) g2 0 (queued 1 cPerm) 1 4 (headE cPerm) = true ∧
      setupViols (footOf (wholeFoot (queued 1 cPerm)) 7) (queued 1 cPerm) (headE cPerm) 4 3 [(4, vpAddr cPerm, 64)] = []) := by
  decide +kernel

/-- A RUN of one row through chain 0, whose record has one stage, OSIZE of 4 bytes and this RMODE. -/
def cRun : Cmd := ec 0x24 1 (2 ^ 134 + 8 * 2 ^ 117 + 0x300 * 2 ^ 12)
def runTile (rmode : Nat) : Tile := { queued 1 cRun with chains := [(0, rmode * 2 ^ 455 + 2 * 2 ^ 439)] }

theorem witness_VectorRunWritesItsRows :
    (∀ m ∈ [0, 2], headIs (wholeFoot (runTile m)) 0 1 .run = some (g2, runTile m, headE cRun) ∧
      issueOf (runTile m) 1 (headE cRun) (runStruct (runTile m) cRun (runLatch (runTile m) (headE cRun)).rec_)
        (runFull (runTile m) cRun (runLatch (runTile m) (headE cRun)).rec_) = .go 4 ∧
      inTurn (wholeFoot (runTile m)) g2 0 (runTile m) 1 4 (headE cRun) = true ∧ Settled (runTile m) (4 + runDepth cRun (runLatch (runTile m) (headE cRun)).rec_) ∧
      runViols (footOf (wholeFoot (runTile m)) 7) (runTile m) (headE cRun) 4 = [] ∧
      chRmode (runLatch (runTile m) (headE cRun)).rec_ = m ∧ 0 < chOsize (runLatch (runTile m) (headE cRun)).rec_) ∧
    Unarmed (wholeFoot (runTile 0)) 0 3 ∧ Unarmed (wholeFoot (runTile 0)) 0 2 :=
  ⟨by decide +kernel, foot_unarmed _ _ _, foot_unarmed _ _ _⟩

/-- SP.FILL of two words, SP.COPY of two words. -/
def cFill : Cmd := ec 0x30 4 (0x1000 * 2 ^ 137 + 2 * 2 ^ 120 + 2 ^ 104 + 2 * 2 ^ 79 + 0xABCD)
def cCopy : Cmd := ec 0x31 4 (0x1000 * 2 ^ 137 + 0x2000 * 2 ^ 114 + 2 * 2 ^ 97 + 2 ^ 81)

theorem witness_ScratchpadFillAndCopy :
    (spHead (wholeFoot (queued 4 cFill)) 0 .fill = some (g2, queued 4 cFill, headE cFill, 4) ∧ 0 < sfEsize cFill ∧ 64 % sfEsize cFill = 0 ∧
      (let y := fillTile (queued 4 cFill) (headE cFill) 4 (fillWords cFill) (fillWord cFill)
       (popIssue (queued 4 cFill) 4 4 (headE cFill)).2 = [] ∧
        extentViol (footOf (wholeFoot (queued 4 cFill)) 7) 4 (spDaddr cFill) (sfDstride cFill) (sfRows cFill) (64 * sfRowlen cFill) 0 = [] ∧
        spWriteViols (footOf (wholeFoot (queued 4 cFill)) 7) y 1 0 = [] ∧ lateReads y 1 = [] ∧ movedViols (queued 4 cFill) y = [])) ∧
    (spHead (wholeFoot (queued 4 cCopy)) 0 .copy = some (g2, queued 4 cCopy, headE cCopy, 4) ∧
      (let y := copyTile (queued 4 cCopy) (headE cCopy) 4 (copyDst cCopy) (copySrc cCopy)
       (popIssue (queued 4 cCopy) 4 4 (headE cCopy)).2 = [] ∧
        extentViol (footOf (wholeFoot (queued 4 cCopy)) 7) 4 (spDaddr cCopy) (scDstride cCopy) (scRows cCopy) (64 * scRowlen cCopy) 0 = [] ∧
        extentViol (footOf (wholeFoot (queued 4 cCopy)) 7) 4 (scSaddr cCopy) (scSstride cCopy) (scRows cCopy) (64 * scRowlen cCopy) 0 = [] ∧
        spReadViols (footOf (wholeFoot (queued 4 cCopy)) 7) y 1 0 = [] ∧ spWriteViols (footOf (wholeFoot (queued 4 cCopy)) 7) y 1 0 = [] ∧
        lateReads y 1 = [] ∧ lateWrites y 1 = [] ∧ movedViols (queued 4 cCopy) y = [])) ∧
    Unarmed (wholeFoot (queued 4 cCopy)) 0 3 ∧ Settled (queued 4 cFill) 6 ∧ Settled (queued 4 cCopy) 8 ∧
    (let x : Tile := { tileAt 0 with cyc := 2000, spBusy := some (headE cFill) };
      live (onTile x) 0 = some g2 ∧ x = tileOf (onTile x) 0 ∧ x.spBusy = some (headE cFill) ∧
        due (onTile x) g2 0 x 6 (lastAccess x 1 true 0 + 1) = true ∧
        overBy (cmdSig { x with spBusy := none, spLast := lastAccess x 1 true 0 + 1 } (lastAccess x 1 true 0 + 1) 4 (headE cFill))
          (lastAccess x 1 true 0 + 2) = none) :=
  ⟨by decide +kernel, by decide +kernel, foot_unarmed _ _ _, by decide +kernel, by decide +kernel, by decide +kernel⟩

end Sys2Proof.Tests
end

