-- ==== Sys2Proof/Tests/WitnessStreams.lean ====
section
/-! SUPPORT. For the statements about streams, keys, host paging and windows: states and operands that meet the hypotheses. -/

open Sys2Proof Sys2Proof.Machine Sys2Proof.Claims

namespace Sys2Proof.Tests

set_option Elab.async false

/-- A tensor descriptor of 8-byte elements, contiguous in dimension 0, with one or two dimensions of 8. -/
def td (region dims flags : Nat) : Desc :=
  BitVec.ofNat 1024 (region + 3 * 2 ^ 16 + dims * 2 ^ 24 + flags * 2 ^ 32 + 8 * 2 ^ 128 + 8 * 2 ^ 160 + 8 * 2 ^ 320 + 64 * 2 ^ 384)

/-- The same with a block list of one block at 0x1000, the walk having dimension 0. -/
def tdBlocks : Desc := BitVec.ofNat 1024 ((td 1 2 0).toNat + 2 ^ 48 + 0x1000 * 2 ^ 704 + 2 ^ 736)

theorem witness_StreamWalkOrder : [1, 0] ≠ [] ∧ 63 < (([1, 0] : List Nat).map (tdSize (td 1 2 0))).foldl (· * ·) 1 := by decide +kernel

/-- A stream command with DESC 5, identity PERM, packed from 0x2000 with rows of 64 bytes. -/
def cSe (op q : Nat) : Cmd := ec op q (5 * 2 ^ 150 + (1 * 2 ^ 135 + 2 * 2 ^ 138) + 0x2000 * 2 ^ 109 + 64 * 2 ^ 86)

/-- A device region 1 and a host region 2, and an epoch whose intervals cover the device region. -/
def withRegions (s : State) : State :=
  { s with ts := { s.ts with entries := s.ts.entries.map (fun e => { e with
      regions := [{ id := 1, host := false, pasid := 0, base := 0x10000, len := 0x1000, removed := false },
                  { id := 2, host := true, pasid := 0, base := 0x20000, len := 0x1000, removed := false }],
      image := e.image.map (fun i => { i with epochs := [[{ slot := 3, kind := 0, dir := 0, len := 0, off := 0 },
                                                          { slot := 3, kind := 0, dir := 1, len := 0, off := 0 }]] }) }) } }

/-- A tile with a stream command over a descriptor at the head of Q_SE0. -/
def seTile (w : Cmd) (d : Desc) : Tile :=
  { tileAt 0 with cyc := 2000, queues := [(2, [{ headE w with desc := some d }])], args := [(67, 0x10000), (99, 0x1000)] }
def seEntry (w : Cmd) (d : Desc) : QEntry := { headE w with desc := some d }
def seState (w : Cmd) (d : Desc) : State := withRegions (wholeFoot (seTile w d))

/-- What the statement about the issue of a stream command assumes, for a command, its descriptor, its kind and its direction. -/
abbrev Issues (w : Cmd) (d : Desc) (k : EKind) (write : Bool) : Prop :=
  streamHead (seState w d) 0 0 4 k = some (g2, seTile w d, seEntry w d) ∧
    issueCheck (seState w d) g2 0 (seTile w d) 2 4 (seEntry w d) write = none ∧ (seEntry w d).desc = some d ∧
    (placeIn (seState w d) g2 (seTile w d) d).isSome = true ∧ (popIssue (seTile w d) 2 4 (seEntry w d)).2 = [] ∧
    (placeIn (seState w d) g2 (seTile w d) d).all
      (fun pl => decide (issueViols (footOf (seState w d) 7) (seTile w d) (issuedTile (seTile w d) 0 4 (seEntry w d) write d pl) g2 0 0 4
        (seEntry w d) d pl = [])) = true

/-- SE.KEY without a b-half, one element of (0, 0) from KSLOT 4 to 0x2000, and one with the b-half of DESC 5. -/
def cKey : Cmd := ec 0x42 2 (0x3FF * 2 ^ 150 + 0x2000 * 2 ^ 81 + 4 * 2 ^ 76 + 2 ^ 11)
def cKeyB : Cmd := ec 0x42 2 (5 * 2 ^ 150 + 0x2000 * 2 ^ 127 + 64 * 2 ^ 104 + 0x3000 * 2 ^ 81 + 4 * 2 ^ 76 + 2 ^ 11)

theorem witness_StreamCommandsIssue_nop :
    streamHead (seState 0 0) 0 0 4 .nop = some (g2, seTile 0 0, seEntry 0 0) ∧ (popIssue (seTile 0 0) 2 4 (seEntry 0 0)).2 = [] ∧
      streamsOf (seTile 0 0) 0 = [] := by decide +kernel

theorem witness_StreamCommandsIssue_read : Issues (cSe 0x40 2) (td 1 1 0) .seRead false := by decide +kernel

theorem witness_StreamCommandsIssue_host : Issues (cSe 0x40 2) (td 2 1 2) .seRead false := by decide +kernel

theorem witness_StreamCommandsIssue_write : Issues (cSe 0x41 2) (td 1 1 1) .seWrite true := by decide +kernel

theorem witness_StreamCommandsIssue_check :
    streamHead (seState (cSe 0x41 2) (td 1 1 0)) 0 0 4 .seWrite = some (g2, seTile (cSe 0x41 2) (td 1 1 0), seEntry (cSe 0x41 2) (td 1 1 0)) ∧
      (issueCheck (seState (cSe 0x41 2) (td 1 1 0)) g2 0 (seTile (cSe 0x41 2) (td 1 1 0)) 2 4 (seEntry (cSe 0x41 2) (td 1 1 0)) true).isSome =
        true := by
  decide +kernel

theorem witness_StreamCommandsIssue_key :
    streamHead (seState cKey 0) 0 0 4 .seKey = some (g2, seTile cKey 0, seEntry cKey 0) ∧ keyEntry (seEntry cKey 0) = none ∧
      (popIssue (seTile cKey 0) 2 4 (seEntry cKey 0)).2 = [] := by decide +kernel

theorem witness_StreamCommandsIssue_keyCheck :
    streamHead (seState cKeyB (td 9 1 0)) 0 0 4 .seKey = some (g2, seTile cKeyB (td 9 1 0), seEntry cKeyB (td 9 1 0)) ∧
      (keyEntry (seEntry cKeyB (td 9 1 0))).any
        (fun k => (issueCheck (seState cKeyB (td 9 1 0)) g2 0 (seTile cKeyB (td 9 1 0)) 2 4 k false).isSome) = true := by
  decide +kernel

theorem witness_StreamCommandsIssue_unarmed : Unarmed (seState (cSe 0x40 2) (td 1 1 0)) 0 3 := unarmed_of_none rfl

/-- A tile whose engine 0 has one stream. -/
def streamTile (st : Stream) : Tile := { tileAt 0 with cyc := 2000, streams := [(0, [st])], args := [(4, 0x10000), (67, 0x10000), (99, 0x1000)] }
def streamState (st : Stream) : State := withRegions (wholeFoot (streamTile st))

/-- A read that waits for its block list. -/
def listing : Stream := stream0 0 (seEntry (cSe 0x40 2) tdBlocks) 4 .list

/-- A key of kind 1 (relinearization by number) with XOF 1, its flags, DATA and check value given; the seeded one; its set and its declaration. -/
def keyHdrOf (flags data crc : Nat) : List Byte :=
  leBytes 4 magicKy ++ leBytes 1 1 ++ leBytes 1 1 ++ leBytes 2 flags ++ leBytes 4 9 ++ leBytes 1 1 ++ leBytes 1 1 ++ leBytes 2 0 ++
    leBytes 8 77 ++ List.replicate 8 0 ++
    List.replicate 32 0x5A ++ leBytes 8 data ++ List.replicate 180 0 ++ leBytes 4 crc
def keyHdr : List Byte := keyHdrOf 3 0 1658294210
def keySet9 : Pset :=
  { id := 9, scheme := 1, logN := 10, flags := 0, l := 1, k := 1, dnum := 1, top := 0, lweN := 0, glweK := 0, t := 0, decLog := 0,
    decLevels := 0, refresh := 0, primes := [(0xFFF00001, 1, 32), (0xFFE80001, 1, 32)] }
def keyStateOf (st : Stream) (h : List Byte) : State :=
  let s := streamState st
  { s with mem := { s.mem with trained := true, bytes := memAt 0x10000 h, stripes := [(16, .written)] },
           ts := { s.ts with
             sessions := [(1, { gen := 1, fn := 0, part := 0, qEntries := 1, qBytes := 0, idle := 1, closing := false, regions := [],
                                psets := [keySet9], openAt := 0 })],
             entries := s.ts.entries.map (fun e => { e with headers := [(4, h)], image := e.image.map (fun i => { i with
               objs := [{ slot := 4, role := 2, kind := 1, drop := 0, srcmask := 0, galois := 0, scaleRule := 0, target := 0, dec := 0,
                          ptScale := 0, targetArg := 0, polys := 0 }] }) }) } }

def keyState (st : Stream) : State := keyStateOf st keyHdr

/-- SE.KEY in its header check, and waiting for SX. -/
def checking : Stream := { stream0 2 (seEntry cKey 0) 4 .header with asking := 5 }
def seeding : Stream := { stream0 2 (seEntry cKey 0) 4 .sx with header := keyHdr }

theorem witness_StreamPhasesComplete_list :
    live (streamState listing) 0 = some g2 ∧ (streamsOf (tileOf (streamState listing) 0) 0).getLast? = some listing ∧
      listing.phase = .list ∧ listing.entry.desc = some tdBlocks ∧
      placeIn (streamState listing) g2 (tileOf (streamState listing) 0) tdBlocks = some (.dev 0x10000 0x1000) ∧
      lastAccess (tileOf (streamState listing) 0) listing.entry.num false listing.issue = 4 ∧
      caughtUp (tileOf (streamState listing) 0) 7 5 = true ∧ due (streamState listing) g2 0 (tileOf (streamState listing) 0) 7 4 = true ∧
      blockViols (streamState listing) g2 (tileOf (streamState listing) 0) 0 4 listing tdBlocks (.dev 0x10000 0x1000) = [] ∧
      (let y := listedTile (tileOf (streamState listing) 0) 0 4 listing tdBlocks (.dev 0x10000 0x1000);
        streamReadViols (footOf (streamState listing) 7) y 0 listing.entry false = [] ∧ lateWrites y listing.entry.num = [] ∧
          movedViols (tileOf (streamState listing) 0) y = []) := by
  decide +kernel

theorem witness_StreamPhasesComplete_header :
    newestIn (keyState checking) 0 0 .header = some (g2, checking) ∧
      ((tileOf (keyState checking) 0).args.get (skSlot checking.entry.word) 0).toNat = 0x10000 ∧
      headerDue (keyState checking) g2 0 (tileOf (keyState checking) 0) checking 8 = true ∧
      devWaits (keyState checking) g2.part 0x10000 256 = false ∧ (devRead (keyState checking) g2.part g2.handle 0x10000 256).2 = some keyHdr ∧
      keyChecks (devRead (keyState checking) g2.part g2.handle 0x10000 256).1 g2 checking.entry.word keyHdr = 0 ∧
      keySet (devRead (keyState checking) g2.part g2.handle 0x10000 256).1 g2 keyHdr = some keySet9 ∧ khSeeded keyHdr = true ∧
      aHalfCheck 255 checking.entry.word (keyEntry checking.entry) (psWidth keySet9) 8 2 checking.entry.pc = none ∧
      keyChecks (streamState checking) g2 checking.entry.word (List.replicate 256 0) ≠ 0 := by
  decide +kernel

theorem witness_StreamPhasesComplete_sx :
    newestIn (keyState seeding) 0 0 .sx = some (g2, seeding) ∧ keySet (keyState seeding) g2 seeding.header = some keySet9 ∧
      seeding.last ≤ 9 ∧ arrives (keyState seeding) g2 0 (tileOf (keyState seeding) 0) 9 = true ∧
      sxFree (tileOf (keyState seeding) 0) 0 (sxNeeds seeding.header) 9 = true ∧
      landViols (footOf (keyState seeding) 7) (tileOf (keyState seeding) 0) (sxTile (tileOf (keyState seeding) 0) 0 9 keySet9 seeding) 0
        seeding.entry = [] ∧
      (let k := { seeding with sxUnit := sxNeeds seeding.header, sxEnd := sxLast keySet9 seeding 9 };
        KeyClear (keyState seeding) g2 (putStream (sxTile (tileOf (keyState seeding) 0) 0 9 keySet9 seeding) 0 k) 0 9 k []) ∧
      (∀ k ∈ sxOut keySet9 seeding 9, k.2.2 ≠ []) ∧ 0 < skJcount cKey ∧ ringKey keyHdr = true := by
  decide +kernel

/-- The key of the same kind with a stored a-half, and the machine after its header is read. -/
def storedHdr : List Byte := keyHdrOf 1 0xE200 836149302
def storedState : State := (devRead (keyStateOf checking storedHdr) 0 7 0x10000 256).1

theorem witness_StreamPhasesComplete_stored :
    (newestIn (keyStateOf checking storedHdr) 0 0 .header = some (g2, checking) ∧
      devWaits (keyStateOf checking storedHdr) g2.part 0x10000 256 = false ∧
      (devRead (keyStateOf checking storedHdr) 0 7 0x10000 256).2 = some storedHdr ∧ khSeeded storedHdr = false) ∧
    keyChecks storedState g2 checking.entry.word storedHdr = 0 ∧
    (imageOf storedState 7).any (fun i => decide (badElem i (tileOf storedState 0).args 0 0
      (storedElems keySet9 storedHdr checking.entry.word) = none)) = true ∧
    KeyClear storedState g2 (headedTile (tileOf storedState 0) 0 8 4 checking storedHdr).1 0 8
      (headedTile (tileOf storedState 0) 0 8 4 checking storedHdr).2 (storedElems keySet9 storedHdr checking.entry.word) :=
  ⟨by decide +kernel, by decide +kernel, by decide +kernel, by decide +kernel⟩

theorem witness_StreamPhasesComplete_unarmed : Unarmed (devRead (keyState checking) 0 7 0x10000 256).1 0 5 :=
  unarmed_of_none (by decide +kernel)

/-- A request on this kind of memory. -/
def rq (dev addr : Nat) (ph : ReqPhase) : StreamReq := { id := 0, dev := dev, addr := addr, lo := 0, hi := 1, held := 1, at_ := 5, phase := ph }

/-- A read or a write of 8 bytes on this kind of memory, its one request in this phase. -/
def moving (op dev addr : Nat) (d : Desc) (ph : ReqPhase) : Stream :=
  { stream0 op (seEntry (cSe (0x40 + op) 2) d) 4 .active with
    dev := dev, elems := [(addr, 0x2000, 8)], reqs := [rq dev addr ph] }

/-- The machine with that stream and a served request at the memory system. -/
def served (st : Stream) (write : Bool) : State :=
  let s := streamState st
  { s with mem := { s.mem with reqs := [{ id := 0, write := write, addr := 0x10000, hint := 0, part := 0, session := 1, tile := 0, engine := 0,
                                          phase := .served, data := List.replicate 256 7, enable := [] }] } }

theorem witness_StreamDataLands :
    (let st := moving 0 0 0x10000 (td 1 1 0) .sent;
      live (served st false) 0 = some g2 ∧ streamWith (tileOf (served st false) 0) 0 0 = some (st, rq 0 0x10000 .sent) ∧
        arrives (served st false) g2 0 (tileOf (served st false) 0) 8 = true ∧
        leaveAt (tileOf (served st false) 0) st (rq 0 0x10000 .sent) 5 ≤ 8 ∧
        (rq 0 0x10000 .sent).dev = 0 ∧ (((served st false).mem.reqs.find? (fun m => m.id == 0 && m.phase == .served)).map (·.write)) = some false ∧
        (let x := tileOf (served st false) 0;
          let y := arrived x 0 8 st (rq 0 0x10000 .sent) (List.replicate 256 7);
          landViols (footOf (served st false) 7) x y 0 st.entry = [] ∧ lateReads y st.entry.num = [])) ∧
    (let st := moving 1 0 0x10000 (td 1 1 1) .sent;
      streamWith (tileOf (served st true) 0) 0 0 = some (st, rq 0 0x10000 .sent) ∧
        (((served st true).mem.reqs.find? (fun m => m.id == 0 && m.phase == .served)).map (·.write)) = some true) ∧
    (let st := moving 0 1 0x20000 (td 2 1 2) .sent;
      streamWith (tileOf (streamState st) 0) 0 0 = some (st, rq 1 0x20000 .sent) ∧ (rq 1 0x20000 .sent).dev = 1 ∧ st.op ≠ 1 ∧
        (let x := tileOf (streamState st) 0;
          let y := arrived x 0 8 st (rq 1 0x20000 .sent) (List.replicate 256 7);
          landViols (footOf (streamState st) 7) x y 0 st.entry = [] ∧ lateReads y st.entry.num = [])) ∧
    (let st := moving 1 1 0x20000 (td 2 1 3) .sent;
      streamWith (tileOf (streamState st) 0) 0 0 = some (st, rq 1 0x20000 .sent) ∧ (rq 1 0x20000 .sent).dev = 1 ∧ st.op = 1 ∧
        (streamState st).out.host.wf = true) ∧
    (let st := moving 0 3 0x4000 (td 0xFFFF 1 0) .sent;
      streamWith (tileOf (streamState st) 0) 0 0 = some (st, rq 3 0x4000 .sent) ∧ (rq 3 0x4000 .sent).dev = 3 ∧
        (let x := tileOf (streamState st) 0;
          landViols (footOf (streamState st) 7) x (copied x 0 8 st) 0 st.entry = [] ∧ lateReads (copied x 0 8 st) st.entry.num = [])) ∧
    (let st := { moving 0 0 0x10000 (td 1 1 0) .done with last := 8 };
      let x := tileOf (streamState st) 0;
      streamsOf x 0 = st :: [] ∧ streamDone st = true ∧ 9 = doneAt x st + 1 ∧ due (streamState st) g2 0 x 9 9 = true ∧ x.sigs = [] ∧
        x.sems.get (hSigSem st.entry.word) 0 + hSigN st.entry.word ≤ 255 ∧
        lateReads { x with marks := x.marks.map (fun m =>
          if m.num == st.entry.num && m.commit.isNone then { m with commit := some 8 } else m) } st.entry.num = []) := by
  decide +kernel

theorem witness_StreamDataLands_unarmed (st : Stream) (k : Nat) : Unarmed (served st false) 0 k := unarmed_of_none rfl

/-- A mark that names the pieces: two elements that meet in one word. -/
theorem witness_StreamDataLands_pieces : ((0x2000, [1, 2]) : Nat × List Byte) ∈ [(0x2000, [1, 2]), (0x2002, ([3] : List Byte))] := by
  decide

/-- A read that waits at a host page whose translation has been asked for, with what the cache holds of it and PRI or not. -/
def paging (ph : StreamPhase) : Stream := { moving 0 1 0x20000 (td 2 1 2) .waiting with phase := ph, asked := [0x20], pri := 1 }
def pagingState (ph : StreamPhase) (pri : Bool) : State :=
  let s := streamState (paging ph)
  { s with
    clk := { s.clk with run := 0xFF }
    hi := { s.hi with
      cfgs := [(0, { fnCfg0 with pri := pri, ats := true, prAlloc := 1 })]
      ats := [{ fn := 0, space := 0, page := 0x20, rd := false, wr := false }] }
    time := 100000000 }

/-- The same for a task of a function whose TDI is locked, with no key on its IDE streams. -/
def lockedState : State :=
  { pagingState .active true with
    groups := [{ g2 with fn := 1 }]
    spdm := { spdm0 with tdi := [(1, .locked)] } }

theorem witness_HostPagingAndErrors :
    (∀ p ∈ [true, false], live (pagingState .active p) 0 = some g2 ∧
      askedFor (pagingState .active p) 0 0 = some (paging .active, rq 1 0x20000 .waiting, 0, 0) ∧
      (rq 1 0x20000 .waiting).addr = 0x20000 ∧ cached (pagingState .active p) 0 0 0x20 =
        some { fn := 0, space := 0, page := 0x20, rd := false, wr := false } ∧ (cfgOf (pagingState .active p) 0).pri = p ∧
      priRoom (pagingState .active p) 0 = true) ∧
    (askedFor (pagingState .paused true) 0 0 = none ∧ domainRuns (pagingState .paused true) 1 = true) ∧
    (pausedOf { pagingState .paused true with hi := { (pagingState .paused true).hi with pris := (priAnswered 0 0 []).2 } } 0 0 =
      some (g2, paging .paused, rq 1 0x20000 .waiting) ∧
      (priAnswered 0 0 []).1.any (fun q => q.num == (paging .paused).pri) = false ∧
      (priAnswered 0 0 [{ fn := 0, tile := 0, engine := 0, num := 1 }]).1.any (fun q => q.num == (paging .paused).pri) = true) ∧
    (pausedOf { pagingState .active true with hi := { (pagingState .active true).hi with pris := (priAnswered 0 0 []).2 } } 0 0 = none ∧
      domainRuns (pagingState .active true) 1 = true) ∧
    (live lockedState 0 = some { g2 with fn := 1 } ∧ streamWith (tileOf lockedState 0) 0 9 = none ∧ linkOpen lockedState 1 = false ∧
      hostWaiting (tileOf lockedState 0) 0 = some (paging .active, rq 1 0x20000 .waiting)) ∧
    pausedOf (pagingState .paused true) 0 0 = some (g2, paging .paused, rq 1 0x20000 .waiting) ∧
    (paging .paused).firstPri - 1 + 100000000 ≤ (pagingState .paused true).time ∧
    (let st := moving 0 1 0x20000 (td 2 1 2) .sent;
      live (streamState st) 0 = some g2 ∧ streamWith (tileOf (streamState st) 0) 0 0 = some (st, rq 1 0x20000 .sent) ∧
        (rq 1 0x20000 .sent).dev = 1 ∧ groupOf (streamState st) 7 = some g2 ∧ (entryOf (streamState st) 7).isSome = true ∧
        (groupTiles g2).Nodup) :=
  ⟨by decide +kernel, by decide +kernel, by decide +kernel, by decide +kernel, by decide +kernel, by decide +kernel, by decide +kernel,
    by decide +kernel⟩

/-- A tile whose register 1 opens 64 words at 0x1000, and one whose register 1 names a descriptor at 0x1000. -/
def winTile (w : Nat) : Tile := { tileAt w with regs := [(1, BitVec.ofNat 64 (64 * 2 ^ 32 + 0x1000))] }
def makeTile : Tile :=
  { tileAt (cw 0x2A 0 1 5) with regs := [(1, 0x1000)], spad := memAt 0x1000 (descBytes (td 1 1 0)) }

/-- Remote accesses from tile 1 to tile 0 through window 2. -/
def access10 (kind : Nat) : Msg :=
  { msg0 with src := 1, dst := 0, kind := kind, unit := 2, req := 9, window := 2, offset := 64, data := [1, 2], enable := [true, false] }
def openTile (rd wr : Bool) : Tile := { tileAt 0 with cyc := 6, windows := [(2, { open_ := true, base := 0x1000, words := 2, rd := rd, wr := wr })] }
def accessState (kind : Nat) (rd wr : Bool) : State :=
  withRegions { wholeFoot (openTile rd wr) with groups := [{ g2 with msgs := [] ++ access10 kind :: [] }] }

theorem witness_RemoteWindows_win :
    (∀ low ∈ [2 + 8 + 16, 2 + 2 ^ 13], let x := winTile (cw 0x29 3 1 low);
      CoreReady (wholeFoot x) 0 0x29 (fun w => [iD w, iA w]) g2 x (cw 0x29 3 1 low) 0 ∧
        ((imod (iImm (cw 0x29 3 1 low)) (2 ^ 14)).testBit 13 = true ∨
          (0x1000 + 64 * 64 ≤ 0x800000 ∧ ∀ a ∈ wordsOf 0x1000 (64 * 64), outside (footOf (wholeFoot x) 7) a = false))) ∧
    (let s := withRegions (wholeFoot makeTile);
      CoreReady s 0 0x2A (fun w => [iA w]) g2 makeTile (cw 0x2A 0 1 5) 0 ∧ makeTile.store = none ∧ grantFrom makeTile 0x1000 64 0 = 0 ∧
        grantFrom makeTile 0x1040 64 1 = 1 ∧ caughtUp makeTile coreEvent 2 = true ∧
        movedViols makeTile (coreClaim (coreClaim makeTile 0 0x1000 64 false) 1 0x1040 64 false) = [] ∧ readViols (footOf s 7) makeTile 0 0x1000 64 5 0 0 false = [] ∧
        readViols (footOf s 7) makeTile 1 0x1040 64 5 0 0 false = [] ∧
        tdCheck (placeIn s g2 makeTile (td 1 1 0)) (td 1 1 0) = 0) := by
  decide +kernel

theorem witness_RemoteWindows_access :
    (∀ p ∈ [(0, false, true), (1, true, false), (0, true, false)], let s := accessState p.1 p.2.1 p.2.2;
      live s 0 = some { g2 with msgs := [access10 p.1] } ∧ (access10 p.1).kind < 2 ∧
        accessDue s g2 0 (openTile p.2.1 p.2.2) 1 5 = true ∧
        remoteSlot (openTile p.2.1 p.2.2) (accessWord (openTile p.2.1 p.2.2) (access10 p.1) 5) 5 = true ∧
        ownCopy s g2 0 (openTile p.2.1 p.2.2) (access10 p.1) = none ∧
        accessOk (openTile p.2.1 p.2.2) (access10 p.1) 5 = decide (p ≠ (0, true, false))) ∧
    accessWord (openTile true false) (access10 1) 5 = 0x1040 ∧
    readViols (footOf (accessState 1 true false) 7) (openTile true false) 5 0x1040 64 6 0xFFFFFFFF 0 false = [] ∧
    movedViols (openTile true false) (hear (placeRead (openTile true false) lowRank 5 0x1040 6 0 0xFFFFFFFF) 1 5) = [] ∧
    movedViols (openTile false true) (hear (remoteWrite (openTile false true) (access10 0) 0x1040 5 0) 1 5) = [] ∧
    (∀ p ∈ enabledBytes (access10 0),
      writeViols (footOf (accessState 0 false true) 7) (openTile false true) 5 (0x1040 + p.1) 1 6 0xFFFFFFFF 0 = []) := by
  decide +kernel

/-- A stream copy of the tile to itself through its window 2, and its message. -/
def selfCopy : Stream := moving 0 2 0 (td 0x2002 1 0) .sent
def selfMsg : Msg := { access10 1 with src := 0, unit := 2, stream := selfCopy.entry.num }
def selfTile : Tile := { openTile true true with streams := [(0, [selfCopy])] }
def selfState : State := withRegions { wholeFoot selfTile with groups := [{ g2 with msgs := [selfMsg] }] }

theorem witness_RemoteWindows_own :
    ownCopy selfState { g2 with msgs := [selfMsg] } 0 selfTile selfMsg = some selfCopy ∧ accessOk selfTile selfMsg 5 = true ∧
      accessDue selfState g2 0 selfTile 0 5 = true ∧
      movedViols selfTile (hear (placeRead selfTile lowRank 5 (accessWord selfTile selfMsg 5) 6 selfMsg.stream 0xFFFFFFFF) 0 5) = [] ∧ remoteSlot selfTile 0x1040 5 = true ∧
      readViols (footOf selfState 7) selfTile 5 (accessWord selfTile selfMsg 5) 64 6 0xFFFFFFFF selfMsg.stream true = [] := by
  decide +kernel

/-- Answers for tile 0: an acknowledgement, read data for its stream, a NACK. -/
def answer0 (nack read : Bool) : Answer :=
  { dst := 0, unit := 2, stream := 1, req := 0, nack := nack, read := read, ref := 0, data := List.replicate 64 7 }
def answerState (nack read : Bool) : State :=
  let st := moving 0 2 0 (td 0x2008 1 0) .sent
  withRegions { wholeFoot (streamTile st) with groups := [{ g2 with answers := [answer0 nack read] }] }

theorem witness_RemoteWindows_answer :
    (∀ p ∈ [(false, false), (false, true), (true, false)],
      live (answerState p.1 p.2) 0 = some { g2 with answers := [answer0 p.1 p.2] } ∧
        takeAnswer 0 [answer0 p.1 p.2] = some (answer0 p.1 p.2, []) ∧
        answered (answerState p.1 p.2) g2 0 (tileOf (answerState p.1 p.2) 0) (answer0 p.1 p.2) 8 = true) ∧
    (let st := moving 0 2 0 (td 0x2008 1 0) .sent;
      streamWith (tileOf (answerState false true) 0) 0 0 = some (st, rq 2 0 .sent) ∧
        (let x := tileOf (answerState false true) 0;
          let y := arrived x 0 8 st (rq 2 0 .sent) (List.replicate 64 7);
          landViols (footOf (answerState false true) 7) x y 0 st.entry = [] ∧ lateReads y st.entry.num = [])) := by
  decide +kernel

end Sys2Proof.Tests
end

