-- ==== Sys2Proof/Tests/WitnessSessions.lean ====
section
/-! SUPPORT. For the statements about sessions, transfers, the Public-Key Engine and device memory: states and operands that meet the
hypotheses. -/

open Sys2Proof Sys2Proof.Machine Sys2Proof.Claims

namespace Sys2Proof.Tests

set_option Elab.async false

/-- A READY SESSION operation. -/
def sessionOp (row : String) (l : List (Nat × Nat)) : Entry := entry2 row (sd 8 l) .ready

/-- The entry is the first of the order of SESSION operations, and the machine may run it. -/
abbrev FirstOp (e : Entry) (s : State) : Prop :=
  (readyOrder s (fun k => isSession k && k.before.isEmpty)).head? = some e ∧ e.handle = h4 ∧ domainRuns s 4 = true ∧
    s.flt.mcRestarting = false ∧ s.ts.sessions.find (e.tag % 4096) = some session1 ∧ e.version = s.ts.bundle.version

theorem witness_SessionOperations_open :
    (let e := { sessionOp "OPEN" [(0x48, 1)] with version := 3 };
      (readyOrder (held e) (fun k => isSession k && k.before.isEmpty)).head? = some e ∧ e.version ≠ (held e).ts.bundle.version) ∧
    (let e := sessionOp "OPEN" [(0x48, 1)];
      FirstOp e (held e) ∧ diagOpen (held e) = false ∧ openIn_ (held e) 0 < (partOf (held e) 0).sessions ∧ (held e).ts.sessions.find 2 = none) ∧
    (let e := sessionOp "OPEN" [(0x48, 1)];
      let s := held e;
      let f := { s with ts := { s.ts with bundle := { s.ts.bundle with parts := [{ part0 with sessions := 1 }] } } };
      FirstOp e f ∧ (partOf f 0).sessions ≤ openIn_ f 0) ∧
    (let e := sessionOp "OPEN" [(0x48, 1)];
      let s := { held e with mgt := { (held e).mgt with diag := some { scope := 1, expiry := 9 } } };
      FirstOp e s ∧ diagOpen s = true) := by
  decide +kernel

/-- A descriptor of the set 9 of scheme 6, and a LOAD_PSET of it from device memory or from the host. -/
def setBytes : List Byte := leBytes 4 9 ++ leBytes 1 6 ++ List.replicate 59 0
def loading (base : Nat) : Entry := sessionOp "LOAD_PSET" [(0x48, 3), (0x50, 9), (0x58, base), (0x60, 64)]
def holdingBytes (e : Entry) (b : List Byte) : State := { held e with mem := { (held e).mem with bytes := memAt 0x10000 b } }

/-- What a LOAD_PSET of set 9 from 0x10000 reads. -/
def setRead (b : List Byte) : Option (List Byte) :=
  match readAll (holdingBytes (loading 0x10000) b) 0 h4 [(0x10000, 64)] with
  | .got _ (some [l]) => some l
  | _ => none

theorem witness_SessionOperations_load :
    (∀ a ∈ [0x10000, 2 ^ 63 + 0x20000], let e := loading a;
      FirstOp e (holdingBytes e setBytes) ∧ ssPset e.desc = 9 ∧ ssBase e.desc = a ∧ ssLength e.desc = 64 ∧ psetOf session1 9 = none ∧
        loadFromDevice e.desc = decide (a = 0x10000) ∧ linkOpen (holdingBytes e setBytes) e.fn = true) ∧
    setRead setBytes = some setBytes ∧ (parsePset setBytes 0).id = 9 ∧ (parsePset setBytes 0).l + (parsePset setBytes 0).k = 0 ∧
    psetOk setBytes 0 = true ∧ psetOk (leBytes 4 9 ++ List.replicate 60 0) 0 = false := by
  decide +kernel

theorem witness_SessionOperations_psets :
    FirstOp (sessionOp "CLOSE" [(0x48, 2)]) (held (sessionOp "CLOSE" [(0x48, 2)])) ∧
    (let e := sessionOp "LOAD_PSET" [(0x48, 3), (0x50, 0xFFFF0005)];
      FirstOp e (held e) ∧ (profile (ssPset e.desc)).isSome = true ∧ psetOf session1 (ssPset e.desc) = none ∧ session1.psets.length < 16 ∧
        psetOf { session1 with psets := [{ keySet9 with id := 0xFFFF0005 }] } (ssPset e.desc) ≠ none ∧
        16 ≤ ({ session1 with psets := List.replicate 16 keySet9 } : Session).psets.length) ∧
    (let e := sessionOp "UNLOAD_PSET" [(0x48, 4), (0x50, 9)];
      FirstOp e (held e) ∧ psetOf session1 (ssPset e.desc) = none ∧ psetOf { session1 with psets := [keySet9] } (ssPset e.desc) ≠ none) := by
  decide +kernel

theorem witness_SessionOperations_regions :
    (∀ p ∈ [((2 ^ 17, 0x1000, 3), 0), ((2 ^ 17, 0x1000, 1), 0x0401), ((2 ^ 41, 0x1000, 3), 0x0401), ((2 ^ 17, 2 ^ 21, 3), 0x0104)],
      let e := sessionOp "ADD_REGION" [(0x48, 5), (0x4C, p.1.2.2), (0x58, p.1.1), (0x60, p.1.2.1)];
      FirstOp e (held e) ∧ addCheck (held e) e 1 session1 = p.2) ∧
    (let e := sessionOp "REMOVE_REGION" [(0x48, 6), (0x4C, 1)];
      FirstOp e (held e) ∧ (session1.regions.find? (fun q => q.id == ssRegion e.desc)).isSome = true) ∧
    (let e := sessionOp "REMOVE_REGION" [(0x48, 6), (0x4C, 9)];
      FirstOp e (held e) ∧ session1.regions.find? (fun q => q.id == ssRegion e.desc) = none) ∧
    (let e := sessionOp "POLICY" [(0x48, 7), (0x49, 2)]; FirstOp e (held e)) := by
  decide +kernel

/-- A transfer over the regions of session 1 with this argument block, waiting to start, or on the engine. -/
def transfer (row : String) (op : Nat) (l : List (Nat × Nat)) (arg : List Byte) (st : EntryState) : Entry :=
  { entry2 row (sd op l) st with regions := session1.regions, arg := arg }
def moving3 (arg : List Byte) (st : EntryState) : Entry := transfer "MOVE" 3 [(0x40, 256)] arg st
def onEngine (e : Entry) : State := let s := held e; { s with hi := { s.hi with xfers := [h4] } }

/-- A tensor in the device region that may be written, and one in the host region. -/
def tdDevWr : Desc := BitVec.ofNat 1024 (1 + 3 * 2 ^ 16 + 2 ^ 24 + 2 ^ 32 + 8 * 2 ^ 128 + 8 * 2 ^ 320)
def tdHost0 : Desc := BitVec.ofNat 1024 (2 + 3 * 2 ^ 16 + 2 ^ 24 + 2 * 2 ^ 32 + 8 * 2 ^ 128 + 8 * 2 ^ 320)

def exporting : Entry :=
  transfer "EXPORT" 9 [(0x48, 1), (0x49, 1), (0x4A, 2), (0x4C, 512), (0x58, 0x10000), (0x68, 8)] [] .running
def exportState : State := let s := onEngine exporting; { s with mem := { s.mem with bytes := memAt 0x10000 share } }

theorem witness_Transfers_start :
    (∀ v ∈ [0, 3], let e := { moving3 (descArg tdDev ++ descArg tdHostWr) .ready with version := v };
      (readyOrder (held e) isTransfer).head? = some e ∧ (held e).hi.xfers.length < 8 ∧ domainRuns (held e) 1 = true) := by
  decide +kernel

theorem witness_Transfers_end :
    (let e := moving3 (descArg tdHost0 ++ descArg tdDevWr) .running;
      let s := onEngine e;
      entryOf s h4 = some e ∧ h4 ∈ s.hi.xfers ∧ domainRuns s 1 = true ∧ s.mem.bytes.wf = true ∧ linkOpen s e.fn = true ∧ tdHost (moveSrc e.arg) = true ∧
        moveWaits s e = false ∧ tdE (moveDst e.arg) = 8 ∧ (moveAddrs e).2.length = 8 ∧ (∀ a ∈ (moveAddrs e).2, a % 4096 + 8 ≤ 4096) ∧
        (moveAddrs e).2.Pairwise (fun a b => a + 8 ≤ b ∨ b + 8 ≤ a)) ∧
    (let e := moving3 (descArg tdDev ++ descArg tdHostWr) .running;
      let s := onEngine e;
      entryOf s h4 = some e ∧ tdHost (moveSrc e.arg) = false ∧ moveWaits s e = false ∧
        (devGather (translateAll s e []) (fnRecOf s e.fn).part (e.tag % 4096) (tdHint (moveSrc e.arg)) h4 (moveAddrs e).1).2 = true) ∧
    (let e := transfer "IMPORT" 9 [(0x48, 2), (0x4C, 64)] [] .running;
      entryOf (onEngine e) h4 = some e ∧ linkOpen (onEngine e) e.fn = true ∧ importCheck e.desc [] ≠ 0) ∧
    (let e := moving3 (descArg tdHost0 ++ descArg tdDevWr) .running;
      let s := onEngine e;
      let s := { s with hi := { s.hi with cfgs := [(0, { fnCfg0 with ats := true })] } };
      entryOf s h4 = some e ∧ h4 ∈ s.hi.xfers ∧ domainRuns s 1 = true ∧ linkOpen s e.fn = true ∧ (missingPage s e).isSome = true) := by
  decide +kernel

/-- The reads of an EXPORT succeed. -/
def exportReads : Bool :=
  let s := exportState
  match readAll (translateAll s exporting []) 0 h4 [(xgObj exporting.desc, 256)] with
  | .got s1 (some [hd]) =>
    exportOk exporting.desc hd && decide (128 + ohLength hd ≤ xgLen exporting.desc) &&
      inRegion exporting.regions (ohData hd) (ohLength hd) && !(gatherWaits s1 (exportAddrs hd)) &&
      (devGather s1 0 1 0 h4 (exportAddrs hd)).2
  | _ => false

theorem witness_Transfers_export : entryOf exportState h4 = some exporting ∧ exportReads = true := by decide +kernel

/-- An IMPORT of one stripe to 0x11000 with its header at 0x10000, the share it replaces, and the buffer that the host gives. -/
def importing : Entry :=
  { transfer "IMPORT" 9 [(0x48, 2), (0x49, 1), (0x4A, 2), (0x4C, 4224), (0x58, 0x10000), (0x60, 0x11000), (0x68, 8)] [] .running with
    regions := [{ id := 1, host := false, pasid := 0, base := 0x10000, len := 0x3000, removed := false },
                { id := 2, host := true, pasid := 0, base := 0x20000, len := 0x2000, removed := false }] }
def received : List Byte :=
  let b := leBytes 4 0x4D584749 ++ leBytes 1 1 ++ leBytes 3 8 ++ leBytes 4 1 ++ leBytes 4 (1 + 2 * 2 ^ 16 + 8 * 2 ^ 24) ++ leBytes 8 77 ++
    leBytes 8 0 ++ leBytes 8 4096 ++ leBytes 4 (crc32c (List.replicate 4096 0)) ++ List.replicate 80 0
  b ++ leBytes 4 (crc32c b) ++ List.replicate 4096 0
def importState : State := let s := onEngine importing; { s with mem := { s.mem with bytes := memAt 0x10000 share } }

/-- Its header is read, and the payload and the new header are written. -/
def importWrites : Bool :=
  match readAll (translateAll importState importing []) 0 h4 [(0x10000, 256)] with
  | .got s1 (some [hd]) =>
    (headerWrites (devScatter s1 0 1 0 h4 ((List.range 16).map (fun i => (0x11000 + 256 * i, sub received (128 + 256 * i) 256)))) 0 h4
      [(0x10000, importHeader importing.desc received (ohGen hd + 1))]).isSome && intactCt hd
  | _ => false

set_option maxRecDepth 100000 in
theorem witness_Transfers_import :
    entryOf importState h4 = some importing ∧ h4 ∈ importState.hi.xfers ∧ domainRuns importState 1 = true ∧
      importState.mem.bytes.wf = true ∧ linkOpen importState importing.fn = true ∧ importCheck importing.desc received = 0 ∧
      le received 0x20 8 = 4096 ∧ received.length = 128 + 4096 ∧ inRegion importing.regions 0x11000 4096 = true ∧
      inRegion importing.regions 0x10000 256 = true ∧ overlaps 0x11000 4096 0x10000 256 = false ∧ importWrites = true := by
  decide +kernel

/-- A PK operation. -/
def pkOp (row : String) (pop flags arglen out : Nat) : Entry := entry2 row (pk pop flags arglen out []) .ready

theorem witness_PublicKeyEngine :
    (∀ e ∈ [pkOp "SLOT_CLEAR" 0x51 0 0 0, pkOp "X25519" 0x31 1 32 32, pkOp "RSA_4096_QUOTE" 0x11 0 32 592],
      let s := held e;
      (pkWaiting s).head? = some e ∧ s.pke.long = none ∧ domainRuns s 1 = true ∧ s.flt.mcRestarting = false ∧
        e.version = s.ts.bundle.version ∧ urgentWaits s 0 = false ∧ popHash (pkPop e.desc) = false ∧ pkLong e.desc = decide (e.row = "RSA_4096_QUOTE") ∧
        (s.pke.slots.get (e.tag % 4096) []).find (pkSlot e.desc) = none ∧ entryOf s e.handle = some e ∧
        (e.row = "X25519" → pkPop e.desc = 0x31 ∧ pkSlotKey e.desc = true)) ∧
    (let e := { pkOp "X25519" 0x31 0 64 32 with version := 3 };
      (pkWaiting (held e)).head? = some e ∧ e.version ≠ (held e).ts.bundle.version) ∧
    (∀ done ∈ [0, 3100000], let e := { pkOp "RSA_4096_QUOTE" 0x11 0 32 592 with state := .running };
      let s := held e;
      let r : PkeRun := { handle := h4, done := done, total := 3100000, status := 0, output := [], slot := none };
      let s := { s with pke := { s.pke with long := some r } };
      urgentWaits s 0 = false ∧
      s.pke.long = some r ∧ domainRuns s 1 = true ∧ s.flt.mcRestarting = false ∧ entryOf s r.handle = some e ∧
        (r.total ≤ r.done + 50000 ∨ r.done + 50000 < r.total)) := by
  decide +kernel

/-- A hash of nothing, of 64 bytes of device memory and of 64 bytes of the host, its output for the host or for device memory. -/
def hashing (a n out : Nat) : Entry :=
  { entry2 "SHA_256" (sd 4 [(0x48, 1), (0x50, a), (0x58, n), (0x60, out), (0x68, 32)]) .ready with regions := session1.regions }

theorem witness_PublicKeyEngine_hash :
    (∀ p ∈ [(0, 0, 0x10000), (0x10000, 64, 0x10000), (2 ^ 63 + 0x20000, 64, 2 ^ 63 + 0x20000)],
      let e := hashing p.1 p.2.1 p.2.2;
      let s := held e;
      (pkWaiting s).head? = some e ∧ s.pke.long = none ∧ e.version = s.ts.bundle.version ∧ popHash (pkPop e.desc) = true ∧
        pkLong e.desc = false ∧ urgentWaits s 0 = false ∧ pkData e.desc = p.1 ∧ pkLen e.desc = p.2.1 ∧ pkOut e.desc = p.2.2 ∧
        linkOpen s e.fn = true ∧ s.mem.bytes.wf = true) ∧
    (match readAll (held (hashing 0x10000 64 0x10000)) 0 h4 [(0x10000, 64)] with
      | .got _ (some [_]) => true
      | _ => false) = true ∧
    (pkHostRegion session1.regions (2 ^ 63 + 0x20000) 32).isSome = true ∧
    linkOpen lockedState ({ hashing 0 0 (2 ^ 63 + 0x20000) with fn := 1 } : Entry).fn = false := by
  decide +kernel

/-- A request of tile 0, of one unit or of a stripe. -/
def memReq (write : Bool) (addr : Nat) (ph : MemPhase) : MemReq :=
  { id := 5, write := write, addr := addr, hint := 0, part := 0, session := 1, tile := 0, engine := 0, phase := ph,
    data := if write then List.replicate 4096 7 else [], enable := if write then List.replicate 4096 true else [] }
def requested (r : MemReq) (x : Tbl StripeState) (g : List Group) : State :=
  let s := held (task1 1 .running)
  { s with groups := g, mem := { s.mem with reqs := [r], stripes := x, lines := [{ unit := 272, keep := true, session := 1, part := 0, used := 0 }] },
           time := 100000000 }

theorem witness_DeviceMemoryRequests :
    (let r := memReq false 0x11000 .port;
      let s := requested r [] [];
      s.mem.reqs.find? (fun m => m.id == 5 && m.phase == .port) = some r ∧ firstAtPort s r = true ∧ 0 ≤ partLevel s r.part) ∧
    (∀ p ∈ [(capacity, []), (0x10000, [(16, StripeState.written)]), (0x11000, []), (0x10000, [(16, .poisoned)])],
      let r := memReq false p.1 .fabric;
      let s := requested r p.2 [g4];
      s.mem.reqs.find? (fun m => m.id == 5 && m.phase == .fabric && !(m.write)) = some r ∧ s.mem.trained = true ∧
        unitRead s (r.addr / 4096) (r.addr / 256 % 16) ≠ .waits) ∧
    (let s := requested (memReq false 0x10000 .fabric) [(16, .written)] [];
      0x10000 < capacity ∧ stripeOf s 16 = .written ∧ unitRead s 16 0 ≠ .lost ∧ lineOf s (17 * 16 + 1) = none ∧
        servedDirect s 16 1 = true ∧ unitGood s 16 1 = true ∧ (∀ v ∈ otherUnits 1, unitGood s 16 v = true ∧ unitPaused s 16 v = false) ∧ stripeOf s 17 = .unwritten ∧ lineOf s (17 * 17 + 0) = none) ∧
    (let s := requested (memReq false 0x10000 .fabric) [(16, .poisoned)] [g4];
      let s := { s with mem := { s.mem with bad := [(16, 0)] } };
      unitRead s 16 0 = .lost ∧ tileGroup s 0 = some g4 ∧ groupOf s g4.handle = some g4 ∧ (entryOf s g4.handle).isSome = true) := by
  decide +kernel

theorem witness_DeviceMemoryRequests_find (a : Nat) :
    (requested (memReq true a .fabric) [] []).mem.reqs.find? (fun m => m.id == 5 && m.phase == .fabric && m.write) =
      some (memReq true a .fabric) := rfl

theorem witness_DeviceMemoryRequests_data :
    (memReq true 0x11000 .fabric).data.length = 4096 ∧ (memReq true 0x11000 .fabric).enable.length = 4096 :=
  ⟨List.length_replicate, List.length_replicate⟩

theorem witness_DeviceMemoryRequests_write :
    (requested (memReq true 0x11000 .fabric) [] []).mem.bytes.wf = true ∧ (memReq true capacity .fabric).addr = capacity ∧ 0x11000 < capacity ∧ stripeOf (requested (memReq true 0x11000 .fabric) [] []) 17 = .unwritten ∧
      (memReq true 0x11000 .fabric).enable.getD 0 false = true ∧
    (let s := requested (memReq true 0 .fabric) [] [];
      (lineOf s 272).any (fun l => l.keep && decide (l.used + 100000000 ≤ s.time)) = true) := by
  decide +kernel

theorem witness_MemoryReadsBack :
    (memAt 5 [7]).wf = true ∧ (memAt 5 [7, 0]).wf = true ∧ 16 < 17 ∧ 0 ≠ 16 ∧ unitStack 0 0 = unitStack 20 0 := by
  decide +kernel

/-- Channel 3, on stack 0, with these spares and state, the other channels in service. -/
def chan (x : Channel) : State :=
  let s := held (entryOp 1 .ready)
  { s with time := 100000000, mem := { s.mem with channels := [(3, x)], stks := [(0, { stack0 with state := 0 })] } }
def channelIn (ca dq : Nat) (st : ChannelState) : Channel :=
  { channel0 with state := st, caSpares := [7].take ca, dqSpares := [17, 16].take dq }

theorem witness_StacksAndChannels_channel :
    (∀ p ∈ [(1, 2), (0, 0)], let s := chan (channelIn p.1 p.2 .inService);
      channelLives s 3 = true ∧ (channelOf s 3).state = .inService ∧ (channelOf s 3).caFree = p.1 ∧ (channelOf s 3).dqFree = p.2 ∧
        4 ∈ liveLanes (channelOf s 3) true ∧ 4 ∈ liveLanes (channelOf s 3) false ∧ calDue s (channelOf s 3) true = true ∧
        calDue s (channelOf s 3) false = true ∧
        (∀ ca ∈ [true, false], (calLane (channelOf s 3) ca).any (fun l =>
            decide (l < (if ca then (channelOf s 3).caCal else (channelOf s 3).dqCal).length)) = true ∧
          (oldestLane (channelOf s 3) ca).isSome = true ∧
          (if ca then (channelOf s 3).caSpares else (channelOf s 3).dqSpares).Nodup) ∧ s.mem.noReserve = false ∧ s.mem.trained = true ∧
        (stackOf s 0).state ≠ 2) ∧
    (channelOf (chan (channelIn 1 2 .pause)) 3).state = .pause ∧
    (let s := chan { channelIn 0 2 .repair with mend := some (true, 4, 7) };
      (channelOf s 3).mend = some (true, 4, 7) ∧ channelLives s 3 = true ∧ (channelOf s 3).state = .repair) := by
  decide +kernel

theorem witness_StacksAndChannels_stack :
    (let s := chan (channelIn 1 2 .lost);
      let s := { s with mem := { s.mem with rebuilding := true } };
      s.mem.rebuilding = true ∧ allLost s ≠ [] ∧ (∀ p ∈ unitsOn s (allLost s), unitRead s p.1 p.2 ≠ .waits)) ∧
    (let s := chan (channelIn 1 2 .lost);
      let s := { s with mem := { s.mem with rebuilding := true } };
      s.pending = [] ∧ s.mem.rebuilt ≤ 999 ∧ s.mem.reserveUsed ≤ reserveUnits ∧ s.mem.rebuilding = true) ∧
    (∀ k ∈ [1, 3], let s := chan (channelIn 1 2 .inService);
      let s := { s with mem := { s.mem with stks := [(0, { stack0 with state := k })], stale := [(16, 0)] } };
      (stackOf s 0).state = k ∧ (stackOf s 0).hot105 = false ∧
        (∀ p ∈ s.mem.stale, unitChannel s p.1 p.2 / 48 = 0 → resyncWaits s p.1 p.2 = false)) ∧
    (let s := chan (channelIn 1 2 .inService); s.mem.trained = true ∧ stripeOf s 16 = .written ∧ 16 < capacity / 4096) := by
  decide +kernel

end Sys2Proof.Tests
end

