-- ==== Sys2Proof/Tests/WitnessRecovery.lean ====
section
/-! SUPPORT. For the statements about replay, retirement, throttling, power, boot and service: states and operands that meet the hypotheses. -/

open Sys2Proof Sys2Proof.Machine Sys2Proof.Claims

namespace Sys2Proof.Tests

set_option Elab.async false

/-- The group of a held task, waiting with a fault or not, with a checkpoint of epoch 1. -/
def save0 : TileSave := { tile := 0, spad := [], regs := [], base := 0, pc := 4, sems := [], windows := [] }
def fault5 (src : Nat) : GFault := { source := src, tile := 0, link := 0xFFFF, cyc := 1, unit := 0, injected := false, logged := false }
def g5 (f : Option GFault) : Group := { g4 with epoch := 1, saves := [(1, [save0])], fault := f }
def inGroup (g : Group) : State := let s := heldBy g (task1 1 .running) []; { s with time := 250000000 }

theorem witness_ReplayRestoresTheEpoch :
    (∀ f ∈ [none, some (fault5 3)], let g := g5 f;
      let s := inGroup g;
      groupOf s h4 = some g ∧ entryOf s h4 = some (task1 1 .running) ∧ (task1 1 .running).image = some image1 ∧
        s.flt.mcRestarting = false ∧ retirePending s g = false ∧ retires s g (fault5 3) = false ∧ 0 ∈ g.started ∧
        recentFaults s (physOf s 0) < 3 ∧ firstBlamed s g ≠ some (physOf s 0) ∧ g.started ≠ [] ∧
        (g.saves.find? (fun q => q.1 == g.epoch)).any (fun p => (p.2.find? (fun w => w.tile == 0)).isSome) = true) ∧
    (let g := g5 none;
      let s := inGroup g;
      g.pausedAt = 0 ∧ g.epochAt + g.exempt + 250000000 ≤ s.time ∧ 0 ∈ groupTiles g ∧ reachedEnd (tileOf s 0) = false ∧
        (groupTiles g).Nodup ∧ g.watched = false) ∧
    (let g := { g5 none with watched := true };
      groupOf (inGroup g) h4 = some g ∧ (∀ k ∈ groupTiles g, k ∉ [9]) ∧ 1 ∈ groupTiles g ∧ 1 ∈ [1]) := by
  decide +kernel

theorem witness_RetirementAndRestart :
    (∀ p ∈ [(2, 0x41), (3, 0x40)], let s := setInfo (inGroup (g5 none)) 5 { tileInfo0 with fails := p.1 };
      let s := { s with mgt := { s.mgt with fuses := { s.mgt.fuses with failed := 0, repair := [] } } };
      tileRuns s 5 = false ∧ s.flt.mcRestarting = false ∧ ((p.2 = 0x41 ∧ (infoOf s 5).fails = 2) ∨ (p.2 = 0x40 ∧ (infoOf s 5).fails = 3)) ∧ sparesFree s ≠ 0 ∧ freeSpares s ≠ []) ∧
    (let s := inGroup (g5 none);
      let s := { s with flt := { s.flt with factoryUsed := 8 } };
      sparesFree s = 0 ∧ s.flt.unrecoverable = false) ∧
    (let s := inGroup (g5 none);
      groupOf s h4 = some (g5 none) ∧ (g5 none).fault = none ∧ s.flt.mcRestarting = false ∧ 7 ∉ s.flt.tnHalved ∧ 7 ∉ s.flt.mfHalved ∧
        s.flt.unrecoverable = false ∧ domainRuns s 4 = true ∧ s.flt.suppressed = false ∧ s.flt.lastBeat + 20000000 ≤ s.time ∧ domainRuns s 3 = true) ∧
    (let s := inGroup (g5 none);
      let s := { s with flt := { s.flt with tnHalved := [7], mcRestarting := true }, mir := { s.mir with images := 3 } };
      7 ∈ s.flt.tnHalved ∧ s.flt.mcRestarting = true ∧ s.mir.images ≠ 0 ∧ s.mir.images = 3 ∧ s.mgt.blob = none ∧
        allowFlash s = true ∧ s.flt.linkReset = false ∧ ({ s with flt := { s.flt with linkReset := true } } : State).mgt.blob = none ∧
        (allowFlash s = true ∧ flashFails s [] ≠ none)) ∧
    groupOf (inGroup (g5 (some (fault5 0x31)))) h4 = some (g5 (some (fault5 0x31))) := by
  decide +kernel

theorem witness_ThermalAndPowerSteps :
    (∀ i ∈ [Instr.stackTempSample 0 100, .mirrorZoneTemp 0 100], (match exec i (chan (channelIn 1 2 .inService)) with
      | .next s' => stepsMoved (chan (channelIn 1 2 .inService)) s'
      | _ => false) = true) ∧
    (∀ t ∈ ([-128, 84, 100, 127] : List Int), let s := chan (channelIn 1 2 .inService);
      domainRuns s 6 = true ∧ (stackOf s 0).state ≠ 2 ∧ -128 ≤ t ∧ t < 128 ∧ (stackOf s 0).state = 0 ∧ s.mem.paused = none ∧
        (stackOf s 0).hot95 = false ∧ (stackOf s 0).hot105 = false ∧ domainRuns s 2 = true) ∧
    (∀ p ∈ [(1, 2), (3, 1)], (clockOf (setClock (inGroup (g5 none)) 9 { steps := p.1, command := some p.2, settling := some 2 }) 9) =
      { steps := p.1, command := some p.2, settling := some 2 }) ∧
    (let s := { inGroup (g5 none) with clk := { clk0 with run := 255, mainUp := true } };
      s.clk.mainUp = true ∧ s.clk.powerStep ≤ 3 ∧ s.clk.fastStep ≤ 1 ∧ s.clk.powerW < 1900 ∧ s.clk.overSince = none ∧
        11 * s.clk.powerW < 10 * 2000 ∧ s.clk.fastArmed = true ∧ s.clk.fastStep ≤ 3 ∧ 115 < (116 : Int) ∧ domainRuns s 6 = true) := by
  decide +kernel

theorem witness_RailsAndColdReset :
    (let s := { inGroup (g5 none) with clk := { clk0 with run := 255, mainUp := true, pwrGood := true, pllLocked := true, pkg := 4, perst := false } };
      s.clk.pkg ≠ 0 ∧ s.clk.pllLocked = true ∧ (s.clk.mainUp && decide (10799 < 10800)) = true) ∧
    (let s := { State.reset with clk := { clk0 with pkg := 0, run := 0 } }; s.clk.pkg = 0 ∧ 3135 ≤ 3300 ∧ 3300 ≤ 3465) ∧
    (∀ p ∈ [true, false], let s := { State.reset with clk := { clk0 with trip := true, v12Ok := p, perst := p } };
      s.clk.pkg = 1 ∧ s.clk.mainUp = false ∧ s.clk.trip = true ∧ s.clk.v12Ok = p ∧ s.clk.perst = p) ∧
    (State.reset.clk.pkg = 1 ∧ State.reset.clk.mainUp = false ∧ 11040 < 12000 ∧ 12000 ≤ 12960) ∧
    (∀ p ∈ [true, false], let s := { State.reset with clk := { clk0 with pwrGood := true, mainUp := true, perst := p } };
      s.clk.pwrGood = true ∧ s.clk.mainUp = true ∧ (s.clk.perst = true ∨ (!s.clk.perst && !s.clk.pllLocked) = true)) ∧
    (let s := hostWith page3 sq3 cq2; domainRuns s 1 = true ∧ s.hi.link.up = false ∧ 1 ≤ 6 ∧ 6 ≤ 6 ∧ 5 ≤ 5 ∧ 16 ∈ [4, 8, 16]) := by
  decide +kernel

/-- The ROM at a step, waiting for the host or not, a push in progress. -/
def booting (step : Nat) (wait : Bool) (p : Option Push) : State :=
  { State.reset with clk := { clk0 with run := 7 }, mgt := { mgt0 with step := step, bootWait := wait, push := p } }

/-- A header page of an image of two pages, its body of zeros with its digest left out, or an empty one that digests. -/
def pushHeader : List Byte := List.replicate 16 0 ++ leBytes 8 8192
def emptyBody : List Byte := List.replicate 16 0 ++ leBytes 8 64 ++ List.replicate 8 0 ++ sha256 []
def pushed2 (h : List Byte) (got : Nat) : Push := { header := h, got := got, image := [] }

theorem witness_BootAndService :
    (let s := booting 1 false none;
      domainRuns s 2 = true ∧ s.mgt.step = 1 ∧ s.mgt.bootWait = false ∧ s.mgt.ready = false ∧ s.mgt.inForce.testBit 0 = true ∧
        s.mgt.inForce.testBit 2 = false ∧ (flashFails s []).isSome = true ∧ pushServed s = false) ∧
    (let s := booting 3 true (some (pushed2 [] 0));
      pushServed s = true ∧ s.mgt.push = some (pushed2 [] 0)) ∧
    (let s := booting 3 true (some (pushed2 pushHeader 4096));
      pushServed s = true ∧ pushHeader ≠ [] ∧ fwLength pushHeader < 4096 + 4096 * 2 ∧ 4096 + 4096 * 1 ≤ fwLength pushHeader ∧
        fwBodyOk pushHeader = false) ∧
    (let s := booting 8 false none;
      domainRuns s 2 = true ∧ s.mgt.step = 8 ∧ s.mgt.ready = false ∧ s.mgt.bootWait = false ∧ s.flt.cause = 0 ∧
        (∀ l ∈ [({ channel := 3, ca := false, lane := 5 } : Lane)], failsTraining [{ channel := 3, ca := false, lane := 5 }] l.channel = false)) ∧
    (∃ n ∈ [257], 256 < n) ∧ (∀ n ∈ [3, 256], n ≤ 256) := by
  decide +kernel

/-- A restart that waits for firmware through PF0's boot window. -/
def reloadState (p : Option Push) : State :=
  let s := booting 8 false p
  { s with flt := { s.flt with mcRestarting := true }, mir := { s.mir with images := 0 }, mgt := { s.mgt with fwDigest := sha256 emptyBody } }

theorem witness_BootAndService_end :
    (let p : Push := { header := emptyBody, got := 64, image := emptyBody };
      let s := booting 3 true (some p);
      pushServed s = true ∧ s.mgt.push = some p ∧ fwBodyOk p.image = true ∧ reloading s = false ∧ fwSvnOk s p.image = true ∧
        fwSvnOk { s with mgt := { s.mgt with svnInForce := 1 } } p.image = false ∧ fwBodyOk pushHeader = false) ∧
    (let p : Push := { header := emptyBody, got := 64, image := emptyBody };
      let s := reloadState (some p);
      pushServed s = true ∧ s.mgt.push = some p ∧ reloading s = true ∧ fwSvnOk s p.image = true ∧ reloadOk s p.image = true) := by
  decide +kernel

end Sys2Proof.Tests
end

