-- ==== Sys2Proof/Tests/WitnessConfig.lean ====
section
/-! SUPPORT. For the statements about bundles, registers, attestation, resets, injection and the whole machine: states and operands that meet
the hypotheses. -/

open Sys2Proof Sys2Proof.Machine Sys2Proof.Claims

namespace Sys2Proof.Tests

set_option Elab.async false

/-- A bundle of another version with its trial, and a device with an open context and this scheduler state. -/
def bundleAt (v trial : Nat) : Bundle := { defaultBundle with version := v, trialS := trial, powerW := 900 }
def configuring (ts : Ts) : State :=
  { hostWith page3 sq3 cq2 with ts := ts, mgt := { mgt0 with context := some 6000000000, lifecycle := 2, owner := some { modulus := 1, exponent := 3 } },
                                time := 5000000000 }

theorem witness_ConfigurationBundles_commands :
    (domainRuns (configuring ts0) 3 = true ∧ contextOpen (configuring ts0) = true ∧ roomAny (configuring ts0) = true ∧
      stageCode (configuring ts0) ((configuring ts0).mgt.bar2.rdN 0 3712) ≠ 0 ∧ (configuring ts0).ts.trialEnds = none ∧
      contextOpen State.reset = false) ∧
    (let s := configuring { ts0 with staged := some (bundleAt 5 0) };
      s.ts.switchTo = none ∧ s.ts.trialEnds = none ∧ s.ts.staged ≠ none) ∧
    (configuring { ts0 with switchTo := some .apply }).ts.switchTo ≠ none ∧
    (configuring { ts0 with trialEnds := some 9 }).ts.trialEnds ≠ none ∧
    (let s := configuring { ts0 with history := [bundleAt 4 0] }; s.ts.switchTo = none ∧ s.ts.history ≠ []) := by
  decide +kernel

theorem witness_ConfigurationBundles_switch :
    (∀ n ∈ [0, 9], let s := configuring { ts0 with staged := some (bundleAt 5 n), switchTo := some .apply, tiles := [(3, freeTile)] };
      domainRuns s 3 = true ∧ s.flt.mcRestarting = false ∧ s.ts.switchTo = some .apply ∧ s.ts.staged = some (bundleAt 5 n) ∧
        s.ts.tiles.find 3 = some freeTile ∧ freeTile.state ≠ 1 ∧ freeTile.version ≠ (bundleAt 5 n).version) ∧
    (let s := configuring { ts0 with history := [bundleAt 4 0], switchTo := some .revert };
      s.ts.switchTo = some .revert ∧ s.ts.history = bundleAt 4 0 :: []) ∧
    (configuring { ts0 with switchTo := some .release }).ts.switchTo = some .release ∧
    (∀ hit ∈ [true, false],
      let s := configuring { ts0 with trialEnds := some 5000000000, history := [bundleAt 4 0], faultTimes := List.replicate 16 4000000000,
                                      stormHit := hit };
      s.ts.trialEnds = some 5000000000 ∧ 5000000000 ≤ s.time ∧ domainRuns s 3 = true ∧ s.ts.history = bundleAt 4 0 :: [] ∧
        s.ts.trialEnds ≠ none ∧ s.ts.bundle.storm ≤
          1 + (({ s.ts with stormTimes := List.replicate 16 4000000000 } : Ts).stormTimes.filter (fun t => decide (s.time < t + 10000000000))).length ∧ s.ts.stormHit = hit ∧ s.ts.switchTo = none ∧ s.flt.mcRestarting = false) := by
  decide +kernel

theorem witness_RegisterAccess_pairs :
    (∀ off ∈ [0x100008, 0x100104, 0x100204, 0x10020C], let s := hostWith page3 sq3 cq2;
      fnReach s 0 = true ∧ isLo 0 off = true ∧ (∀ o ∈ [off, off + 4], (domainOf 0 o).all (domainRuns s) = true) ∧ pairOpen s 0 off = true ∧ (pairOf (setPair s 0 off { held := none, staged := some 5 }) 0 off).staged = some 5) ∧
    (let s := lockedWith page3 sq3 cq2; fnReach s 1 = true ∧ isLo 1 8 = true ∧ pairOpen s 1 8 = false) ∧
    (let s := hostWith page3 sq3 cq2;
      let s := { s with clk := { s.clk with run := 3 } };
      isLo 0 0x300010 = true ∧ domainOf 0 0x300010 = some 6 ∧ domainRuns s 6 = false ∧ domainAnswers s 6 = false) := by
  decide +kernel

theorem witness_RegisterAccess_bytes :
    (let s := hostWith page3 sq3 cq2;
      fnReach s 0 = true ∧ s.mgt.bar2.wf = true ∧ 0xFFFFC + ([1, 2, 3, 4] : List Byte).length ≤ 0x100000 ∧ domainOf 0 0x1FFFFF0 = none ∧
        domainRuns s 3 = true ∧ leNat [8, 0, 0, 0] = 8) ∧
    (∀ n ∈ [15, 16], let s := hostWith page3 sq3 cq2;
      let s := { s with clk := { s.clk with run := 3, held := List.replicate n { domain := 3, fn := 0, off := 0x600004, write := none } } };
      fnReach s 0 = true ∧ domainOf 0 0x600004 = some 3 ∧ domainRuns s 3 = false ∧ s.clk.held.length = n) := by
  decide +kernel

/-- A write of a word to an event register, to one of the installer and to an RWL register, with a context and without, committed or not. -/
theorem witness_RegisterAccess_words :
    (leBytes 4 6).length = 4 ∧ leNat (leBytes 4 6) = 6 ∧
    (∀ c ∈ [true, false], let s := configuring { ts0 with committed := c };
      fnReach s 0 = true ∧ domainRuns s 3 = true ∧ domainRuns s 6 = true ∧ contextOpen s = true ∧ roomAny s = true ∧ s.ts.committed = c ∧
        contextOpen { s with mgt := { s.mgt with context := none } } = false ∧ s.mgt.lifecycle = 2) := by
  decide +kernel

/-- A device whose mailbox answers, with a negotiated secured session in force or not, and a VF with this TDI state. -/
def attesting (finished : Bool) (x : TdiState) : State :=
  let s := lockedWith page3 sq3 cq2
  { s with spdm := { spdm0 with version := 0x13, negotiated := true, dhe := 3, sessions := [(5, { finished := finished, updates := 0, beats := 0 })],
                                nextSid := 6, tdi := [(1, x)] },
           mgt := { s.mgt with chain1 := [1, 2, 3] } }

theorem witness_AttestationMessages :
    (∀ x ∈ [TdiState.unlocked, .locked, .run], let s := attesting true x;
      doeUp s = true ∧ s.flt.mcRestarting = false ∧ s.spdm.negotiated = true ∧ s.mgt.chain1 ≠ [] ∧ s.spdm.sessions.length < 4 ∧
        (s.spdm.sessions.find 5).any (fun k => k.finished) = true ∧ 1 ≠ 0 ∧ (fnRecOf s 1).present = true ∧ tdiOf s 1 = x) ∧
    ((attesting false .run).spdm.sessions.find 5).any (fun k => !k.finished) = true ∧
    pointOk (groupCurve 3) (beBytes 32 p256.gx ++ beBytes 32 p256.gy) = true ∧ 3 ≤ (attesting true .run).mgt.chain1.length ∧
    (0x18).testBit 3 = true ∧ (0x18).testBit 4 = true ∧ (List.replicate 32 (0 : Byte)).length = 32 ∧
    (let s := attesting true .run;
      let s := { s with flt := { s.flt with mcRestarting := true } };
      doeUp s = true ∧ s.flt.mcRestarting = true) := by
  decide +kernel

theorem witness_AttestationMessages_message : Message Instr.getVersion ∧ Message (.setCertificate 1 []) := ⟨trivial, trivial⟩

/-- A device of the field under a diagnostic unlock in force. -/
def trustedDiag : State := { State.reset with mgt := { mgt0 with lifecycle := 2, diag := some { scope := 2, expiry := 9 } } }

theorem witness_SidebandAndTestController :
    domainRuns State.reset 0 = true ∧ domainRuns State.reset 6 = false ∧ domainRuns State.reset 3 = false ∧ domainRuns State.reset 2 = false ∧
      State.reset.mgt.lifecycle = 0 ∧
    (let s := attesting true .run;
      domainRuns s 6 = true ∧ (let t := { s with mgt := { s.mgt with lifecycle := 2 } }; t.mgt.lifecycle ≠ 0 ∧ diagOpen t = false)) ∧
    (let s := trustedDiag; s.mgt.lifecycle ≠ 0 ∧ diagOpen s = true ∧ s.mgt.diag = some { scope := 2, expiry := 9 } ∧ s.clk.tapReset = false) ∧
    ({ clk0 with tapReset := true } : Clk).tapReset = true := by
  decide +kernel

theorem witness_FunctionResets :
    (let s := heldBy g4 (task1 1 .running) [];
      fnReach s 0 = true ∧ tdiLocked s 0 = false ∧ g4 ∈ s.groups ∧ g4.fn = 0 ∧ (1, session1) ∈ s.ts.sessions ∧ session1.fn = 0 ∧
        (∀ e ∈ s.ts.entries, e.fn = 0 → e.handle ∉ s.hi.xfers) ∧ s.flt.mcRestarting = false ∧ 0 ∈ presentFns s ∧
        ({ s with flt := { s.flt with mcRestarting := true } } : State).flt.mcRestarting = true) ∧
    (let s := lockedWith page3 sq3 cq2;
      fnReach s 1 = true ∧ tdiLocked s 1 = true ∧ 0 ≠ 1 ∧ (fnRecOf s 1).sqBase + (fnRecOf s 1).sqCount ≤ 8) ∧
    (1).testBit 0 = true ∧ (cfgOf (setCfg (hostWith page3 sq3 cq2) 0 { fnCfg0 with d3hot := true }) 0).d3hot = true := by
  decide +kernel

/-- A device with an open context, this injection target and this channel 3. -/
def injecting (kind : Nat) (x : Channel) (i : Option Injection) : State :=
  let s := chan x
  let k := configuring ts0
  { s with mgt := k.mgt, time := k.time, flt := { s.flt with injTarget := kind * 2 ^ 24 + 5 * 2 ^ 18 + 3 * 2 ^ 8, inj := i } }
def armed (kind : Nat) : Injection := { kind := kind, ltile := 0, channel := 3, param := 0, armedAt := 0 }

theorem witness_FaultInjection_arm :
    (∀ k ∈ [1, 2, 3, 4, 5, 6, 0x10, 0x11, 0x12, 0x13, 0x14, 0x20, 0x21], let s := injecting k (channelIn 1 2 .inService) none;
      domainRuns s 3 = true ∧ (fltWrite s 0 0x0600100 1).isSome = true ∧ s.flt.inj = none ∧ injKind s.flt.injTarget = k ∧
        injChannel s.flt.injTarget = 3 ∧ injTile s.flt.injTarget = 5 ∧ channelLives s 3 = true ∧ degraded s = false ∧ s.mem.noReserve = false ∧
        2 ≤ sparesFree s ∧ 0 < (channelOf s 3).dqFree ∧ (channelOf s 3).state = .inService ∧
        (freeSpares s).any (fun q => q != physOf s 5) = true) ∧
    (fltWrite State.reset 0 0x0600100 1).isNone = true := by
  decide +kernel

theorem witness_FaultInjection_refused :
    (injecting 1 (channelIn 1 2 .inService) (some (armed 1))).flt.inj ≠ none ∧
    injKind (injecting 7 (channelIn 1 2 .inService) none).flt.injTarget ∉ [1, 2, 3, 4, 5, 6, 0x10, 0x11, 0x12, 0x13, 0x14, 0x20, 0x21] ∧
    960 ≤ injChannel (0x10 * 2 ^ 24 + 960 * 2 ^ 8) ∧ (channelOf (injecting 0x12 (channelIn 1 0 .inService) none) 3).dqFree = 0 ∧
    degraded (injecting 0x10 (channelIn 1 2 .lost) none) = true ∧
    (let s := injecting 6 (channelIn 1 2 .inService) none; sparesFree { s with flt := { s.flt with factoryUsed := 7 } } < 2) ∧
    (let s := injecting 1 (channelIn 1 2 .inService) (some (armed 1));
      (fltWrite s 0 0x0600100 2).isSome = true ∧ s.flt.inj = some (armed 1) ∧ (armed 1).armedAt + 1000000000 ≤ s.time) := by
  decide +kernel

theorem witness_FaultInjection_glint :
    let s := injecting 6 (channelIn 1 2 .inService) (some (armed 6))
    let s := { s with flt := { s.flt with mcRestarting := true }, mir := { s.mir with images := 3 } }
    s.flt.inj = some (armed 6) ∧ (armed 6).kind = 6 ∧ s.flt.linkReset = false ∧ s.mir.images ≠ 0 ∧ s.mgt.blob = none ∧ 2 ≤ sparesFree s := by
  decide +kernel

theorem witness_FaultInjection_fires :
    let x := tileAt (cw 0 3 1 (256 * 2))
    let s := onTile x
    let s := { s with flt := { s.flt with inj := some (armed 4) } }
    s.flt.inj = some (armed 4) ∧ (armed 4).kind = 4 ∧ (armed 4).ltile = 0 ∧
      CoreReady s 0 0x00 (fun w => [iD w, iA w, iB w]) g2 x (cw 0 3 1 (256 * 2)) 0 ∧ iFn (cw 0 3 1 (256 * 2)) ≤ 0x0F := by
  decide +kernel

/-- A step that answers a next state. -/
def steps (s : State) : Bool :=
  match step s with
  | .next _ => true
  | _ => false

theorem witness_StepRunsTheFrontCommand : State.reset.pending = [] := rfl

theorem witness_MemoryFormKept :
    (let s := { held (entryOp 1 .ready) with pending := [Instr.smbRefresh] }; s.mem.bytes.wf = true ∧ steps s = true) ∧
    (let s := { requested (memReq true 0x11000 .fabric) [] [] with pending := [Instr.memWrite 5] };
      s.mem.bytes.wf = true ∧ steps s = true) := by
  decide +kernel

theorem witness_LifecycleNeverReturnsToFactory :
    let s := { configuring { ts0 with switchTo := some .release } with pending := [Instr.switchPoint] }
    steps s = true ∧ s.mgt.lifecycle ≠ 0 ∧ s.mgt.lifecycle ≤ 2 := by
  decide +kernel

end Sys2Proof.Tests
end

