-- ==== Sys2Proof/WellFormed.lean ====
section
/-! DEFINITION. Which commands name only what the device has: functions, rings, tiles, engines, channels, stacks, zones. -/

namespace Sys2Proof

/-- PF0 is 0, VFn is n (R4's names; R272). -/
def fnOk (n : Nat) : Bool := decide (n < 128)

/-- A local ring number (R276, R302). -/
def ringOk (n : Nat) : Bool := decide (n < 4096)

/-- A global completion ring (R284, R302). -/
def cqOk (n : Nat) : Bool := decide (n < 512)

/-- A logical tile (R22). -/
def tileOk (n : Nat) : Bool := decide (n < 64)

/-- SE0 or SE1. -/
def engineOk (n : Nat) : Bool := decide (n < 2)

/-- A cycle of a tile's counter (R128). -/
def cycOk (n : Nat) : Bool := decide (n < 2 ^ 40)

/-- A partition (R318). -/
def partOk (n : Nat) : Bool := decide (n < 16)

/-- A channel, 48 × stack + channel (R231). -/
def channelOk (n : Nat) : Bool := decide (n < 960)

/-- A stack (R231). -/
def stackOk (n : Nat) : Bool := decide (n < 20)

/-- A Mirror zone (R263). -/
def zoneOk (n : Nat) : Bool := decide (n < 16)

/-- A physical tile position (R21). -/
def positionOk (n : Nat) : Bool := decide (n < 72)

/-- An offset within PF0 BAR0 (R274). -/
def offsetOk (n : Nat) : Bool := decide (n < 0x2000000)

/-- A handle (R284). -/
def handleOk (n : Nat) : Bool := decide (n < 2 ^ 64)

/-- A SOURCE code of R352, one byte. -/
def sourceOk (n : Nat) : Bool := decide (n < 256)

/-- One of the two halves of the boot buffer (R366). -/
def bufOk (n : Nat) : Bool := decide (n < 2)

/-- An IDE stream (R369). -/
def streamOk (n : Nat) : Bool := decide (n < 8)

/-- A key set (R369). -/
def ksetOk (n : Nat) : Bool := decide (n < 2)

/-- The command names only units the device has. -/
def Instr.wf : Instr → Bool
  | .kickAll fn => fnOk fn
  | .kickRing fn ring => fnOk fn && ringOk ring
  | .pollTimer fn => fnOk fn
  | .doorbellRecordArrival fn _ => fnOk fn
  | .task fn ring _ _ => fnOk fn && ringOk ring
  | .refresh fn ring _ _ => fnOk fn && ringOk ring
  | .switchToLwe fn ring _ _ => fnOk fn && ringOk ring
  | .repack fn ring _ _ => fnOk fn && ringOk ring
  | .pbs fn ring _ _ => fnOk fn && ringOk ring
  | .keyswitch fn ring _ _ => fnOk fn && ringOk ring
  | .rotateMany fn ring _ _ => fnOk fn && ringOk ring
  | .rescale fn ring _ _ => fnOk fn && ringOk ring
  | .mpcTrunc fn ring _ _ => fnOk fn && ringOk ring
  | .mpcCompare fn ring _ _ => fnOk fn && ringOk ring
  | .move fn ring _ _ => fnOk fn && ringOk ring
  | .fence fn ring _ _ => fnOk fn && ringOk ring
  | .fenceComplete h => handleOk h
  | .cancel fn ring _ _ => fnOk fn && ringOk ring
  | .query fn ring _ _ => fnOk fn && ringOk ring
  | .openSession fn ring _ _ => fnOk fn && ringOk ring
  | .closeSession fn ring _ _ => fnOk fn && ringOk ring
  | .loadPset fn ring _ _ => fnOk fn && ringOk ring
  | .unloadPset fn ring _ _ => fnOk fn && ringOk ring
  | .addRegion fn ring _ _ => fnOk fn && ringOk ring
  | .removeRegion fn ring _ _ => fnOk fn && ringOk ring
  | .policy fn ring _ _ => fnOk fn && ringOk ring
  | .exportMsg fn ring _ _ => fnOk fn && ringOk ring
  | .importMsg fn ring _ _ => fnOk fn && ringOk ring
  | .sha256Op fn ring _ _ => fnOk fn && ringOk ring
  | .sha384Op fn ring _ _ => fnOk fn && ringOk ring
  | .sha512Op fn ring _ _ => fnOk fn && ringOk ring
  | .shake128Op fn ring _ _ => fnOk fn && ringOk ring
  | .shake256Op fn ring _ _ => fnOk fn && ringOk ring
  | .rsa3072Quote fn ring _ _ => fnOk fn && ringOk ring
  | .rsa4096Quote fn ring _ _ => fnOk fn && ringOk ring
  | .rsa3072PssVerify fn ring _ _ => fnOk fn && ringOk ring
  | .rsa4096PssVerify fn ring _ _ => fnOk fn && ringOk ring
  | .p256KeyPair fn ring _ _ => fnOk fn && ringOk ring
  | .p256EcdsaSign fn ring _ _ => fnOk fn && ringOk ring
  | .p256EcdsaVerify fn ring _ _ => fnOk fn && ringOk ring
  | .p256Ecdh fn ring _ _ => fnOk fn && ringOk ring
  | .p384KeyPair fn ring _ _ => fnOk fn && ringOk ring
  | .p384EcdsaSign fn ring _ _ => fnOk fn && ringOk ring
  | .p384EcdsaVerify fn ring _ _ => fnOk fn && ringOk ring
  | .p384Ecdh fn ring _ _ => fnOk fn && ringOk ring
  | .x25519KeyPair fn ring _ _ => fnOk fn && ringOk ring
  | .x25519Op fn ring _ _ => fnOk fn && ringOk ring
  | .ed25519KeyPair fn ring _ _ => fnOk fn && ringOk ring
  | .ed25519Sign fn ring _ _ => fnOk fn && ringOk ring
  | .ed25519Verify fn ring _ _ => fnOk fn && ringOk ring
  | .mlKem768KeyPair fn ring _ _ => fnOk fn && ringOk ring
  | .mlKem768Encapsulate fn ring _ _ => fnOk fn && ringOk ring
  | .mlKem768Decapsulate fn ring _ _ => fnOk fn && ringOk ring
  | .mlKem1024KeyPair fn ring _ _ => fnOk fn && ringOk ring
  | .mlKem1024Encapsulate fn ring _ _ => fnOk fn && ringOk ring
  | .mlKem1024Decapsulate fn ring _ _ => fnOk fn && ringOk ring
  | .slotLoad fn ring _ _ => fnOk fn && ringOk ring
  | .slotClear fn ring _ _ => fnOk fn && ringOk ring
  | .pkeOpStart _ _ => true
  | .pkeYieldPoint _ => true
  | .transferStart => true
  | .transferComplete h _ _ => handleOk h
  | .sessionOpRun h _ => handleOk h
  | .readinessCheck h => handleOk h
  | .priorityAge h => handleOk h
  | .dispatch part => partOk part
  | .tileTaskStart t => tileOk t
  | .taskFinalHeaders h => handleOk h
  | .msixCoalesceTimer cq => cqOk cq
  | .hostFetchError fn ring => fnOk fn && ringOk ring
  | .cqWriteError cq => cqOk cq
  | .hiSqReset fn _ => fnOk fn
  | .sqEnable fn _ => fnOk fn
  | .sqDisable fn _ => fnOk fn
  | .cqEnable fn _ => fnOk fn
  | .cqDisable fn _ => fnOk fn
  | .resume fn => fnOk fn
  | .clearNoticeLost fn => fnOk fn
  | .functionLevelReset fn => fnOk fn
  | .linkReset => true
  | .tdiError fn => fnOk fn
  | .pairLoRead fn off => fnOk fn && offsetOk off
  | .pairHiRead fn off => fnOk fn && offsetOk off
  | .pairLoWrite fn off _ => fnOk fn && offsetOk off
  | .pairHiWrite fn off _ => fnOk fn && offsetOk off
  | .pair64Access fn off _ => fnOk fn && offsetOk off
  | .registerWrite fn _ off _ => fnOk fn && offsetOk off
  | .stoppedDomainAccess fn off _ => fnOk fn && offsetOk off
  | .stage => true
  | .apply => true
  | .commit => true
  | .revert => true
  | .discard => true
  | .switchPoint => true
  | .trialExpiry => true
  | .autoRevert => true
  | .tileReconfigure t _ => tileOk t
  | .lullEntry t => tileOk t
  | .tileScrub t => tileOk t
  | .alu t => tileOk t
  | .addi t => tileOk t
  | .andi t => tileOk t
  | .ori t => tileOk t
  | .xori t => tileOk t
  | .slli t => tileOk t
  | .srli t => tileOk t
  | .srai t => tileOk t
  | .slti t => tileOk t
  | .sltiu t => tileOk t
  | .seth t => tileOk t
  | .bfi t => tileOk t
  | .bfx t => tileOk t
  | .ld t => tileOk t
  | .lw t => tileOk t
  | .st t => tileOk t
  | .sw t => tileOk t
  | .coreStoreWrite t => tileOk t
  | .arg t => tileOk t
  | .cld t => tileOk t
  | .beq t => tileOk t
  | .bne t => tileOk t
  | .blt t => tileOk t
  | .bge t => tileOk t
  | .bltu t => tileOk t
  | .bgeu t => tileOk t
  | .jal t => tileOk t
  | .jalr t => tileOk t
  | .push t => tileOk t
  | .pushStallEnd t cyc => tileOk t && cycOk cyc
  | .semw t => tileOk t
  | .semwSatisfied t => tileOk t
  | .sems t => tileOk t
  | .semr t => tileOk t
  | .rsig t => tileOk t
  | .remoteSignalArrival t src cyc => tileOk t && tileOk src && cycOk cyc
  | .bar t => tileOk t
  | .barrierArrival t => tileOk t
  | .barrierRelease t cyc => tileOk t && cycOk cyc
  | .anchor t => tileOk t
  | .waitc t => tileOk t
  | .waitcExpiry t => tileOk t
  | .csrr t => tileOk t
  | .win t => tileOk t
  | .descMake t => tileOk t
  | .epoch t => tileOk t
  | .epochCheckpoint h => handleOk h
  | .endCore t => tileOk t
  | .coreNop t => tileOk t
  | .cycOverflow t => tileOk t
  | .mmaNop t => tileOk t
  | .mmaLoad t => tileOk t
  | .mmaLoadt t => tileOk t
  | .mmaMul t => tileOk t
  | .veNop t => tileOk t
  | .veSetchain t => tileOk t
  | .veSetq t => tileOk t
  | .veSetperm t => tileOk t
  | .veRun t => tileOk t
  | .spNop t => tileOk t
  | .spFill t => tileOk t
  | .spCopy t => tileOk t
  | .spCommandDone t => tileOk t
  | .seNop t e cyc => tileOk t && engineOk e && cycOk cyc
  | .seRead t e cyc => tileOk t && engineOk e && cycOk cyc
  | .seWrite t e cyc => tileOk t && engineOk e && cycOk cyc
  | .seKey t e cyc => tileOk t && engineOk e && cycOk cyc
  | .keyHeaderCheck t e cyc => tileOk t && engineOk e && cycOk cyc
  | .sxStreamStart t e cyc => tileOk t && engineOk e && cycOk cyc
  | .blockListRead t e cyc => tileOk t && engineOk e && cycOk cyc
  | .streamDataArrival t e _ cyc _ => tileOk t && engineOk e && cycOk cyc
  | .streamSignal t e cyc => tileOk t && engineOk e && cycOk cyc
  | .translationMiss t e _ => tileOk t && engineOk e
  | .priResponse t e _ => tileOk t && engineOk e
  | .pageRequestTimeout t e => tileOk t && engineOk e
  | .hostAbort t e _ => tileOk t && engineOk e
  | .remoteAccessArrival t src cyc => tileOk t && tileOk src && cycOk cyc
  | .remoteResponseArrival t cyc => tileOk t && cycOk cyc
  | .windowNack t => tileOk t
  | .semaphoreDeadlock h => handleOk h
  | .replay h src t => handleOk h && sourceOk src && (tileOk t || src == 0x10 || src == 0x11)
  | .epochWatchdog h _ => handleOk h
  | .tileRetire t _ _ => tileOk t
  | .linkHalving _ _ h => handleOk h
  | .glint => true
  | .mcRestart _ => true
  | .memRead _ => true
  | .memWrite _ => true
  | .bucketRelease part _ => partOk part
  | .keepExpiry _ => true
  | .laneRepair ch _ _ => channelOk ch
  | .calInterval ch _ => channelOk ch
  | .calPause ch => channelOk ch
  | .calPauseEnd ch => channelOk ch
  | .channelLost ch => channelOk ch
  | .stackLost stk => stackOk stk
  | .rebuildDone => true
  | .resync stk => stackOk stk
  | .patrolScrub _ _ _ => true
  | .stackTempSample stk _ => stackOk stk
  | .mirrorZoneTemp z _ => zoneOk z
  | .mirrorCrc _ _ => true
  | .throttleCommand pos => positionOk pos
  | .voltSettled pos => positionOk pos
  | .powerSample _ _ => true
  | .v12Low _ => true
  | .thermalTrip => true
  | .pllUnlock => true
  | .stbyPowerValid _ => true
  | .mainPowerValid _ => true
  | .coldReset => true
  | .perstDeassert => true
  | .bootChain _ _ _ => true
  | .serviceReady _ _ => true
  | .bootBegin => true
  | .bootChunk buf _ => bufOk buf
  | .bootEnd => true
  | .authOpen => true
  | .authClose => true
  | .authExpiry => true
  | .takeOwnership => true
  | .releaseOwnership => true
  | .setPolicy => true
  | .setCert => true
  | .auditExport => true
  | .auditAck => true
  | .diagUnlock => true
  | .diagLock => true
  | .consentExpiry => true
  | .fuseProgram _ => true
  | .ship => true
  | .arm => true
  | .cancelInjection => true
  | .noOpportunity => true
  | .getVersion => true
  | .getCapabilities => true
  | .negotiateAlgorithms _ _ _ _ _ => true
  | .getDigests => true
  | .getCertificate _ _ _ => true
  | .challenge _ _ => true
  | .getMeasurements _ _ _ => true
  | .keyExchange _ _ => true
  | .finish _ _ => true
  | .heartbeat _ => true
  | .keyUpdate _ _ => true
  | .endSession _ => true
  | .setCertificate _ _ => true
  | .keyProg _ stream kset _ _ _ => streamOk stream && ksetOk kset
  | .kSetGo _ stream kset _ => streamOk stream && ksetOk kset
  | .kSetStop _ stream => streamOk stream
  | .smbDomainStatus => true
  | .smbPkgState => true
  | .smbTemperatures => true
  | .smbPower => true
  | .smbBootStatus => true
  | .smbFltStatus => true
  | .smbSerial => true
  | .smbRefresh => true
  | .linkTrained _ _ _ => true
  | .stbyPowerLoss => true
  | .pllRelock => true
  | .resyncDone stk => stackOk stk
  | .laneRepairDone ch => channelOk ch
  | .atsTranslationCompletion t e _ _ => tileOk t && engineOk e
  | .atsInvalidateRequest fn _ _ _ => fnOk fn
  | .configSpaceWrite fn _ _ => fnOk fn
  | .msixUnmask fn _ => fnOk fn
  | .doeDiscovery _ => true
  | .lockInterfaceRequest _ fn => fnOk fn
  | .startInterfaceRequest _ fn => fnOk fn
  | .stopInterfaceRequest _ fn => fnOk fn
  | .getDeviceInterfaceReport _ fn => fnOk fn
  | .smbUnsupportedCommand _ => true
  | .testControllerAccess _ => true

end Sys2Proof
end

