-- ==== Sys2Proof/Tests/Slice0.lean ====
section
/-! SUPPORT. The tests of the model. Expected values come from the spec's tables and worked examples, from published test vectors, or from
arithmetic by hand, as each test says. -/

open Sys2Proof Sys2Proof.Machine Sys2Proof.Claims

namespace Sys2Proof.Tests

set_option Elab.async false

/-- Well-formedness: one command inside and one outside each check. -/
theorem test_wf_fn : (Instr.kickAll 127).wf = true ∧ (Instr.kickAll 128).wf = false := by decide
theorem test_wf_ring : (Instr.kickRing 0 4095).wf = true ∧ (Instr.kickRing 0 4096).wf = false := by decide
theorem test_wf_cq : (Instr.cqWriteError 511).wf = true ∧ (Instr.cqWriteError 512).wf = false := by decide
theorem test_wf_tile : (Instr.alu 63).wf = true ∧ (Instr.alu 64).wf = false := by decide
theorem test_wf_engine : (Instr.seNop 0 1 0).wf = true ∧ (Instr.seNop 0 2 0).wf = false := by decide
theorem test_wf_cyc : (Instr.pushStallEnd 0 (2 ^ 40 - 1)).wf = true ∧ (Instr.pushStallEnd 0 (2 ^ 40)).wf = false := by decide
theorem test_wf_part : (Instr.bucketRelease 15 0).wf = true ∧ (Instr.bucketRelease 16 0).wf = false := by decide
theorem test_wf_channel : (Instr.calPause 959).wf = true ∧ (Instr.calPause 960).wf = false := by decide
theorem test_wf_stack : (Instr.resync 19).wf = true ∧ (Instr.resync 20).wf = false := by decide
theorem test_wf_zone : (Instr.mirrorZoneTemp 15 0).wf = true ∧ (Instr.mirrorZoneTemp 16 0).wf = false := by decide
theorem test_wf_position : (Instr.throttleCommand 71).wf = true ∧ (Instr.throttleCommand 72).wf = false := by decide
theorem test_wf_offset : (Instr.pairLoRead 0 0x1FFFFFF).wf = true ∧ (Instr.pairLoRead 0 0x2000000).wf = false := by decide
theorem test_wf_handle : (Instr.readinessCheck (2 ^ 64 - 1)).wf = true ∧ (Instr.readinessCheck (2 ^ 64)).wf = false := by decide
theorem test_wf_source : (Instr.replay 0 255 0).wf = true ∧ (Instr.replay 0 256 0).wf = false := by decide
theorem test_wf_buf : (Instr.bootChunk 1 1).wf = true ∧ (Instr.bootChunk 2 1).wf = false := by decide
theorem test_wf_stream : (Instr.kSetStop 0 7).wf = true ∧ (Instr.kSetStop 0 8).wf = false := by decide
theorem test_wf_kset : (Instr.kSetGo 0 0 1 true).wf = true ∧ (Instr.kSetGo 0 0 2 true).wf = false := by decide

/-- The state that a command leaves; the state itself where it leaves none. -/
def after (i : Instr) (s : State) : State :=
  match exec i s with
  | .next t => t
  | _ => s

/-- Register `d` of tile 0 after a command on the bench, where s1 = 5 and s2 = 9, and its program counter. -/
def regAfter (i : Instr) (w d : Nat) : Word64 := regOf (tileOf (after i (onTile (tileAt w))) 0) d
def pcAfter (i : Instr) (w : Nat) : Nat := (tileOf (after i (onTile (tileAt w))) 0).pc

/-- R130 by hand: immediates sign-extend, shifts take six bits, comparisons are signed or not. -/
theorem test_addi : regAfter (.addi 0) (cw 1 3 1 0x3FFE) 3 = 3 := by decide +kernel
theorem test_xori : regAfter (.xori 0) (cw 4 3 1 0x3FFF) 3 = 0xFFFFFFFFFFFFFFFA := by decide +kernel
theorem test_slli : regAfter (.slli 0) (cw 5 3 1 (64 + 63)) 3 = 0x8000000000000000 := by decide +kernel
theorem test_slti : regAfter (.slti 0) (cw 8 3 1 0x3FFF) 3 = 0 ∧ regAfter (.sltiu 0) (cw 9 3 1 0x3FFF) 3 = 1 := by decide +kernel
theorem test_alu_sub : regAfter (.alu 0) (cw 0 3 1 (2 * 256 + 1)) 3 = 0xFFFFFFFFFFFFFFFC := by decide +kernel
theorem test_alu_min : regAfter (.alu 0) (cw 0 1 1 (2 * 256 + 0x0C)) 1 = 5 ∧ regAfter (.alu 0) (cw 0 1 1 (2 * 256 + 0x0D)) 1 = 9 := by
  decide +kernel
theorem test_seth : regAfter (.seth 0) (0x0A * 2 ^ 26 + 1 * 2 ^ 20 + 3 * 2 ^ 18 + 0xBEEF) 1 = 0xBEEF000000000005 := by decide +kernel
theorem test_bfi : regAfter (.bfi 0) (0x0B * 2 ^ 26 + 2 * 2 ^ 20 + 1 * 2 ^ 14 + 4 * 2 ^ 8 + 4 * 4) 2 = 0x59 := by decide +kernel
theorem test_bfx : regAfter (.bfx 0) (0x0C * 2 ^ 26 + 3 * 2 ^ 20 + 2 * 2 ^ 14 + 3 * 2 ^ 8 + 2 * 4) 3 = 1 := by decide +kernel
theorem test_s0_discards : regAfter (.addi 0) (cw 1 0 1 1) 0 = 0 := by decide +kernel
theorem test_beq : pcAfter (.beq 0) (cw 0x18 1 1 3) = 12 ∧ pcAfter (.beq 0) (cw 0x18 1 2 3) = 4 := by decide +kernel
theorem test_jal : pcAfter (.jal 0) (0x1E * 2 ^ 26 + 3 * 2 ^ 20 + 0xFFFFF) = 2 ^ 64 - 4 ∧
    regAfter (.jal 0) (0x1E * 2 ^ 26 + 3 * 2 ^ 20 + 0xFFFFF) 3 = 4 := by decide +kernel
theorem test_jalr : pcAfter (.jalr 0) (cw 0x1F 3 2 2) = 8 := by decide +kernel

/-- R128: register 11 is not listed; GW is 2 on the bench. -/
theorem test_csrr : regAfter (.csrr 0) (cw 0x28 3 0 4) 3 = 2 ∧ regAfter (.csrr 0) (cw 0x28 3 0 11) 3 = 0 := by decide +kernel

/-- R130, R139: SEMS adds at the end of its cycle, SEMR reads. -/
theorem test_semr : regOf (tileOf (after (.semr 0) (onTile { tileAt (0x23 * 2 ^ 26 + 3 * 2 ^ 20 + 5 * 2 ^ 14) with sems := [(5, 200)] })) 0) 3 = 200 := by
  decide +kernel

/-- The worked example of file 03: the row 18, 1, 53 under q = 97, with the weights 99 and 53. -/
theorem test_mma_example :
    let p : Plane := { mode := 0, rows := [[3, 96, 0], [1, 2, 50]], moduli := [97, 97, 97], weights := [99, 53] }
    let x : Tile := { tile0 with spad := memAt 0x1000 (leBytes 4 5 ++ leBytes 4 100) }
    mulData p (BitVec.ofNat 256 (0x1000 * 2 ^ 134 + 2 ^ 49 + 2 * 2 ^ 41 + 3 * 2 ^ 34)) 0 x 0 = leBytes 4 18 ++ leBytes 4 1 ++ leBytes 4 53 ∧
      p.rows.map rowWeight = p.weights := by
  decide +kernel

/-- The worked example of file 02 on key expansion: element 1,342,192,274 under Q = 0x7800_0001, 15,004 for a Z/2^32 torus key, and the
kind word of a rotation key for k = 5. -/
theorem test_key_element_example :
    let p : Pset := { keySet9 with logN := 16, primes := [(0x78000001, 1, 31)] }
    keyElem p (leBytes 5 0 ++ [2]) 0 (leNat [0x9C, 0x3A, 0, 0, 5, 0, 0, 0]) = 1342192274 ∧
      keyElem { p with scheme := 5 } (leBytes 5 0 ++ [5]) 0 (leNat [0x9C, 0x3A, 0, 0, 5, 0, 0, 0]) = 15004 ∧
      kindWord p (leBytes 5 0 ++ [2] ++ leBytes 18 0 ++ leBytes 4 5) = 0x502 := by
  decide +kernel

/-- The worked example of file 02 on budgets: 176, 160, and an exhausted product, refused under STRICT. -/
def budgetHdr (budget flags : Nat) : List Byte := leBytes 5 0 ++ [3] ++ leBytes 2 flags ++ leBytes 20 0 ++ leBytes 2 budget ++ leBytes 34 0
theorem test_budget_example :
    destBudget 480 { decl 0 3 0 3 0 with dec := 424 } [budgetHdr 640 1, budgetHdr 600 1] = some (176, false, false) ∧
      destBudget 480 { decl 0 3 0 1 0 with dec := 16 } [budgetHdr 176 1] = some (160, false, false) ∧
      destBudget 480 { decl 0 3 0 3 0 with dec := 424 } [budgetHdr 160 1, budgetHdr 300 1] = some (0, true, false) ∧
      destBudget 480 { decl 0 3 0 3 0 with dec := 424 } [budgetHdr 160 1, budgetHdr 300 5] = none := by
  decide +kernel

/-- The table of file 06: hops before and after tile 27 moves to P67. -/
theorem test_hops_example :
    hops 26 27 = 1 ∧ hops 26 67 = 6 ∧ hops 35 67 = 4 ∧ hops 19 67 = 6 ∧ hops 0 27 = 6 ∧ hops 0 67 = 11 ∧
      chooseSpare State.reset 27 = some 67 := by
  decide +kernel

/-- The example of file 15: MEM_CAPACITY reads 0x0000_0000 and then the held 0x0000_013B. -/
theorem test_capacity_pair :
    let s := { State.reset with clk := { clk0 with run := 255 } }
    let t := after (.pairLoRead 0 0x300010) s
    t.out.read = some 0 ∧ (after (.pairHiRead 0 0x300014) t).out.read = some 0x13B := by
  decide +kernel

/-- CRC-32C of "123456789", the check value of the published algorithm (R42). -/
theorem test_crc32c : crc32c [0x31, 0x32, 0x33, 0x34, 0x35, 0x36, 0x37, 0x38, 0x39] = 0xE3069283 := by decide +kernel

/-- SHA-256 of "abc" and SHAKE-128 of nothing, as published (R49 to R52, R378). -/
theorem test_sha256 : sha256 [0x61, 0x62, 0x63] = beBytes 32 0xBA7816BF8F01CFEA414140DE5DAE2223B00361A396177A9CB410FF61F20015AD := by
  decide +kernel
theorem test_shake128 : shake128 8 [] = beBytes 8 0x7F9C2BA4E88F827D := by decide +kernel

/-- The AES-256 vector of FIPS 197 (R52). -/
theorem test_aes256 :
    aesBlockWith aesSbox (aesKeys aesSbox ((List.range 32).map (BitVec.ofNat 8))) (beBytes 16 0x00112233445566778899AABBCCDDEEFF) =
      beBytes 16 0x8EA2B7CA516745BFEAFC49904B496089 := by
  decide +kernel

/-- A KICK_RING of an enabled ring asks for its record and its completion ring's (R277). -/
theorem test_kick :
    let s := hostWith { page3 with fetching := false, fetchSq := [], fetchCq := [] } sq3 cq2
    let t := after (.kickRing 0 3) s
    (pageOf t 0).fetchSq = [3] ∧ (pageOf t 0).fetchCq = [2] := by
  decide +kernel

/-- A FENCE without dependencies is accepted: E rises, the ACCEPT entry has KIND 1 and PHASE 0 in the second pass (R279, R282, R285,
R287). -/
theorem test_accept_fence :
    let t := after (.fence 0 3 (sd 5 []) none) (accepting sq3 cq2)
    (sqOf t 3).expect = 6 ∧ t.ts.entries.length = 1 ∧ (cqOf t 2).next = 71 ∧ (cqOf t 2).reserved = 2 ∧
      t.out.host.rd (0x100000 + 32 * 6) = 1 ∧ t.out.host.rd (0x100000 + 32 * 6 + 1) = 0 := by
  decide +kernel

/-- A query of a ring that is not held answers at once (R297): its COMPLETE entry follows the ACCEPT entry. -/
theorem test_query_completes :
    let t := after (.query 0 3 (sd 7 [(0x48, 3 * 2 ^ 52 + 4)]) none) (accepting sq3 cq2)
    t.ts.entries = [] ∧ (cqOf t 2).next = 72 ∧ t.out.host.rd (0x100000 + 32 * 7) = 2 := by
  decide +kernel

/-- A detection of power above 1.1 × POWER_W takes the fast step at once (R420). -/
theorem test_fast_step :
    (after (.powerSample 2000 1800) { State.reset with clk := { clk0 with run := 255, mainUp := true } }).clk.fastStep = 1 := by
  decide +kernel

/-- Cold reset returns to BOOT with main power and keeps POWER_W (R400, R418). -/
theorem test_cold_reset :
    (after .coldReset { State.reset with clk := { clk0 with run := 255, mainUp := true, pkg := 4, powerW := 900 } }).clk.pkg = 2 := by
  decide +kernel

end Sys2Proof.Tests
end

