-- ==== Sys2Proof/Tests/WitnessTrust.lean ====
section
/-! SUPPORT. For the statements about signed commands, the audit log and bundles: states and operands that meet the hypotheses. The
signatures were made outside Lean with the key of modulus 2^3071 + 7755 and exponent 3, a salt of 32 zero bytes, and the published PSS. -/

open Sys2Proof Sys2Proof.Machine Sys2Proof.Claims

namespace Sys2Proof.Tests

set_option Elab.async false

theorem rdN_eq_map (m : Mem) (a n : Nat) : m.rdN a n = (List.range n).map (fun i => m.rd (a + i)) := by
  induction n generalizing a with
  | zero => rfl
  | succ k ih =>
    rw [Mem.rdN, ih, List.range_succ_eq_map, List.map_cons, List.map_map]
    simp [Function.comp_def, Nat.add_assoc, Nat.add_comm 1]

/-- A string stands where it was put, zeros after it. -/
theorem rdN_memAt (a n : Nat) (l : List Byte) (h : l.length ≤ n) : (memAt a l).rdN a n = l ++ List.replicate (n - l.length) 0 := by
  rw [rdN_eq_map]
  apply List.ext_getElem
  · simp; omega
  intro i h1 h2
  simp only [List.getElem_map, List.getElem_range]
  by_cases hi : i < l.length
  · rw [memAt, Mem.rd_wrN_inside [] a i l rfl hi, List.getElem_append_left hi]
    simp [hi]
  · rw [memAt, Mem.rd_wrN_outside [] a (a + i) l (by omega), List.getElem_append_right (by omega)]
    simp [Mem.rd]

@[simp] theorem leBytes_length (n x : Nat) : (leBytes n x).length = n := by
  induction n generalizing x with
  | zero => rfl
  | succ k ih => simp [leBytes, ih]

@[simp] theorem beBytes_length (n x : Nat) : (beBytes n x).length = n := by simp [beBytes]

/-- The installer's key. -/
def key3 : RsaPub := { modulus := 2 ^ 3071 + 7755, exponent := 3 }

/-- The signatures of the blobs and of the firmware header, eight words of 384 bits each, highest first. -/
def sigOpen : List Nat :=
   [0x00c5643eae7f3a729c5e6e0d744154fb381c0d178be5a018d4200b11943e765936d835e23017aa6274589d3ca79850bb,
    0x57bab1bd7af527472418095fd228fa39fa1f961db6bc357da71499ab298506aa2ddbee75f95b7543cae2237496a688f1,
    0xf4dad2b5398e50501364bb9d61cd69f4b5e00266097a417845eb35b4e29fc170cc5e9737ea42b31377f1710a03e15090,
    0x76642c20a5b9356587b8a3183b08d7e001dcb7355223dfc9cd0cfacba9b09fe0784a3a4f3b9a2b75599eb4f0688827e5,
    0xc0e081f2b52f42b4874d1e7209122b4ce2e92b86f816d9131e24fc54752a029c997553a2ba9ac48585b0b95dbbbe3d30,
    0xad4b9f94bfb4a70548b73595ee1f4f1b545362a92c42278ac25ae30b2f91de9e5b82b9f15f8d3e0a04cb0c1a57e1cae0,
    0xce220f766a89f9ac7b4cb4a13e63fb033b41df69dff59f1e6cd50613ffeec9c399caaf2440ad0251dbd20731dc2e4e88,
    0x47db45e7c1a6e8f8e7b39017b1e3df462e812c46e0bb72b538cd587cf02e0d3f349174d5312d24c6008ca70c294fcd9d]
def sigAck : List Nat :=
   [0x65eadc92c883413d13dd5588bfddcf933e1b6ede18a0bc79d3956c227ef4684f1beedf5de60b7d5a3d5a10865272fe8b,
    0x47dd874a0afd36c5607074af2622e56045a460fbf60f1d6e4c99cded0a4bf20ce4219a1d860619f157c7e92af06ea065,
    0xd15c188c31c2c9640d989d32a9319b9c09f7d1cc3c47ded264e7c3f6db431cb4ee5aeb5f53065a284836cdf0f223160d,
    0x47f6de615d88e635884abea6540928b9c14cd40412734200bcc7ee980290f177ba6b77887b72b856e33c1976f4e7dfbd,
    0x842dac739181df2a292ee296c4497465803b547158b65ccfedab976690081166297d925fb6d95957948c5b6f333a7329,
    0x04a42f27b9e0ef56d3a16196ce50519851134c49bea1d3d9f9adf1c38f4d1b992a0e90d92578581298bbf81928c5764a,
    0x5077c5997617d9f62de296d32332cb120284f809e250da040054758ac921eeda0f218ec179f6aa93669c9d38773ed845,
    0x2a0aa7636be2fb017945ff9629015e634255731b72e64cc380358f5614b5832cdb5a256f63a6735da846d3b9571d3f82]

def sigExport : List Nat :=
   [0x449dcb5f9e29080de02e3b13f4a28fe1b2d84b6cfb1f30dd66e4463c1c906d50333d6b7dbcbea80bd1684c3f32884579,
    0x2b21f9b77df93664822ca882b0a19bf70c581a3466f5f3d94eeb4e902901af133624f3668138108542f4523b432928c4,
    0xfbcdd322e443d507fb267b2d05b8834e3d59f4b45d84727bc6322af407bdb3870c0ea21e8c887656ebc72d24f11f55e1,
    0x85fe7f94708b32da42f2b983cfe91dfbf3fc64062d3394d65be928cd0294380f43bc58b21264edeb38f7c878ed0a019f,
    0x34cef6237cc4ddc3c3d170d45da4e3e664f0e6fb2ff70f31caeffdea826230728c97ad5ce39c5321a278de0e81ce504e,
    0xb65cb277b974fdcfcc7c463846b9600badd41dd957da210ca1597d238a2e506e3f59821aa42d73db2a6e448f7cb5f12b,
    0xceccd26612df8e6107a4452f14995025f8afc08e043a44f582141a13d66884a88a4f8b52e10cd495784a6da1ca666a20,
    0x7144746282d86f522eda99aca559d70c92dd3ec8af287fd841a14ca454c1f588101cb13dbcd58a28038c7e2865a16daf]
def sigLock : List Nat :=
   [0x21988b123af1ca75cc1b78afc8cb33cf92c8991a2d2efa0ccc8b43e3ccc0de828ccdc01643deea3709e3edf277668391,
    0x998952daac53ec48c7aad05b1484108534b63a75390090ac50417b900f4dd1b2f6da27cb6b529a15f5e42183bb3c33bb,
    0x5cb4408413e08d12131555c426beabe20f993fead8039da7b182b2689690bdac44470ab55ca2b84b46ef500093575c4e,
    0xa2e4f7aaf903eebbb3b2f3697a17037138586fc56b3b785a55c1a7e4bc034ce76f6e93a059ca4aa03bc93a4695edac34,
    0xddd4cfd100126eda4e91cba5f4dc17fe1474d380063ce41987633b22a5ff481ad2caa2ca28bc3028301e55f4cd96e356,
    0xe8ac7b780113907e04ec7cac36ed3d32de2144b2cac1e472da1ac00a2569ab31f24172f90c2176caa15e227a5045d95c,
    0x298f88d3737bc2f6f4fc3a0e811f6b3a6a7be5f6ce984295848cab6c07efd22763d3c58a63683ec79cc4c31e4a667d27,
    0x8a4056bfe8b495bc1ded7afe52e5c1a19d2c8d93a3e8c5cf070df53eb090cd12ad690d8ddee1926025d969b2b96280a7]
def sigFirmware : List Nat :=
   [0x16f42a4c8b5897ae3a84dc38735c9970aef7b7c19b34c6b8bea3e4892462f04ee4f6757554067503c2f57273afbc256b,
    0x177d717163eb99afe50402edd33a414b8e4736b0097a6f554ff0d09f3017c981dcaad396138f398fa7b4056423e1e955,
    0x4c081cfe4f8f9098270fd7860b00c9828a02d3e0e509c1c91c686497f74c0835b2621d8441e04bad783ebff0cdcbf734,
    0x33cb5435e2d02f9400b73304be2a3e713ec003627294f99f7e10425b53824608049557473bdd4dd2c8ab1f17f3949f43,
    0x6ceba61d9324e14253779f078751103bc792c22f91e994603cdfa3720248c8383899ee1c2f891cbe1f93d37fe2f5b71a,
    0x3576e1928173d10724a9fa8f1d9b257db1247f98f90f2616c01839cec1b3293f64888e4d1872e9779b936c66d5452ea2,
    0x4c47d3e3b27051ecee77bfce363bfc2a15e980da12f54a4b27836e3c312a3c1aad2c3b851b51b5e51dd072301470875f,
    0x941c4fb3362ff12ea07b4c0e57f46c344287e538c9f298249c8ad596cf5b25673ae281caac9b74f4216854ab1ee0e29f]

/-- A blob for boot 0 of device 77 with a zero nonce, and one with its signature. -/
def blobUnsigned (role code : Nat) (params : List Byte) : List Byte :=
  leBytes 4 0x43494749 ++ leBytes 1 1 ++ leBytes 1 role ++ leBytes 2 code ++ leBytes 4 (448 + params.length) ++ leBytes 4 0 ++ leBytes 8 77 ++
    List.replicate 40 0 ++ params
def blobWith (role code : Nat) (params : List Byte) (sig : List Nat) : List Byte :=
  blobUnsigned role code params ++ beBytes 384 (sig.foldl (fun n w => n * 2 ^ 384 + w) 0)
def blobOpen : List Byte := blobWith 1 0x0001 (leBytes 4 60) sigOpen
def blobAck : List Byte := blobWith 1 0x0031 (leBytes 8 1) sigAck

def blobExport : List Byte := blobWith 1 0x0030 (leBytes 8 0 ++ leBytes 4 1) sigExport
def blobLock : List Byte := blobWith 1 0x0041 [] sigLock

/-- A device that serves commands, the blob on the last page of BAR2. -/
def trusted (life : Nat) (b : List Byte) : State :=
  { State.reset with clk := { clk0 with run := 255 }, time := 5000000000,
                     mgt := { mgt0 with fuses := { mgt0.fuses with serial := 77 }, owner := some key3, lifecycle := life,
                                        nonce := List.replicate 32 0, cmdPage := 0xFF000, bar2 := memAt 0xFF000 b, auditNext := 3 } }

theorem blob_in_place (life : Nat) (b : List Byte) (h : b.length ≤ 4096) :
    blobBytes (trusted life b) = b ++ List.replicate (4096 - b.length) 0 := by
  have e : Nat.min 65536 (0x100000 - 0xFF000) = 4096 := by decide
  show (memAt 0xFF000 b).rdN 0xFF000 (Nat.min 65536 (0x100000 - 0xFF000)) = _
  rw [e, rdN_memAt 0xFF000 4096 b h]

theorem blobOpen_length : blobOpen.length = 452 := by
  simp only [blobOpen, blobWith, blobUnsigned, List.length_append, leBytes_length, beBytes_length, List.length_replicate]
theorem blobAck_length : blobAck.length = 456 := by
  simp only [blobAck, blobWith, blobUnsigned, List.length_append, leBytes_length, beBytes_length, List.length_replicate]

theorem blobExport_length : blobExport.length = 460 := by
  simp only [blobExport, blobWith, blobUnsigned, List.length_append, leBytes_length, beBytes_length, List.length_replicate]
theorem blobLock_length : blobLock.length = 448 := by
  simp only [blobLock, blobWith, blobUnsigned, List.length_append, leBytes_length, beBytes_length, List.length_replicate, List.length_nil]

theorem signed_pass_audit :
    blobResult (trusted 2 blobExport) (blobExport ++ List.replicate 3636 0) true = 0 ∧
      blobResult (trusted 2 blobLock) (blobLock ++ List.replicate 3648 0) true = 0 := by
  decide +kernel

theorem signed_pass :
    blobResult (trusted 2 blobOpen) (blobOpen ++ List.replicate 3644 0) true = 0 ∧
      blobResult (trusted 2 blobAck) (blobAck ++ List.replicate 3640 0) true = 0 := by
  decide +kernel

theorem witness_SignedCommands :
    blobServed (trusted 2 blobOpen) (blCode (blobNow (trusted 2 blobOpen))) = true ∧ blobResult (trusted 2 blobOpen) (blobNow (trusted 2 blobOpen)) true = 0 := by
  change blobServed _ (blCode (blobBytes _)) = true ∧ blobResult _ (blobBytes _) true = 0
  rw [blob_in_place 2 blobOpen (by rw [blobOpen_length]; decide), blobOpen_length]
  exact ⟨by decide +kernel, signed_pass.1⟩

/-- The rows of the commands with their codes. -/
def codes : List (Nat × String) :=
  [(0x0001, "AUTH_OPEN"), (0x0002, "AUTH_CLOSE"), (0x0010, "TAKE_OWNERSHIP"), (0x0011, "RELEASE_OWNERSHIP"), (0x0020, "SET_POLICY"),
   (0x0021, "SET_CERT"), (0x0030, "AUDIT_EXPORT"), (0x0031, "AUDIT_ACK"), (0x0040, "DIAG_UNLOCK"), (0x0041, "DIAG_LOCK"),
   (0x0050, "FUSE_PROGRAM"), (0x0051, "SHIP")]

theorem witness_SignedCommands_rows :
    ∀ p ∈ codes, let s := trusted 2 (blobUnsigned 3 p.1 []);
      blobServed s (blCode (blobNow s)) = true ∧ blobRow (blCode (blobNow s)) = p.2 ∧ blobResult s (blobNow s) true = 4 := by
  decide +kernel

theorem witness_SignedCommands_expiry :
    let s := { trusted 2 [] with mgt := { (trusted 2 []).mgt with context := some 4000000000 } }
    s.mgt.context = some 4000000000 ∧ 4000000000 ≤ s.time := by
  decide +kernel

theorem witness_AuditAndDiagnosis :
    blobServed (trusted 2 blobAck) (blCode (blobNow (trusted 2 blobAck))) = true ∧ blobResult (trusted 2 blobAck) (blobNow (trusted 2 blobAck)) true = 0 := by
  change blobServed _ (blCode (blobBytes _)) = true ∧ blobResult _ (blobBytes _) true = 0
  rw [blob_in_place 2 blobAck (by rw [blobAck_length]; decide), blobAck_length]
  exact ⟨by decide +kernel, signed_pass.2⟩

theorem witness_AuditAndDiagnosis_export :
    (blCode (blobNow (trusted 2 blobExport)) = 0x0030 ∧ blobResult (trusted 2 blobExport) (blobNow (trusted 2 blobExport)) true = 0) ∧
      blCode (blobNow (trusted 2 blobLock)) = 0x0041 ∧ blobResult (trusted 2 blobLock) (blobNow (trusted 2 blobLock)) true = 0 := by
  change (blCode (blobBytes _) = 0x0030 ∧ blobResult _ (blobBytes _) true = 0) ∧
    blCode (blobBytes _) = 0x0041 ∧ blobResult _ (blobBytes _) true = 0
  rw [blob_in_place 2 blobExport (by rw [blobExport_length]; decide), blobExport_length, blob_in_place 2 blobLock (by rw [blobLock_length]; decide),
    blobLock_length]
  exact ⟨⟨by decide +kernel, signed_pass_audit.1⟩, by decide +kernel, signed_pass_audit.2⟩

/-- The header area of an image of two pages, signed with the same key, in the boot buffer of PF0 at its first push. -/
def fwHeader : List Byte :=
  leBytes 4 0x57464749 ++ leBytes 4 1 ++ leBytes 4 3 ++ leBytes 4 0x0102 ++ leBytes 8 8192 ++ leBytes 4 1 ++ leBytes 4 0 ++
    leBytes 32 0xa72c89488bbdda857a7cb47cff05584f026bd1d1d704c066e9c66f58b2ac7fad ++ List.replicate 192 0 ++
    (beBytes 384 (2 ^ 3071 + 7755) ++ beBytes 4 3 ++ List.replicate 124 0) ++ beBytes 384 (sigFirmware.foldl (fun n w => n * 2 ^ 384 + w) 0)
def pushingFw : State :=
  let s := booting 3 true (some (pushed2 [] 0))
  { s with mgt := { s.mgt with fuses := { s.mgt.fuses with keyHash := [sha256 (beBytes 384 (2 ^ 3071 + 7755) ++ beBytes 4 3)] },
                               bar2 := memAt 0 fwHeader } }

theorem fwHeader_length : fwHeader.length = 1152 := by
  simp only [fwHeader, List.length_append, leBytes_length, beBytes_length, List.length_replicate]

theorem fwHeader_passes : fwHeaderOk pushingFw (fwHeader ++ List.replicate 2944 0) = true ∧ fwLength (fwHeader ++ List.replicate 2944 0) = 8192 := by
  decide +kernel

theorem witness_BootAndService_chunk :
    pushServed pushingFw = true ∧ pushingFw.mgt.push = some (pushed2 [] 0) ∧
      fwHeaderOk pushingFw ((pushingFw.mgt.bar2.rdN 0 4096).take 4096) = true ∧ fwLength ((pushingFw.mgt.bar2.rdN 0 4096).take 4096) = 8192 := by
  have h : (pushingFw.mgt.bar2.rdN 0 4096).take 4096 = fwHeader ++ List.replicate 2944 0 := by
    have hb : pushingFw.mgt.bar2 = memAt 0 fwHeader := by simp only [pushingFw]
    have hn : 4096 - fwHeader.length = 2944 := by rw [fwHeader_length]
    have hl : (fwHeader ++ List.replicate 2944 (0 : Byte)).length ≤ 4096 := by
      rw [List.length_append, fwHeader_length, List.length_replicate]
    rw [hb, rdN_memAt 0 4096 fwHeader (by rw [fwHeader_length]; decide), hn, List.take_of_length_le hl]
  exact ⟨by decide +kernel, rfl, by rw [h]; exact fwHeader_passes.1, by rw [h]; exact fwHeader_passes.2⟩

theorem witness_AuditAndDiagnosis_room :
    ([1, 2, 3] : List Byte).length ≤ 32 ∧
    (∀ code ∈ [0x0001, 0x0031], let s := trusted 2 (leBytes 4 0x43494749 ++ leBytes 1 2 ++ leBytes 1 1 ++ leBytes 2 code);
      blobServed s code = true ∧ blCode (blobNow s) = code ∧ blobResult s (blobNow s) true = 2) ∧
    (let s := { trusted 2 [] with mgt := { (trusted 2 []).mgt with diag := some { scope := 1, expiry := 5 } } };
      s.mgt.diag = some { scope := 1, expiry := 5 } ∧ 1000000000 * 5 ≤ s.time) := by
  decide +kernel

end Sys2Proof.Tests
end

/-! SUPPORT. Facts about byte strings, bit fields, digests, sparse tables and free bytes that proofs about several commands need. -/

namespace Sys2Proof.Proofs

open Sys2Proof Sys2Proof.Machine

/-! Bytes and words (R5, R6). -/

theorem length_leBytes (n x : Nat) : (leBytes n x).length = n := by
  induction n generalizing x with
  | zero => rfl
  | succ k ih => simp only [leBytes, List.length_cons, ih]

theorem length_beBytes (n x : Nat) : (beBytes n x).length = n := by simp only [beBytes, List.length_reverse, length_leBytes]

/-- A part of a string that begins past its first piece is a part of the rest. -/
theorem sub_append_skip {a : List Byte} (l : List Byte) {o : Nat} (n : Nat) (h : a.length ≤ o) :
    sub (a ++ l) o n = sub l (o - a.length) n := by
  rw [sub, sub, List.drop_append, List.drop_of_length_le h, List.nil_append]

/-- The part of a string that its first piece fills is that piece. -/
theorem sub_append_here {m : List Byte} (l : List Byte) {n : Nat} (h : m.length = n) : sub (m ++ l) 0 n = m := by
  rw [sub, List.drop_zero, List.take_left' h]

theorem leBytes_add (m n x : Nat) : leBytes (m + n) x = leBytes m x ++ leBytes n (x / 256 ^ m) := by
  induction m generalizing x with
  | zero => simp [leBytes]
  | succ m ih => rw [Nat.succ_add, leBytes, leBytes, ih, List.cons_append, Nat.div_div_eq_div_mul, Nat.pow_succ']

theorem leNat_leBytes (n x : Nat) : leNat (leBytes n x) = x % 256 ^ n := by
  induction n generalizing x with
  | zero => simp [leBytes, leNat, Nat.mod_one]
  | succ n ih =>
    have split := Nat.mod_mul (x := x) (a := 256) (b := 256 ^ n)
    rw [← Nat.pow_succ'] at split
    rw [leBytes, leNat, ih, BitVec.toNat_ofNat, split]

theorem leNat_lt (l : List Byte) : leNat l < 256 ^ l.length := by
  induction l with
  | nil => simp [leNat]
  | cons b l ih =>
    have := b.isLt
    rw [leNat, List.length_cons, Nat.pow_succ']
    omega

theorem wordOf_toNat {l : List Byte} (h : l.length = 4) : (wordOf l).toNat = leNat l := by
  have small : leNat l < 2 ^ 32 := by simpa only [h, Nat.reducePow] using leNat_lt l
  rw [wordOf, BitVec.toNat_ofNat, Nat.mod_eq_of_lt small]

theorem wordOf_leBytes (x : Nat) : wordOf (leBytes 4 x) = BitVec.ofNat 32 x := by
  apply BitVec.eq_of_toNat_eq
  simp only [wordOf_toNat (length_leBytes ..), leNat_leBytes, BitVec.toNat_ofNat, Nat.reducePow]

/-- The two halves of a 64-bit value. -/
theorem ofNat_append (x : Nat) : BitVec.ofNat 32 (x / 2 ^ 32) ++ BitVec.ofNat 32 x = BitVec.ofNat 64 x := by
  apply BitVec.eq_of_toNat_eq
  have low : x % 2 ^ 32 < 2 ^ 32 := Nat.mod_lt _ (by decide)
  rw [BitVec.toNat_append, BitVec.toNat_ofNat, BitVec.toNat_ofNat, BitVec.toNat_ofNat, ← Nat.shiftLeft_add_eq_or_of_lt low, Nat.shiftLeft_eq]
  omega

theorem setWidth_ofNat_32 (x : Nat) : (BitVec.ofNat 32 x).setWidth 64 = BitVec.ofNat 64 (x % 2 ^ 32) := by
  apply BitVec.eq_of_toNat_eq
  simp only [BitVec.toNat_setWidth, BitVec.toNat_ofNat]

theorem ofNat_low (v : BitVec 64) : BitVec.ofNat 32 v.toNat = v.setWidth 32 := by
  apply BitVec.eq_of_toNat_eq
  simp only [BitVec.toNat_setWidth, BitVec.toNat_ofNat]

theorem ofNat_high (v : BitVec 64) : BitVec.ofNat 32 (v.toNat / 2 ^ 32) = (v >>> 32).setWidth 32 := by
  apply BitVec.eq_of_toNat_eq
  simp only [BitVec.toNat_setWidth, BitVec.toNat_ofNat, BitVec.toNat_ushiftRight, Nat.shiftRight_eq_div_pow]

theorem fld_zero (x n : Nat) : fld x 0 n = x % 2 ^ n := by rw [fld, Nat.shiftRight_zero]

theorem fld_shifted (x lo n : Nat) : fld x lo n <<< lo = x / 2 ^ lo % 2 ^ n * 2 ^ lo := by
  rw [fld, Nat.shiftRight_eq_div_pow, Nat.shiftLeft_eq]

/-! Bits of a word that ones clear (R11, R12). -/

theorem w1c_div_two (x y : Nat) : w1c x y / 2 = w1c (x / 2) (y / 2) := by
  have high : (x &&& y) / 2 = x / 2 &&& y / 2 := Nat.and_div_two
  have low : (x &&& y) % 2 = 1 ↔ x % 2 = 1 ∧ y % 2 = 1 := Nat.and_mod_two_eq_one
  unfold w1c
  omega

theorem w1c_mod_two (x y : Nat) : w1c x y % 2 = 1 ↔ x % 2 = 1 ∧ ¬ y % 2 = 1 := by
  have le : x &&& y ≤ x := Nat.and_le_left
  have low : (x &&& y) % 2 = 1 ↔ x % 2 = 1 ∧ y % 2 = 1 := Nat.and_mod_two_eq_one
  unfold w1c
  omega

/-- A write of ones to an event register clears the bits they stand at, of zeros nothing. -/
theorem testBit_w1c (x y b : Nat) : (w1c x y).testBit b = (x.testBit b && !y.testBit b) := by
  induction b generalizing x y with
  | zero =>
    simp only [Nat.testBit_zero, w1c_mod_two, Bool.decide_and, decide_not]
  | succ b ih => rw [Nat.testBit_succ, Nat.testBit_succ, Nat.testBit_succ, w1c_div_two, ih]

/-! The length of a SHA-256 digest. -/

theorem primes80_length : primes80.length = 80 := by decide +kernel

theorem sha2P256_iv_length : sha2P256.iv.length = 8 := by
  simp only [sha2P256, List.length_map, List.length_take, primes80_length]; rfl

theorem shaRound_length (p : Sha2) (v : List Nat) (kw : Nat × Nat) : (shaRound p v kw).length = v.length := by
  unfold shaRound
  split <;> rfl

theorem shaRounds_length (p : Sha2) (l : List (Nat × Nat)) (v : List Nat) : (l.foldl (shaRound p) v).length = v.length := by
  induction l generalizing v with
  | nil => rfl
  | cons kw l ih => rw [List.foldl_cons, ih, shaRound_length]

theorem shaBlock_length (p : Sha2) (h : List Nat) (block : List Byte) : (shaBlock p h block).length = h.length := by
  simp only [shaBlock, List.length_map, List.length_zip, shaRounds_length, Nat.min_self]

theorem shaBlocks_length (p : Sha2) (l : List (List Byte)) (h : List Nat) : (l.foldl (shaBlock p) h).length = h.length := by
  induction l generalizing h with
  | nil => rfl
  | cons block l ih => rw [List.foldl_cons, ih, shaBlock_length]

theorem flatten_beBytes_length (n : Nat) (l : List Nat) : (l.map (beBytes n)).flatten.length = n * l.length := by
  induction l with
  | nil => rfl
  | cons x l ih => simp only [List.map_cons, List.flatten_cons, List.length_append, length_beBytes, ih, List.length_cons, Nat.mul_succ, Nat.add_comm]

theorem sha256_length (m : List Byte) : (sha256 m).length = 32 := by
  simp only [sha256, sha2, List.length_take, flatten_beBytes_length, shaBlocks_length, sha2P256_iv_length]
  rfl

/-! Entries of a sparse table, and free bytes. -/

theorem Tbl.mem_of_find {α : Type} {t : Tbl α} {k : Nat} {v : α} (h : t.find k = some v) : (k, v) ∈ t := by
  induction t with
  | nil => cases h
  | cons p r ih =>
    obtain ⟨j, w⟩ := p
    by_cases e : j = k
    · simp only [Tbl.find, e, if_true, Option.some.injEq] at h
      simp [e, h]
    · simp only [Tbl.find, e, if_false] at h
      exact List.mem_cons_of_mem _ (ih h)

theorem Tbl.mem_put {α : Type} {t : Tbl α} {k : Nat} {v : α} {p : Nat × α} (h : p ∈ t.put k v) : p = (k, v) ∨ p ∈ t := by
  induction t with
  | nil => exact .inl (by simpa [Tbl.put] using h)
  | cons q r ih =>
    obtain ⟨j, w⟩ := q
    simp only [Tbl.put] at h
    split_ifs at h with below here
    · exact List.mem_cons.mp h
    · exact (List.mem_cons.mp h).imp_right (List.mem_cons_of_mem _)
    · rcases List.mem_cons.mp h with e | h
      · exact .inr (e ▸ List.mem_cons_self)
      · exact (ih h).imp_right (List.mem_cons_of_mem _)

theorem drawBytes_length (s : State) (n : Nat) : (drawBytes s n).1.length = n := by simp [drawBytes, freeBytes]

end Sys2Proof.Proofs

/-! O50: the records of the audit log, the course of a signed command, AUDIT_EXPORT, AUDIT_ACK and diagnostic unlock (R375 to R381). -/

namespace Sys2Proof.Proofs

open Sys2Proof Sys2Proof.Machine

/-! One record (R378, R379). -/

/-- The 96 bytes of a record that its hash covers (R378, R379). -/
def auditBody (s : State) (actor result action subject : Nat) (value key : List Byte) : List Byte :=
  leBytes 8 s.mgt.auditNext ++ leBytes 8 s.time ++ leBytes 4 s.mgt.bootCount ++ leBytes 1 actor ++ leBytes 1 result ++ leBytes 2 action ++
    leBytes 8 subject ++ (value ++ List.replicate (32 - value.length) 0).take 32 ++ (key ++ List.replicate (8 - key.length) 0).take 8 ++
    List.replicate 24 0

/-- The record that `audit` appends: its body and its link in the hash chain. -/
def auditRecord (s : State) (actor result action subject : Nat) (value key : List Byte) : List Byte :=
  auditBody s actor result action subject value key ++ sha256 (auditHead s ++ auditBody s actor result action subject value key)

section
variable (s : State) (actor result action subject : Nat) (value key : List Byte)

theorem auditBody_length : (auditBody s actor result action subject value key).length = 96 := by
  simp only [auditBody, List.length_append, length_leBytes, List.length_take, List.length_replicate]
  omega

theorem auditRecord_length : (auditRecord s actor result action subject value key).length = 128 := by
  simp only [auditRecord, List.length_append, auditBody_length, sha256_length]

theorem take_auditRecord : (auditRecord s actor result action subject value key).take 96 = auditBody s actor result action subject value key :=
  List.take_left' (auditBody_length ..)

theorem drop_auditRecord : (auditRecord s actor result action subject value key).drop 96 =
    sha256 (auditHead s ++ auditBody s actor result action subject value key) :=
  List.drop_left' (auditBody_length ..)

theorem audit_eq : audit s actor result action subject value key =
    { s with mgt := { s.mgt with records := s.mgt.records.put (s.mgt.auditNext % 65536) (auditRecord s actor result action subject value key),
                                 auditNext := s.mgt.auditNext + 1,
                                 head := (auditRecord s actor result action subject value key).drop 96 } } := by
  rw [drop_auditRecord]; rfl

/-- A record as the fields of R378, in their order. -/
theorem auditRecord_fields (hv : value.length ≤ 32) : ∃ c, auditRecord s actor result action subject value key =
    leBytes 8 s.mgt.auditNext ++ (leBytes 8 s.time ++ (leBytes 4 s.mgt.bootCount ++
      ((leBytes 1 actor ++ leBytes 1 result ++ leBytes 2 action) ++ (leBytes 8 subject ++
        ((value ++ List.replicate (32 - value.length) 0) ++ c))))) := by
  have hv' : (value ++ List.replicate (32 - value.length) (0 : Byte)).length ≤ 32 := by
    rw [List.length_append, List.length_replicate]; omega
  refine ⟨(key ++ List.replicate (8 - key.length) 0).take 8 ++ (List.replicate 24 0 ++
    sha256 (auditHead s ++ auditBody s actor result action subject value key)), ?_⟩
  rw [auditRecord]
  conv_lhs => enter [1]; rw [auditBody, List.take_of_length_le hv']
  simp only [List.append_assoc]

theorem auditRecord_take_8 : (auditRecord s actor result action subject value key).take 8 = leBytes 8 s.mgt.auditNext := by
  simp only [auditRecord, auditBody, List.append_assoc]
  exact List.take_left' (length_leBytes ..)

theorem sub_auditRecord (hv : value.length ≤ 32) :
    let r := auditRecord s actor result action subject value key
    sub r 8 8 = leBytes 8 s.time ∧ sub r 16 4 = leBytes 4 s.mgt.bootCount ∧
      sub r 20 4 = leBytes 1 actor ++ leBytes 1 result ++ leBytes 2 action ∧ sub r 24 8 = leBytes 8 subject ∧
      sub r 32 32 = value ++ List.replicate (32 - value.length) 0 := by
  obtain ⟨c, e⟩ := auditRecord_fields s actor result action subject value key hv
  have hv' : value.length + (32 - value.length) = 32 := by omega
  simp only [e]
  refine ⟨?_, ?_, ?_, ?_, ?_⟩ <;>
    simp only [sub_append_skip, sub_append_here, List.length_append, length_leBytes, List.length_replicate, hv', Nat.reduceAdd,
      Nat.reduceSub, Nat.reduceLeDiff]

end

/-! A signed command, from its record to its end (R372, R379). -/

/-- The state with the record of a blob whose result is `r`. -/
def blobRecorded (s : State) (b : List Byte) (r : Nat) : State :=
  audit s (if blRole b = 2 then 2 else 1) r (blCode b) (blobSubject b) (blobValue b) (blobActorKey s b)

/-- The end of a blob: a fresh nonce and its result. -/
def closeBlob (s : State) (b : List Byte) (r : Nat) : State :=
  { (drawBytes s 32).2 with
    mgt := { s.mgt with nonce := (drawBytes s 32).1, cmdResult := 2 ^ 31 + 256 * blCode b + r, blob := none } }

section
variable (s : State) (b : List Byte) (r : Nat)

@[simp] theorem closeBlob_records : (closeBlob s b r).mgt.records = s.mgt.records := rfl
@[simp] theorem closeBlob_auditNext : (closeBlob s b r).mgt.auditNext = s.mgt.auditNext := rfl
@[simp] theorem closeBlob_bar2 : (closeBlob s b r).mgt.bar2 = s.mgt.bar2 := rfl
@[simp] theorem closeBlob_acked : (closeBlob s b r).mgt.acked = s.mgt.acked := rfl
@[simp] theorem closeBlob_diag : (closeBlob s b r).mgt.diag = s.mgt.diag := rfl
@[simp] theorem closeBlob_owner : (closeBlob s b r).mgt.owner = s.mgt.owner := rfl
@[simp] theorem closeBlob_tiles : (closeBlob s b r).tiles = s.tiles := rfl

@[simp] theorem blobRecorded_auditNext : (blobRecorded s b r).mgt.auditNext = s.mgt.auditNext + 1 := rfl
@[simp] theorem blobRecorded_bar2 : (blobRecorded s b r).mgt.bar2 = s.mgt.bar2 := rfl
@[simp] theorem blobRecorded_acked : (blobRecorded s b r).mgt.acked = s.mgt.acked := rfl
@[simp] theorem blobRecorded_diag : (blobRecorded s b r).mgt.diag = s.mgt.diag := rfl
@[simp] theorem blobRecorded_owner : (blobRecorded s b r).mgt.owner = s.mgt.owner := rfl
@[simp] theorem blobRecorded_fuses : (blobRecorded s b r).mgt.fuses = s.mgt.fuses := rfl

end

/-- A blob that passes the checks of R372 has valid parameters and a slot in the audit log. -/
theorem blobResult_zero {s : State} {b : List Byte} {readBack : Bool} (h : blobResult s b readBack = 0) :
    paramsOk s b readBack = true ∧ blobRoom s (blCode b) = true := by
  unfold blobResult at h
  split_ifs at h with form fresh right signed params busy room
  exact ⟨by simpa using params, by simpa using room⟩

/-- A blob that passes is recorded, takes effect and ends, in this order. -/
theorem endBlob_passed {s : State} {b : List Byte} {readBack : Bool} (h : blobResult s b readBack = 0) :
    endBlob s b readBack = closeBlob (blobEffect (blobRecorded s b 0) b) b 0 := by
  simp [endBlob, h, (blobResult_zero h).2, closeBlob, blobRecorded, drawBytes]

/-- An ill-formed blob, and one that is refused room, ends without a record. -/
theorem endBlob_unrecorded {s : State} {b : List Byte} {readBack : Bool} {r : Nat} (h : blobResult s b readBack = r) (hr : r = 2 ∨ r = 6) :
    endBlob s b readBack = closeBlob s b r := by
  rcases hr with rfl | rfl <;> simp [endBlob, h, closeBlob, drawBytes]

/-- A row runs the blob that it is about to its end. -/
theorem blobGo_served {row : String} {readBack : Bool} {s : State} (served : blobServed s (blCode (blobNow s)) = true)
    (isRow : blobRow (blCode (blobNow s)) = row) : blobGo row readBack s = .next (endBlob s (blobNow s) readBack) := by
  simp [blobGo, served, isRow]

/-! The end of a diagnostic unlock (R376). -/

/-- Scratchpad, semaphores and windows of the tile are cleared (R177). -/
def IsScrubbed (x : Tile) : Prop := x.spad = [] ∧ x.sems = [] ∧ x.windows = []

theorem isScrubbed_scrubbed (x : Tile) : IsScrubbed (scrubbed x) := ⟨rfl, rfl, rfl⟩

theorem endDiag_diag (s : State) : (endDiag s).mgt.diag = none := by
  unfold endDiag
  split
  · assumption
  · rfl

theorem endDiag_tiles {s : State} (h : s.mgt.diag ≠ none) : (endDiag s).tiles = s.tiles.map (fun p => (p.1, scrubbed p.2)) := by
  unfold endDiag
  split
  · contradiction
  · rfl

theorem endDiag_scrubs {s : State} (h : s.mgt.diag ≠ none) : ∀ p ∈ (endDiag s).tiles, IsScrubbed p.2 := by
  intro p hp
  rw [endDiag_tiles h, List.mem_map] at hp
  obtain ⟨q, -, rfl⟩ := hp
  exact isScrubbed_scrubbed q.2

theorem endDiag_frame (s : State) : (endDiag s).mem = s.mem ∧ (endDiag s).mgt.owner = s.mgt.owner := by
  unfold endDiag
  split <;> exact ⟨rfl, rfl⟩

theorem tokenOk_sessions {s : State} {t : List Byte} (h : tokenOk s t = true) : s.ts.sessions = [] := by
  simp only [tokenOk, Bool.and_eq_true, List.isEmpty_iff] at h
  exact h.2

/-! AUDIT_EXPORT (R381). -/

/-- Every record of the log has the 128 bytes of R378. -/
def RecordsWhole (s : State) : Prop := ∀ p ∈ s.mgt.records, p.2.length = 128

theorem RecordsWhole.audit {s : State} (h : RecordsWhole s) (actor result action subject : Nat) (value key : List Byte) :
    RecordsWhole (audit s actor result action subject value key) := by
  intro p hp
  rw [audit_eq] at hp
  rcases Tbl.mem_put hp with rfl | hp
  · exact auditRecord_length ..
  · exact h p hp

/-- The hash that an AUDIT_EXPORT from record `first` on begins with, as `exportBytes` finds it: of the record before, free bytes where that is
overwritten. -/
def exportPrev (s : State) (first : Nat) : List Byte × State :=
  if first = 0 then (List.replicate 32 0, s)
  else match s.mgt.records.find ((first - 1) % 65536) with
    | some r => if le r 0 8 = first - 1 then (r.drop 96, s) else drawBytes s 32
    | none => drawBytes s 32

/-- The header of an AUDIT_EXPORT of `count` records from `first` on, after the hash `prev` (R381). -/
def exportHead (s : State) (first count : Nat) (prev : List Byte) : List Byte :=
  leBytes 4 0x45414749 ++ leBytes 4 1 ++ leBytes 8 s.mgt.fuses.serial ++ leBytes 8 first ++ leBytes 8 count ++ prev

/-- `count` records from `first` on. -/
def exportRecs (s : State) (first count : Nat) : List Byte :=
  ((List.range count).map (fun i => s.mgt.records.get ((first + i) % 65536) [])).flatten

theorem exportRecs_congr {s t : State} (h : s.mgt.records = t.mgt.records) (first count : Nat) :
    exportRecs s first count = exportRecs t first count := by
  simp only [exportRecs, h]

theorem exportPrev_mgt (s : State) (first : Nat) : (exportPrev s first).2.mgt = s.mgt := by
  unfold exportPrev
  split_ifs
  · rfl
  · split
    · split_ifs <;> rfl
    · rfl

theorem exportPrev_zero (s : State) : (exportPrev s 0).1 = List.replicate 32 0 := rfl

theorem exportPrev_found {s : State} {first : Nat} {r : List Byte} (h0 : first ≠ 0)
    (hf : s.mgt.records.find ((first - 1) % 65536) = some r) (hr : le r 0 8 = first - 1) : (exportPrev s first).1 = r.drop 96 := by
  simp [exportPrev, h0, hf, hr]

theorem exportPrev_length {s : State} (whole : RecordsWhole s) (first : Nat) : (exportPrev s first).1.length = 32 := by
  unfold exportPrev
  split_ifs
  · exact List.length_replicate
  · split
    · next r hf =>
      split_ifs
      · rw [List.length_drop, whole _ (Tbl.mem_of_find hf)]
      · exact drawBytes_length ..
    · exact drawBytes_length ..

/-- An AUDIT_EXPORT is its header, its records and the signature of both. -/
theorem exportBytes_eq (s : State) (first count : Nat) : exportBytes s first count =
    let p := exportPrev s first
    let text := exportHead p.2 first count p.1 ++ exportRecs p.2 first count
    (text ++ (signIdk p.2 text).1, (signIdk p.2 text).2) := by
  by_cases h0 : first = 0
  · simp only [exportBytes, exportPrev, exportHead, exportRecs, h0, if_true]
  · cases hf : s.mgt.records.find ((first - 1) % 65536) with
    | none => simp only [exportBytes, exportPrev, exportHead, exportRecs, h0, if_false, hf]
    | some r =>
      by_cases hr : le r 0 8 = first - 1
      · simp only [exportBytes, exportPrev, exportHead, exportRecs, h0, if_false, hf, hr, if_true]
      · simp only [exportBytes, exportPrev, exportHead, exportRecs, h0, if_false, hf, hr]

theorem signIdk_mgt (s : State) (m : List Byte) : (signIdk s m).2.mgt = s.mgt := by
  simp only [signIdk, drawBytes]

theorem exportBytes_mgt (s : State) (first count : Nat) : (exportBytes s first count).2.mgt = s.mgt := by
  simp only [exportBytes_eq, signIdk_mgt, exportPrev_mgt]

theorem exportBytes_fst (s : State) (first count : Nat) : (exportBytes s first count).1 =
    exportHead s first count (exportPrev s first).1 ++ exportRecs s first count ++
      (signIdk (exportPrev s first).2 (exportHead s first count (exportPrev s first).1 ++ exportRecs s first count)).1 := by
  simp only [exportBytes_eq, exportHead, exportRecs, exportPrev_mgt]

/-! The rows of signed commands, and what each of them does (R376, R380, R381). -/

theorem exec_authOpen (s : State) : exec .authOpen s = blobGo "AUTH_OPEN" true s := rfl
theorem exec_auditExport (s : State) : exec .auditExport s = blobGo "AUDIT_EXPORT" true s := rfl
theorem exec_auditAck (s : State) : exec .auditAck s = blobGo "AUDIT_ACK" true s := rfl
theorem exec_diagUnlock (s : State) : exec .diagUnlock s = blobGo "DIAG_UNLOCK" true s := rfl
theorem exec_diagLock (s : State) : exec .diagLock s = blobGo "DIAG_LOCK" true s := rfl

theorem blobEffect_export {s : State} {b : List Byte} (h : blCode b = 0x0030) : (blobEffect s b).mgt =
    { s.mgt with bar2 := s.mgt.bar2.wrN 0 (exportBytes s (le (blParams b) 0 8) (le (blParams b) 8 4)).1 } := by
  simp only [blobEffect, h, exportBytes_mgt]

theorem blobEffect_ack {s : State} {b : List Byte} (h : blCode b = 0x0031) :
    blobEffect s b = { s with mgt := { s.mgt with acked := Nat.max s.mgt.acked (le (blParams b) 0 8 + 1) } } := by
  simp only [blobEffect, h]

theorem blobEffect_unlock {s : State} {b : List Byte} (h : blCode b = 0x0040) : blobEffect s b =
    { s with mgt := { s.mgt with diag := some { scope := le (makerParams b) 5 1, expiry := le (makerParams b) 0x14 4 } } } := by
  simp only [blobEffect, h]

theorem blobEffect_lock {s : State} {b : List Byte} (h : blCode b = 0x0041) : blobEffect s b = endDiag s := by
  simp only [blobEffect, h]

section
variable {s : State} {row : String} {c : Nat}

/-- A served blob of a row's code that passes is recorded, takes effect and ends. -/
theorem blobGo_passed (served : blobServed s (blCode (blobNow s)) = true) (code : blCode (blobNow s) = c) (isRow : blobRow c = row)
    (passed : blobResult s (blobNow s) true = 0) :
    blobGo row true s = .next (closeBlob (blobEffect (blobRecorded s (blobNow s) 0) (blobNow s)) (blobNow s) 0) := by
  rw [blobGo_served served (by rw [code, isRow]), endBlob_passed passed]

/-- A served blob of a row's code that is ill formed or refused room leaves the audit log as it is. -/
theorem blobGo_unrecorded (served : blobServed s (blCode (blobNow s)) = true) (code : blCode (blobNow s) = c) (isRow : blobRow c = row)
    (refused : blobResult s (blobNow s) true = 2 ∨ blobResult s (blobNow s) true = 6) :
    ∃ s', blobGo row true s = .next s' ∧ s'.mgt.records = s.mgt.records ∧ s'.mgt.auditNext = s.mgt.auditNext := by
  refine ⟨_, blobGo_served served (by rw [code, isRow]), ?_⟩
  rw [endBlob_unrecorded rfl refused]
  exact ⟨rfl, rfl⟩

end

theorem blobRecorded_whole {s : State} (whole : RecordsWhole s) (b : List Byte) (r : Nat) : RecordsWhole (blobRecorded s b r) :=
  RecordsWhole.audit whole _ _ _ _ _ _

theorem exportHead_blobRecorded (s : State) (b : List Byte) (r first count : Nat) (prev : List Byte) :
    exportHead (blobRecorded s b r) first count prev = exportHead s first count prev := by
  simp only [exportHead, blobRecorded_fuses]

/-- A passed DIAG_UNLOCK was checked while no session was open (R376). -/
theorem paramsOk_unlock {s : State} {b : List Byte} (h : blCode b = 0x0040) (ok : paramsOk s b true = true) : s.ts.sessions = [] := by
  simp only [paramsOk, h, Bool.and_eq_true] at ok
  exact tokenOk_sessions ok.2

/-- What a passed AUDIT_EXPORT leaves in BAR2 and in the log (R381). -/
theorem auditExport_passed {s : State} (served : blobServed s (blCode (blobNow s)) = true) (code : blCode (blobNow s) = 0x0030)
    (passed : blobResult s (blobNow s) true = 0) {first count : Nat} (hf : first = le (blParams (blobNow s)) 0 8)
    (hc : count = le (blParams (blobNow s)) 8 4) : ∃ s' prev u, exec .auditExport s = .next s' ∧
      s'.mgt.bar2 = s.mgt.bar2.wrN 0 (exportHead s first count prev ++ exportRecs s' first count ++
        (signIdk u (exportHead s first count prev ++ exportRecs s' first count)).1) ∧
      (first = 0 → prev = List.replicate 32 0) ∧
      (∀ r, first ≠ 0 → s'.mgt.records.find ((first - 1) % 65536) = some r → le r 0 8 = first - 1 → prev = r.drop 96) ∧
      (RecordsWhole s → prev.length = 32) ∧ u.mgt.fuses = s.mgt.fuses ∧ s'.mgt.auditNext = s.mgt.auditNext + 1 := by
  let b := blobNow s
  let s1 := blobRecorded s b 0
  have records : (closeBlob (blobEffect s1 b) b 0).mgt.records = s1.mgt.records := by
    rw [closeBlob_records, blobEffect_export code]
  refine ⟨closeBlob (blobEffect s1 b) b 0, (exportPrev s1 first).1, (exportPrev s1 first).2,
    (exec_auditExport s).trans (blobGo_passed served code rfl passed), ?bar2, ?zero, ?found, ?whole, ?fuses, ?next⟩
  case bar2 =>
    have kept : s1.mgt.bar2 = s.mgt.bar2 := blobRecorded_bar2 ..
    rw [closeBlob_bar2, blobEffect_export code, ← hf, ← hc, exportBytes_fst, exportHead_blobRecorded, exportRecs_congr records, kept]
  case zero =>
    intro h0
    rw [h0, exportPrev_zero]
  case found =>
    intro r h0 hr seq
    rw [records] at hr
    rw [exportPrev_found h0 hr seq]
  case whole => exact fun whole => exportPrev_length (blobRecorded_whole whole _ _) first
  case fuses => rw [exportPrev_mgt, blobRecorded_fuses]
  case next => rw [closeBlob_auditNext, blobEffect_export code, blobRecorded_auditNext]

/-- Settles O50: each clause from the lemma about its command, the records and the end of a blob. -/
theorem auditAndDiagnosis : Obligations.AuditAndDiagnosis := by
  intro s
  refine ⟨?record, ?commands, ?expiry⟩
  case record =>
    intro actor result action subject value key hv
    refine ⟨auditRecord s actor result action subject value key, _, rfl, audit_eq .., auditRecord_take_8 .., ?_⟩
    obtain ⟨time, boot, who, subj, val⟩ := sub_auditRecord s actor result action subject value key hv
    refine ⟨time, boot, who, subj, val, ?_⟩
    rw [take_auditRecord, drop_auditRecord]
  case commands =>
    rintro b rfl served
    refine ⟨?exports, ?ack, ?unlock, ?lock, ?refused⟩
    case exports =>
      intro code passed
      obtain ⟨s', prev, u, run, bar2, zero, found, whole, fuses, next⟩ := auditExport_passed served code passed rfl rfl
      refine ⟨s', _, _, prev, run, rfl, ?_, zero, found, whole, ⟨u, fuses, rfl⟩, next⟩
      simpa only [exportHead, exportRecs] using bar2
    case ack =>
      intro code passed
      refine ⟨_, (exec_auditAck s).trans (blobGo_passed served code rfl passed), ?_⟩
      rw [closeBlob_acked, blobEffect_ack code, blobRecorded_acked]
    case unlock =>
      intro code passed
      refine ⟨_, (exec_diagUnlock s).trans (blobGo_passed served code rfl passed), ?_,
        paramsOk_unlock code (blobResult_zero passed).1, ?_⟩
      · rw [closeBlob_diag, blobEffect_unlock code]
      · rw [closeBlob_owner, blobEffect_unlock code, blobRecorded_owner]
    case lock =>
      intro code passed
      refine ⟨_, (exec_diagLock s).trans (blobGo_passed served code rfl passed), ?_, fun unlocked => ?_⟩
      · rw [closeBlob_diag, blobEffect_lock code, endDiag_diag]
      · rw [closeBlob_tiles, blobEffect_lock code]
        exact endDiag_scrubs (by rwa [blobRecorded_diag])
    case refused =>
      intro refused
      rw [exec_authOpen, exec_auditAck]
      exact ⟨fun code => blobGo_unrecorded served code rfl refused, fun code => blobGo_unrecorded served code rfl refused⟩
  case expiry =>
    intro d unlocked expired
    refine ⟨endDiag s, ?_, endDiag_diag s, endDiag_scrubs (by simp [unlocked]), endDiag_frame s⟩
    show execConsentExpiry s = _
    simp only [execConsentExpiry, unlocked, expired, if_true]

end Sys2Proof.Proofs

/-! O52: the register pairs, register writes and their gates, and accesses to stopped domains (R7 to R14, R408, R421, R422). -/

namespace Sys2Proof.Proofs

open Sys2Proof Sys2Proof.Machine

/-! The places of the pairs (R9, R421). -/

theorem pageOff_some {fn off o : Nat} (h : pageOff fn off = some o) :
    (fn = 0 ∧ off = 0x100000 + o ∧ o < 0x10000) ∨ (fn ≠ 0 ∧ off = o ∧ o < 0x8000) := by
  unfold pageOff at h
  split_ifs at h with f0 inPage inPage <;> simp only [Option.some.injEq] at h <;> omega

theorem pageOff_add {fn off o : Nat} (h : pageOff fn off = some o) (k : Nat) (hk : o + k < 0x8000) :
    pageOff fn (off + k) = some (o + k) := by
  unfold pageOff
  rcases pageOff_some h with ⟨rfl, rfl, _⟩ | ⟨fn0, rfl, _⟩
  · rw [if_pos rfl, if_pos (by omega)]
    simp only [Option.some.injEq]
    omega
  · rw [if_neg fn0, if_pos hk]

/-- A pair of a function page, or one of PF0 outside its page. -/
theorem isLo_cases {fn off : Nat} (h : isLo fn off = true) :
    (∃ o, pageOff fn off = some o ∧ (o = 0x8 ∨ o = 0x104 ∨ o = 0x204 ∨ o = 0x20C)) ∨
      (fn = 0 ∧ (off ∈ [0x0, 0x70, 0x78, 0x110018, 0x300010, 0x500004, 0x6000C0] ∨
        (0x300400 ≤ off ∧ off < 0x300480 ∧ off % 8 = 0))) := by
  unfold isLo at h
  split at h
  · next o ho =>
    exact .inl ⟨o, ho, by simpa using h⟩
  · refine .inr ?_
    simp only [Bool.and_eq_true, Bool.or_eq_true, beq_iff_eq, decide_eq_true_eq, List.contains_iff_mem, and_assoc] at h
    exact h

theorem isLo_aligned {fn off : Nat} (h : isLo fn off = true) : off % 4 = 0 := by
  rcases isLo_cases h with ⟨o, ho, which⟩ | ⟨-, listed | ⟨-, -, aligned⟩⟩
  · rcases pageOff_some ho with ⟨-, rfl, -⟩ | ⟨-, rfl, -⟩ <;> omega
  · simp only [List.mem_cons, List.not_mem_nil, or_false] at listed
    omega
  · omega

/-- The _HI register of a pair is no _LO register. -/
theorem isLo_hi {fn off : Nat} (h : isLo fn off = true) : isLo fn (off + 4) = false := by
  rcases isLo_cases h with ⟨o, ho, which⟩ | ⟨rfl, listed | ⟨low, high, aligned⟩⟩
  · have place := pageOff_add ho 4 (by omega)
    rcases which with rfl | rfl | rfl | rfl <;> simp [isLo, place]
  · simp only [List.mem_cons, List.not_mem_nil, or_false] at listed
    rcases listed with rfl | rfl | rfl | rfl | rfl | rfl | rfl <;> decide
  · have place : pageOff 0 (off + 4) = none := by
      rw [pageOff, if_pos rfl, if_neg (by omega)]
    simp [isLo, place]
    omega

/-! The registers of a pair (R9, R302). -/

section
variable (s : State) (fn off : Nat) (p : Pair)

@[simp] theorem pairOf_setPair : pairOf (setPair s fn off p) fn off = p := by simp [pairOf, setPair]

theorem pairValue_setPair : pairValue (setPair s fn off p) fn off = pairValue s fn off := rfl

end

/-- The pairs that take a write: those of a page, the ring ones while a ring is selected. -/
theorem pairOpen_cases {s : State} {fn off : Nat} (h : pairOpen s fn off = true) :
    pageOff fn off = some 0x8 ∨ (pageOff fn off = some 0x104 ∧ ∃ g, selSq s fn = some g) ∨
      (pageOff fn off = some 0x204 ∧ ∃ g, selCq s fn = some g) ∨ (pageOff fn off = some 0x20C ∧ ∃ g, selCq s fn = some g) := by
  unfold pairOpen at h
  split at h
  · next e => exact .inl e
  · next e => exact .inr (.inl ⟨e, Option.isSome_iff_exists.mp (Bool.and_eq_true_iff.mp h).2⟩)
  · next e => exact .inr (.inr (.inl ⟨e, Option.isSome_iff_exists.mp (Bool.and_eq_true_iff.mp h).2⟩))
  · next e => exact .inr (.inr (.inr ⟨e, Option.isSome_iff_exists.mp (Bool.and_eq_true_iff.mp h).2⟩))
  · cases h

section
variable {s : State} {fn off : Nat}

theorem pairValue_dbr (e : pageOff fn off = some 0x8) : pairValue s fn off = (pageOf s fn).dbrBase := by
  unfold pairValue; simp only [e]
theorem pairValue_sqBase (e : pageOff fn off = some 0x104) : pairValue s fn off = sqRead s fn (·.base) := by
  unfold pairValue; simp only [e]
theorem pairValue_cqBase (e : pageOff fn off = some 0x204) : pairValue s fn off = cqRead s fn (·.base) := by
  unfold pairValue; simp only [e]
theorem pairValue_cqDet (e : pageOff fn off = some 0x20C) : pairValue s fn off = cqRead s fn (·.det) := by
  unfold pairValue; simp only [e]

end

theorem sqRead_onSq {s : State} {fn g : Nat} (sel : selSq s fn = some g) (f : Sq → Sq) (r : Sq → Nat) :
    sqRead (onSq s fn f) fn r = r (f (sqOf s g)) := by
  have kept : selSq (setSq s g (f (sqOf s g))) fn = some g := sel
  simp only [onSq, sel, sqRead, kept, sqOf_setSq]

theorem cqRead_onCq {s : State} {fn g : Nat} (sel : selCq s fn = some g) (f : Cq → Cq) (r : Cq → Nat) :
    cqRead (onCq s fn f) fn r = r (f (cqOf s g)) := by
  have kept : selCq (setCq s g (f (cqOf s g))) fn = some g := sel
  simp only [onCq, sel, cqRead, kept, cqOf_setCq]

/-- What an open pair holds after a store: the stored bits but for the low ones that the register hard-wires to zero (R302). -/
theorem pairValue_pairStore {s : State} {fn off : Nat} (h : pairOpen s fn off = true) (v : Nat) :
    pairValue (pairStore s fn off v) fn off = if pageOff fn off = some 8 then v / 64 * 64 else v / 4096 * 4096 := by
  rcases pairOpen_cases h with e | ⟨e, g, sel⟩ | ⟨e, g, sel⟩ | ⟨e, g, sel⟩
  · simp only [pairValue_dbr e, pairStore, e, pageOf_setPage, if_true]
  · simp [pairValue_sqBase e, pairStore, e, sqRead_onSq sel]
  · simp [pairValue_cqBase e, pairStore, e, cqRead_onCq sel]
  · simp [pairValue_cqDet e, pairStore, e, cqRead_onCq sel]

theorem loWrite_open {s : State} {fn off : Nat} (h : pairOpen s fn off = true) (v : BitVec 32) :
    loWrite s fn off v = setPair s fn off { pairOf s fn off with staged := some v } := by simp only [loWrite, h, if_true]

theorem loWrite_closed {s : State} {fn off : Nat} (h : pairOpen s fn off = false) (v : BitVec 32) : loWrite s fn off v = s := by
  simp [loWrite, h]

theorem hiWrite_closed {s : State} {fn off : Nat} (h : pairOpen s fn off = false) (v : BitVec 32) : hiWrite s fn off v = s := by
  simp [hiWrite, h]

/-- The low half that a _HI write stores: the staged one, or with nothing staged the present one (R9). -/
def lowHalf (s : State) (fn off : Nat) : Nat := ((pairOf s fn off).staged.map (fun b => b.toNat)).getD (pairValue s fn off % 2 ^ 32)

theorem hiWrite_open {s : State} {fn off : Nat} (h : pairOpen s fn off = true) (v : BitVec 32) : hiWrite s fn off v =
    setPair (pairStore s fn off (lowHalf s fn off + v.toNat * 2 ^ 32)) fn off { pairOf s fn off with staged := none } := by
  cases e : (pairOf s fn off).staged <;> simp [hiWrite, h, lowHalf, e]

/-- A _LO write changes nothing but the holding registers of the pairs. -/
theorem loWrite_frame (s : State) (fn off : Nat) (v : BitVec 32) :
    loWrite s fn off v = { s with hi := { s.hi with pairs := (loWrite s fn off v).hi.pairs } } := by
  unfold loWrite
  split <;> rfl

/-! Whether an access reaches its block (R14, R408). -/

section
variable {s : State} {fn off d : Nat} (row : String) (f : State → State)

theorem reached_read (reach : fnReach s fn = true) (up : ∀ d, domainOf fn off = some d → domainAnswers s d = true) :
    reached row s fn off none f = .next (f s) := by
  cases e : domainOf fn off with
  | none => simp [reached, reach, e]
  | some d => simp [reached, reach, e, up d e]

theorem reached_write (reach : fnReach s fn = true) (up : ∀ d, domainOf fn off = some d → domainRuns s d = true) (v : BitVec 32) :
    reached row s fn off (some v) f = .next (f s) := by
  cases e : domainOf fn off with
  | none => simp [reached, reach, e]
  | some d => simp [reached, reach, e, up d e]

theorem reached_read_stopped (reach : fnReach s fn = true) (e : domainOf fn off = some d) (down : domainAnswers s d = false) :
    reached row s fn off none f = .next (stoppedAccess s d fn off none) := by simp [reached, reach, e, down]

theorem reached_write_stopped (reach : fnReach s fn = true) (e : domainOf fn off = some d) (down : domainRuns s d = false) (v : BitVec 32) :
    reached row s fn off (some v) f = .next (stoppedAccess s d fn off (some v)) := by simp [reached, reach, e, down]

end

/-! The rows of the pairs (R9). -/

section
variable {s : State} {fn off : Nat} (lo : isLo fn off = true)
include lo

theorem exec_pairLoRead : exec (.pairLoRead fn off) s =
    reached "PAIR_LO_READ" s fn off none (fun s => answer (loRead s fn off).2 ((loRead s fn off).1.setWidth 64)) := by
  show execPairLoRead fn off s = _
  simp only [execPairLoRead, lo, if_true]

theorem exec_pairHiRead : exec (.pairHiRead fn (off + 4)) s =
    reached "PAIR_HI_READ" s fn (off + 4) none (fun s => answer (hiHalf s fn off).2 ((hiHalf s fn off).1.setWidth 64)) := by
  show execPairHiRead fn (off + 4) s = _
  simp [execPairHiRead, lo]

theorem exec_pairLoWrite (v : BitVec 32) : exec (.pairLoWrite fn off v) s =
    reached "PAIR_LO_WRITE" s fn off (some v) (fun s => loWrite s fn off v) := by
  show execPairLoWrite fn off v s = _
  simp only [execPairLoWrite, lo, if_true]

theorem exec_pairHiWrite (v : BitVec 32) : exec (.pairHiWrite fn (off + 4) v) s =
    reached "PAIR_HI_WRITE" s fn (off + 4) (some v) (fun s => hiWrite s fn off v) := by
  show execPairHiWrite fn (off + 4) v s = _
  simp [execPairHiWrite, lo]

theorem regStore_lo (v : BitVec 32) : regStore s fn off v = loWrite s fn off v := by simp [regStore, isLo_aligned lo, lo]

theorem regStore_hi (v : BitVec 32) : regStore s fn (off + 4) v = hiWrite s fn off v := by
  have aligned := isLo_aligned lo
  have aligned4 : (off + 4) % 4 = 0 := by omega
  simp [regStore, aligned4, isLo_hi lo, lo]

/-- Eight bytes written to a pair are a _LO write, then a _HI write. -/
theorem barWrite_pair (x : Nat) : barWrite s fn off (leBytes 8 x) =
    hiWrite (loWrite s fn off (BitVec.ofNat 32 x)) fn off (BitVec.ofNat 32 (x / 2 ^ 32)) := by
  have halves : leBytes 8 x = leBytes 4 x ++ leBytes 4 (x / 2 ^ 32) := leBytes_add 4 4 x
  have first : (leBytes 8 x).take 4 = leBytes 4 x := by rw [halves]; exact List.take_left' (length_leBytes ..)
  have second : (leBytes 8 x).drop 4 = leBytes 4 (x / 2 ^ 32) := by rw [halves]; exact List.drop_left' (length_leBytes ..)
  simp only [barWrite, length_leBytes, Nat.reduceEqDiff, if_false, lo, true_or, and_self, if_true, first, second, wordOf_leBytes,
    regStore_lo lo, regStore_hi lo]

theorem read64_pair : read64 s fn off =
    answer (hiHalf (loRead s fn off).2 fn off).2 (BitVec.ofNat 64 (pairValue s fn off)) := by
  rw [← ofNat_append]
  simp [read64, lo, loRead, hiHalf]

end

/-! Writes to the registers of PF0 that belong to no pair, no page and no MSI-X table (R421). -/

/-- The offset names a register of a block of PF0 in domain `d`, and neither half of a pair. -/
def plainWord (off d : Nat) : Bool :=
  domainOf 0 off == some d && off % 4 == 0 && !(isLo 0 off) && !(decide (4 ≤ off) && isLo 0 (off - 4)) && msixOff 0 off == none &&
    pbaOff 0 off == none && pageOff 0 off == none

theorem plainWord_iff {off d : Nat} : plainWord off d = true ↔ domainOf 0 off = some d ∧ off % 4 = 0 ∧ isLo 0 off = false ∧
    (decide (4 ≤ off) && isLo 0 (off - 4)) = false ∧ msixOff 0 off = none ∧ pbaOff 0 off = none ∧ pageOff 0 off = none := by
  simp only [plainWord, Bool.and_eq_true, beq_iff_eq, Bool.not_eq_true', and_assoc]

theorem exec_registerWrite (fn : Nat) (bar : Bar) (off : Nat) (l : List Byte) (s : State) :
    exec (.registerWrite fn bar off l) s = execRegisterWrite fn bar off l s := rfl

theorem registerWrite_word {s : State} {off d : Nat} {l : List Byte} (place : plainWord off d = true) (reach : fnReach s 0 = true)
    (runs : domainRuns s d = true) (len : l.length = 4) :
    exec (.registerWrite 0 .bar0 off l) s = .next (deviceWrite s off (wordOf l)) := by
  obtain ⟨dom, aligned, notLo, notHi, noMsix, -, noPage⟩ := plainWord_iff.mp place
  have store : regStore s 0 off (wordOf l) = deviceWrite s off (wordOf l) := by
    simp [regStore, aligned, notLo, notHi, noMsix, noPage]
  simp only [exec_registerWrite, execRegisterWrite, reach, dom, runs, barWrite, len, store, Bool.not_true, Bool.false_eq_true, if_false, if_true]

theorem regValue_word {s : State} {off d : Nat} (place : plainWord off d = true) :
    regValue s 0 off = BitVec.ofNat 32 (deviceRead s off) := by
  obtain ⟨-, aligned, notLo, notHi, noMsix, noPba, noPage⟩ := plainWord_iff.mp place
  simp [regValue, aligned, notLo, notHi, noMsix, noPba, noPage]

section
variable (s : State) (v : BitVec 32)

theorem deviceWrite_tsEvent : deviceWrite s 0x200004 v = { s with ts := { s.ts with event := w1c s.ts.event v.toNat } } := rfl
theorem deviceWrite_tsMask : deviceWrite s 0x200008 v = { s with ts := { s.ts with mask := fld v.toNat 0 7 } } := rfl
theorem deviceWrite_tileSel : deviceWrite s 0x200030 v = { s with ts := { s.ts with tileSel := fld v.toNat 0 6 } } := rfl
theorem deviceWrite_memEvent : deviceWrite s 0x300004 v = { s with mem := { s.mem with event := w1c s.mem.event v.toNat } } := rfl
theorem deviceWrite_laneSel : deviceWrite s 0x300200 v = { s with mem := { s.mem with laneSel := fld v.toNat 0 10 } } := rfl
theorem deviceWrite_fltEvent : deviceWrite s 0x600004 v = { s with flt := { s.flt with event := w1c s.flt.event v.toNat } } := rfl
theorem deviceWrite_fltMask : deviceWrite s 0x600008 v = { s with flt := { s.flt with mask := fld v.toNat 0 8 } } := rfl
theorem deviceWrite_logSel : deviceWrite s 0x600018 v = { s with flt := { s.flt with
    logSel := v.toNat, logSeen := if s.flt.logSeen.contains v.toNat then s.flt.logSeen else v.toNat :: s.flt.logSeen } } := rfl
theorem deviceWrite_calInterval :
    deviceWrite s 0x300020 v = rwlStore s 0x300020 v.toNat 10 1000 (fun m y => { m with calInterval := y }) := rfl
theorem deviceWrite_rebuildShare :
    deviceWrite s 0x300024 v = rwlStore s 0x300024 v.toNat 10 90 (fun m y => { m with rebuildShare := y }) := rfl
theorem deviceWrite_patrolPeriod :
    deviceWrite s 0x300028 v = rwlStore s 0x300028 v.toNat 1 168 (fun m y => { m with patrolPeriod := y }) := rfl
theorem deviceRead_tileVersion : deviceRead s 0x200038 = (infoOf s s.ts.tileSel).version := rfl
theorem deviceRead_laneInfo : deviceRead s 0x300204 = laneInfoWord s := rfl

end

/-! Installer and RWL registers (R329, R330, R373, R422). -/

section
variable {s : State} {off x : Nat}

theorem instWrite_refused (h : contextOpen s = false ∨ roomAny s = false) : instWrite s 0 off x = none := by
  rcases h with h | h <;> simp [instWrite, h]

theorem instWrite_taken (ctx : contextOpen s = true) (room : roomAny s = true) :
    instWrite s 0 off x = some (audit s 1 0 0x0200 off (leBytes 4 x) (ownerKey s)) := by simp [instWrite, ctx, room]

theorem rwlWrite_refused (h : s.ts.committed = true ∨ roomAny s = false ∨ (s.mgt.lifecycle = 2 ∧ contextOpen s = false)) :
    rwlWrite s 0 off x = none := by
  rcases h with locked | full | ⟨owned, ctx⟩
  · simp [rwlWrite, rwlOpen, locked]
  · simp [rwlWrite, instWrite_refused (.inr full), full]
  · simp [rwlWrite, instWrite_refused (.inl ctx), owned]

/-- An unlocked RWL register takes a write of the installer, or outside OWNED of the device for whoever writes (R330, R361). -/
theorem rwlWrite_taken (unlocked : s.ts.committed = false) (room : roomAny s = true) (who : contextOpen s = true ∨ s.mgt.lifecycle ≠ 2) :
    ∃ key, rwlWrite s 0 off x = some (audit s (if contextOpen s then 1 else 3) 0 (if contextOpen s then 0x0200 else 0x0301) off
      (leBytes 4 x) key) := by
  cases ctx : contextOpen s with
  | true => exact ⟨ownerKey s, by simp [rwlWrite, rwlOpen, unlocked, instWrite_taken ctx room]⟩
  | false =>
    have notOwned : s.mgt.lifecycle ≠ 2 := who.resolve_left (by simp [ctx])
    exact ⟨[], by simp [rwlWrite, rwlOpen, unlocked, instWrite_refused (.inl ctx), notOwned, ctx, room]⟩

theorem rwlStore_refused (h : s.ts.committed = true ∨ roomAny s = false ∨ (s.mgt.lifecycle = 2 ∧ contextOpen s = false)) (lo hi : Nat)
    (f : DevMem → Nat → DevMem) : rwlStore s off x lo hi f = s := by simp [rwlStore, rwlWrite_refused h]

/-- A write that an RWL register takes is recorded with who made it, and stored within the register's range. -/
theorem rwlStore_taken (unlocked : s.ts.committed = false) (room : roomAny s = true) (who : contextOpen s = true ∨ s.mgt.lifecycle ≠ 2)
    (lo hi : Nat) (f : DevMem → Nat → DevMem) : ∃ r,
      (rwlStore s off x lo hi f).mgt.records = s.mgt.records.put (s.mgt.auditNext % 65536) r ∧
      sub r 20 4 = leBytes 1 (if contextOpen s then 1 else 3) ++ leBytes 1 0 ++ leBytes 2 (if contextOpen s then 0x0200 else 0x0301) ∧
      (rwlStore s off x lo hi f).mem = f s.mem (Nat.max lo (Nat.min hi x)) := by
  obtain ⟨key, taken⟩ := rwlWrite_taken (off := off) (x := x) unlocked room who
  have value : (leBytes 4 x).length ≤ 32 := by rw [length_leBytes]; decide
  obtain ⟨-, -, actor, -, -⟩ := sub_auditRecord s (if contextOpen s then 1 else 3) 0 (if contextOpen s then 0x0200 else 0x0301) off _ key value
  refine ⟨_, ?_, actor, ?_⟩ <;> simp only [rwlStore, taken, audit_eq]

end

theorem deviceWrite_cfgOffset_refused {s : State} (v : BitVec 32) (h : contextOpen s = false ∨ roomAny s = false) :
    deviceWrite s 0x20001C v = s := by
  show (match instWrite s 0 0x20001C v.toNat with
    | some t => { t with ts := { t.ts with cfgOffset := fld v.toNat 12 8 <<< 12 } }
    | none => s) = s
  rw [instWrite_refused h]

theorem deviceWrite_cfgOffset_taken {s : State} (v : BitVec 32) (ctx : contextOpen s = true) (room : roomAny s = true) :
    (deviceWrite s 0x20001C v).ts.cfgOffset = fld v.toNat 12 8 <<< 12 ∧
      (deviceWrite s 0x20001C v).mgt.auditNext = s.mgt.auditNext + 1 := by
  have e : deviceWrite s 0x20001C v = (match instWrite s 0 0x20001C v.toNat with
    | some t => { t with ts := { t.ts with cfgOffset := fld v.toNat 12 8 <<< 12 } }
    | none => s) := rfl
  rw [e, instWrite_taken ctx room]
  exact ⟨rfl, rfl⟩

/-! Accesses to a stopped domain (R14, R408). -/

section
variable (s : State) (d fn off : Nat) (w : Option (BitVec 32))

theorem stoppedAccess_event : (stoppedAccess s d fn off w).clk.event.testBit 5 = true := by
  simp only [stoppedAccess, clkEvent, Nat.testBit_or, Nat.testBit_two_pow_self, Bool.or_true]

theorem stoppedAccess_hangLog : (stoppedAccess s d fn off w).clk.hangLog = fn * 2 ^ 25 + off := rfl

theorem stoppedAccess_held (room : s.clk.held.length < 16) :
    (stoppedAccess s d fn off w).clk.held = s.clk.held ++ [{ domain := d, fn := fn, off := off, write := w }] := by
  simp [stoppedAccess, clkEvent, room]

theorem stoppedAccess_dropped (full : 16 ≤ s.clk.held.length) : (stoppedAccess s d fn off w).clk.held = s.clk.held ∧
    (stoppedAccess s d fn off w).clk.hangDropped = satInc s.clk.hangDropped 0xFFFF := by
  simp [stoppedAccess, clkEvent, Nat.not_lt.mpr full]

end

theorem exec_stoppedDomainAccess {s : State} {fn off d : Nat} {w : Option (BitVec 32)} (reach : fnReach s fn = true)
    (dom : domainOf fn off = some d) (down : domainRuns s d = false) (reads : w ≠ none ∨ domainAnswers s d = false) :
    exec (.stoppedDomainAccess fn off w) s = .next (stoppedAccess s d fn off w) := by
  show execStoppedDomainAccess fn off w s = _
  cases w with
  | none => simp [execStoppedDomainAccess, dom, reach, reads.resolve_left (by simp)]
  | some v => simp [execStoppedDomainAccess, dom, reach, down]

/-! The 64-bit accesses (R8, R9). -/

section
variable {s : State} {fn off : Nat} (reach : fnReach s fn = true)
include reach

theorem exec_pair64Access_read (up : ∀ d, domainOf fn off = some d → domainAnswers s d = true) :
    exec (.pair64Access fn off none) s = .next (read64 s fn off) := by
  show execPair64Access fn off none s = _
  cases dom : domainOf fn off with
  | none => simp [execPair64Access, reach, dom]
  | some d => simp [execPair64Access, reach, dom, up d dom]

theorem exec_pair64Access_write (up : ∀ d, domainOf fn off = some d → domainRuns s d = true) (v : BitVec 64) :
    exec (.pair64Access fn off (some v)) s = .next (barWrite s fn off (leBytes 8 v.toNat)) := by
  show execPair64Access fn off (some v) s = _
  cases dom : domainOf fn off with
  | none => simp [execPair64Access, reach, dom]
  | some d => simp [execPair64Access, reach, dom, up d dom]

theorem exec_pair64Access_stopped {d : Nat} (dom : domainOf fn off = some d) (down : domainRuns s d = false) (v : BitVec 64) :
    exec (.pair64Access fn off (some v)) s =
      .next (stoppedAccess (stoppedAccess s d fn off (some (v.setWidth 32))) d fn (off + 4) (some ((v >>> 32).setWidth 32))) := by
  show execPair64Access fn off (some v) s = _
  rw [← ofNat_low, ← ofNat_high]
  simp [execPair64Access, reach, dom, down]

end

/-! The clauses of O52, and the statement. -/

section
variable {s : State} {fn off : Nat} (reach : fnReach s fn = true) (lo : isLo fn off = true)
include reach lo

theorem pairLoRead_answers (up : ∀ d, domainOf fn off = some d → domainAnswers s d = true) :
    ∃ s', exec (.pairLoRead fn off) s = .next s' ∧ s'.out.read = some (BitVec.ofNat 64 (pairValue s fn off % 2 ^ 32)) ∧
      (pairOf s' fn off).held = some (BitVec.ofNat 32 (pairValue s fn off / 2 ^ 32)) ∧ s'.ts = s.ts ∧ s'.mem = s.mem ∧
      s'.tiles = s.tiles ∧ s'.hi.sqs = s.hi.sqs := by
  refine ⟨_, (exec_pairLoRead lo).trans (reached_read _ _ reach up), ?_, ?_, rfl, rfl, rfl, rfl⟩
  · rw [← setWidth_ofNat_32]; rfl
  · exact congrArg Pair.held (pairOf_setPair ..)

theorem pairHiRead_answers (up : ∀ d, domainOf fn (off + 4) = some d → domainAnswers s d = true) :
    ∃ s', exec (.pairHiRead fn (off + 4)) s = .next s' ∧ (pairOf s' fn off).held = none ∧
      s'.out.read = some (((pairOf s fn off).held.getD (BitVec.ofNat 32 (pairValue s fn off / 2 ^ 32))).setWidth 64) ∧
      s'.ts = s.ts ∧ s'.mem = s.mem :=
  ⟨_, (exec_pairHiRead lo).trans (reached_read _ _ reach up), congrArg Pair.held (pairOf_setPair ..), rfl, rfl, rfl⟩

theorem pair64_answers (up : ∀ d, domainOf fn off = some d → domainAnswers s d = true) :
    ∃ s', exec (.pair64Access fn off none) s = .next s' ∧ s'.ts = s.ts ∧ (pairOf s' fn off).held = none ∧
      s'.out.read = some (BitVec.ofNat 64 (pairValue s fn off)) := by
  refine ⟨_, (exec_pair64Access_read reach up).trans (congrArg _ (read64_pair lo)), rfl, ?_, rfl⟩
  exact congrArg Pair.held (pairOf_setPair ..)

/-- A _HI write to an open pair stores both halves (R9). -/
theorem pairHiWrite_stores (up : ∀ d, domainOf fn (off + 4) = some d → domainRuns s d = true) (opn : pairOpen s fn off = true)
    (v : BitVec 32) : ∃ s', exec (.pairHiWrite fn (off + 4) v) s = .next s' ∧ (pairOf s' fn off).staged = none ∧
      pairValue s' fn off = (if pageOff fn off = some 8 then (lowHalf s fn off + v.toNat * 2 ^ 32) / 64 * 64
        else (lowHalf s fn off + v.toNat * 2 ^ 32) / 4096 * 4096) := by
  refine ⟨_, (exec_pairHiWrite lo v).trans ((reached_write _ _ reach up v).trans (congrArg _ (hiWrite_open opn v))), ?_, ?_⟩
  · exact congrArg Pair.staged (pairOf_setPair ..)
  · exact (pairValue_setPair ..).trans (pairValue_pairStore opn _)

/-- A 64-bit write is the _LO write, then the _HI write (R8, R9). -/
theorem pair64_writes (up : ∀ d, domainOf fn off = some d → domainRuns s d = true)
    (upHi : ∀ d, domainOf fn (off + 4) = some d → domainRuns s d = true) (v : BitVec 64) :
    ∃ s1 s2, exec (.pairLoWrite fn off (v.setWidth 32)) s = .next s1 ∧
      exec (.pairHiWrite fn (off + 4) ((v >>> 32).setWidth 32)) s1 = .next s2 ∧ exec (.pair64Access fn off (some v)) s = .next s2 := by
  have reach1 : fnReach (loWrite s fn off (v.setWidth 32)) fn = true := by rw [loWrite_frame]; exact reach
  have up1 : ∀ d, domainOf fn (off + 4) = some d → domainRuns (loWrite s fn off (v.setWidth 32)) d = true := by
    rw [loWrite_frame]; exact upHi
  refine ⟨_, _, (exec_pairLoWrite lo _).trans (reached_write _ _ reach up _),
    (exec_pairHiWrite lo _).trans (reached_write _ _ reach1 up1 _), ?_⟩
  rw [exec_pair64Access_write reach up, barWrite_pair lo, ofNat_low, ofNat_high]

end

/-- A write to PF0's BAR2 window writes its bytes and nothing else (R371, R421). -/
theorem bar2Write {s : State} {off : Nat} {l : List Byte} (reach : fnReach s 0 = true) (fits : off + l.length ≤ 0x100000)
    (wf : s.mgt.bar2.wf = true) : ∃ s', exec (.registerWrite 0 .bar2 off l) s = .next s' ∧
      s' = { s with mgt := { s.mgt with bar2 := s'.mgt.bar2 } } ∧
      ∀ a, s'.mgt.bar2.rd a = if off ≤ a ∧ a < off + l.length then l.getD (a - off) 0 else s.mgt.bar2.rd a := by
  have whole : l.take (0x100000 - off) = l := List.take_of_length_le (by omega)
  refine ⟨{ s with mgt := { s.mgt with bar2 := s.mgt.bar2.wrN off l } }, ?_, rfl, fun a => ?_⟩
  · simp [exec_registerWrite, execRegisterWrite, reach, whole]
  · split_ifs with inside
    · obtain ⟨i, rfl⟩ := Nat.exists_eq_add_of_le inside.1
      rw [Nat.add_sub_cancel_left]
      exact Mem.rd_wrN_inside _ off i l wf (by omega)
    · exact Mem.rd_wrN_outside _ off a l (by omega)

theorem registerWrite_no_block {s : State} {fn off : Nat} (l : List Byte) (reach : fnReach s fn = true) (nowhere : domainOf fn off = none) :
    exec (.registerWrite fn .bar0 off l) s = .next s := by
  simp [exec_registerWrite, execRegisterWrite, reach, nowhere]

/-- An RWL register that is locked, has no slot in the log or belongs to an owner without a context keeps its value (R422). -/
theorem rwlWord_refused {s : State} {l : List Byte} (reach : fnReach s 0 = true) (runs : domainRuns s 6 = true) (len : l.length = 4)
    (h : s.ts.committed = true ∨ roomAny s = false ∨ (s.mgt.lifecycle = 2 ∧ contextOpen s = false)) :
    ∀ o ∈ [0x300020, 0x300024, 0x300028], exec (.registerWrite 0 .bar0 o l) s = .next s := by
  intro o ho
  simp only [List.mem_cons, List.not_mem_nil, or_false] at ho
  rcases ho with rfl | rfl | rfl <;> rw [registerWrite_word (d := 6) (by decide) reach runs len]
  · rw [deviceWrite_calInterval, rwlStore_refused h]
  · rw [deviceWrite_rebuildShare, rwlStore_refused h]
  · rw [deviceWrite_patrolPeriod, rwlStore_refused h]

/-- An unlocked RWL register takes a write: it is recorded, and the value is stored within the register's range (R265, R329, R422). -/
theorem rwlWord_stores {s : State} {l : List Byte} {o x lo hi : Nat} {f : DevMem → Nat → DevMem} (place : plainWord o 6 = true)
    (isRwl : ∀ v, deviceWrite s o v = rwlStore s o v.toNat lo hi f) (reach : fnReach s 0 = true) (runs : domainRuns s 6 = true)
    (len : l.length = 4) (hx : x = leNat l) (unlocked : s.ts.committed = false) (room : roomAny s = true)
    (who : contextOpen s = true ∨ s.mgt.lifecycle ≠ 2) : ∃ s' r, exec (.registerWrite 0 .bar0 o l) s = .next s' ∧
      s'.mgt.records = s.mgt.records.put (s.mgt.auditNext % 65536) r ∧
      sub r 20 4 = leBytes 1 (if contextOpen s then 1 else 3) ++ leBytes 1 0 ++ leBytes 2 (if contextOpen s then 0x0200 else 0x0301) ∧
      s'.mem = f s.mem (Nat.max lo (Nat.min hi x)) := by
  obtain ⟨r, stored⟩ := rwlStore_taken (off := o) (x := x) unlocked room who lo hi f
  refine ⟨rwlStore s o x lo hi f, r, ?_, stored⟩
  rw [registerWrite_word place reach runs len, isRwl, wordOf_toNat len, hx]

/-- The events of FLT_, TS_ and MEM_ that a write of ones clears (R12). -/
theorem eventWord_clears {s : State} {l : List Byte} {x : Nat} (reach : fnReach s 0 = true) (len : l.length = 4) (hx : x = leNat l) (b : Nat) :
    (domainRuns s 3 = true →
      (∃ s', exec (.registerWrite 0 .bar0 0x600004 l) s = .next s' ∧ s'.mem = s.mem ∧
        s'.flt.event.testBit b = (s.flt.event.testBit b && !x.testBit b)) ∧
      (∃ s', exec (.registerWrite 0 .bar0 0x200004 l) s = .next s' ∧ s'.mem = s.mem ∧
        s'.ts.event.testBit b = (s.ts.event.testBit b && !x.testBit b))) ∧
    (domainRuns s 6 = true → ∃ s', exec (.registerWrite 0 .bar0 0x300004 l) s = .next s' ∧
      s'.mem.event.testBit b = (s.mem.event.testBit b && !x.testBit b)) := by
  rw [hx, ← wordOf_toNat len]
  refine ⟨fun runs => ⟨?_, ?_⟩, fun runs => ?_⟩
  · exact ⟨_, (registerWrite_word (by decide) reach runs len).trans (congrArg _ (deviceWrite_fltEvent ..)), rfl, testBit_w1c ..⟩
  · exact ⟨_, (registerWrite_word (by decide) reach runs len).trans (congrArg _ (deviceWrite_tsEvent ..)), rfl, testBit_w1c ..⟩
  · exact ⟨_, (registerWrite_word (by decide) reach runs len).trans (congrArg _ (deviceWrite_memEvent ..)), testBit_w1c ..⟩

/-- Settles O52: each clause from the lemma about its access. -/
theorem registerAccess : Obligations.RegisterAccess := by
  intro s fn off
  refine ⟨fun reach lo => ⟨?reads, ?writes, ?stopped⟩, ?bar2, ?stoppedRow, ?noBlock, fun l b x reach len hx => ⟨?words, ?memWords⟩⟩
  case reads =>
    intro up
    have upLo := up off (by simp)
    exact ⟨pairLoRead_answers reach lo upLo, pairHiRead_answers reach lo (up (off + 4) (by simp)), pair64_answers reach lo upLo⟩
  case writes =>
    intro up
    have upLo := up off (by simp)
    have upHi := up (off + 4) (by simp)
    refine ⟨fun v => ⟨fun closed => ⟨?_, ?_⟩, fun opn => ?_, ?_⟩, fun v => pair64_writes reach lo upLo upHi v⟩
    · rw [exec_pairLoWrite lo, reached_write _ _ reach upLo, loWrite_closed closed]
    · rw [exec_pairHiWrite lo, reached_write _ _ reach upHi, hiWrite_closed closed]
    · rw [exec_pairLoWrite lo, reached_write _ _ reach upLo, loWrite_open opn]
    · rintro _ opn rfl
      exact pairHiWrite_stores reach lo upHi opn v
  case stopped =>
    intro d dom down
    refine ⟨fun v => ?_, fun v => exec_pair64Access_stopped reach dom down v, fun silent => ?_⟩
    · rw [exec_pairLoWrite lo, reached_write_stopped _ _ reach dom down]
    · rw [exec_pairLoRead lo, reached_read_stopped _ _ reach dom silent]
  case bar2 => exact fun l reach fits wf => bar2Write reach fits wf
  case stoppedRow =>
    intro d w reach dom down reads
    exact ⟨_, exec_stoppedDomainAccess reach dom down reads, stoppedAccess_event .., stoppedAccess_hangLog .., stoppedAccess_held s d fn off w,
      stoppedAccess_dropped s d fn off w, rfl, rfl, rfl, rfl⟩
  case noBlock => exact fun l reach nowhere => registerWrite_no_block l reach nowhere
  case words =>
    intro runs
    have word : (wordOf l).toNat = x := by rw [wordOf_toNat len, hx]
    obtain ⟨flt, ts⟩ := (eventWord_clears reach len hx b).1 runs
    refine ⟨flt, ts, ?fltMask, ?tsMask, ?tileSel, ?logSel, ?refused, ?taken⟩
    case fltMask => rw [registerWrite_word (d := 3) (by decide) reach runs len, deviceWrite_fltMask, word, fld_zero]
    case tsMask => rw [registerWrite_word (d := 3) (by decide) reach runs len, deviceWrite_tsMask, word, fld_zero]
    case tileSel =>
      refine ⟨_, registerWrite_word (d := 3) (by decide) reach runs len, ?_⟩
      rw [deviceWrite_tileSel, word, regValue_word (d := 3) (by decide), deviceRead_tileVersion, fld_zero]
      rfl
    case logSel =>
      refine ⟨_, registerWrite_word (d := 3) (by decide) reach runs len, ?_⟩
      rw [deviceWrite_logSel, word]
      exact ⟨rfl, rfl⟩
    case refused =>
      intro h
      rw [registerWrite_word (d := 3) (by decide) reach runs len, deviceWrite_cfgOffset_refused _ h]
    case taken =>
      intro ctx room
      refine ⟨_, registerWrite_word (d := 3) (by decide) reach runs len, ?_⟩
      rw [← word, ← fld_shifted]
      exact deviceWrite_cfgOffset_taken _ ctx room
  case memWords =>
    intro runs
    have word : (wordOf l).toNat = x := by rw [wordOf_toNat len, hx]
    refine ⟨(eventWord_clears reach len hx b).2 runs, ?laneSel, fun h => rwlWord_refused reach runs len h, ?taken⟩
    case laneSel =>
      refine ⟨_, registerWrite_word (d := 6) (by decide) reach runs len, ?_⟩
      rw [deviceWrite_laneSel, word, fld_zero, regValue_word (d := 6) (by decide), deviceRead_laneInfo]
      exact ⟨rfl, rfl⟩
    case taken =>
      intro unlocked room who o ho
      simp only [List.mem_cons, List.not_mem_nil, or_false] at ho
      rcases ho with rfl | rfl | rfl
      · obtain ⟨s', r, run, records, actor, mem⟩ :=
          rwlWord_stores (by decide) (deviceWrite_calInterval s) reach runs len hx unlocked room who
        exact ⟨s', r, run, records, actor, by rw [mem]; exact ⟨rfl, rfl, rfl, rfl⟩⟩
      · obtain ⟨s', r, run, records, actor, mem⟩ :=
          rwlWord_stores (by decide) (deviceWrite_rebuildShare s) reach runs len hx unlocked room who
        exact ⟨s', r, run, records, actor, by rw [mem]; exact ⟨rfl, rfl, rfl, rfl⟩⟩
      · obtain ⟨s', r, run, records, actor, mem⟩ :=
          rwlWord_stores (by decide) (deviceWrite_patrolPeriod s) reach runs len hx unlocked room who
        exact ⟨s', r, run, records, actor, by rw [mem]; exact ⟨rfl, rfl, rfl, rfl⟩⟩

end Sys2Proof.Proofs

/-! SUPPORT. What the issue, the signal and the bank claims of an engine command leave of its tile (R81, R139, R163). -/

namespace Sys2Proof.Proofs

open Sys2Proof Sys2Proof.Machine Sys2Proof.Claims Sys2Proof.Laws

section
variable (x y : Tile) (q c u : Nat) (e : QEntry)

/-- The issue of a head moves its queue and its semaphore and nothing else. -/
theorem popIssue_frame : (popIssue x q c e).1 =
    { x with queues := x.queues.put q (queueOf x q).tail, issued := x.issued.put q (x.issued.get q [] ++ [c]),
             sems := (popIssue x q c e).1.sems, semAt := (popIssue x q c e).1.semAt, sigs := (popIssue x q c e).1.sigs } := by
  unfold popIssue
  simp only
  split <;> rfl

theorem cmdSig_frame : cmdSig x c u e = { x with sigs := (cmdSig x c u e).sigs } := by
  unfold cmdSig addSig
  split <;> rfl

theorem queueOf_popIssue (k : Nat) : queueOf (popIssue x q c e).1 k = if k = q then (queueOf x q).tail else queueOf x k := by
  rw [popIssue_frame]
  exact Tbl.get_put ..

theorem popIssue_writes : (popIssue x q c e).1.writes = x.writes := by rw [popIssue_frame]

theorem queueOf_cmdSig (k : Nat) : queueOf (cmdSig x c u e) k = queueOf x k := by rw [cmdSig_frame]; rfl

/-! Accesses that give way: only claims, and with them cycles of writes, marks and holds, differ (R163). -/

theorem seat_frame (k : Claim) : (seat x k).1 = { x with claims := (seat x k).1.claims } := by
  unfold seat
  simp only
  split <;> rfl

theorem grantAll_frame (fuel : Nat) (ps : List (Claim × Nat)) : grantAll fuel x ps = { x with claims := (grantAll fuel x ps).claims } := by
  induction fuel generalizing x ps with
  | zero => rfl
  | succ fuel ih =>
    cases ps with
    | nil => rfl
    | cons p r =>
      unfold grantAll
      simp only
      split
      · split
        · rw [ih, seat_frame]
        · exact ih ..
      · split
        · rw [ih, seat_frame]
        · exact ih ..

theorem resettle_frame : resettle x y = { y with writes := (resettle x y).writes, marks := (resettle x y).marks, holds := (resettle x y).holds } := by
  unfold resettle
  simp only
  split <;> rfl

theorem resettle_writes : SameWrites (resettle x y).writes y.writes := by
  unfold resettle
  simp only
  split
  · rfl
  · unfold SameWrites
    rw [List.map_map]
    refine List.map_congr_left fun w _ => ?_
    simp only [Function.comp_apply]
    split <;> rfl

/-- New claims of a higher rank change nothing but the claims and the cycles of what gives way to them. -/
theorem addClaims_frame (ks : List Claim) : addClaims x ks =
    { x with claims := (addClaims x ks).claims, writes := (addClaims x ks).writes, marks := (addClaims x ks).marks,
             holds := (addClaims x ks).holds } := by
  unfold addClaims
  simp only
  split
  · rfl
  · rw [resettle_frame, grantAll_frame]

theorem addClaims_writes (ks : List Claim) : SameWrites (addClaims x ks).writes x.writes := by
  unfold addClaims
  simp only
  split
  · rfl
  · have same := resettle_writes x
    refine (same _).trans ?_
    rw [grantAll_frame]

end

/-- A read of a tile without an armed SP_WORD raises no fault (R357, R358). -/
theorem fireRead_none {s : State} {t : Nat} (h : Unarmed s t 3) (g : Group) (a c u : Nat) : fireRead s g t a c u = none := by
  simp only [fireRead, fire_none h, ite_self]

/-- A command of the MMA or the VE whose turn it is has its effect in its issue cycle (R81, R111). -/
theorem issueCmd_go {row : String} {s : State} {g : Group} {t q c lo full : Nat} {x : Tile} {e : QEntry} {f : Nat → State}
    (go : issueOf x q e lo full = .go c) (hc : c < 2 ^ 40) (turn : inTurn s g t x q c e = true) :
    issueCmd row s g t q x e lo full f = .next (f c) := by
  simp only [issueCmd, go, hc, turn, and_self, if_true]

end Sys2Proof.Proofs

/-! O14: a word that executes as NOP takes its WAIT and gives its SIGNAL (R76, R103, R167). -/

namespace Sys2Proof.Proofs

open Sys2Proof Sys2Proof.Machine Sys2Proof.Claims Sys2Proof.Laws

/-- A tile that has popped the NOP and given its signal is all that `NopDone` says. -/
theorem nopDone (s : State) (t q : Nat) (x : Tile) (e : QEntry) (c : Nat) :
    NopDone s (setTile s t (cmdSig (popIssue x q c e).1 c q e)) t q x e c := by
  unfold NopDone OnlyTile
  rw [tileOf_setTile]
  refine ⟨rfl, fun k => by rw [queueOf_cmdSig, queueOf_popIssue], ?_, ?_, ?_, ?_, ?_, ?_, ?_, ?_, rfl⟩ <;> rw [cmdSig_frame, popIssue_frame]

theorem nopCmd_done {row : String} {s : State} {g : Group} {t q c : Nat} {x : Tile} {e : QEntry} (head : headIs s t q .nop = some (g, x, e))
    (go : issueOf x q e 0 0 = .go c) (hc : c < 2 ^ 40) (turn : inTurn s g t x q c e = true) (clean : (popIssue x q c e).2 = []) :
    ∃ s', nopCmd row q t s = .next s' ∧ NopDone s s' t q x e c := by
  refine ⟨_, ?_, nopDone ..⟩
  simp only [nopCmd, head, go, hc, turn, and_self, if_true, clean, settleTile_ok, unitOf]

theorem spNop_done {s : State} {g : Group} {t c : Nat} {x : Tile} {e : QEntry} (head : spHead s t .nop = some (g, x, e, c))
    (clean : (popIssue x 4 c e).2 = []) : ∃ s', exec (.spNop t) s = .next s' ∧ NopDone s s' t 4 x e c := by
  refine ⟨_, ?_, nopDone ..⟩
  show execSpNop t s = _
  simp only [execSpNop, head, clean, settleTile_ok]

/-- Settles O14 from what a NOP leaves of its tile. -/
theorem engineNopsWaitAndSignal : Obligations.EngineNopsWaitAndSignal :=
  fun _ _ _ _ _ _ => ⟨nopCmd_done, nopCmd_done, spNop_done⟩

end Sys2Proof.Proofs

/-! O15: the plane that a load of the MMA leaves (R70 to R72, R80, R82, R84). -/

namespace Sys2Proof.Proofs

open Sys2Proof Sys2Proof.Machine Sys2Proof.Claims Sys2Proof.Laws

/-! A load that violates nothing leaves its plane and nothing else of value. -/

section
variable (x : Tile) (e : QEntry) (l : Nat) (p : Plane) (claims : List Claim) (release : Nat)

theorem loadTile_frame : loadTile x e l p claims release =
    { addClaims (popIssue x 0 l e).1 (loadClaims e l claims) with
      planes := x.planes.put (lPlane e.word) p, loads := (loadTile x e l p claims release).loads,
      mmaHist := (loadTile x e l p claims release).mmaHist, holds := (loadTile x e l p claims release).holds,
      sigs := (loadTile x e l p claims release).sigs } := by
  unfold loadTile
  simp only
  rw [cmdSig_frame, popIssue_frame]
  rfl

theorem loadTile_planes : (loadTile x e l p claims release).planes = x.planes.put (lPlane e.word) p := by rw [loadTile_frame]

theorem loadTile_queue : queueOf (loadTile x e l p claims release) 0 = (queueOf x 0).tail := by
  rw [loadTile_frame, addClaims_frame]
  exact queueOf_popIssue x 0 l e 0

theorem loadTile_regs : (loadTile x e l p claims release).regs = x.regs := by rw [loadTile_frame, addClaims_frame, popIssue_frame]

theorem loadTile_spad : (loadTile x e l p claims release).spad = x.spad := by rw [loadTile_frame, addClaims_frame, popIssue_frame]

theorem loadTile_writes : SameWrites (loadTile x e l p claims release).writes x.writes := by
  have same := addClaims_writes (popIssue x 0 l e).1 (loadClaims e l claims)
  rw [popIssue_writes] at same
  rw [loadTile_frame]
  exact same

end

theorem runLoad_clean {s : State} {g : Group} {t : Nat} {x : Tile} {e : QEntry} {l : Nat} {reads : List (Nat × Nat × Nat)}
    {claims : List Claim} {release : Nat} (unarmed : Unarmed s t 3)
    (clean : loadViols (footOf s g.handle) x e l reads claims release = []) (p : Plane) :
    runLoad s g t x e l p reads claims release = setTile s t (loadTile x e l p claims release) := by
  unfold runLoad
  rw [fireRead_none unarmed]
  show settleTile s g t _ _ = _
  rw [clean, settleTile_ok]

/-! The moduli and the weights of a plane (R70, R72). -/

theorem getD_map_range {α : Type} (f : Nat → α) (d : α) {n k : Nat} (h : k < n) : ((List.range n).map f).getD k d = f k := by
  simp [h]

theorem rowWeight_eq (r : List Nat) : rowWeight r = r.sum % 0x7FFFFFFF := by rw [rowWeight, List.sum_eq_foldl]

theorem loadModuli_scalar {x : Tile} {l : Nat} {w : Cmd} (scalar : lVec w = false) {c : Nat} (hc : c < arrayN (lMode w)) :
    (loadModuli x l w).getD c 0 = if 2 ≤ lMode w then 0 else if wide (lMode w) then lMq w else lMq w % 2 ^ 32 := by
  simp only [loadModuli, scalar, Bool.false_eq_true, if_false]
  split_ifs <;> simp [hc]

/-- A tile with a plane of these moduli and weights is all that `Loaded` says. -/
theorem loaded_loadTile (s : State) (t : Nat) (x : Tile) (e : QEntry) (l : Nat) {p : Plane} (claims : List Claim) (release : Nat)
    (mode : p.mode = lMode e.word) (moduli : p.moduli = loadModuli x l e.word) (weights : p.weights = p.rows.map rowWeight) :
    Loaded s (setTile s t (loadTile x e l p claims release)) t x e p := by
  unfold Loaded OnlyTile
  rw [tileOf_setTile]
  refine ⟨rfl, loadTile_queue .., loadTile_regs .., loadTile_spad .., loadTile_writes .., mode, fun k => ?_, fun k hk => ?_,
    fun scalar c hc => ?_⟩
  · rw [loadTile_planes]
    exact Tbl.get_put ..
  · rw [weights, ← rowWeight_eq]
    exact List.getD_map p.rows [] rowWeight
  · rw [moduli]
    exact loadModuli_scalar scalar hc

/-! The elements of a plane (R70, R71). -/

theorem loadPlane_element (x : Tile) (l : Nat) {w : Cmd} {k n : Nat} (hk : k < lRows w) (hn : n < arrayN (lMode w)) :
    ((loadPlane x l w).rows.getD k []).getD n 0 =
      le (spadBytes x (l + 2 + rowStep (lMode w) * k) (spadMod (lBaddr w + k * lBstride w)) 256) (laneW (lMode w) * n) (laneW (lMode w)) := by
  simp only [loadPlane, getD_map_range _ _ hk, loadRow, lanes, getD_map_range _ _ hn]

/-- The modulus by which a column reduces: its own, or 2^(8W) in a ring column (R66). -/
theorem negCol_eq (mode q v : Nat) : negCol mode q v = imod (-(v : Int)) (if 2 ≤ mode ∨ q = 0 then 2 ^ (8 * laneW mode) else q) := by
  unfold negCol
  split <;> rfl

/-- A coefficient whose index passes N is negated where NEG is set (R71). -/
theorem toePlane_element (x : Tile) (l : Nat) {w : Cmd} {k c : Nat} (hk : k < arrayK (lMode w)) (hc : c < arrayN (lMode w)) :
    ((toePlane x l w).rows.getD k []).getD c 0 =
      if ltN w ≤ toeIndex w k c ∧ ltNeg w = true then
        negCol (lMode w) ((toePlane x l w).moduli.getD c 0) (toeCoef x l w (toeWords w) (toeIndex w k c % ltN w))
      else toeCoef x l w (toeWords w) (toeIndex w k c % ltN w) := by
  simp only [toePlane, getD_map_range _ _ hk, getD_map_range _ _ hc]
  by_cases low : toeIndex w k c < ltN w
  · simp [low, Nat.not_le.mpr low]
  · simp [low, Nat.le_of_not_lt low]

theorem exec_mmaLoad {s : State} {t l : Nat} {g : Group} {x : Tile} {e : QEntry} (unarmed : Unarmed s t 3) (hl : l < 2 ^ 40)
    (head : headIs s t 0 .load = some (g, x, e)) (go : issueOf x 0 e (loadStruct x) (loadFull x e) = .go l)
    (turn : inTurn s g t x 0 l e = true)
    (clean : loadViols (footOf s g.handle) x e l (loadReads e.word l) (rowClaims e l) (l + 129) = []) :
    exec (.mmaLoad t) s = .next (setTile s t (loadTile x e l (loadPlane x l e.word) (rowClaims e l) (l + 129))) := by
  show execMmaLoad t s = _
  simp only [execMmaLoad, head, issueCmd_go go hl turn, runLoad_clean unarmed clean]

theorem exec_mmaLoadt {s : State} {t l : Nat} {g : Group} {x : Tile} {e : QEntry} (unarmed : Unarmed s t 3) (hl : l < 2 ^ 40)
    (head : headIs s t 0 .loadt = some (g, x, e)) (go : issueOf x 0 e (loadStruct x) (loadFull x e) = .go l)
    (turn : inTurn s g t x 0 l e = true)
    (clean : loadViols (footOf s g.handle) x e l (toeReads e.word l) (toeClaims e l) (l + 5) = []) :
    exec (.mmaLoadt t) s = .next (setTile s t (loadTile x e l (toePlane x l e.word) (toeClaims e l) (l + 5))) := by
  show execMmaLoadt t s = _
  simp only [execMmaLoadt, head, issueCmd_go go hl turn, runLoad_clean unarmed clean]

/-- Settles O15: both loads leave a plane with the moduli of R70 and the weights of R72, each with the elements of its own rule. -/
theorem mmaLoadsFillThePlane : Obligations.MmaLoadsFillThePlane := by
  intro s t g x e l unarmed hl
  refine ⟨fun head go turn clean => ?load, fun head go turn clean => ?loadt⟩
  case load =>
    exact ⟨_, _, exec_mmaLoad unarmed hl head go turn clean, loaded_loadTile _ _ _ _ _ _ _ rfl rfl rfl,
      fun k n hk hn => loadPlane_element x l hk hn⟩
  case loadt =>
    refine ⟨_, _, exec_mmaLoadt unarmed hl head go turn clean, loaded_loadTile _ _ _ _ _ _ _ rfl rfl rfl, fun k c hk hc => ?_⟩
    exact (toePlane_element x l hk hc).trans (by rw [negCol_eq]; rfl)

end Sys2Proof.Proofs

/-! O16: a MUL whose later rows of A lie on the first rows of its own output (R64, R72, R74, R83). -/

namespace Sys2Proof.Proofs

open Sys2Proof Sys2Proof.Machine Sys2Proof.Claims Sys2Proof.Laws

theorem armedFlip_none {s : State} {t : Nat} (unarmed : Unarmed s t 1) : armedFlip s t = none := by
  unfold armedFlip
  split
  · rfl
  · next i armed => exact if_neg fun h => (unarmed i armed).elim (· h.1) (· h.2)

theorem runMul_clean {s : State} {g : Group} {t c : Nat} {x : Tile} {e : QEntry} (unarmed : Unarmed s t 3) (unflipped : Unarmed s t 1)
    (sound : mulFault (x.planes.get (mPlane e.word) plane0) e.word c (mulRows x e c (mM e.word)) (mM e.word) none = none)
    (clean : mulViols (footOf s g.handle) x e c = []) : runMul s g t x e c = setTile s t (mulTile x e c) := by
  unfold runMul
  rw [fireRead_none unarmed, armedFlip_none unflipped, sound]
  show settleTile s g t _ _ = _
  rw [clean, settleTile_ok]

theorem exec_mmaMul {s : State} {t c : Nat} {g : Group} {x : Tile} {e : QEntry} (unarmed : Unarmed s t 3) (unflipped : Unarmed s t 1)
    (head : headIs s t 0 .mul = some (g, x, e))
    (go : issueOf x 0 e (mulStruct x (x.planes.get (mPlane e.word) plane0).mode) (mulFull x e) = .go c) (hc : c < 2 ^ 40)
    (turn : inTurn s g t x 0 c e = true)
    (sound : mulFault (x.planes.get (mPlane e.word) plane0) e.word c (mulRows x e c (mM e.word)) (mM e.word) none = none)
    (clean : mulViols (footOf s g.handle) x e c = []) : exec (.mmaMul t) s = .next (setTile s t (mulTile x e c)) := by
  show execMmaMul t s = _
  simp only [execMmaMul, head, issueCmd_go go hc turn, runMul_clean unarmed unflipped sound clean]

/-! The checks of a row (R72, R74). -/

theorem reducerMod_pos (mode q : Nat) : 0 < reducerMod mode q := by
  unfold reducerMod
  split
  · exact Nat.two_pow_pos _
  · omega

theorem reduceCol_eq (mode q : Nat) (v : Int) : (reduceCol mode q v : Int) = v % (reducerMod mode q : Int) := by
  have pos : (0 : Int) < reducerMod mode q := Int.ofNat_lt.mpr (reducerMod_pos mode q)
  have same : reduceCol mode q v = imod v (reducerMod mode q) := by
    unfold reduceCol reducerMod
    split <;> rfl
  rw [same, imod, Int.toNat_of_nonneg (Int.emod_nonneg v pos.ne')]

/-- A reducer without a fault passes its check: V is its quotient times the modulus and its residue (R74). -/
theorem reducerOk_true (mode q : Nat) (sum : Int) (cin : Nat) : reducerOk mode q sum cin = true := by
  have split_v := Int.mul_ediv_add_emod (sum + cin) (reducerMod mode q)
  simp only [reducerOk, beq_iff_eq, reducerQuot, Int.natCast_emod, reduceCol_eq]
  calc (sum % 7 + (cin : Int) % 7) % 7
      = (sum + cin) % 7 := (Int.add_emod ..).symm
    _ = ((sum + cin) / (reducerMod mode q : Int) * (reducerMod mode q : Int) + (sum + cin) % (reducerMod mode q : Int)) % 7 := by
        rw [mul_comm, split_v]
    _ = _ := by
        rw [Int.add_emod, Int.mul_emod, Int.emod_add_emod, Nat.cast_ofNat]

/-- A row fails a check only where its checksum column does. -/
theorem mulRowFault_none {p : Plane} {w : Cmd} {c i : Nat} {x : Tile}
    (h : checksumOk (aRow w p.mode (spadBytes x (c + i) ((mAaddr w + i * mAstride w) % spadSize) (mArow w p.mode))) p.weights
      (mulSums p w c x i) = true) : mulRowFault p w c x i none = none := by
  simp [mulRowFault, h, reducerOk_true]

theorem mulFault_none {p : Plane} {w : Cmd} {c n : Nat} {x : Tile} (h : ∀ i, mulRowFault p w c x i none = none) :
    mulFault p w c x n none = none := by
  simp [mulFault, h]

/-! The machine of the counterexample: tile 0 has ended its program with a MUL at the head of Q_MMA, and its task may touch all of
scratchpad. The MUL has 206 rows of one signed byte, row `i` of A at 0x1000 + 64 `i` and of its output at 0x4340 + 64 `i`, so that row 205
of A stands where row 0 of the output commits, one cycle before it is read. The marks of its PUSH are left out, as in the architect's
witnesses: that of output row `j` ends with cycle 205 + `j` (R83), and A meets it in cycle 206 + `j`. -/

/-- The MUL, pushed in cycle 0; it issues in cycle 1. -/
def selfFedMul : QEntry :=
  { word := BitVec.ofNat 256 (0x12 * 2 ^ 248 + 2 ^ 157 + 0x1000 * 2 ^ 134 + 64 * 2 ^ 111 + 0x4340 * 2 ^ 88 + 64 * 2 ^ 65 + 206 * 2 ^ 49 +
      2 ^ 41 + 2 ^ 34),
    pushed := 0, pc := 0, num := 1, scalars := [], desc := none }

/-- The plane of RING32 with B[0][0] = 1. -/
def unitPlane : Plane := { mode := 2, rows := [[1]], moduli := [], weights := [1] }

/-- A[0] is 5, and every other byte of scratchpad 0. -/
def selfFedTile : Tile :=
  { tile0 with status := .ended, spad := Mem.wr [] 0x1000 5, planes := [(0, unitPlane)], queues := [(0, [selfFedMul])] }

/-- An image whose FOOTPRINT is all of scratchpad. -/
def wholeImage : Image := { emptyImage with footprint := 255 }

/-- Its task, as accepted with handle 7. -/
def wholeTask : Entry := newEntry State.reset 0 0 7 0 [] 0 [] (some wholeImage)

/-- The group of that task, with tile 0 started. -/
def wholeGroup : Group := { newGroup State.reset wholeTask wholeImage (0, 0) with started := [0] }

/-- The machine that runs that task, with nothing armed. -/
def selfFed : State :=
  { State.reset with tiles := [(0, selfFedTile)], groups := [wholeGroup], ts := { State.reset.ts with entries := [wholeTask] } }

theorem selfFed_unarmed (k : Nat) : Unarmed selfFed 0 k := fun _ armed => nomatch armed

theorem unitPlane_checksumOk (v : Int) : checksumOk [v] [1] ((List.range 64).map (colSum [v] [[1]])) = true := by
  have sums : (List.range 64).map (colSum [v] [[1]]) = v :: List.replicate 63 0 := by
    rw [List.range_succ_eq_map, List.map_cons, List.map_map]
    simp [colSum, Function.comp_def]
  rw [sums]
  simp [checksumOk, checkSum, imod]

theorem selfFed_aRow (x : Tile) (c a : Nat) :
    aRow selfFedMul.word unitPlane.mode (spadBytes x c a (mArow selfFedMul.word unitPlane.mode)) = [(spadByte x c a).toInt] := by
  have signed : mAfmt selfFedMul.word = true := by decide
  have one : mArow selfFedMul.word unitPlane.mode = 1 := by decide
  rw [aRow, if_pos signed, one]
  rfl

theorem selfFed_sound (x : Tile) : mulFault unitPlane selfFedMul.word 1 x (mM selfFedMul.word) none = none := by
  refine mulFault_none fun i => mulRowFault_none ?_
  unfold mulSums
  simp only [selfFed_aRow]
  exact unitPlane_checksumOk _

theorem selfFed_clean : mulViols (footOf selfFed wholeGroup.handle) selfFedTile selfFedMul 1 = [] := by decide +kernel

theorem selfFed_issues : headIs selfFed 0 0 .mul = some (wholeGroup, selfFedTile, selfFedMul) ∧
    issueOf selfFedTile 0 selfFedMul (mulStruct selfFedTile unitPlane.mode) (mulFull selfFedTile selfFedMul) = .go 1 ∧
      inTurn selfFed wholeGroup 0 selfFedTile 0 1 selfFedMul = true := by decide +kernel

/-- Row 205 commits the 5 that row 0 has committed. -/
theorem selfFed_row : ((mulTile selfFedTile selfFedMul 1).writes[205]?).map (fun r => r.data) = some [5, 0, 0, 0] := by decide +kernel

theorem exec_selfFed : exec (.mmaMul 0) selfFed = .next (setTile selfFed 0 (mulTile selfFedTile selfFedMul 1)) :=
  exec_mmaMul (selfFed_unarmed 3) (selfFed_unarmed 1) selfFed_issues.1 selfFed_issues.2.1 (by decide) selfFed_issues.2.2
    (selfFed_sound _) selfFed_clean

/-- Refutes O16: the statement has row `i` of A as it stood without the rows of the MUL, but a row that is read after one of them has
committed sees it (R83). With A[0] = 5 and B = 1, row 205 of A is the 5 that row 0 left there one cycle before, and 5 is committed where the
statement has 0. -/
theorem not_mmaMulMultipliesModulo : ¬ Obligations.MmaMulMultipliesModulo := by
  unfold Obligations.MmaMulMultipliesModulo
  intro h
  obtain ⟨head, go, turn⟩ := selfFed_issues
  obtain ⟨s', ws, run, -, wrote, -, -, -, -, -, rows⟩ := h selfFed 0 wholeGroup selfFedTile selfFedMul 1 unitPlane (selfFed_unarmed 3)
    (selfFed_unarmed 1) head rfl go (by decide) turn (selfFed_sound _) selfFed_clean
  obtain rfl : setTile selfFed 0 (mulTile selfFedTile selfFedMul 1) = s' := by
    rw [exec_selfFed] at run
    exact Host.Outcome.next.inj run
  rw [tileOf_setTile] at wrote
  have committed : (mulTile selfFedTile selfFedMul 1).writes = ws := by
    obtain ⟨old, appended, -, kept⟩ := wrote (by decide)
    rw [appended, kept (by decide)]
    rfl
  obtain ⟨r, at205, -, -, -, elements⟩ := rows 205 (by decide)
  have data : r.data = [5, 0, 0, 0] := by
    have row := selfFed_row
    rw [committed, at205] at row
    exact Option.some.inj row
  have element := elements 0 (by decide)
  have noAcc : mAcc selfFedMul.word = false := by decide
  simp only [data, noAcc, Bool.false_eq_true, if_false] at element
  exact absurd element (by decide +kernel)

end Sys2Proof.Proofs

/-! O17: the lane operations, the digits and the permutations of the vector engine (R90, R93 to R95). -/

namespace Sys2Proof.Proofs

open Sys2Proof Sys2Proof.Machine

/-! Residues and signed readings (R89, R90, R93). -/

/-- The modulus by which a lane reduces: its own, or 2^w in a ring lane (R90). -/
def laneModulus (w q : Nat) : Nat := if q = 0 then 2 ^ w else q

theorem laneModulus_pos (w q : Nat) : 0 < laneModulus w q := by
  unfold laneModulus
  split
  · exact Nat.two_pow_pos w
  · omega

theorem laneModulus_of_odd (w : Nat) {q : Nat} (odd : q % 2 = 1) : laneModulus w q = q := if_neg (by omega)

theorem modQ_eq_imod (w q : Nat) (v : Int) : modQ w q v = imod v (laneModulus w q) := by
  unfold modQ laneModulus
  split <;> rfl

theorem imod_natCast (n m : Nat) : imod (n : Int) m = n % m := by rw [imod, ← Int.natCast_emod, Int.toNat_natCast]

theorem modQ_natCast (w q n : Nat) : modQ w q (n : Int) = n % laneModulus w q := by rw [modQ_eq_imod, imod_natCast]

theorem natCast_imod (v : Int) {m : Nat} (hm : 0 < m) : (imod v m : Int) = v % m := by
  rw [imod, Int.toNat_of_nonneg (Int.emod_nonneg v (by omega))]

theorem imod_neg {m : Nat} (hm : 0 < m) (x : Nat) : imod (-(x : Int)) m = (m - x % m) % m := by
  have below := Nat.mod_lt x hm
  have same : ((m - x % m : Nat) : Int) = -(x : Int) + m * ((x / m : Nat) + 1) := by
    have parts : ((m * (x / m) + x % m : Nat) : Int) = x := congrArg _ (Nat.div_add_mod x m)
    rw [Nat.cast_sub below.le]
    push_cast at parts ⊢
    linarith
  rw [← imod_natCast, same, imod, imod, Int.add_mul_emod_self_left]

theorem imod_sub_natCast (x : Nat) {b m : Nat} (h : b ≤ m) : imod ((x : Int) - b) m = (x + m - b) % m := by
  have same : ((x + m - b : Nat) : Int) = ((x : Int) - b) + m := by omega
  rw [← imod_natCast, same, imod, imod, Int.add_emod_right]

theorem sext_of_lt {w x : Nat} (h : x < 2 ^ w) : sext w x = if x < 2 ^ (w - 1) then (x : Int) else (x : Int) - 2 ^ w := by
  simp only [sext, Nat.mod_eq_of_lt h, Nat.cast_pow, Nat.cast_ofNat]

/-! The Montgomery factor (R90, R93). -/

theorem powMod_eq (b q n : Nat) : powMod b q n = b ^ n % q := by
  induction n with
  | zero => rfl
  | succ n ih => rw [powMod, ih, Nat.mod_mul_mod, pow_succ]

/-- For odd q the factor is the inverse of 2^w. -/
theorem montFactor_mul {w q : Nat} (odd : q % 2 = 1) : montFactor w q * 2 ^ w ≡ 1 [MOD q] := by
  have half : (q + 1) / 2 * 2 = q + 1 := by omega
  rw [montFactor, if_pos odd, invR, powMod_eq]
  calc ((q + 1) / 2) ^ w % q * 2 ^ w
      ≡ ((q + 1) / 2) ^ w * 2 ^ w [MOD q] := (Nat.mod_modEq _ q).mul_right _
    _ = (q + 1) ^ w := by rw [← Nat.mul_pow, half]
    _ ≡ 1 ^ w [MOD q] := Nat.ModEq.pow w (by simp [Nat.ModEq])
    _ = 1 := one_pow w

/-- The Montgomery product plus `c`, times 2^w, is the plain product plus `c` times 2^w. -/
theorem montgomery_residue {w q : Nat} (odd : q % 2 = 1) (p c : Nat) :
    (p * montFactor w q + c) % q * 2 ^ w % q = (p + c * 2 ^ w) % q := by
  have inv := ((montFactor_mul (w := w) odd).mul_left p).add_right (c * 2 ^ w)
  rw [Nat.mod_mul_mod, Nat.add_mul, Nat.mul_assoc]
  rwa [mul_one] at inv

theorem montFactor_of_even {w q : Nat} (even : q % 2 = 0) : montFactor w q = 1 := by
  rw [montFactor, if_neg (by omega)]

/-! The digits of R94. -/

/-- The carry into digit `i` (R94). -/
def digitCarry (b x : Nat) : Nat → Nat
  | 0 => 0
  | i + 1 => if 2 ^ (b - 1) ≤ x / 2 ^ (b * i) % 2 ^ b + digitCarry b x i then 1 else 0

/-- `u` of digit `i` (R94). -/
def digitSum (b x i : Nat) : Nat := x / 2 ^ (b * i) % 2 ^ b + digitCarry b x i

/-- Digit `i` (R94). -/
def digitAt (b x i : Nat) : Int := if 2 ^ (b - 1) ≤ digitSum b x i then (digitSum b x i : Int) - 2 ^ b else digitSum b x i

/-- Digits at and above bit w have no bits of `x`, which is what R94 says of them. -/
theorem digitSum_eq {w x : Nat} (h : x < 2 ^ w) (b i : Nat) :
    digitSum b x i = (if w ≤ b * i then 0 else x / 2 ^ (b * i) % 2 ^ b) + digitCarry b x i := by
  unfold digitSum
  split
  · next high => rw [Nat.div_eq_of_lt (h.trans_le (Nat.pow_le_pow_right (by decide) high)), Nat.zero_mod]
  · rfl

/-- The loop from digit `i` on leaves the last digit that it passes. -/
theorem digitLoop_eq {w x : Nat} (h : x < 2 ^ w) (b n i : Nat) (d : Int) :
    digitLoop w b x (n + 1) i (digitCarry b x i) d = digitAt b x (i + n) := by
  induction n generalizing i d with
  | zero =>
    rw [digitLoop]
    simp only [← digitSum_eq h, digitLoop, digitAt, Nat.add_zero, Nat.cast_pow, Nat.cast_ofNat]
  | succ n ih =>
    have next : digitCarry b x (i + 1) = if 2 ^ (b - 1) ≤ digitSum b x i then 1 else 0 := rfl
    have rest := ih (i + 1)
    rw [next, Nat.add_right_comm] at rest
    rw [digitLoop]
    simp only [← digitSum_eq h]
    split_ifs at rest ⊢
    · exact rest _
    · exact rest _

theorem digitOf_eq {w x : Nat} (h : x < 2 ^ w) (l b : Nat) : digitOf w x l b = imod (digitAt b x l) (2 ^ w) := by
  have last := digitLoop_eq h b l 0 0
  rw [Nat.zero_add] at last
  exact congrArg (imod · (2 ^ w)) last

/-! One stage on one lane, and on a row (R93, R95). -/

section
variable {w : Nat} {g : Stage} {q x b c : Nat}

/-- MULM and MACM, the former with c = 0: for odd q a Montgomery residue. -/
theorem montgomery_odd (odd : q % 2 = 1) (p : Nat) :
    (p * montFactor w q + c) % laneModulus w q < q ∧ (p * montFactor w q + c) % laneModulus w q * 2 ^ w % q = (p + c * 2 ^ w) % q := by
  rw [laneModulus_of_odd w odd]
  exact ⟨Nat.mod_lt _ (by omega), montgomery_residue odd p c⟩

theorem laneOp_mulm (op : g.op = 0x06) : laneOp w g q x b c = (x * b * montFactor w q + 0) % laneModulus w q := by
  simp only [laneOp, op, modQ_natCast, Nat.add_zero]

theorem laneOp_macm (op : g.op = 0x08) : laneOp w g q x b c = (x * b * montFactor w q + c) % laneModulus w q := by
  simp only [laneOp, op, modQ_natCast]

/-- A negative difference of the centred residue is written modulo 2^w. -/
theorem laneOp_center (hq : q < 2 ^ w) (op : g.op = 0x28) :
    laneOp w g q x b c = if q = 0 then x else if q < 2 * (x % q) then x % q + 2 ^ w - q else x % q := by
  simp only [laneOp, op]
  split_ifs with zero up
  · rfl
  · have below := Nat.mod_lt x (Nat.pos_of_ne_zero zero)
    rw [imod_sub_natCast _ hq.le, Nat.mod_eq_of_lt (by omega)]
  · rfl

theorem laneOp_lift (hx : x < 2 ^ w) (op : g.op = 0x29) :
    laneOp w g q x b c = if q = 0 then x else ((if x < 2 ^ (w - 1) then (x : Int) else (x : Int) - 2 ^ w) % q).toNat := by
  simp only [laneOp, op, sext_of_lt hx, imod]

theorem laneOp_sar (hx : x < 2 ^ w) (op : g.op = 0x1A) :
    (laneOp w g q x b c : Int) = (if x < 2 ^ (w - 1) then (x : Int) else (x : Int) - 2 ^ w) / 2 ^ ((b + g.imm) % w) % 2 ^ w := by
  simp only [laneOp, op, sext_of_lt hx, natCast_imod _ (Nat.two_pow_pos w), Nat.cast_pow, Nat.cast_ofNat]

theorem laneOp_csel (op : g.op = 0x20) : laneOp w g q x b c = if cselHolds w g.imm x b then c else x := by
  simp only [laneOp, op]

theorem laneOp_digit (hx : x < 2 ^ w) (op : g.op = 0x2C) : laneOp w g q x b c = imod (digitAt g.imm2 x g.imm) (2 ^ w) := by
  simp only [laneOp, op, digitOf_eq hx]

end

/-- Output lane `c` of a permutation stage is the lane of its input that R95 names. -/
theorem stageRow_permutation {l : Latch} {streams : List (List Nat)} {tag : Nat} {xs first : List Nat} {g : Stage} {c : Nat}
    (hc : c < chL l.rec_) (perm : 0x30 ≤ g.op ∧ g.op ≤ 0x33) :
    (stageRow l streams tag xs first g).getD c 0 = xs.getD (permLane l g (operandOf l streams first g g.srcb 0) tag c) 0 := by
  rw [stageRow, getD_map_range _ _ hc, if_pos perm]

/-- Settles O17 from the residues, the signed readings, the Montgomery factor and the digits of a lane. -/
theorem vectorLaneOperations : Obligations.VectorLaneOperations := by
  refine ⟨fun l streams tag xs first g c hc => ?permutations, fun w g q x b c m _ hq hx hb hc hm => ?lanes⟩
  case permutations =>
    simp only [List.forall_mem_cons, List.not_mem_nil, false_implies, implies_true, and_true]
    refine ⟨fun op => ?_, fun op => ?_, fun op => ?_, fun op => ?_⟩ <;>
      rw [stageRow_permutation hc (by omega), permLane] <;> simp only [op]
  case lanes =>
    obtain rfl : m = laneModulus w q := hm
    have pos := laneModulus_pos w q
    refine ⟨?listed, fun op => ⟨fun odd => ?mulm, fun even => ?mulm_even⟩, fun op => ⟨fun odd => ?macm, fun even => ?macm_even⟩,
      laneOp_sar hx, fun op => ?rshr, ?csel, fun op _ _ => ?digit⟩
    case listed =>
      simp only [List.forall_mem_cons, List.not_mem_nil, false_implies, implies_true, and_true]
      refine ⟨fun op => ?addm, fun op => ?subm, fun op => ?negm, fun op => ?redm, fun op => ?mulb, fun op => ?macb, fun op => ?msbb,
        fun op => ?add, fun op => ?sub, fun op => ?mul, fun op => ?mulhi, fun op => ?and, fun op => ?or, fun op => ?xor, fun op => ?shl,
        fun op => ?shr, fun op => ?minu, fun op => ?maxu, laneOp_center hq, laneOp_lift hx, fun op => ?t2q, fun op => ?q2t,
        fun op => ?pass, fun op => ?unlisted, fun op => ?last⟩
      case addm | redm | mulb | macb => simp only [laneOp, op, modQ_natCast]
      case subm | msbb => simp only [laneOp, op, modQ_eq_imod, imod, Nat.cast_mul]
      case negm => simp only [laneOp, op, modQ_eq_imod, imod_neg pos]
      case sub => simp only [laneOp, op, imod_sub_natCast x hb.le]
      case add | mul | mulhi | and | or | xor | shl | shr | t2q | q2t | pass | unlisted | last => simp only [laneOp, op]
      case minu => simp only [laneOp, op, min_def]
      case maxu => simp only [laneOp, op, max_def]
    case mulm =>
      have product := montgomery_odd (w := w) (c := 0) odd (x * b)
      rwa [Nat.zero_mul, Nat.add_zero (x * b), ← laneOp_mulm op] at product
    case mulm_even => rw [laneOp_mulm op, montFactor_of_even even, Nat.mul_one, Nat.add_zero]
    case macm =>
      rw [laneOp_macm op]
      exact montgomery_odd odd (x * b)
    case macm_even => rw [laneOp_macm op, montFactor_of_even even, Nat.mul_one]
    case rshr => simp only [laneOp, op]
    case csel =>
      simp only [List.forall_mem_cons, List.not_mem_nil, false_implies, implies_true, and_true]
      refine ⟨fun op cond => ?_, fun op cond => ?_, fun op cond => ?_, fun op cond => ?_, fun op cond => ?_, fun op cond => ?_,
        fun op cond => ?_, fun op cond => ?_⟩ <;>
        simp [laneOp_csel op, cselHolds, cond, sext_of_lt hx, sext_of_lt hb]
    case digit =>
      refine ⟨digitCarry g.imm2 x, rfl, fun _ _ => rfl, ?_⟩
      rw [laneOp_digit hx op, imod, Nat.cast_pow, Nat.cast_ofNat]
      rfl

end Sys2Proof.Proofs

/-! O18: what a set-up command of the VE leaves (R90, R102, R104, R107, R108, R112). -/

namespace Sys2Proof.Proofs

open Sys2Proof Sys2Proof.Machine Sys2Proof.Claims Sys2Proof.Laws

theorem setReleases_frame (x : Tile) (num : Nat) (cs : List Nat) : setReleases x num cs = { x with holds := (setReleases x num cs).holds } := rfl

/-- `f` changes nothing of a tile but the chains, the modulus registers and the tables of its VE. -/
def OnlySetUpState (f : Tile → Tile) : Prop := ∀ y, f y = { y with chains := (f y).chains, qregs := (f y).qregs, perms := (f y).perms }

section
variable (x : Tile) (e : QEntry) (i kind idx ready : Nat) (reads : List (Nat × Nat × Nat)) {f : Tile → Tile}

/-- The tile on which a set-up command leaves its result: it has left its queue and its reads stand in the banks. -/
def setupRead : Tile := addClaims (popIssue x 1 i e).1 (setupClaims e reads)

theorem setupRead_frame : setupRead x e i reads =
    { x with queues := x.queues.put 1 (queueOf x 1).tail, issued := (setupRead x e i reads).issued, sems := (setupRead x e i reads).sems,
             semAt := (setupRead x e i reads).semAt, sigs := (setupRead x e i reads).sigs, claims := (setupRead x e i reads).claims,
             writes := (setupRead x e i reads).writes, marks := (setupRead x e i reads).marks,
             holds := (setupRead x e i reads).holds } := by
  unfold setupRead
  rw [addClaims_frame, popIssue_frame]

theorem setupTile_frame : setupTile x e i kind idx ready reads f =
    { f (setupRead x e i reads) with veHist := (setupTile x e i kind idx ready reads f).veHist,
                                     holds := (setupTile x e i kind idx ready reads f).holds,
                                     sigs := (setupTile x e i kind idx ready reads f).sigs } := by
  unfold setupTile setupRead
  simp only
  rw [cmdSig_frame, setReleases_frame]

theorem setupRead_writes : SameWrites (setupRead x e i reads).writes x.writes := by
  have same := addClaims_writes (popIssue x 1 i e).1 (setupClaims e reads)
  rwa [popIssue_writes] at same

theorem setUp_setupTile (s : State) (t : Nat) (only : OnlySetUpState f) :
    SetUp s (setTile s t (setupTile x e i kind idx ready reads f)) t x := by
  unfold SetUp OnlyTile
  rw [tileOf_setTile, setupTile_frame, only]
  refine ⟨rfl, ?_, ?_, ?_, setupRead_writes x e i reads, ?_⟩ <;> rw [setupRead_frame]
  exact Tbl.get_put_self ..

end

theorem runSetup_clean {s : State} {t i kind idx ready : Nat} {g : Group} {x : Tile} {e : QEntry} {reads : List (Nat × Nat × Nat)}
    {f : Tile → Tile} (unarmed : Unarmed s t 3) (clean : setupViols (footOf s g.handle) x e i kind reads = []) :
    runSetup s g t x e i kind idx ready reads f = setTile s t (setupTile x e i kind idx ready reads f) := by
  unfold runSetup
  rw [clean, settleTile_ok]
  cases reads with
  | nil => rfl
  | cons r rs => simp only [fireRead_none unarmed]

theorem setqLanes_lane (x : Tile) (w : Cmd) (i : Nat) {c : Nat} (hc : c < 64) :
    (setqLanes x w i).getD c 0 = if vqVec w then leNat (spadBytes x (if c < 32 then i else i + 1) (vqAddr w + 8 * c) 8) else lMq w := by
  unfold setqLanes
  split
  · exact getD_map_range _ _ hc
  · rw [List.getD_eq_getElem?_getD, List.getElem?_replicate, if_pos hc, Option.getD_some]

/-- Settles O18: each command changes its own register alone, by a write of its table. -/
theorem vectorSetUp : Obligations.VectorSetUp := by
  intro s t g x e i unarmed hi
  refine ⟨fun head go turn clean => ?setchain, fun head go turn clean => ?setq, fun head go turn clean => ?setperm⟩
  case setchain =>
    refine ⟨_, ?_, setUp_setupTile x e i 1 (vcSlot e.word) 3 [(i, vcAddr e.word, 64)]
      (f := fun y => { y with chains := y.chains.put (vcSlot e.word) (leNat (spadBytes x i (vcAddr e.word) 64)) }) s t fun _ => rfl, ?_⟩
    · show execVeSetchain t s = _
      simp only [execVeSetchain, head, issueCmd_go go hi turn, runSetup_clean unarmed clean]
    · rw [tileOf_setTile, setupTile_frame, setupRead_frame]
      exact ⟨rfl, rfl, fun k => Tbl.get_put ..⟩
  case setq =>
    refine ⟨_, ?_, setUp_setupTile x e i 2 (vqReg e.word) 19 (setqReads e.word i)
      (f := fun y => { y with qregs := y.qregs.put (vqReg e.word) (setqLanes x e.word i) }) s t fun _ => rfl, ?_⟩
    · show execVeSetq t s = _
      simp only [execVeSetq, head, issueCmd_go go hi turn, runSetup_clean unarmed clean]
    · rw [tileOf_setTile, setupTile_frame, setupRead_frame]
      refine ⟨rfl, rfl, fun k other => Tbl.get_put_ne _ _ _ other, fun c hc => ?_⟩
      rw [← setqLanes_lane x e.word i hc]
      exact congrArg (List.getD · c 0) (Tbl.get_put_self ..)
  case setperm =>
    refine ⟨_, ?_, setUp_setupTile x e i 3 (vpTable e.word) 3 [(i, vpAddr e.word, 64)]
      (f := fun y => { y with perms := y.perms.put (vpTable e.word) ((spadBytes x i (vpAddr e.word) 64).map (fun b => b.toNat % 64)) })
      s t fun _ => rfl, ?_⟩
    · show execVeSetperm t s = _
      simp only [execVeSetperm, head, issueCmd_go go hi turn, runSetup_clean unarmed clean]
    · rw [tileOf_setTile, setupTile_frame, setupRead_frame]
      exact ⟨rfl, rfl, fun k other => Tbl.get_put_ne _ _ _ other, Tbl.get_put_self ..⟩

end Sys2Proof.Proofs

/-! O19: the rows that a RUN commits, and the machine on which one of them moves (R88, R97 to R100, R102, R112, R163). -/

namespace Sys2Proof.Proofs

open Sys2Proof Sys2Proof.Machine Sys2Proof.Claims Sys2Proof.Laws

/-! Lists in order. -/

theorem mem_insertBy {α : Type} (le : α → α → Bool) (a b : α) (l : List α) : b ∈ insertBy le a l ↔ b = a ∨ b ∈ l := by
  induction l with
  | nil => simp [insertBy]
  | cons d r ih =>
    simp only [insertBy]
    split_ifs
    · simp
    · simp only [List.mem_cons, ih, or_left_comm]

theorem mem_sortBy {α : Type} (le : α → α → Bool) (b : α) (l : List α) : b ∈ sortBy le l ↔ b ∈ l := by
  induction l with
  | nil => rfl
  | cons a r ih =>
    rw [sortBy, List.foldr_cons, ← sortBy, mem_insertBy, ih, List.mem_cons]

/-- A list that is in order stays as it is. -/
theorem sortBy_of_pairwise {α : Type} {le : α → α → Bool} {l : List α} (sorted : l.Pairwise (fun a b => le a b = true)) :
    sortBy le l = l := by
  induction sorted with
  | nil => rfl
  | @cons a r first _ ih =>
    rw [sortBy, List.foldr_cons, ← sortBy, ih]
    cases r with
    | nil => rfl
    | cons b r => exact if_pos (first b List.mem_cons_self)

/-! Rows that commit add writes of the exact units, and nothing else (R83, R88). -/

/-- `y` is `x` with more writes of the MMA, the VE or the RU, none before cycle `c`. -/
def AddsRows (c : Nat) (x y : Tile) : Prop :=
  ∃ ws, y = { x with writes := x.writes ++ ws } ∧ ∀ w ∈ ws, c ≤ w.cyc ∧ exactUnit w.unit = true

theorem AddsRows.refl (c : Nat) (x : Tile) : AddsRows c x x := ⟨[], by rw [List.append_nil], fun _ none => nomatch none⟩

theorem AddsRows.trans {c : Nat} {x y z : Tile} (first : AddsRows c x y) (second : AddsRows c y z) : AddsRows c x z := by
  obtain ⟨ws, rfl, late⟩ := first
  obtain ⟨vs, rfl, later⟩ := second
  exact ⟨ws ++ vs, by simp only [List.append_assoc], fun w hw => (List.mem_append.mp hw).elim (late w) (later w)⟩

theorem addsRows_putWrite (x : Tile) {k c u : Nat} (a : Nat) (d : List Byte) (num pc : Nat) (late : k ≤ c) (exact_ : exactUnit u = true) :
    AddsRows k x (putWrite x c a d u num pc) := by
  unfold putWrite
  split
  · exact .refl k x
  · exact ⟨_, rfl, by simpa using ⟨late, exact_⟩⟩

theorem addsRows_foldl {c : Nat} {l : List (Nat × (Tile → Tile))} (adds : ∀ p ∈ l, ∀ x, AddsRows c x (p.2 x)) (x : Tile) :
    AddsRows c x (l.foldl (fun y p => p.2 y) x) := by
  induction l generalizing x with
  | nil => exact .refl c x
  | cons p r ih =>
    exact (adds p List.mem_cons_self x).trans (ih (fun q hq => adds q (List.mem_cons_of_mem p hq)) _)

theorem AddsRows.frame {c : Nat} {x y : Tile} (h : AddsRows c x y) : y = { x with writes := y.writes } := by
  obtain ⟨ws, rfl, -⟩ := h
  rfl

/-- No write of the RU comes before the first row of its RUN (R112). -/
theorem ruWrites_late {l : Latch} {w : Cmd} {i : Nat} {vals : List Nat} {p : Nat × Nat × List Byte} (h : p ∈ ruWrites l w i vals) :
    i + runDepth w l.rec_ ≤ p.1 := by
  simp only [ruWrites] at h
  split at h
  · obtain ⟨k, -, rfl⟩ := List.mem_map.mp h
    show _ ≤ _ + 8 + Nat.min _ _
    omega
  · obtain rfl := List.mem_singleton.mp h
    show _ ≤ _ + 8 + _
    omega
  · cases h

theorem addsRows_ruRow (l : Latch) (e : QEntry) (i : Nat) (x : Tile) (k : Nat) : AddsRows (i + runDepth e.word l.rec_) x (ruRow l e i x k) := by
  unfold ruRow
  split
  · exact .refl ..
  · next p found => exact addsRows_putWrite x _ _ _ _ (ruWrites_late (List.mem_of_getElem? found)) rfl

theorem addsRows_runCommits (e : QEntry) (i : Nat) (l : Latch) :
    ∀ p ∈ (Job.run e i l).commits, ∀ x, AddsRows (i + runDepth e.word l.rec_) x (p.2 x) := by
  simp only [Job.commits, List.forall_mem_append, List.forall_mem_map, List.mem_mapIdx]
  constructor
  · exact fun j _ x => addsRows_putWrite x _ _ _ _ (Nat.le_add_right ..) rfl
  · rintro p ⟨k, -, rfl⟩ x
    exact addsRows_ruRow ..

/-- Every row of a job changes the writes and nothing else. -/
theorem commits_frame (j : Job) : ∀ p ∈ j.commits, ∀ x, p.2 x = { x with writes := (p.2 x).writes } := by
  cases j with
  | mul e c ld =>
    simp only [Job.commits, List.forall_mem_map]
    exact fun i _ x => (addsRows_putWrite x _ _ _ _ (Nat.zero_le _) rfl).frame
  | run e i l => exact fun p hp x => (addsRows_runCommits e i l p hp x).frame

theorem foldl_rows_frame {l : List (Nat × (Tile → Tile))} (only : ∀ p ∈ l, ∀ x, p.2 x = { x with writes := (p.2 x).writes }) (x : Tile) :
    l.foldl (fun y p => p.2 y) x = { x with writes := (l.foldl (fun y p => p.2 y) x).writes } := by
  induction l generalizing x with
  | nil => rfl
  | cons p r ih =>
    rw [List.foldl_cons, ih (fun q hq => only q (List.mem_cons_of_mem p hq)), only p List.mem_cons_self x]

/-- Rows under way that read again change the writes and the planes alone (R83). -/
theorem rebuild_frame (x : Tile) : ∃ ws ps, rebuild x = { x with writes := ws, planes := ps } := by
  have only : ∀ p ∈ sortBy (fun (a b : Nat × (Tile → Tile)) => decide (a.1 ≤ b.1)) (x.jobs.map Job.commits).flatten, ∀ y,
      p.2 y = { y with writes := (p.2 y).writes } := by
    simp only [mem_sortBy, List.mem_flatten, List.mem_map]
    rintro p ⟨_, ⟨j, -, rfl⟩, hp⟩
    exact commits_frame j p hp
  exact ⟨_, _, congrArg (fun y : Tile =>
    { y with planes := y.loads.foldl (fun t (p : Nat × Cmd × Nat) => t.put p.1 (planeOf y (some p.2))) y.planes }) (foldl_rows_frame only _)⟩

theorem withRows_frame (x y : Tile) : ∃ ws ps, withRows x y = { y with writes := ws, planes := ps } := by
  unfold withRows
  split
  · exact rebuild_frame y
  · exact ⟨_, _, rfl⟩

theorem foldl_max_bounds {α : Type} (f : α → Nat) (l : List α) (m : Nat) :
    m ≤ l.foldl (fun m r => Nat.max m (f r)) m ∧ ∀ a ∈ l, f a ≤ l.foldl (fun m r => Nat.max m (f r)) m := by
  induction l generalizing m with
  | nil => exact ⟨Nat.le_refl m, fun _ none => nomatch none⟩
  | cons a r ih =>
    obtain ⟨first, rest⟩ := ih (Nat.max m (f a))
    exact ⟨(Nat.le_max_left ..).trans first, List.forall_mem_cons.mpr ⟨(Nat.le_max_right ..).trans first, rest⟩⟩

theorem readLater_settled {x : Tile} {c : Nat} (settled : Settled x c) (a n : Nat) : readLater x c a n = false := by
  simp only [readLater, List.any_eq_false]
  intro r hr
  have before : r.1 ≤ c := ((foldl_max_bounds (fun r => r.1) _ 0).2 r hr).trans settled
  simp [Nat.not_lt.mpr before]

/-- Writes from a cycle on after which no row under way reads leave the rows as they are (R83). -/
theorem withRows_settled {x y : Tile} {c : Nat} (settled : Settled x c) (late : ∀ w ∈ y.writes.drop x.writes.length, c ≤ w.cyc) :
    withRows x y = y := by
  refine if_neg ?_
  simp only [List.any_eq_true, not_exists, not_and, Bool.not_eq_true]
  exact fun w hw => readLater_settled (Nat.le_trans settled (late w hw)) ..

/-! The reads of a row: only writes of earlier cycles matter (R83, R112). -/

theorem lateByte_append (ws vs : List TimedWrite) (c a : Nat) (best : Option (Nat × Byte)) :
    lateByte (ws ++ vs) c a best = lateByte vs c a (lateByte ws c a best) := by
  induction ws generalizing best with
  | nil => rfl
  | cons w r ih =>
    simp only [List.cons_append, lateByte]
    split
    · exact ih best
    · exact ih _

theorem lateByte_later {vs : List TimedWrite} {c : Nat} (later : ∀ w ∈ vs, c ≤ w.cyc) (a : Nat) (best : Option (Nat × Byte)) :
    lateByte vs c a best = best := by
  induction vs with
  | nil => rfl
  | cons w r ih =>
    obtain ⟨first, rest⟩ := List.forall_mem_cons.mp later
    simp only [lateByte, Nat.not_lt.mpr first, decide_false, Bool.false_and, Bool.false_eq_true, if_false, ih rest]
    split <;> rfl

theorem spadBytes_later {ws vs : List TimedWrite} {c : Nat} (later : ∀ w ∈ vs, c ≤ w.cyc) (x : Tile) (a n : Nat) :
    spadBytes { x with writes := ws ++ vs } c a n = spadBytes { x with writes := ws } c a n := by
  simp only [spadBytes, spadByte, lateByte_append, lateByte_later later]

/-- Of two tiles with the same scratchpad, a row depends on the writes alone. -/
theorem runStages_spad {x y : Tile} (spad : x.spad = y.spad) (l : Latch) (w : Cmd) (i j : Nat) (ws : List TimedWrite) :
    runStages l w i { x with writes := ws } j = runStages l w i { y with writes := ws } j := by
  have same : spadBytes { x with writes := ws } = spadBytes { y with writes := ws } := by
    funext c a n
    simp only [spadBytes, spadByte, spad]
  simp only [runStages, same]

theorem runTap_later {ws vs : List TimedWrite} {i j : Nat} (later : ∀ w ∈ vs, i + j ≤ w.cyc) (l : Latch) (w : Cmd) (x : Tile) :
    runTap l w i { x with writes := ws ++ vs } j = runTap l w i { x with writes := ws } j := by
  simp only [runTap, runStages, spadBytes_later later]

/-! The bytes of an output row (R87, R88, R97). -/

theorem length_flatten_leBytes (n : Nat) (vs : List Nat) : ((vs.map (leBytes n)).flatten).length = vs.length * n := by
  induction vs with
  | nil => simp
  | cons v r ih => rw [List.map_cons, List.flatten_cons, List.length_append, length_leBytes, ih, List.length_cons, Nat.succ_mul, Nat.add_comm]

/-- Element `c` of a row of little-endian elements holds the low bytes of its value. -/
theorem le_flatten_leBytes (n : Nat) {vs : List Nat} {c : Nat} (hc : c < vs.length) :
    le ((vs.map (leBytes n)).flatten) (n * c) n = vs.getD c 0 % 2 ^ (8 * n) := by
  rw [Nat.pow_mul, le]
  induction vs generalizing c with
  | nil => cases hc
  | cons v r ih =>
    rw [List.map_cons, List.flatten_cons]
    cases c with
    | zero => rw [Nat.mul_zero, sub_append_here _ (length_leBytes n v), leNat_leBytes]; rfl
    | succ c =>
      rw [sub_append_skip _ _ (by rw [length_leBytes]; exact Nat.le_mul_of_pos_right n (Nat.succ_pos c)), length_leBytes, Nat.mul_succ,
        Nat.add_sub_cancel, ih (Nat.lt_of_succ_lt_succ hc), List.getD_cons_succ]

theorem chL_pos (r : Nat) : 0 < chL r := by
  unfold chL
  split <;> decide

theorem chLanes_pos (r : Nat) : 0 < chLanes r := by
  have lanes := chL_pos r
  unfold chLanes clampMax
  split <;> omega

theorem chLanes_le (r : Nat) : chLanes r ≤ chL r := by
  unfold chLanes clampMax
  split <;> omega

/-- The last stage leaves a lane value for every lane of the row. -/
theorem length_last_chainRows (l : Latch) (streams : List (List Nat)) (tag : Nat) {gs : List Stage} (some_ : gs ≠ []) (xs first : List Nat) :
    ((chainRows l streams tag xs first gs).getLastD []).length = chL l.rec_ := by
  induction gs generalizing xs first with
  | nil => exact absurd rfl some_
  | cons g r ih =>
    simp only [chainRows]
    cases r with
    | nil => simp [chainRows, stageRow]
    | cons h r => exact ih (by simp) _ _

theorem length_last_runStages (l : Latch) (w : Cmd) (i : Nat) (x : Tile) (j : Nat) :
    ((runStages l w i x j).getLastD []).length = chL l.rec_ := by
  refine length_last_chainRows l _ _ ?_ _ _
  simp [chStages, chS]

theorem length_runData (l : Latch) (w : Cmd) (i : Nat) (x : Tile) (j : Nat) :
    (runData l w i x j).length = chLanes l.rec_ * chOsize l.rec_ := by
  rw [runData, length_flatten_leBytes, List.length_take, length_last_runStages, Nat.min_eq_left (chLanes_le _)]

theorem runData_lane (l : Latch) (w : Cmd) (i : Nat) (x : Tile) (j : Nat) {c : Nat} (hc : c < chLanes l.rec_) :
    le (runData l w i x j) (chOsize l.rec_ * c) (chOsize l.rec_) =
      ((runStages l w i x j).getLastD []).getD c 0 % 2 ^ (8 * chOsize l.rec_) := by
  have written : c < (((runStages l w i x j).getLastD []).take (chLanes l.rec_)).length := by
    rwa [List.length_take, length_last_runStages, Nat.min_eq_left (chLanes_le _)]
  rw [runData, le_flatten_leBytes _ written, List.getD_eq_getElem?_getD, List.getElem?_take_of_lt hc, ← List.getD_eq_getElem?_getD]

/-! The output rows of a RUN, one after the other (R88, R97, R112). -/

section
variable (l : Latch) (e : QEntry) (i : Nat) (x : Tile)

/-- The write of row `j` on a tile that the rows before it have been written on. -/
def rowWrite (j : Nat) : TimedWrite :=
  { cyc := i + runDepth e.word l.rec_ + j, addr := (vrOaddr e.word + j * chOstride l.rec_) % spadSize,
    data := runData l e.word i x j, unit := 1, num := e.num, pc := e.pc }

/-- The writes of the first `n` rows: each row reads what those before it have left. -/
def rowWrites : Nat → List TimedWrite
  | 0 => []
  | n + 1 => rowWrites n ++ [rowWrite l e i { x with writes := x.writes ++ rowWrites n } n]

theorem rowWrites_succ (n : Nat) :
    rowWrites l e i x (n + 1) = rowWrites l e i x n ++ [rowWrite l e i { x with writes := x.writes ++ rowWrites l e i x n } n] := rfl

theorem length_rowWrites (n : Nat) : (rowWrites l e i x n).length = n := by
  induction n with
  | zero => rfl
  | succ n ih => rw [rowWrites_succ, List.length_append, ih, List.length_singleton]

/-- The rows from `j` on commit after row `j` has been read. -/
theorem rowWrites_split {j n : Nat} (h : j ≤ n) :
    ∃ vs, rowWrites l e i x n = rowWrites l e i x j ++ vs ∧ ∀ w ∈ vs, i + j ≤ w.cyc := by
  induction n, h using Nat.le_induction with
  | base => exact ⟨[], (List.append_nil _).symm, fun _ none => nomatch none⟩
  | succ n hn ih =>
    obtain ⟨vs, parts, later⟩ := ih
    refine ⟨vs ++ [_], by rw [rowWrites_succ, parts, List.append_assoc], fun w hw => ?_⟩
    rcases List.mem_append.mp hw with old | new
    · exact later w old
    · obtain rfl := List.mem_singleton.mp new
      show i + j ≤ i + _ + n
      omega

theorem rowWrites_take {j n : Nat} (h : j ≤ n) : (rowWrites l e i x n).take j = rowWrites l e i x j := by
  obtain ⟨vs, parts, -⟩ := rowWrites_split l e i x h
  rw [parts, List.take_left' (length_rowWrites ..)]

theorem rowWrites_get {j n : Nat} (h : j < n) :
    (rowWrites l e i x n)[j]? = some (rowWrite l e i { x with writes := x.writes ++ rowWrites l e i x j } j) := by
  rw [← List.getElem?_take_of_lt (Nat.lt_succ_self j), rowWrites_take l e i x h, rowWrites_succ,
    List.getElem?_append_right (length_rowWrites ..).le, length_rowWrites, Nat.sub_self]
  rfl

theorem rowWrites_congr {x y : Tile} (writes : x.writes = y.writes) (spad : x.spad = y.spad) (n : Nat) :
    rowWrites l e i x n = rowWrites l e i y n := by
  induction n with
  | zero => rfl
  | succ n ih => rw [rowWrites_succ, rowWrites_succ, ih, writes, rowWrite, runData, runStages_spad spad, ← runData, ← rowWrite]

/-- With an output every row commits one write (R97). -/
theorem runRow_eq (output : 0 < chOsize l.rec_) (j : Nat) : runRow l e i x j = { x with writes := x.writes ++ [rowWrite l e i x j] } := by
  have bytes : (runData l e.word i x j).isEmpty = false := by
    rw [List.isEmpty_eq_false_iff, ← List.length_pos_iff, length_runData]
    exact Nat.mul_pos (chLanes_pos _) output
  simp only [runRow, putWrite, bytes, Bool.false_eq_true, if_false, Nat.mod_mod, rowWrite]

theorem foldl_runRow (output : 0 < chOsize l.rec_) (n : Nat) :
    (List.range n).foldl (runRow l e i) x = { x with writes := x.writes ++ rowWrites l e i x n } := by
  induction n with
  | zero => simp [rowWrites]
  | succ n ih =>
    rw [List.range_succ, List.foldl_append, ih, List.foldl_cons, List.foldl_nil, runRow_eq l e i _ output, rowWrites_succ, List.append_assoc]

end

/-! The commits of a RUN in order (R112). -/

theorem ruWrites_none {l : Latch} (none_ : chRmode l.rec_ = 0) (w : Cmd) (i : Nat) (vals : List Nat) : ruWrites l w i vals = [] := by
  simp only [ruWrites, none_]

theorem ruWrites_total {l : Latch} (total : chRmode l.rec_ = 2) (w : Cmd) (i : Nat) (vals : List Nat) :
    ruWrites l w i vals =
      [(i + runDepth w l.rec_ + 8 + vrM w, vrRaddr w l.rec_, leBytes (chW l.rec_ / 8) (ruOp l vals))] := by
  simp only [ruWrites, total]

theorem pairwise_rowCommits (l : Latch) (e : QEntry) (i n : Nat) :
    ((List.range n).map (fun j => (i + runDepth e.word l.rec_ + j, fun x => runRow l e i x j))).Pairwise
      (fun (a b : Nat × (Tile → Tile)) => decide (a.1 ≤ b.1) = true) := by
  rw [List.pairwise_map]
  refine List.pairwise_lt_range.imp fun {a b} h => ?_
  simp only [decide_eq_true_eq]
  omega

/-- The write of the RU of a RUN with RMODE 2, from the values of its rows (R100). -/
def totalWrite (l : Latch) (e : QEntry) (i : Nat) (vals : List Nat) : TimedWrite :=
  { cyc := i + runDepth e.word l.rec_ + 8 + vrM e.word, addr := vrRaddr e.word l.rec_ % spadSize,
    data := leBytes (chW l.rec_ / 8) (ruOp l vals), unit := 7, num := e.num, pc := e.pc }

theorem ruRow_total {l : Latch} (total : chRmode l.rec_ = 2) (e : QEntry) (i : Nat) (x : Tile) :
    ruRow l e i x 0 = { x with writes := x.writes ++ [totalWrite l e i (runVals l e.word i x)] } := by
  have bytes : (leBytes (chW l.rec_ / 8) (ruOp l (runVals l e.word i x))).isEmpty = false := by
    rw [List.isEmpty_eq_false_iff, ← List.length_pos_iff, length_leBytes]
    unfold chW
    split <;> decide
  simp only [ruRow, ruWrites_total total, List.getElem?_cons_zero, putWrite, bytes, Bool.false_eq_true, if_false, totalWrite]

section
variable (l : Latch) (e : QEntry) (i : Nat) (x : Tile)

/-- The values of the rows of a RUN, each as the tile stands with the rows before it (R99). -/
def tapValues : List Nat :=
  (List.range (vrM e.word)).map (fun j => runTap l e.word i { x with writes := x.writes ++ rowWrites l e i x j } j)

/-- The values of the rows do not depend on the rows that commit after they have been read. -/
theorem runVals_rows : runVals l e.word i { x with writes := x.writes ++ rowWrites l e i x (vrM e.word) } = tapValues l e i x := by
  refine List.map_congr_left fun j hj => ?_
  obtain ⟨vs, parts, later⟩ := rowWrites_split l e i x (List.mem_range.mp hj).le
  rw [parts, ← List.append_assoc, runTap_later later]

theorem tapValues_congr {x y : Tile} (writes : x.writes = y.writes) (spad : x.spad = y.spad) : tapValues l e i x = tapValues l e i y := by
  refine List.map_congr_left fun j _ => ?_
  rw [rowWrites_congr l e i writes spad, writes, runTap, runStages_spad spad, ← runTap]

variable {l}

/-- What the rows of a RUN write where it has an output and no reduction. -/
theorem commits_rows (none_ : chRmode l.rec_ = 0) (output : 0 < chOsize l.rec_) :
    ((sortBy (fun (a b : Nat × (Tile → Tile)) => decide (a.1 ≤ b.1)) (Job.run e i l).commits).foldl (fun y r => r.2 y) x).writes =
      x.writes ++ rowWrites l e i x (vrM e.word) := by
  simp only [Job.commits, ruWrites_none none_, List.mapIdx_nil, List.append_nil]
  rw [sortBy_of_pairwise (pairwise_rowCommits ..), List.foldl_map, foldl_runRow _ _ _ _ output]

/-- What the rows of a RUN write where it has an output and one result of all rows. -/
theorem commits_total (total : chRmode l.rec_ = 2) (output : 0 < chOsize l.rec_) :
    ((sortBy (fun (a b : Nat × (Tile → Tile)) => decide (a.1 ≤ b.1)) (Job.run e i l).commits).foldl (fun y r => r.2 y) x).writes =
      x.writes ++ (rowWrites l e i x (vrM e.word) ++ [totalWrite l e i (tapValues l e i x)]) := by
  have sorted : (Job.run e i l).commits.Pairwise (fun a b => decide (a.1 ≤ b.1) = true) := by
    simp only [Job.commits, ruWrites_total total, List.mapIdx_cons, List.mapIdx_nil]
    refine List.pairwise_append.mpr ⟨pairwise_rowCommits .., List.pairwise_singleton _ _, ?_⟩
    simp only [List.forall_mem_map, List.mem_range, List.mem_singleton, forall_eq, decide_eq_true_eq]
    omega
  rw [sortBy_of_pairwise sorted]
  simp only [Job.commits, ruWrites_total total, List.mapIdx_cons, List.mapIdx_nil]
  rw [List.foldl_append, List.foldl_map, foldl_runRow _ _ _ _ output, List.foldl_cons, List.foldl_nil]
  simp only [ruRow_total total, runVals_rows, List.append_assoc]

end

/-! A RUN on its tile (R102, R112). -/

section
variable {x : Tile} {e : QEntry} {i : Nat}

theorem runMarked_frame (x : Tile) (e : QEntry) (i : Nat) :
    runMarked x e i = { (popIssue x 1 i e).1 with marks := (runMarked x e i).marks } := rfl

theorem runMarked_writes (x : Tile) (e : QEntry) (i : Nat) : (runMarked x e i).writes = x.writes := by rw [runMarked_frame, popIssue_writes]

theorem runMarked_spad (x : Tile) (e : QEntry) (i : Nat) : (runMarked x e i).spad = x.spad := by rw [runMarked_frame, popIssue_frame]

theorem runRows_rows (none_ : chRmode (runLatch x e).rec_ = 0) (output : 0 < chOsize (runLatch x e).rec_) :
    (runRows x e i).writes = x.writes ++ rowWrites (runLatch x e) e i x (vrM e.word) := by
  rw [runRows, commits_rows _ _ _ none_ output, runMarked_writes, rowWrites_congr _ _ _ (runMarked_writes x e i) (runMarked_spad x e i)]

theorem runRows_total (total : chRmode (runLatch x e).rec_ = 2) (output : 0 < chOsize (runLatch x e).rec_) :
    (runRows x e i).writes =
      x.writes ++ (rowWrites (runLatch x e) e i x (vrM e.word) ++ [totalWrite (runLatch x e) e i (tapValues (runLatch x e) e i x)]) := by
  rw [runRows, commits_total _ _ _ total output, runMarked_writes, rowWrites_congr _ _ _ (runMarked_writes x e i) (runMarked_spad x e i),
    tapValues_congr _ _ _ (runMarked_writes x e i) (runMarked_spad x e i)]

/-- In every mode the rows of a RUN add writes from the first commit on, and change nothing else. -/
theorem addsRows_runRows (x : Tile) (e : QEntry) (i : Nat) :
    AddsRows (i + runDepth e.word (runLatch x e).rec_) (runMarked x e i) (runRows x e i) :=
  addsRows_foldl (fun p hp => addsRows_runCommits e i _ p ((mem_sortBy ..).mp hp)) _

end

/-- `y` is `x` without the head of Q_VE, and has its registers, its scratchpad and its set-up state. -/
def IssuedVe (x y : Tile) : Prop :=
  queueOf y 1 = (queueOf x 1).tail ∧ y.regs = x.regs ∧ y.spad = x.spad ∧ y.chains = x.chains ∧ y.qregs = x.qregs ∧ y.perms = x.perms

theorem issuedVe_runRows (x : Tile) (e : QEntry) (i : Nat) : IssuedVe x (runRows x e i) := by
  rw [(addsRows_runRows x e i).frame, runMarked_frame, popIssue_frame]
  exact ⟨Tbl.get_put_self .., rfl, rfl, rfl, rfl, rfl⟩

theorem IssuedVe.addClaims {x y : Tile} (h : IssuedVe x y) (ks : List Claim) : IssuedVe x (addClaims y ks) := by
  rw [addClaims_frame]
  exact h

theorem IssuedVe.withRows {x y : Tile} (h : IssuedVe x y) (z : Tile) : IssuedVe x (withRows z y) := by
  obtain ⟨ws, ps, rows⟩ := withRows_frame z y
  rw [rows]
  exact h

/-- A RUN's tile is that of its rows, on which its accesses stand, once the rows under way have read again. -/
theorem runTile_eq (x : Tile) (e : QEntry) (i : Nat) : ∃ y, runTile x e i = withRows x y ∧ IssuedVe x y ∧
    y.writes = (addClaims (runRows x e i) (runClaims (runLatch x e) e i (runRu x e i))).writes := by
  refine ⟨_, rfl, ?_, ?_⟩ <;> rw [cmdSig_frame, setReleases_frame]
  exact (issuedVe_runRows x e i).addClaims (runClaims (runLatch x e) e i (runRu x e i))

theorem issuedVe_runTile (x : Tile) (e : QEntry) (i : Nat) : IssuedVe x (runTile x e i) := by
  obtain ⟨y, run, issued, -⟩ := runTile_eq x e i
  rw [run]
  exact issued.withRows x

/-! Accesses that give way to a RUN (R163). -/

/-- The accesses of the lower ranks are those of Q_SP, of the stream engines and of remote tiles, as R163 has them. -/
def LowUnits (x : Tile) : Prop := ∀ k ∈ x.claims, coreRank < k.rank → exactUnit k.unit = false

/-- What gives way to a new access takes no row of the MMA, the VE or the RU with it. -/
theorem isWriteOf_row {x y : Tile} (low : LowUnits x) {w : TimedWrite} (row : exactUnit w.unit = true) :
    (movedClaims x y).find? (isWriteOf w) = none := by
  rw [List.find?_eq_none]
  intro k moved takes
  obtain ⟨stands, lower⟩ := List.mem_filter.mp moved
  simp only [Bool.and_eq_true, decide_eq_true_eq] at lower
  simp only [isWriteOf, Bool.and_eq_true, beq_iff_eq] at takes
  obtain ⟨⟨⟨-, unit⟩, -⟩, -⟩ := takes
  rw [unit, low k stands lower.1] at row
  cases row

theorem resettle_rows {x y : Tile} (low : LowUnits x) {pre ws : List TimedWrite} (parts : y.writes = pre ++ ws)
    (rows : ∀ w ∈ ws, exactUnit w.unit = true) : ∃ old, (resettle x y).writes = old ++ ws ∧ old.length = pre.length := by
  unfold resettle
  simp only
  split
  · exact ⟨pre, parts, rfl⟩
  · simp only [parts, List.map_append]
    refine ⟨_, congrArg (_ ++ ·) ((List.map_congr_left fun w hw => ?_).trans (List.map_id ws)), List.length_map _⟩
    rw [isWriteOf_row low (rows w hw), id]

theorem addClaims_rows {x : Tile} (low : LowUnits x) (ks : List Claim) {pre ws : List TimedWrite} (parts : x.writes = pre ++ ws)
    (rows : ∀ w ∈ ws, exactUnit w.unit = true) : ∃ old, (addClaims x ks).writes = old ++ ws ∧ old.length = pre.length := by
  unfold addClaims
  simp only
  split
  · exact ⟨pre, parts, rfl⟩
  · refine resettle_rows low ?_ rows
    rw [grantAll_frame]
    exact parts

/-- Without accesses of the lower ranks nothing gives way. -/
theorem addClaims_noLowRanks {x : Tile} (none_ : NoLowRanks x) (ks : List Claim) : (addClaims x ks).writes = x.writes := by
  have noHit : x.claims.filter (fun l => decide (coreRank < l.rank) && ks.any (fun k => decide (k.rank < l.rank) &&
      (claimAt k l.c0).any (fun a => bankOf a == claimBank l))) = [] := by
    rw [List.filter_eq_nil_iff]
    intro k stands
    simp [coreRank, Nat.not_lt.mpr (none_ k stands)]
  unfold addClaims
  simp only [noHit, List.isEmpty_nil, if_true]

/-- Where only Q_SP, the stream engines and remote tiles have the lower ranks, a RUN has written its rows as they stand (R112). -/
theorem wroteRows_runTile {x : Tile} (low : LowUnits x) {e : QEntry} {i : Nat} {ws : List TimedWrite}
    (rows : (runRows x e i).writes = x.writes ++ ws) :
    WroteRows x (runTile x e i) (i + runDepth e.word (runLatch x e).rec_) ws := by
  intro settled
  obtain ⟨us, added, each⟩ := addsRows_runRows x e i
  have claims : (runRows x e i).claims = x.claims := by rw [added, runMarked_frame, popIssue_frame]
  obtain rfl : us = ws := by
    have same := congrArg Tile.writes added
    rw [rows, runMarked_writes] at same
    exact (List.append_cancel_left same).symm
  have low' : LowUnits (runRows x e i) := by rwa [LowUnits, claims]
  obtain ⟨old, kept, length⟩ := addClaims_rows low' (runClaims (runLatch x e) e i (runRu x e i)) rows fun w hw => (each w hw).2
  have same : SameWrites (old ++ us) (x.writes ++ us) := by
    rw [← kept, ← rows]
    exact addClaims_writes ..
  rw [SameWrites, List.map_append, List.map_append] at same
  obtain ⟨y, run, -, writes⟩ := runTile_eq x e i
  rw [run, withRows_settled settled]
  · refine ⟨old, writes.trans kept, List.append_cancel_right same, fun noLow => ?_⟩
    rw [addClaims_noLowRanks (by rwa [NoLowRanks, claims]), rows] at kept
    exact (List.append_cancel_right kept).symm
  · rw [writes, kept, List.drop_left' length]
    exact fun w hw => (each w hw).1

/-! What a RUN leaves (R88, R97 to R100, R102, R112). -/

theorem runRun_clean {s : State} {g : Group} {t i : Nat} {x : Tile} {e : QEntry} (unarmed : Unarmed s t 3) (unarmedRow : Unarmed s t 2)
    (clean : runViols (footOf s g.handle) x e i = []) : runRun s g t x e i = setTile s t (runTile x e i) := by
  unfold runRun
  rw [fireRead_none unarmed, fire_none unarmedRow, clean]
  rfl

theorem exec_veRun {s : State} {t i : Nat} {g : Group} {x : Tile} {e : QEntry} (unarmed : Unarmed s t 3) (unarmedRow : Unarmed s t 2)
    (head : headIs s t 1 .run = some (g, x, e))
    (go : issueOf x 1 e (runStruct x e.word (runLatch x e).rec_) (runFull x e.word (runLatch x e).rec_) = .go i) (hi : i < 2 ^ 40)
    (turn : inTurn s g t x 1 i e = true) (clean : runViols (footOf s g.handle) x e i = []) :
    exec (.veRun t) s = .next (setTile s t (runTile x e i)) := by
  show execVeRun t s = _
  simp only [execVeRun, head, issueCmd_go go hi turn, runRun_clean unarmed unarmedRow clean]

section
variable (l : Latch) (e : QEntry) (i : Nat) (x : Tile)

/-- The writes are the output rows of the RUN, as O19 has them: cycle, address and lanes (R97, R112). -/
def OutputRows (ws : List TimedWrite) : Prop :=
  ws.length = vrM e.word ∧ ∀ j, j < vrM e.word → ∃ r, ws[j]? = some r ∧
    r.cyc = i + vrD e.word l.rec_ + 4 * chS l.rec_ + j ∧ r.addr = (vrOaddr e.word + j * chOstride l.rec_) % 0x800000 ∧
    r.data.length = chLanes l.rec_ * chOsize l.rec_ ∧
    ∀ c, c < chLanes l.rec_ → le r.data (chOsize l.rec_ * c) (chOsize l.rec_) =
      ((runStages l e.word i { x with writes := x.writes ++ ws.take j } j).getLastD []).getD c 0 % 2 ^ (8 * chOsize l.rec_)

/-- The last write is the one result of a RUN with RMODE 2, as O19 has it (R100, R112). -/
def TotalLast (ws : List TimedWrite) : Prop :=
  ∃ r, ws.getLast? = some r ∧ r.unit = 7 ∧ r.cyc = i + vrD e.word l.rec_ + 4 * chS l.rec_ + 8 + vrM e.word ∧
    r.addr = vrRaddr e.word l.rec_ % 0x800000 ∧
    r.data = leBytes (chW l.rec_ / 8) (ruOp l ((List.range (vrM e.word)).map (fun j =>
      runTap l e.word i { x with writes := x.writes ++ ws.take j } j)))

theorem outputRows_rowWrites : OutputRows l e i x (rowWrites l e i x (vrM e.word)) := by
  refine ⟨length_rowWrites .., fun j hj => ⟨_, rowWrites_get l e i x hj, ?_, rfl, length_runData .., fun c hc => ?_⟩⟩
  · simp only [rowWrite, runDepth, Nat.add_assoc]
  · rw [rowWrites_take l e i x hj.le]
    exact runData_lane l e.word i _ j hc

theorem totalLast_totalWrite : TotalLast l e i x (rowWrites l e i x (vrM e.word) ++ [totalWrite l e i (tapValues l e i x)]) := by
  refine ⟨_, List.getLast?_concat, rfl, ?_, rfl, ?_⟩
  · simp only [totalWrite, runDepth, Nat.add_assoc]
  · refine congrArg (fun vals => leBytes _ (ruOp l vals)) (List.map_congr_left fun j hj => ?_)
    have before : j ≤ vrM e.word := (List.mem_range.mp hj).le
    rw [List.take_append_of_le_length (by rwa [length_rowWrites]), rowWrites_take l e i x before]

end

/-- The writes that a RUN adds, in the modes that O19 speaks of one by one. -/
theorem veRun_writes {x : Tile} (e : QEntry) (i : Nat) (low : LowUnits x) : ∃ ws,
    WroteRows x (runTile x e i) (i + runDepth e.word (runLatch x e).rec_) ws ∧
      (0 < chOsize (runLatch x e).rec_ → (chRmode (runLatch x e).rec_ = 0 → ws = rowWrites (runLatch x e) e i x (vrM e.word)) ∧
        (chRmode (runLatch x e).rec_ = 2 →
          ws = rowWrites (runLatch x e) e i x (vrM e.word) ++ [totalWrite (runLatch x e) e i (tapValues (runLatch x e) e i x)])) := by
  obtain ⟨ws, added, -⟩ := addsRows_runRows x e i
  have rows : (runRows x e i).writes = x.writes ++ ws := by rw [added, runMarked_writes]
  refine ⟨ws, wroteRows_runTile low rows, fun output => ⟨fun none_ => ?_, fun total => ?_⟩⟩
  · exact List.append_cancel_left (rows.symm.trans (runRows_rows none_ output))
  · exact List.append_cancel_left (rows.symm.trans (runRows_total total output))

/-- All that O19 says, where only Q_SP, the stream engines and remote tiles have accesses of the lower ranks. -/
theorem veRun_writesItsRows {s : State} {t i : Nat} {g : Group} {x : Tile} {e : QEntry} {l : Latch} (unarmed : Unarmed s t 3)
    (unarmedRow : Unarmed s t 2) (head : headIs s t 1 .run = some (g, x, e)) (latch : l = runLatch x e)
    (go : issueOf x 1 e (runStruct x e.word l.rec_) (runFull x e.word l.rec_) = .go i) (hi : i < 2 ^ 40)
    (turn : inTurn s g t x 1 i e = true) (clean : runViols (footOf s g.handle) x e i = []) (low : LowUnits x) :
    ∃ s' ws, exec (.veRun t) s = .next s' ∧ OnlyTile s s' t ∧ WroteRows x (tileOf s' t) (i + runDepth e.word l.rec_) ws ∧
      IssuedVe x (tileOf s' t) ∧
      (chRmode l.rec_ = 0 → 0 < chOsize l.rec_ → OutputRows l e i x ws) ∧
      (chRmode l.rec_ = 2 → 0 < chOsize l.rec_ → TotalLast l e i x ws) := by
  subst latch
  obtain ⟨ws, wrote, exactly⟩ := veRun_writes e i low
  refine ⟨_, ws, exec_veRun unarmed unarmedRow head go hi turn clean, ?_, ?_, ?_, fun none_ output => ?_, fun total output => ?_⟩
  · rw [OnlyTile, tileOf_setTile]
  · rwa [tileOf_setTile]
  · rw [tileOf_setTile]
    exact issuedVe_runTile x e i
  · rw [(exactly output).1 none_]
    exact outputRows_rowWrites ..
  · rw [(exactly output).2 total]
    exact totalLast_totalWrite ..

/-- The architect's RUN of one row, whose tile has no access of a lower rank, meets `veRun_writesItsRows`. -/
theorem veRun_writesItsRows_witness : ∃ s' ws, exec (.veRun 0) (Tests.wholeFoot (Tests.runTile 0)) = .next s' ∧
    OutputRows (runLatch (Tests.runTile 0) (Tests.headE Tests.cRun)) (Tests.headE Tests.cRun) 4 (Tests.runTile 0) ws := by
  obtain ⟨meets, unarmed, unarmedRow⟩ := Tests.witness_VectorRunWritesItsRows
  obtain ⟨head, go, turn, -, clean, none_, output⟩ := meets 0 List.mem_cons_self
  obtain ⟨s', ws, run, -, -, -, rows, -⟩ :=
    veRun_writesItsRows unarmed unarmedRow head rfl go (by decide) turn clean fun _ stands => nomatch stands
  exact ⟨s', ws, run, rows none_ output⟩

/-! The machine of the counterexample: tile 0 has a RUN at the head of Q_VE whose one row of one lane commits in cycle 11 at 0x1000. In that
cycle an access of a lower rank stands in the bank, and it is entered under the unit and the number of the RUN itself. `LowUnits` rules this
out, and O19 does not. -/

/-- The RUN, pushed in cycle 0; it issues in cycle 1. -/
def displacedRun : QEntry :=
  { word := BitVec.ofNat 256 (0x24 * 2 ^ 248 + 2 ^ 245 + 2 ^ 134 + 0x40 * 2 ^ 117), pushed := 0, pc := 0, num := 1, scalars := [], desc := none }

/-- An access of the lowest rank to the word of the RUN's row, in the cycle in which the row commits, with the RUN's unit and number. -/
def displacedAccess : Claim :=
  { num := 1, unit := 1, pc := 0, rank := lowRank, c0 := 11, step := 1, nw := 1, write := true, addrs := [0x1000] }

/-- The chain has one stage, OSIZE of 4 bytes, one lane and no reduction: bits 440 and 441 of its record (R105). -/
def displacedTile : Tile :=
  { tile0 with status := .ended, chains := [(0, 6 * 2 ^ 200 * 2 ^ 239)], queues := [(1, [displacedRun])], claims := [displacedAccess] }

/-- The machine that runs the task of `wholeGroup` on that tile, with nothing armed. -/
def displaced : State :=
  { State.reset with tiles := [(0, displacedTile)], groups := [wholeGroup], ts := { State.reset.ts with entries := [wholeTask] } }

theorem displaced_unarmed (k : Nat) : Unarmed displaced 0 k := fun _ armed => nomatch armed

theorem displaced_issues : headIs displaced 0 1 .run = some (wholeGroup, displacedTile, displacedRun) ∧
    issueOf displacedTile 1 displacedRun (runStruct displacedTile displacedRun.word (runLatch displacedTile displacedRun).rec_)
      (runFull displacedTile displacedRun.word (runLatch displacedTile displacedRun).rec_) = .go 1 ∧
    inTurn displaced wholeGroup 0 displacedTile 1 1 displacedRun = true := by decide +kernel

theorem displaced_clean : runViols (footOf displaced wholeGroup.handle) displacedTile displacedRun 1 = [] := by decide +kernel

/-- The access gives way to the row, and the row moves with it. -/
theorem displaced_row : (runTile displacedTile displacedRun 1).writes.map (fun w => w.cyc) = [12] := by decide +kernel

/-- Refutes O19: the statement is about every tile, also one in which an access of a lower rank bears the unit and the number of the RUN. The
RUN's row takes its bank, the access gives way (R163), and the model moves the write of its unit, number, cycle and word with it: the row commits
in cycle 12 where the statement has 11. Only Q_SP, the stream engines and remote tiles have such ranks; of tiles in which this holds
`veRun_writesItsRows` proves the whole of O19. -/
theorem not_vectorRunWritesItsRows : ¬ Obligations.VectorRunWritesItsRows := by
  unfold Obligations.VectorRunWritesItsRows
  intro h
  obtain ⟨head, go, turn⟩ := displaced_issues
  obtain ⟨s', ws, run, -, wrote, -, -, -, -, -, -, rows, -⟩ := h displaced 0 wholeGroup displacedTile displacedRun 1 _
    (displaced_unarmed 3) (displaced_unarmed 2) head rfl go (by decide) turn displaced_clean
  obtain rfl : setTile displaced 0 (runTile displacedTile displacedRun 1) = s' := by
    rw [exec_veRun (displaced_unarmed 3) (displaced_unarmed 2) head go (by decide) turn displaced_clean] at run
    exact Host.Outcome.next.inj run
  rw [tileOf_setTile] at wrote
  obtain ⟨old, appended, same, -⟩ := wrote (by decide)
  have unwritten : displacedTile.writes = [] := rfl
  rw [SameWrites, unwritten, List.map_nil, List.map_eq_nil_iff] at same
  obtain ⟨r, first, cycle, -⟩ := (rows (by decide) (by decide)).2 0 (by decide)
  have moved : r.cyc = 12 := by
    have row := displaced_row
    rw [appended, same, List.nil_append] at row
    have at0 := congrArg (fun l => l[0]?) row
    rw [List.getElem?_map, first] at at0
    exact Option.some.inj at0
  rw [moved] at cycle
  exact absurd cycle (by decide)

end Sys2Proof.Proofs

/-! O1 to O4: the register file, and the core instructions that write one register from their operands (R127, R130, R132). -/

namespace Sys2Proof.Proofs

open Sys2Proof Sys2Proof.Machine Sys2Proof.Claims Sys2Proof.Laws

/-- Settles O1 from what a register reads as after a write. -/
theorem scalarRegisterFile : Obligations.ScalarRegisterFile := by
  intro x n m r v
  refine ⟨fun outside => ⟨if_pos outside, if_pos outside⟩, fun pos below => ⟨?same, fun other => ?other⟩⟩
  case same => rw [regOf_putReg, if_pos ⟨rfl, pos, below⟩]
  case other => rw [regOf_putReg, if_neg fun h => other h.1]

/-! The results as R130 words them. -/

theorem shiftLeft_eq_ofNat (a : Word64) (k : Nat) : a <<< k = BitVec.ofNat 64 (a.toNat * 2 ^ k) := by
  apply BitVec.eq_of_toNat_eq
  rw [BitVec.toNat_shiftLeft, BitVec.toNat_ofNat, Nat.shiftLeft_eq]

theorem ushiftRight_eq_ofNat (a : Word64) (k : Nat) : a >>> k = BitVec.ofNat 64 (a.toNat / 2 ^ k) := by
  apply BitVec.eq_of_toNat_eq
  rw [BitVec.toNat_ushiftRight, BitVec.toNat_ofNat, Nat.shiftRight_eq_div_pow,
    Nat.mod_eq_of_lt ((Nat.div_le_self ..).trans_lt a.isLt)]

theorem sshiftRight_eq_ofInt (a : Word64) (k : Nat) : a.sshiftRight k = BitVec.ofInt 64 (a.toInt / 2 ^ k) := by
  rw [BitVec.sshiftRight, Int.shiftRight_eq_div_pow, Nat.cast_pow, Nat.cast_ofNat]

theorem mul_eq_ofNat (a b : Word64) : a * b = BitVec.ofNat 64 (a.toNat * b.toNat) := by
  apply BitVec.eq_of_toNat_eq
  rw [BitVec.toNat_mul, BitVec.toNat_ofNat]

theorem ite_slt {α : Type} (a b : Word64) (u v : α) : (if a.slt b then u else v) = if a.toInt < b.toInt then u else v := by
  simp only [BitVec.slt, decide_eq_true_eq]

theorem ite_ult {α : Type} (a b : Word64) (u v : α) : (if a.ult b then u else v) = if a.toNat < b.toNat then u else v := by
  simp only [BitVec.ult, decide_eq_true_eq]

theorem flag64_slt (a b : Word64) : flag64 (a.slt b) = if a.toInt < b.toInt then 1 else 0 := ite_slt a b 1 0

theorem flag64_ult (a b : Word64) : flag64 (a.ult b) = if a.toNat < b.toNat then 1 else 0 := ite_ult a b 1 0

/-! Immediate forms. -/

theorem immInstr_next {row : String} {op t : Nat} {s : State} {g : Group} {x : Tile} {w c : Nat} (unarmed : Unarmed s t 4)
    (ready : CoreReady s t op (fun w => [iD w, iA w]) g x w c) (f : Word64 → Word64 → Word64) :
    ∃ s', immInstr row op t s f = .next s' ∧ CoreWrote s s' t (iD w) (f (regOf x (iA w)) (imm64 w)) c 1 1 (nextPc x) :=
  alu_next unarmed ready

/-- Settles O2: each form is `immInstr` with its own operation. -/
theorem immediateFormsWriteTheirResult : Obligations.ImmediateFormsWriteTheirResult := by
  intro s t g x w c unarmed
  refine ⟨fun ready => ?addi, fun ready => ?andi, fun ready => ?ori, fun ready => ?xori, fun ready => ?slli, fun ready => ?srli,
    fun ready => ?srai, fun ready => ?slti, fun ready => ?sltiu⟩
  case addi | andi | ori | xori => exact immInstr_next unarmed ready _
  case slli =>
    rw [← shiftLeft_eq_ofNat]
    exact immInstr_next unarmed ready fun a i => a <<< (i.toNat % 64)
  case srli =>
    rw [← ushiftRight_eq_ofNat]
    exact immInstr_next unarmed ready fun a i => a >>> (i.toNat % 64)
  case srai =>
    rw [← sshiftRight_eq_ofInt]
    exact immInstr_next unarmed ready fun a i => a.sshiftRight (i.toNat % 64)
  case slti =>
    rw [← flag64_slt]
    exact immInstr_next unarmed ready fun a i => flag64 (a.slt i)
  case sltiu =>
    rw [← flag64_ult]
    exact immInstr_next unarmed ready fun a i => flag64 (a.ult i)

/-! ALU. -/

section
variable {s : State} {t : Nat} {g : Group} {x : Tile} {w c : Nat}

/-- A listed FN completes with its function, in its latency (R130, R132). -/
theorem exec_alu (unarmed : Unarmed s t 4) (ready : CoreReady s t 0x00 (fun w => [iD w, iA w, iB w]) g x w c) (listed : iFn w ≤ 0x0F) :
    ∃ s', exec (.alu t) s = .next s' ∧ CoreWrote s s' t (iD w) (aluFn (iFn w) (regOf x (iA w)) (regOf x (iB w))) c 1
      (if iFn w = 8 ∨ iFn w = 9 then 3 else 1) (nextPc x) := by
  obtain ⟨here, rfl, below⟩ := ready
  obtain ⟨rfl, -⟩ := coreAt_tile here
  refine ⟨_, ?_, core_wrote s t _ _ _ 1 _ _⟩
  show execAlu t s = _
  rw [execAlu, aluInstrIf, coreInstrIf_of here]
  simp only [listed, below, fire_none unarmed, decide_true, Bool.and_self, if_true]

/-- The same for one FN, its function in the words of R130. -/
theorem exec_alu_fn (unarmed : Unarmed s t 4) (ready : CoreReady s t 0x00 (fun w => [iD w, iA w, iB w]) g x w c) {n lat : Nat}
    {f : Word64 → Word64 → Word64} (fn : iFn w = n) (listed : n ≤ 0x0F) (latency : (if n = 8 ∨ n = 9 then 3 else 1) = lat)
    (same : ∀ a b, aluFn n a b = f a b) :
    ∃ s', exec (.alu t) s = .next s' ∧ CoreWrote s s' t (iD w) (f (regOf x (iA w)) (regOf x (iB w))) c 1 lat (nextPc x) := by
  have done := exec_alu unarmed ready (fn ▸ listed)
  rwa [fn, latency, same] at done

end

/-- Settles O3: one function of the table after the other. -/
theorem aluFunctionsWriteTheirResult : Obligations.AluFunctionsWriteTheirResult := by
  intro s t g x w c unarmed ready
  simp only [List.forall_mem_cons, List.not_mem_nil, false_implies, implies_true, and_true]
  refine ⟨fun fn => ?add, fun fn => ?sub, fun fn => ?and, fun fn => ?or, fun fn => ?xor, fun fn => ?sll, fun fn => ?srl, fun fn => ?sra,
    fun fn => ?mul, fun fn => ?mulhu, fun fn => ?slt, fun fn => ?sltu, fun fn => ?min, fun fn => ?max, fun fn => ?minu, fun fn => ?maxu⟩
  case add | sub | and | or | xor | mulhu => exact exec_alu_fn unarmed ready fn (by decide) rfl fun _ _ => rfl
  case sll => exact exec_alu_fn unarmed ready fn (by decide) rfl fun a b => shiftLeft_eq_ofNat a (b.toNat % 64)
  case srl => exact exec_alu_fn unarmed ready fn (by decide) rfl fun a b => ushiftRight_eq_ofNat a (b.toNat % 64)
  case sra => exact exec_alu_fn unarmed ready fn (by decide) rfl fun a b => sshiftRight_eq_ofInt a (b.toNat % 64)
  case mul => exact exec_alu_fn unarmed ready fn (by decide) rfl mul_eq_ofNat
  case slt => exact exec_alu_fn unarmed ready fn (by decide) rfl flag64_slt
  case sltu => exact exec_alu_fn unarmed ready fn (by decide) rfl flag64_ult
  case min =>
    exact exec_alu_fn (f := fun a b => if a.toInt < b.toInt then a else b) unarmed ready fn (by decide) rfl fun a b => ite_slt a b a b
  case max =>
    exact exec_alu_fn (f := fun a b => if a.toInt < b.toInt then b else a) unarmed ready fn (by decide) rfl fun a b => ite_slt a b b a
  case minu =>
    exact exec_alu_fn (f := fun a b => if a.toNat < b.toNat then a else b) unarmed ready fn (by decide) rfl fun a b => ite_ult a b a b
  case maxu =>
    exact exec_alu_fn (f := fun a b => if a.toNat < b.toNat then b else a) unarmed ready fn (by decide) rfl fun a b => ite_ult a b b a

/-! Bit fields (R130). -/

/-- A number with a field replaced: what lies above it, the field, what lies below it. -/
theorem setFld_eq (x lo n v : Nat) : setFld x lo n v = (x / 2 ^ (lo + n) * 2 ^ n + v % 2 ^ n) * 2 ^ lo + x % 2 ^ lo := by
  have parts := Nat.div_add_mod x (2 ^ lo)
  have field := Nat.div_add_mod (x / 2 ^ lo) (2 ^ n)
  rw [Nat.div_div_eq_div_mul, ← Nat.pow_add] at field
  rw [setFld, fld_shifted, Nat.shiftLeft_eq]
  generalize x / 2 ^ (lo + n) = above at *
  generalize x / 2 ^ lo % 2 ^ n = old at *
  generalize x % 2 ^ lo = below at *
  rw [← field] at parts
  have : x = above * 2 ^ n * 2 ^ lo + old * 2 ^ lo + below := by rw [← parts]; ring
  rw [this, Nat.add_mul]
  omega

/-- The bits of a number with a field replaced. -/
theorem testBit_setFld (x lo n v i : Nat) :
    (setFld x lo n v).testBit i = if lo ≤ i ∧ i < lo + n then v.testBit (i - lo) else x.testBit i := by
  rw [setFld_eq, Nat.mul_comm _ (2 ^ lo), Nat.testBit_two_pow_mul_add _ (Nat.mod_lt _ (Nat.two_pow_pos lo)), Nat.mul_comm _ (2 ^ n),
    Nat.testBit_two_pow_mul_add _ (Nat.mod_lt _ (Nat.two_pow_pos n)), Nat.testBit_mod_two_pow, Nat.testBit_mod_two_pow,
    Nat.testBit_div_two_pow]
  by_cases low : i < lo
  · simp [low, Nat.not_le.mpr low]
  · by_cases inside : i - lo < n
    · have : lo ≤ i ∧ i < lo + n := by omega
      simp [low, inside, this]
    · have : ¬(lo ≤ i ∧ i < lo + n) := by omega
      have at_ : i - lo - n + (lo + n) = i := by omega
      simp [low, inside, this, at_]

theorem testBit_fld (x lo n i : Nat) : (fld x lo n).testBit i = (decide (i < n) && x.testBit (lo + i)) := by
  rw [fld, Nat.testBit_mod_two_pow, Nat.testBit_shiftRight]

theorem getLsbD_ofNat_64 {i : Nat} (hi : i < 64) (v : Nat) : (BitVec.ofNat 64 v).getLsbD i = v.testBit i := by
  rw [BitVec.getLsbD_ofNat, decide_eq_true hi, Bool.true_and]

/-- Settles O4 from the bits of a field that is replaced or taken. -/
theorem bitFieldInstructions : Obligations.BitFieldInstructions := by
  intro s t g x w c unarmed
  refine ⟨fun ready => ?seth, fun ready => ?bfi, fun ready => ?bfx⟩
  case seth =>
    obtain ⟨s', run, wrote⟩ := alu_next (row := "SETH") (lat := fun _ => 1)
      (f := fun x w => BitVec.ofNat 64 (setFld (regOf x (iD w)).toNat (16 * iSh w) 16 (iImm16 w))) unarmed ready
    refine ⟨s', _, run, wrote, fun i hi => ?_⟩
    rw [getLsbD_ofNat_64 hi, testBit_setFld, BitVec.testBit_toNat]
  case bfi =>
    obtain ⟨s', run, wrote⟩ := alu_next (row := "BFI") (lat := fun _ => 1)
      (f := fun x w => BitVec.ofNat 64 (setFld (regOf x (iD w)).toNat (iB w) (iLen w) (regOf x (iA w)).toNat)) unarmed ready
    refine ⟨s', _, run, wrote, fun i hi => ?_⟩
    rw [getLsbD_ofNat_64 hi, testBit_setFld, BitVec.testBit_toNat, BitVec.testBit_toNat]
  case bfx =>
    obtain ⟨s', run, wrote⟩ := alu_next (row := "BFX") (lat := fun _ => 1)
      (f := fun x w => BitVec.ofNat 64 (fld (regOf x (iA w)).toNat (iB w) (iLen w))) unarmed ready
    refine ⟨s', _, run, wrote, fun i hi => ?_⟩
    rw [getLsbD_ofNat_64 hi, testBit_fld, BitVec.testBit_toNat]

end Sys2Proof.Proofs

/-! O5: branches, jumps, no-ops, END, and the refill of the instruction cache before an instruction (R130 to R132, R135). -/

namespace Sys2Proof.Proofs

open Sys2Proof Sys2Proof.Machine Sys2Proof.Claims Sys2Proof.Laws

theorem imod_lt (v : Int) {m : Nat} (pos : 0 < m) : imod v m < m := by
  have below := Int.emod_lt_of_pos v (Int.natCast_pos.mpr pos)
  rw [← natCast_imod v pos] at below
  exact Int.ofNat_lt.mp below

/-- `core_moved` where the target is a 64-bit address already. -/
theorem core_moved_to (s : State) (t c occ : Nat) {pc : Nat} (below : pc < 2 ^ 64) :
    CoreMoved s (setTile s t (retire (tileOf s t) c occ pc)) t c occ pc := by
  have moved := core_moved s t c occ pc
  rwa [Nat.mod_eq_of_lt below] at moved

/-- `core_wrote` where the target is a 64-bit address already. -/
theorem core_wrote_to (s : State) (t d : Nat) (v : Word64) (c occ lat : Nat) {pc : Nat} (below : pc < 2 ^ 64) :
    CoreWrote s (setTile s t (retire (putReg (tileOf s t) d v (c + lat)) c occ pc)) t d v c occ lat pc := by
  have wrote := core_wrote s t d v c occ lat pc
  rwa [Nat.mod_eq_of_lt below] at wrote

section
variable {row : String} {op t : Nat} {s : State} {named : Nat → List Nat} {g : Group} {x : Tile} {w c : Nat}

theorem ready_tile (ready : CoreReady s t op named g x w c) : x = tileOf s t := (coreAt_tile ready.1).1

/-- An instruction that the core may issue in cycle `c`, and that its row takes, has its effect. -/
theorem coreInstrIf_ready (ready : CoreReady s t op named g x w c) {ok : Tile → Nat → Nat → Bool} (taken : ok x w c = true)
    (f : State → Group → Tile → Nat → Nat → State) : coreInstrIf row op t ok s named f = .next (f s g x w c) := by
  obtain ⟨here, rfl, below⟩ := ready
  rw [coreInstrIf_of here, taken, decide_eq_true below]
  rfl

theorem coreInstr_ready (ready : CoreReady s t op named g x w c) (f : State → Group → Tile → Nat → Nat → State) :
    coreInstr row op t s named f = .next (f s g x w c) := coreInstrIf_ready ready rfl f

/-! Branches and jumps. -/

/-- A conditional branch goes where its comparison says. -/
theorem branch_done (ready : CoreReady s t op (fun w => [iD w, iA w]) g x w c) {cond : Word64 → Word64 → Bool} {taken : Prop}
    (holds : cond (regOf x (iD w)) (regOf x (iA w)) = true ↔ taken) :
    ∃ s', branch row op t s cond = .next s' ∧ Branched s s' t x w c taken := by
  refine ⟨_, coreInstr_ready ready _, ?_⟩
  obtain rfl := ready_tile ready
  refine ⟨fun yes => ?taken, fun no_ => ?other⟩
  case taken =>
    rw [if_pos (holds.mpr yes)]
    exact core_moved_to s t c 2 (imod_lt _ (Nat.two_pow_pos 64))
  case other =>
    rw [if_neg (no_ ∘ holds.mp)]
    exact core_moved ..

theorem jal_done (ready : CoreReady s t 0x1E (fun w => [iD w]) g x w c) : ∃ s', exec (.jal t) s = .next s' ∧
    CoreWrote s s' t (iD w) (BitVec.ofNat 64 (x.pc + 4)) c 2 2 (imod (x.pc + 4 * iOff20 w) (2 ^ 64)) := by
  show ∃ s', execJal t s = .next s' ∧ _
  refine ⟨_, coreInstr_ready ready _, ?_⟩
  obtain rfl := ready_tile ready
  exact core_wrote_to _ _ _ _ _ _ _ (imod_lt _ (Nat.two_pow_pos 64))

theorem jalr_done (ready : CoreReady s t 0x1F (fun w => [iD w, iA w]) g x w c) : ∃ s', exec (.jalr t) s = .next s' ∧
    CoreWrote s s' t (iD w) (BitVec.ofNat 64 (x.pc + 4)) c 2 2 (4 * (imod ((regOf x (iA w)).toNat + iImm w) (2 ^ 64) / 4)) := by
  show ∃ s', execJalr t s = .next s' ∧ _
  refine ⟨_, coreInstr_ready ready _, ?_⟩
  obtain rfl := ready_tile ready
  have below := imod_lt ((regOf (tileOf s t) (iA w)).toNat + iImm w) (Nat.two_pow_pos 64)
  generalize imod ((regOf (tileOf s t) (iA w)).toNat + iImm w) (2 ^ 64) = p at below
  have aligned : p - p % 4 = 4 * (p / 4) := by omega
  simp only [aligned]
  exact core_wrote_to _ _ _ _ _ _ _ (by omega)

/-! No-ops and END. -/

theorem opListed_eq_false (o : Nat) : opListed o = false ↔ o ∈ [0x0D, 0x0E, 0x0F, 0x16, 0x17] ∨ 0x2C < o := by
  simp only [opListed, Bool.or_eq_false_iff, Bool.and_eq_false_iff, decide_eq_false_iff_not, List.mem_cons, List.not_mem_nil, or_false]
  omega

theorem coreNop_done (runs : live s t = some g) (running : (tileOf s t).status = .running) (here : missing s t = none)
    (word : coreWord (tileOf s t) = some w) (below : (tileOf s t).cyc < 2 ^ 40)
    (unlisted : iOp w ∈ [0x0D, 0x0E, 0x0F, 0x16, 0x17] ∨ 0x2C < iOp w ∨ (iOp w = 0 ∧ 0x0F < iFn w)) :
    ∃ s', exec (.coreNop t) s = .next s' ∧ CoreMoved s s' t (tileOf s t).cyc 1 (nextPc (tileOf s t)) := by
  have none_ : (!(opListed (iOp w)) || (iOp w == 0 && decide (0x0F < iFn w))) = true := by
    rw [← or_assoc, ← opListed_eq_false] at unlisted
    simpa using unlisted
  refine ⟨_, ?_, core_moved s t _ 1 _⟩
  show execCoreNop t s = _
  rw [execCoreNop, fetched_of_here here]
  simp only [runs, running, word, none_, below, decide_true, Bool.and_self, if_true]

theorem endCore_done (runs : live s t = some g) (running : (tileOf s t).status = .running) (here : missing s t = none)
    (below : (tileOf s t).cyc < 2 ^ 40) (ends : coreWord (tileOf s t) = none ∨ (coreWord (tileOf s t) = some w ∧ iOp w = 0x2C)) :
    exec (.endCore t) s = .next (setTile s t { tileOf s t with status := .ended, cyc := (tileOf s t).cyc + 1 }) := by
  show execEndCore t s = _
  rw [execEndCore, fetched_of_here here]
  rcases ends with word | ⟨word, op⟩
  · simp only [runs, running, word, below, decide_true, Bool.and_self, if_true]
  · simp only [runs, running, word, op, below, beq_self_eq_true, decide_true, Bool.and_self, if_true]

end

/-! One refill of the instruction cache comes first (R135). -/

section
variable {s s1 : State} {g : Group} {t a : Nat}

/-- A refill touches no pending store of the core. -/
theorem refill_store (brings : refill s g t a = .got s1) : (tileOf s1 t).store = (tileOf s t).store := by
  unfold refill at brings
  simp only at brings
  split at brings
  · cases brings
  · split at brings
    · cases brings
    · split at brings
      · cases brings
      · cases brings
        rw [tileOf_setTile]
        rfl

variable (lacks : missing s t = some (g, a)) (brings : refill s g t a = .got s1) (here : missing s1 t = none)
include lacks brings here

theorem fetched_refilled (row : String) (f : State → Res) : fetched 3 row t s f = fetched 3 row t s1 f := by
  rw [fetched_of_here here]
  simp only [fetched, lacks, brings, here]

theorem coreInstrIf_refilled (row : String) (op : Nat) (ok : Tile → Nat → Nat → Bool) (named : Nat → List Nat)
    (f : State → Group → Tile → Nat → Nat → State) : coreInstrIf row op t ok s named f = coreInstrIf row op t ok s1 named f :=
  fetched_refilled lacks brings here ..

end

/-- The forty-one rows of the core, in the order of O5. -/
def coreRows (t : Nat) : List (State → Res) :=
  [execAddi t, execAndi t, execOri t, execXori t, execSlli t, execSrli t, execSrai t, execSlti t, execSltiu t, execAlu t, execSeth t,
    execBfi t, execBfx t, execLd t, execLw t, execSt t, execSw t, execArg t, execCld t, execBeq t, execBne t, execBlt t, execBge t,
    execBltu t, execBgeu t, execJal t, execJalr t, execAnchor t, execWaitc t, execCsrr t, execPush t, execSemw t, execSems t, execSemr t,
    execRsig t, execBar t, execWin t, execDescMake t, execEpoch t, execEndCore t, execCoreNop t]

/-- Each row of the core is one instruction run once its code is at hand, so it is what it is after the refill. -/
theorem coreRows_refilled {s s1 : State} {g : Group} {t a : Nat} (lacks : missing s t = some (g, a)) (brings : refill s g t a = .got s1)
    (here : missing s1 t = none) : ∀ row ∈ coreRows t, row s = row s1 := by
  have issue := coreInstrIf_refilled lacks brings here
  have whole := fetched_refilled lacks brings here
  simp only [coreRows, List.forall_mem_cons, List.not_mem_nil, false_implies, implies_true, execAddi, execAndi, execOri, execXori,
    execSlli, execSrli, execSrai, execSlti, execSltiu, execAlu, execSeth, execBfi, execBfx, execLd, execLw, execSt, execSw, execArg, execCld,
    execBeq, execBne, execBlt, execBge, execBltu, execBgeu, execJal, execJalr, execAnchor, execWaitc, execCsrr, execPush, execSemw,
    execSems, execSemr, execRsig, execBar, execWin, execDescMake, execEpoch, execEndCore, execCoreNop, immInstr, aluInstr, aluInstrIf,
    coreLoad, coreStore, branch, coreInstr, refill_store brings, issue, whole, and_self]

/-- Settles O5: each branch by its comparison, the jumps, the two rows without an opcode of their own, and the refill. -/
theorem controlFlowOfTheCore : Obligations.ControlFlowOfTheCore := by
  intro s t g x w c
  refine ⟨fun ready => ?beq, fun ready => ?bne, fun ready => ?blt, fun ready => ?bge, fun ready => ?bltu, fun ready => ?bgeu, jal_done,
    jalr_done, coreNop_done, endCore_done, fun a s1 lacks brings here => ?refill⟩
  case beq => exact branch_done ready beq_iff_eq
  case bne => exact branch_done (cond := fun a b => !(a == b)) ready (by simp)
  case blt => exact branch_done (cond := BitVec.slt) ready (by simp [BitVec.slt])
  case bge => exact branch_done (cond := fun a b => !(a.slt b)) ready (by simp [BitVec.slt])
  case bltu => exact branch_done (cond := BitVec.ult) ready (by simp [BitVec.ult])
  case bgeu => exact branch_done (cond := fun a b => !(a.ult b)) ready (by simp [BitVec.ult])
  case refill =>
    have rows := coreRows_refilled lacks brings here
    simp only [coreRows, List.forall_mem_cons, List.not_mem_nil, false_implies, implies_true, and_true] at rows ⊢
    exact rows

end Sys2Proof.Proofs

/-! O6: ARG, CLD, CSRR, ANCHOR and WAITC (R119, R128, R130, R137). -/

namespace Sys2Proof.Proofs

open Sys2Proof Sys2Proof.Machine Sys2Proof.Claims Sys2Proof.Laws

/-! Registers written one after the other. -/

theorem onlyCore_putReg {x y : Tile} (only : OnlyCore x y) (n : Nat) (v : Word64) (r : Nat) : OnlyCore x (putReg y n v r) := by
  unfold putReg
  split
  · exact only
  · exact congrArg (fun z : Tile => { z with regs := y.regs.put n v, readyAt := y.readyAt.put n r }) only

theorem onlyCore_retire {x y : Tile} (only : OnlyCore x y) (c occ pc : Nat) : OnlyCore x (retire y c occ pc) :=
  congrArg (retire · c occ pc) only

theorem onlyCore_saw {x y : Tile} (only : OnlyCore x y) (c : Nat) : OnlyCore x (saw y c) := by
  rw [only]
  exact rfl

/-- Registers `d` to `d + k - 1` written with `v 0` to `v (k - 1)`. -/
def putRegs (x : Tile) (d : Nat) (v : Nat → Word64) (r k : Nat) : Tile := (List.range k).foldl (fun y i => putReg y (d + i) (v i) r) x

section
variable (x : Tile) (d : Nat) (v : Nat → Word64) (r k : Nat)

theorem putRegs_succ : putRegs x d v r (k + 1) = putReg (putRegs x d v r k) (d + k) (v k) r := by
  simp only [putRegs, List.range_succ, List.foldl_append, List.foldl_cons, List.foldl_nil]

theorem onlyCore_putRegs : OnlyCore x (putRegs x d v r k) := by
  induction k with
  | zero => exact rfl
  | succ k ih =>
    rw [putRegs_succ]
    exact onlyCore_putReg ih _ _ _

theorem regOf_putRegs (n : Nat) : regOf (putRegs x d v r k) n = if d ≤ n ∧ n < d + k ∧ 0 < n ∧ n < 64 then v (n - d) else regOf x n := by
  induction k with
  | zero => rw [if_neg (by omega)]; rfl
  | succ k ih =>
    rw [putRegs_succ, regOf_putReg, ih]
    by_cases last : n = d + k
    · subst last
      by_cases listed : 0 < d + k ∧ d + k < 64
      · rw [if_pos ⟨rfl, listed⟩, if_pos (by omega), Nat.add_sub_cancel_left]
      · rw [if_neg (by tauto), if_neg (by omega), if_neg (by omega)]
    · rw [if_neg (by tauto)]
      exact if_congr (by omega) rfl rfl

end

/-- A note of what the core has read changes nothing that `CoreWrote` speaks of. -/
theorem coreWrote_saw {s : State} {t d c occ lat pc : Nat} {v : Word64} {y : Tile} (wrote : CoreWrote s (setTile s t y) t d v c occ lat pc)
    (k : Nat) : CoreWrote s (setTile s t (saw y k)) t d v c occ lat pc := by
  unfold CoreWrote OnlyTile at *
  simp only [tileOf_setTile] at *
  obtain ⟨-, only, regs, usable, cyc, goes⟩ := wrote
  exact ⟨trivial, onlyCore_saw only k, regs, usable, cyc, goes⟩

/-! Special registers (R128). -/

theorem specialReg_unlisted (s : State) (g : Group) (t : Nat) (x : Tile) (c : Nat) {n : Nat} (unlisted : 10 < n) :
    specialReg s g t x n c = 0 := by
  obtain ⟨k, rfl⟩ := Nat.exists_eq_add_of_lt unlisted
  rw [Nat.add_right_comm, Nat.add_comm]
  rfl

section
variable {f : Nat → Nat} (small : ∀ q, f q < 2 ^ 6)

theorem sixBits_succ (f : Nat → Nat) (n : Nat) : (List.range (n + 1)).foldl (fun v q => v + f q * 2 ^ (6 * q)) 0 =
    (List.range n).foldl (fun v q => v + f q * 2 ^ (6 * q)) 0 + f n * 2 ^ (6 * n) := by
  rw [List.range_succ, List.foldl_append, List.foldl_cons, List.foldl_nil]

include small

theorem sixBits_lt (n : Nat) : (List.range n).foldl (fun v q => v + f q * 2 ^ (6 * q)) 0 < 2 ^ (6 * n) := by
  induction n with
  | zero => exact Nat.one_pos
  | succ n ih =>
    have top : (f n + 1) * 2 ^ (6 * n) ≤ 2 ^ 6 * 2 ^ (6 * n) := Nat.mul_le_mul_right _ (small n)
    rw [sixBits_succ, Nat.mul_succ, Nat.add_comm (6 * n), Nat.pow_add]
    rw [Nat.succ_mul] at top
    omega

theorem sixBits_field {n q : Nat} (hq : q < n) :
    (List.range n).foldl (fun v q => v + f q * 2 ^ (6 * q)) 0 / 2 ^ (6 * q) % 2 ^ 6 = f q := by
  induction n with
  | zero => exact absurd hq (Nat.not_lt_zero q)
  | succ n ih =>
    rw [sixBits_succ]
    rcases Nat.lt_succ_iff_lt_or_eq.mp hq with lower | rfl
    · have above : f n * 2 ^ (6 * n) = 2 ^ (6 * q) * (2 ^ 6 * (f n * 2 ^ (6 * (n - q - 1)))) := by
        have exponent : 6 * n = 6 * q + 6 + 6 * (n - q - 1) := by omega
        rw [exponent, Nat.pow_add, Nat.pow_add]
        ring
      rw [above, Nat.add_mul_div_left _ _ (Nat.two_pow_pos _), Nat.add_mul_mod_self_left, ih lower]
    · rw [Nat.mul_comm (f q), Nat.add_mul_div_left _ _ (Nat.two_pow_pos _), Nat.div_eq_of_lt (sixBits_lt small q), Nat.zero_add,
        Nat.mod_eq_of_lt (small q)]

end

/-- Each queue has its own six bits of QFREE. -/
theorem qfree_field (x : Tile) (c : Nat) {q : Nat} (hq : q < 5) : qfree x c / 2 ^ (6 * q) % 2 ^ 6 = 32 - queueUse x q c :=
  sixBits_field (f := fun q => 32 - queueUse x q c) (fun _ => (Nat.sub_le ..).trans_lt (by decide)) hq

/-- Settles O6 from the effect of each instruction at the cycle in which it may issue. -/
theorem specialCoreInstructions : Obligations.SpecialCoreInstructions := by
  intro s t g x w c
  refine ⟨fun ready => ?arg, fun ready => ?cld, fun ready watched => ?csrr, fun ready => ?anchor, fun ready => ?waitc,
    fun k runs waits below => ?expiry⟩
  case arg =>
    show ∃ s', execArg t s = .next s' ∧ _
    refine ⟨_, coreInstr_ready ready _, ?_⟩
    obtain rfl := ready_tile ready
    exact core_wrote ..
  case cld =>
    show ∃ s', execCld t s = .next s' ∧ _
    let word := fun i : Nat =>
      BitVec.ofNat 64 (leNat ((List.range 8).map (fun (j : Nat) => codeByte x (cldAt x w + 8 * (i : Int) + (j : Int)))))
    have only := onlyCore_retire (onlyCore_putRegs x (iD w) word (c + 2) 4) c 2 (x.pc + 4)
    refine ⟨setTile s t (retire (putRegs x (iD w) word (c + 2) 4) c 2 (x.pc + 4)), coreInstr_ready ready _, ?_⟩
    rw [OnlyTile, tileOf_setTile]
    refine ⟨rfl, only, rfl, rfl, fun n => (regOf_putRegs x (iD w) word (c + 2) 4 n).trans ?_⟩
    simp only [word, cldAt, codeByte, Int.mul_comm _ 32]
  case csrr =>
    show ∃ s' v, execCsrr t s = .next s' ∧ _
    have taken : (!(watches (imod (iImm w) 256)) || caughtUp x coreEvent (c + 1)) = true := by
      cases reads : watches (imod (iImm w) 256) with
      | false => rfl
      | true => exact watched (by simpa [watches] using reads)
    refine ⟨_, specialReg s g t x (imod (iImm w) 256) c, coreInstrIf_ready ready taken _, ?_, ?_, fun nine _ q hq => ?_,
      specialReg_unlisted s g t x c⟩
    · obtain rfl := ready_tile ready
      have wrote := core_wrote s t (iD w) (BitVec.ofNat 64 (specialReg s g t (tileOf s t) (imod (iImm w) 256) c)) c 1 1
        ((tileOf s t).pc + 4)
      show CoreWrote s (setTile s t (if watches (imod (iImm w) 256) then saw _ c else _)) t _ _ c 1 1 _
      split
      · exact coreWrote_saw wrote c
      · exact wrote
    · simp only [List.forall_mem_cons, List.not_mem_nil, false_implies, implies_true, and_true]
      refine ⟨?_, ?_, ?_, ?_, ?_, ?_, ?_, ?_, ?_, ?_⟩ <;> exact fun number => congrArg (specialReg s g t x · c) number
    · rw [nine]
      exact qfree_field x c hq
  case anchor =>
    show ∃ s', execAnchor t s = .next s' ∧ _
    exact ⟨_, coreInstr_ready ready _, rfl⟩
  case waitc =>
    show ∃ s', execWaitc t s = .next s' ∧ _
    refine ⟨_, coreInstr_ready ready _, fun reached => ?_, fun early => ?_⟩
    · obtain rfl := ready_tile ready
      simp only [if_pos reached]
      exact core_moved ..
    · simp only [if_neg (Nat.not_le.mpr early)]
  case expiry =>
    show execWaitcExpiry t s = _
    simp only [execWaitcExpiry, runs, waits, below, if_true, retire, nextPc]

end Sys2Proof.Proofs

/-! O10 and O11: remote signals and the group barrier (R143 to R145). -/

namespace Sys2Proof.Proofs

open Sys2Proof Sys2Proof.Machine Sys2Proof.Claims Sys2Proof.Laws

/-! Which message is taken (R144). -/

/-- A signal behind no remote write and no signal of its pair of tiles is the one taken, and the others keep their order. -/
theorem takeSignal_append {src dst : Nat} {m : Msg} (hsrc : m.src = src) (hdst : m.dst = dst) (kind : m.kind = 2) (post : List Msg) :
    ∀ {pre : List Msg}, (∀ k ∈ pre, ¬(k.src = src ∧ k.dst = dst ∧ (k.kind = 0 ∨ k.kind = 2))) →
      takeSignal src dst (pre ++ m :: post) = some (m, pre ++ post)
  | [], _ => if_pos ⟨hsrc, hdst, kind⟩
  | k :: pre, clear => by
    obtain ⟨first, others⟩ := List.forall_mem_cons.mp clear
    have rest := takeSignal_append hsrc hdst kind post others
    have noSignal : ¬(k.src = src ∧ k.dst = dst ∧ k.kind = 2) := by tauto
    have noWrite : ¬(k.src = src ∧ k.dst = dst ∧ k.kind = 0) := by tauto
    simp only [List.cons_append, takeSignal, if_neg noSignal, if_neg noWrite, rest]

/-- A remote write with no signal of its pair of tiles before it holds back all that follow. -/
theorem takeSignal_blocked {src dst : Nat} {m : Msg} (hsrc : m.src = src) (hdst : m.dst = dst) (kind : m.kind = 0) (post : List Msg) :
    ∀ {pre : List Msg}, (∀ k ∈ pre, ¬(k.src = src ∧ k.dst = dst ∧ k.kind = 2)) → takeSignal src dst (pre ++ m :: post) = none
  | [], _ => by
    have noSignal : ¬(m.src = src ∧ m.dst = dst ∧ m.kind = 2) := by omega
    simp only [List.nil_append, takeSignal, if_neg noSignal, if_pos (⟨hsrc, hdst, kind⟩ : m.src = src ∧ m.dst = dst ∧ m.kind = 0)]
  | k :: pre, clear => by
    obtain ⟨first, others⟩ := List.forall_mem_cons.mp clear
    have rest := takeSignal_blocked hsrc hdst kind post others
    simp only [List.cons_append, takeSignal, if_neg first, rest, ite_self]

/-- A signal to the own tile that overflows nothing. -/
theorem ownSignal_ok (s : State) (g : Group) (t : Nat) {x : Tile} {sem n c : Nat}
    (fits : overBy (addSig x c sem n 5 x.pc) (c + 1) = none) :
    ownSignal s g t x sem n c = setTile s t (retire (addSig x c sem n 5 x.pc) c 1 (x.pc + 4)) := by
  simp only [ownSignal, fits, overViols, settleTile_ok]

/-- Settles O10 from the message that is taken. -/
theorem remoteSignals : Obligations.RemoteSignals := by
  intro s t g x w c
  refine ⟨fun ready caught => ?rsig, fun src pre m post runs here sent hsrc hdst kind clear below heard late fits => ?arrival,
    fun src pre m post runs sent hsrc hdst kind clear => ?blocked⟩
  case rsig =>
    have row : exec (.rsig t) s = execRsig t s := rfl
    rw [row, execRsig, coreInstrIf_ready ready (ok := fun x _ c => caughtUp x coreEvent (c + 1)) caught]
    refine ⟨fun other some_ => ?_, fun other none_ => ⟨_, rfl, ?_⟩, fun own fits => ?_⟩
    · simp only [if_neg other, if_neg some_.ne']
    · obtain rfl := ready_tile ready
      simp only [if_neg other, if_pos none_]
      exact core_moved ..
    · simp only [if_pos own, ownSignal_ok s g t fits]
  case arrival =>
    subst here
    show execRemoteSignalArrival t src c s = _
    have counts : c < 2 ^ 40 ∧ hears (tileOf s t) src c = true ∧ observed (tileOf s t) ≤ c := ⟨below, decide_eq_true heard, late⟩
    simp only [execRemoteSignalArrival, runs, sent, takeSignal_append hsrc hdst kind post clear, if_pos counts, fits, overViols,
      settleTile_ok]
    rfl
  case blocked =>
    show execRemoteSignalArrival t src c s = _
    simp only [execRemoteSignalArrival, runs, sent, takeSignal_blocked hsrc hdst kind post clear, no]

/-- Settles O11: the arrival is kept or clears its identifier. -/
theorem groupBarrier : Obligations.GroupBarrier := by
  intro s t g x w c
  refine ⟨fun ready => ?bar, fun id runs sent => ?arrival, fun id runs here waits released later seen below => ?release⟩
  case bar =>
    show execBar t s = _
    exact coreInstr_ready ready _
  case arrival =>
    have row : exec (.barrierArrival t) s = execBarrierArrival t s := rfl
    refine ⟨fun all_ => ?_, fun ⟨k, among, missing_⟩ => ?_⟩
    · have full : (groupTiles g).all (fun k => (g.barHere ++ [(t, id)]).contains (k, id)) = true :=
        List.all_eq_true.mpr fun k hk => List.contains_iff_mem.mpr (all_ k hk)
      simp only [row, execBarrierArrival, runs, sent, full, if_true]
      refine ⟨_, rfl, rfl, fun k => ?_, fun k i other => ?_⟩
      · simp
      · simp [other]
    · have short : (groupTiles g).all (fun k => (g.barHere ++ [(t, id)]).contains (k, id)) = false :=
        List.all_eq_false.mpr ⟨k, among, by simpa using missing_⟩
      simp only [row, execBarrierArrival, runs, sent, short]
      exact ⟨_, rfl, rfl, rfl⟩
  case release =>
    subst here
    show execBarrierRelease t c s = _
    have goes : (g.release.contains t && decide ((tileOf s t).cyc < c) && decide (observed (tileOf s t) ≤ c) && decide (c < 2 ^ 40)) = true := by
      simp only [List.contains_iff_mem.mpr released, decide_eq_true later, decide_eq_true seen, decide_eq_true below, Bool.and_self]
    simp only [execBarrierRelease, runs, waits, goes, if_true, retire, nextPc, Nat.add_zero]

end Sys2Proof.Proofs

/-! O12: the end of an epoch (R156 to R158). -/

namespace Sys2Proof.Proofs

open Sys2Proof Sys2Proof.Machine Sys2Proof.Claims Sys2Proof.Laws

/-! Tiles replaced one after the other. -/

section
variable (f : State → Nat → Tile) (ks : List Nat) (s : State)

theorem foldl_setTile_frame : ∃ tiles, ks.foldl (fun s k => setTile s k (f s k)) s = { s with tiles := tiles } := by
  induction ks generalizing s with
  | nil => exact ⟨_, rfl⟩
  | cons k ks ih =>
    obtain ⟨tiles, same⟩ := ih (setTile s k (f s k))
    exact ⟨tiles, same⟩

theorem tileOf_foldl_setTile_of_notMem {n : Nat} (outside : n ∉ ks) :
    tileOf (ks.foldl (fun s k => setTile s k (f s k)) s) n = tileOf s n := by
  induction ks generalizing s with
  | nil => rfl
  | cons k ks ih =>
    obtain ⟨other, outside⟩ := not_or.mp (List.mem_cons.not.mp outside)
    rw [List.foldl_cons, ih _ outside, tileOf_setTile_ne _ _ other]

/-- Each tile is replaced once, from what it was before. -/
theorem tileOf_foldl_setTile {n : Nat} (once : ks.Nodup) (among : n ∈ ks) (local_ : ∀ s s', tileOf s' n = tileOf s n → f s' n = f s n) :
    tileOf (ks.foldl (fun s k => setTile s k (f s k)) s) n = f s n := by
  induction ks generalizing s with
  | nil => exact absurd among List.not_mem_nil
  | cons k ks ih =>
    obtain ⟨fresh, once⟩ := List.nodup_cons.mp once
    rw [List.foldl_cons]
    by_cases same : n = k
    · subst same
      rw [tileOf_foldl_setTile_of_notMem f ks _ fresh, tileOf_setTile]
    · rw [ih _ once ((List.mem_cons.mp among).resolve_left same)]
      exact local_ _ _ (tileOf_setTile_ne _ _ same)

end

/-- The group of a handle, replaced. -/
theorem groupOf_setGroup {s : State} {h : Nat} {g g' : Group} (found : groupOf s h = some g) (same : g'.handle = g.handle) :
    groupOf (setGroup s g') h = some g' := by
  unfold groupOf setGroup at *
  have named : g.handle = h := by simpa using List.find?_some found
  rw [List.find?_map]
  have still : (fun k : Group => k.handle == h) ∘ (fun k => if k.handle == g'.handle then g' else k) = fun k => k.handle == h := by
    funext k
    by_cases hit : k.handle == g'.handle
    · rw [Function.comp_apply, if_pos hit, eq_of_beq hit]
    · simp only [Function.comp_apply, if_neg hit]
  rw [still, found, Option.map_some, same, if_pos (beq_self_eq_true _)]

theorem groupOf_handle {s : State} {h : Nat} {g : Group} (found : groupOf s h = some g) : g.handle = h := by
  simpa using List.find?_some found

/-- Without a triple there is nothing to consume. -/
theorem consumeTriples_none (s : State) (g : Group) (e : Entry) {i : Image} (k : Nat) (free : ∀ d ∈ i.objs, d.role ≠ 4) :
    consumeTriples s g e i k = some (s, 0) := by
  have due : triplesDue e i k g.triples = [] := by
    have none_ : i.objs.filter (fun d => d.role == 4 && !(g.triples.contains d.slot) &&
        (rangesIn i (argTable e i) k 0).any (meets (dataRange (argTable e i) e.headers d))) = [] :=
      List.filter_eq_nil_iff.mpr fun d hd => by simp [free d hd]
    simp only [triplesDue, none_]
    rfl
  rw [consumeTriples, due, List.foldl_nil]

/-! The checkpoint (R157). -/

/-- A tile of the group as the next epoch finds it. -/
def nextTile (i : Image) (x : Tile) : Tile := freshEpoch i { closeEpoch x with pc := (closeEpoch x).pc + 4 }

/-- What the checkpoint holds. -/
def epochSaves (s : State) (g : Group) (i : Image) : List TileSave :=
  (groupTiles g).map (fun k => saveTile i.footprint k (closeEpoch (tileOf s k)))

/-- The tiles of the group begin the next epoch. -/
def nextTiles (s : State) (g : Group) (i : Image) : State :=
  (groupTiles g).foldl (fun s' k => setTile s' k (nextTile i (tileOf s k))) s

/-- The group in its next epoch. -/
def nextGroup (s : State) (g : Group) (i : Image) : Group :=
  { g with epoch := g.epoch + 1, epochAt := s.time, saves := ((g.epoch + 1, epochSaves s g i) :: g.saves).take 2, barHere := [],
           release := [], lastFault := none, watched := false, exempt := 0, pausedAt := 0, stalled := none }

theorem nextTiles_frame (s : State) (g : Group) (i : Image) : ∃ tiles, nextTiles s g i = { s with tiles := tiles } :=
  foldl_setTile_frame (fun _ k => nextTile i (tileOf s k)) (groupTiles g) s

theorem tileOf_nextTiles {s : State} {g : Group} (i : Image) {k : Nat} (once : (groupTiles g).Nodup) (hk : k ∈ groupTiles g) :
    tileOf (nextTiles s g i) k = nextTile i (tileOf s k) :=
  tileOf_foldl_setTile (fun _ k => nextTile i (tileOf s k)) _ s once hk fun _ _ _ => rfl

theorem epochCheckpoint_next {s : State} {h : Nat} {g : Group} {e : Entry} {i : Image} (found : groupOf s h = some g)
    (held : entryOf s h = some e) (image : e.image = some i) (sound : g.fault = none) (joined : allJoined s g = true)
    (planned : epochPlanned i (g.epoch + 1) = true) (free : ∀ d ∈ i.objs, d.role ≠ 4) (quiet : closeViols s g = none) :
    exec (.epochCheckpoint h) s = .next (setGroup (nextTiles s g i) (nextGroup s g i)) := by
  show execEpochCheckpoint h s = _
  have goes : (g.fault.isNone && allJoined s g && epochPlanned i (g.epoch + 1)) = true := by rw [sound, joined, planned]; rfl
  simp only [execEpochCheckpoint, found, held, image, goes, if_true, quiet, consumeTriples_none _ _ _ _ free, List.foldl_map,
    List.map_map]
  rfl

/-- Settles O12: every tile is closed, saved and begun anew. -/
theorem epochAndCheckpoint : Obligations.EpochAndCheckpoint := by
  intro s t g x w c
  refine ⟨fun ready => ?epoch, fun h e i found held image sound joined planned free quiet once =>
    ⟨_, nextGroup s g i, epochSaves s g i, epochCheckpoint_next found held image sound joined planned free quiet, ?group, rfl, rfl, rfl,
      ?tiles, fun v hv => ?save, fun k hk => ?next, ?frame⟩⟩
  case epoch =>
    show execEpoch t s = _
    exact coreInstr_ready ready _
  case group =>
    obtain ⟨tiles, frame⟩ := nextTiles_frame s g i
    rw [frame]
    exact groupOf_setGroup (s := { s with tiles := tiles }) found rfl
  case tiles =>
    rw [epochSaves, List.map_map]
    exact List.map_id _
  case save =>
    obtain ⟨k, -, rfl⟩ := List.mem_map.mp hv
    exact ⟨rfl, rfl, rfl, rfl, rfl, rfl⟩
  case next =>
    have now : tileOf (setGroup (nextTiles s g i) (nextGroup s g i)) k = nextTile i (tileOf s k) := tileOf_nextTiles i once hk
    rw [now]
    exact ⟨rfl, rfl, rfl, rfl, rfl, rfl, rfl, rfl, rfl, rfl, rfl, rfl, rfl⟩
  case frame =>
    obtain ⟨tiles, frame⟩ := nextTiles_frame s g i
    rw [frame]
    exact ⟨rfl, rfl, rfl⟩

end Sys2Proof.Proofs

/-! O9: semaphores (R139 to R141). -/

namespace Sys2Proof.Proofs

open Sys2Proof Sys2Proof.Machine Sys2Proof.Claims Sys2Proof.Laws

/-! Sorting keeps the entries. -/

theorem insertBy_perm {α : Type} (le : α → α → Bool) (a : α) (l : List α) : (insertBy le a l).Perm (a :: l) := by
  induction l with
  | nil => exact .refl _
  | cons b r ih =>
    rw [insertBy]
    split
    · exact .refl _
    · exact (ih.cons b).trans (.swap a b r)

theorem sortBy_perm {α : Type} (le : α → α → Bool) (l : List α) : (sortBy le l).Perm l := by
  induction l with
  | nil => exact .refl _
  | cons a r ih => exact (insertBy_perm le a _).trans (ih.cons a)

/-! Signals added one after the other (R141). -/

/-- What a list of signals adds. -/
def sigSum (l : List Sig) : Nat := (l.map (fun g => g.n)).sum

theorem sigSum_cons (g : Sig) (l : List Sig) : sigSum (g :: l) = g.n + sigSum l := List.sum_cons

theorem sigSum_perm {l r : List Sig} (same : l.Perm r) : sigSum l = sigSum r := (same.map _).sum_eq

/-- The first overflow stays the one that is reported. -/
theorem foldl_applySig_some (due : List Sig) (m : Tbl Nat) (b : Sig) : (due.foldl applySig (m, some b)).2 = some b := by
  induction due generalizing m with
  | nil => rfl
  | cons g r ih =>
    rw [List.foldl_cons, applySig]
    split
    · exact ih _
    · exact ih _

/-- Signals of one semaphore that do not overflow it: their sum is added. -/
theorem foldl_applySig_sum {sem : Nat} {due : List Sig} (own : ∀ g ∈ due, g.sem = sem) {m : Tbl Nat}
    (fits : (due.foldl applySig (m, none)).2 = none) :
    (due.foldl applySig (m, none)).1.get sem 0 = m.get sem 0 + sigSum due ∧ (due = [] ∨ m.get sem 0 + sigSum due ≤ 255) := by
  induction due generalizing m with
  | nil => exact ⟨rfl, .inl rfl⟩
  | cons g r ih =>
    obtain ⟨rfl, own⟩ := List.forall_mem_cons.mp own
    rw [List.foldl_cons, applySig] at fits ⊢
    rw [sigSum_cons]
    split at fits
    · rw [Option.isNone_none, if_pos rfl, foldl_applySig_some] at fits
      cases fits
    next small =>
      obtain ⟨sum, bound⟩ := ih own fits
      rw [Tbl.get_put_self] at sum bound
      rw [if_neg small, sum, Nat.add_assoc]
      refine ⟨rfl, .inr ?_⟩
      rcases bound with rfl | bound
      · exact Nat.not_lt.mp small
      · exact (Nat.add_assoc ..).symm.trans_le bound

theorem foldl_applySig_other {sem k : Nat} (other : k ≠ sem) {due : List Sig} (own : ∀ g ∈ due, g.sem = sem) (p : Tbl Nat × Option Sig) :
    (due.foldl applySig p).1.get k 0 = p.1.get k 0 := by
  induction due generalizing p with
  | nil => rfl
  | cons g r ih =>
    obtain ⟨rfl, own⟩ := List.forall_mem_cons.mp own
    rw [List.foldl_cons, ih own, applySig]
    split <;> exact Tbl.get_put_ne _ _ _ other

/-- The count a wait sees, where nothing overflows. -/
theorem foldl_min_sum {l : List Sig} {v : Nat} (fits : l = [] ∨ v + sigSum l ≤ 255) :
    l.foldl (fun v g => Nat.min 255 (v + g.n)) v = v + sigSum l := by
  induction l generalizing v with
  | nil => rfl
  | cons g r ih =>
    have bound := fits.resolve_left (List.cons_ne_nil g r)
    rw [sigSum_cons] at bound ⊢
    have small : Nat.min 255 (v + g.n) = v + g.n := Nat.min_eq_right (by omega)
    rw [List.foldl_cons, small, ih (.inr (by omega)), Nat.add_assoc]

/-- A count so reached is visible from the cycle after the last signal on. -/
theorem foldl_semAt {sem c : Nat} {due : List Sig} (early : ∀ g ∈ due, g.cyc < c) {m : Tbl Nat} (old : m.get sem 0 ≤ c) :
    (due.foldl (fun m g => m.put g.sem (Nat.max (m.get g.sem 0) (g.cyc + 1))) m).get sem 0 ≤ c := by
  induction due generalizing m with
  | nil => exact old
  | cons g r ih =>
    obtain ⟨first, early⟩ := List.forall_mem_cons.mp early
    refine ih early ?_
    rw [Tbl.get_put]
    split
    next same => exact Nat.max_le.mpr ⟨same ▸ old, first⟩
    · exact old

theorem foldl_semAt_other {sem k : Nat} (other : k ≠ sem) {due : List Sig} (own : ∀ g ∈ due, g.sem = sem) (m : Tbl Nat) :
    (due.foldl (fun m g => m.put g.sem (Nat.max (m.get g.sem 0) (g.cyc + 1))) m).get k 0 = m.get k 0 := by
  induction due generalizing m with
  | nil => rfl
  | cons g r ih =>
    obtain ⟨rfl, own⟩ := List.forall_mem_cons.mp own
    rw [List.foldl_cons, ih own, Tbl.get_put_ne _ _ _ other]

/-! Counts after a take and after a signal (R139). -/

section
variable {x : Tile} {sem c : Nat}

/-- The signals that a take of cycle `c` applies. -/
def takenSigs (x : Tile) (sem c : Nat) : List Sig := sortBy sigLe (x.sigs.filter (fun g => decide (g.cyc < c) && g.sem == sem))

theorem takenSigs_spec {g : Sig} (taken : g ∈ takenSigs x sem c) : g.cyc < c ∧ g.sem = sem := by
  simpa [takenSigs, mem_sortBy] using (List.mem_filter.mp ((mem_sortBy _ _ _).mp taken)).2

theorem takeSem_eq (x : Tile) (sem n c : Nat) : takeSem x sem n c =
    ({ x with sems := ((takenSigs x sem c).foldl applySig (x.sems, none)).1.put sem
                (((takenSigs x sem c).foldl applySig (x.sems, none)).1.get sem 0 - n),
              semAt := (takenSigs x sem c).foldl (fun m g => m.put g.sem (Nat.max (m.get g.sem 0) (g.cyc + 1))) x.semAt,
              sigs := x.sigs.filter (fun g => !(decide (g.cyc < c) && g.sem == sem)) },
      overViols ((takenSigs x sem c).foldl applySig (x.sems, none)).2) := rfl

theorem overViols_eq_nil {o : Option Sig} (none_ : overViols o = []) : o = none := by
  cases o with
  | none => rfl
  | some g => cases none_

/-- What a take without overflow finds is the count that a wait in its cycle sees. -/
theorem semAvail_eq_taken (old : x.semAt.get sem 0 ≤ c) (fits : ((takenSigs x sem c).foldl applySig (x.sems, none)).2 = none) :
    semAvail x sem c = ((takenSigs x sem c).foldl applySig (x.sems, none)).1.get sem 0 := by
  obtain ⟨sum, bound⟩ := foldl_applySig_sum (fun g taken => (takenSigs_spec taken).2) fits
  have same : (takenSigs x sem c).Perm (x.sigs.filter (fun g => g.sem == sem && decide (g.cyc < c))) := by
    simp only [takenSigs, Bool.and_comm]
    exact sortBy_perm ..
  have sums := sigSum_perm same
  rw [sum, semAvail, if_pos old, sums]
  refine foldl_min_sum ?_
  rw [← sums]
  exact bound.imp_left fun none_ => (none_ ▸ same).nil_eq.symm

variable {n r : Nat}

/-- After a take, where every signal of the semaphore is of an earlier cycle, the count is less by what was taken. -/
theorem semAvail_takeSem (old : x.semAt.get sem 0 ≤ c) (early : ∀ q ∈ x.sigs, q.sem = sem → q.cyc < c) (later : c < r)
    (fits : (takeSem x sem n c).2 = []) : semAvail (takeSem x sem n c).1 sem r = semAvail x sem c - n := by
  rw [takeSem_eq] at fits ⊢
  have left : (x.sigs.filter (fun g => !(decide (g.cyc < c) && g.sem == sem))).filter (fun g => g.sem == sem && decide (g.cyc < r)) = [] := by
    refine List.filter_eq_nil_iff.mpr fun g hg => ?_
    obtain ⟨among, kept⟩ := List.mem_filter.mp hg
    intro own
    have same : g.sem = sem := by simp at own; exact own.1
    simp [same, early g among same] at kept
  rw [semAvail_eq_taken old (overViols_eq_nil fits), semAvail]
  simp only [left, List.foldl_nil, Tbl.get_put_self]
  exact if_pos ((foldl_semAt (fun g taken => (takenSigs_spec taken).1) old).trans later.le)

theorem semAvail_takeSem_other {k : Nat} (other : k ≠ sem) : semAvail (takeSem x sem n c).1 k r = semAvail x k r := by
  have own := fun g (taken : g ∈ takenSigs x sem c) => (takenSigs_spec taken).2
  have same : (x.sigs.filter (fun g => !(decide (g.cyc < c) && g.sem == sem))).filter (fun g => g.sem == k && decide (g.cyc < r)) =
      x.sigs.filter (fun g => g.sem == k && decide (g.cyc < r)) := by
    rw [List.filter_filter]
    refine List.filter_congr fun g _ => ?_
    cases hit : g.sem == k with
    | false => rfl
    | true => simp [eq_of_beq hit, other]
  rw [takeSem_eq]
  simp only [semAvail, same, Tbl.get_put_ne _ _ _ other, foldl_applySig_other other own, foldl_semAt_other other own]

/-- A signal of cycle `c` is not seen in `c`. -/
theorem semAvail_addSig_now (k unit pc : Nat) : semAvail (addSig x c sem n unit pc) k c = semAvail x k c := by
  unfold addSig
  split
  · rfl
  · simp [semAvail]

theorem semAvail_later (old : x.semAt.get sem 0 ≤ c) (early : ∀ q ∈ x.sigs, q.sem = sem → q.cyc < c) (later : c < r) :
    semAvail x sem r = semAvail x sem c := by
  have same : x.sigs.filter (fun g => g.sem == sem && decide (g.cyc < r)) = x.sigs.filter (fun g => g.sem == sem && decide (g.cyc < c)) := by
    refine List.filter_congr fun g hg => ?_
    cases hit : g.sem == sem with
    | false => rfl
    | true =>
      have before := early g hg (eq_of_beq hit)
      rw [decide_eq_true before, decide_eq_true (before.trans later)]
  rw [semAvail, semAvail, same, if_pos old, if_pos (old.trans later.le)]

/-- From the next cycle on it is. -/
theorem semAvail_addSig (old : x.semAt.get sem 0 ≤ c) (early : ∀ q ∈ x.sigs, q.sem = sem → q.cyc < c) (later : c < r)
    (fits : semAvail x sem c + n ≤ 255) (unit pc : Nat) : semAvail (addSig x c sem n unit pc) sem r = semAvail x sem c + n := by
  have before := semAvail_later old early later
  unfold addSig
  split
  next zero => rw [zero, before, Nat.add_zero]
  · have added : semAvail { x with sigs := x.sigs ++ [{ cyc := c, sem := sem, n := n, unit := unit, pc := pc }] } sem r =
        Nat.min 255 (semAvail x sem r + n) := by
      simp [semAvail, later]
    rw [added, before]
    exact Nat.min_eq_right fits

theorem semAvail_addSig_other {k : Nat} (other : k ≠ sem) (unit pc : Nat) : semAvail (addSig x c sem n unit pc) k r = semAvail x k r := by
  unfold addSig
  split
  · rfl
  · have not_ : (sem == k) = false := beq_false_of_ne other.symm
    simp [semAvail, not_]

end

/-- Settles O9 from the count that a take finds and leaves. -/
theorem semaphoreInstructions : Obligations.SemaphoreInstructions := by
  intro s t g x w c
  refine ⟨fun ready => ?semw, fun sem n runs here waits at_ below turn caught fits => ?satisfied, fun ready fits => ?sems,
    fun ready caught => ?semr, fun sem n r k old early later => ⟨fun _ fits => semAvail_takeSem old early later fits, fun fits =>
      ⟨semAvail_addSig_now sem 5 x.pc, semAvail_addSig old early later fits 5 x.pc⟩, fun other =>
      ⟨semAvail_takeSem_other other, semAvail_addSig_other other 5 x.pc⟩⟩⟩
  case semw =>
    have row : exec (.semw t) s = execSemw t s := rfl
    have issued := fun ok => coreInstrIf_ready (row := "SEMW") ready
      (ok := fun x w c => iCount w == 0 || decide (semAvail x (iA w) c < iCount w) ||
        (waitTurn x 5 (iA w) c && caughtUp x coreEvent (c + 1))) ok
    refine ⟨fun zero => ?_, fun some_ enough turn caught fits => ?_, fun less => ?_⟩
    · rw [row, execSemw, issued (by simp [zero])]
      refine ⟨_, rfl, ?_⟩
      obtain rfl := ready_tile ready
      simp only [if_pos zero]
      exact core_moved ..
    · rw [row, execSemw, issued (by simp [turn, caught])]
      simp only [if_neg some_.ne', if_pos enough, fits, settleTile_ok]
    · rw [row, execSemw, issued (by simp [less])]
      simp only [if_neg (Nat.ne_of_gt (Nat.zero_lt_of_lt less)), if_neg (Nat.not_le.mpr less)]
  case satisfied =>
    subst here
    show execSemwSatisfied t s = _
    simp only [execSemwSatisfied, runs, waits, at_, if_pos (⟨below, turn, caught⟩ : c < 2 ^ 40 ∧ waitTurn (tileOf s t) 5 sem c = true ∧
      caughtUp (tileOf s t) coreEvent (c + 1) = true), fits, settleTile_ok]
  case sems =>
    show execSems t s = _
    rw [execSems, coreInstr_ready ready, ownSignal_ok s g t fits]
  case semr =>
    show ∃ s', execSemr t s = .next s' ∧ _
    refine ⟨_, coreInstrIf_ready ready caught _, ?_⟩
    obtain rfl := ready_tile ready
    exact coreWrote_saw (core_wrote ..) c

end Sys2Proof.Proofs

/-! O8: PUSH (R135 to R138). -/

namespace Sys2Proof.Proofs

open Sys2Proof Sys2Proof.Machine Sys2Proof.Claims Sys2Proof.Laws

/-! The bits of the command (R135 to R137). -/

theorem getLsbD_ofNat_256_setFld (v : Cmd) (lo n f i : Nat) : (BitVec.ofNat 256 (setFld v.toNat lo n f)).getLsbD i =
    (decide (i < 256) && if lo ≤ i ∧ i < lo + n then f.testBit (i - lo) else v.getLsbD i) := by
  rw [BitVec.getLsbD_ofNat, testBit_setFld, BitVec.testBit_toNat]

/-- A field of a command that has been replaced. -/
theorem cf_setFld (v : Cmd) {lo n : Nat} (inside : lo + n ≤ 256) (f : Nat) :
    cf (BitVec.ofNat 256 (setFld v.toNat lo n f)) lo n = f % 2 ^ n := by
  refine Nat.eq_of_testBit_eq fun i => ?_
  rw [cf, testBit_fld, BitVec.testBit_toNat, getLsbD_ofNat_256_setFld, Nat.testBit_mod_two_pow]
  by_cases below : i < n
  · have among : lo ≤ lo + i ∧ lo + i < lo + n := by omega
    have small : lo + i < 256 := by omega
    rw [if_pos among, Nat.add_sub_cancel_left, decide_eq_true small, Bool.true_and]
  · rw [decide_eq_false below, Bool.false_and, Bool.false_and]

/-- Streaming mode clears TIMED and nothing else. -/
theorem pushed_streaming (x : Tile) (rel : Bool) (v : Cmd) (i : Nat) :
    (pushed true x rel v).getLsbD i = (v.getLsbD i && decide (i ≠ 244)) := by
  rw [pushed, if_pos rfl, getLsbD_ofNat_256_setFld]
  by_cases timed : i = 244
  · subst timed
    simp
  · have outside : ¬(244 ≤ i ∧ i < 244 + 1) := by omega
    rw [if_neg outside, decide_eq_true timed, Bool.and_true]
    by_cases inside : i < 256
    · rw [decide_eq_true inside, Bool.true_and]
    · rw [decide_eq_false inside, Bool.false_and, BitVec.getLsbD_of_ge _ _ (Nat.not_lt.mp inside)]

/-- REL and TIMED: AT has moved by BASE, and no other bit has changed. -/
theorem pushed_moved {x : Tile} {v : Cmd} (timed : hTimed v = true) :
    hAt (pushed false x true v) = (hAt v + x.base) % 2 ^ 40 ∧ ∀ i, i < 204 ∨ 243 < i → (pushed false x true v).getLsbD i = v.getLsbD i := by
  have moved : pushed false x true v = BitVec.ofNat 256 (setFld v.toNat 204 40 ((hAt v + x.base) % 2 ^ 40)) := by
    rw [pushed, if_neg Bool.false_ne_true, timed, Bool.and_self, if_pos rfl]
  rw [moved]
  refine ⟨?at_, fun i outside => ?others⟩
  case at_ => exact (cf_setFld v (by decide) _).trans (Nat.mod_mod ..)
  case others =>
    have outside : ¬(204 ≤ i ∧ i < 204 + 40) := by omega
    rw [getLsbD_ofNat_256_setFld, if_neg outside]
    by_cases inside : i < 256
    · rw [decide_eq_true inside, Bool.true_and]
    · rw [decide_eq_false inside, Bool.false_and, BitVec.getLsbD_of_ge _ _ (Nat.not_lt.mp inside)]

theorem pushed_kept {x : Tile} {rel : Bool} {v : Cmd} (kept : rel = false ∨ hTimed v = false) : pushed false x rel v = v := by
  have not_ : (rel && hTimed v) = false := Bool.and_eq_false_iff.mpr kept
  rw [pushed, if_neg Bool.false_ne_true, not_, if_neg Bool.false_ne_true]

/-! What an accepted command was not there to violate: its marks and holds begin in its push cycle (R146, R147). -/

theorem find?_append_of_not {α : Type} {p : α → Bool} {r : List α} (none_ : ∀ a ∈ r, p a = false) (l : List α) :
    (l ++ r).find? p = l.find? p := by
  have nothing : r.find? p = none := List.find?_eq_none.mpr fun a ha => by simp [none_ a ha]
  rw [List.find?_append, nothing, Option.or_none]

theorem filter_append_of_not {α : Type} {p : α → Bool} {r : List α} (none_ : ∀ a ∈ r, p a = false) (l : List α) :
    (l ++ r).filter p = l.filter p := by
  have nothing : r.filter p = [] := List.filter_eq_nil_iff.mpr fun a ha => by simp [none_ a ha]
  rw [List.filter_append, nothing, List.append_nil]

theorem filter_append_of_all {α : Type} {p : α → Bool} {r : List α} (all_ : ∀ a ∈ r, p a = true) (l : List α) :
    (l ++ r).filter p = l.filter p ++ r := by
  rw [List.filter_append, List.filter_eq_self.mpr all_]

section
variable {x y : Tile} {c : Nat} {ms : List Mark} {hs : List Hold}

/-- A mark that begins later is met by no earlier read. -/
theorem markActive_early {m : Mark} {k : Nat} (from_ : m.start = c) (early : k < c) : markActive m k = false := by
  rw [markActive, from_, decide_eq_false (Nat.not_le.mpr early), Bool.false_and]

theorem holdActive_early {h : Hold} {k : Nat} (from_ : h.start = c) (early : k < c) : holdActive h k = false := by
  rw [holdActive, from_, decide_eq_false (Nat.not_le.mpr early), Bool.false_and]

theorem markedReads_later (hmarks : y.marks = x.marks ++ ms) (from_ : ∀ m ∈ ms, m.start = c) (l : List Mark) (k : Claim) :
    markedReads y (l ++ ms) c k = markedReads x l c k := by
  refine List.filterMap_congr fun p _ => ?_
  by_cases early : p.1 < c
  · rw [if_pos early, if_pos early]
    have found : markedAt ((l ++ ms).filter (fun m => !(m.num == k.num))) p.1 p.2 k.nw =
        markedAt (l.filter (fun m => !(m.num == k.num))) p.1 p.2 k.nw := by
      refine congrArg (fun f => List.findSome? f _) (funext fun w => ?_)
      rw [List.filter_append, find?_append_of_not fun m hm => ?_]
      rw [markActive_early (from_ m (List.mem_of_mem_filter hm)) early, Bool.false_and]
    have own : ∀ w, ownPending y k p.1 w = ownPending x k p.1 w := by
      intro w
      have none_ : ms.any (fun o => o.num == k.num && !(o.unit == 7) && markActive o p.1 && touchesWord o.addr o.len w) = false :=
        List.any_eq_false.mpr fun m hm => by simp [markActive_early (from_ m hm) early]
      rw [ownPending, ownPending, hmarks, List.any_append, none_, Bool.or_false]
    simp only [found, own]
  · rw [if_neg early, if_neg early]

theorem openViols_later (hclaims : y.claims = x.claims) (hwrites : y.writes = x.writes) (hmarks : y.marks = x.marks ++ ms)
    (hholds : y.holds = x.holds ++ hs) (marksFrom : ∀ m ∈ ms, m.start = c ∧ m.commit = none)
    (holdsFrom : ∀ h ∈ hs, h.start = c ∧ h.release = none) : openViols y c = openViols x c := by
  have openMarks : y.marks.filter (fun m => m.commit.isNone) = x.marks.filter (fun m => m.commit.isNone) ++ ms := by
    rw [hmarks]
    exact filter_append_of_all (fun m hm => by rw [(marksFrom m hm).2]; rfl) _
  have openHolds : y.holds.filter (fun h => h.release.isNone) = x.holds.filter (fun h => h.release.isNone) ++ hs := by
    rw [hholds]
    exact filter_append_of_all (fun h hh => by rw [(holdsFrom h hh).2]; rfl) _
  have reads : markedReads y (x.marks.filter (fun m => m.commit.isNone) ++ ms) c = markedReads x (x.marks.filter (fun m => m.commit.isNone)) c :=
    funext fun k => markedReads_later hmarks (fun m hm => (marksFrom m hm).1) _ k
  have held : heldWrites y (x.holds.filter (fun h => h.release.isNone) ++ hs) c =
      heldWrites x (x.holds.filter (fun h => h.release.isNone)) c := by
    rw [heldWrites, heldWrites, hwrites]
    refine List.filterMap_congr fun v hv => ?_
    have early : v.cyc < c := of_decide_eq_true (List.mem_filter.mp hv).2
    rw [filter_append_of_not fun h hh => holdActive_early (holdsFrom h hh).1 early]
  rw [openViols, openViols, openMarks, openHolds, hclaims, reads, held]

end

/-! An accepted command (R136, R137). -/

/-- The tile with the command at the end of its queue. -/
def acceptTile (s : State) (g : Group) (x : Tile) (w c : Nat) : Tile :=
  { retire x c 1 (x.pc + 4) with
    num := x.num + 1, status := .running,
    queues := x.queues.put (iQueue w) (queueOf x (iQueue w) ++ [pushEntry x (iQueue w) (pushCmd s g x w) c]),
    marks := x.marks ++ pushMarks x (iQueue w) (pushCmd s g x w) c, holds := x.holds ++ pushHolds x (iQueue w) (pushCmd s g x w) c }

theorem acceptPush_eq (s : State) (g : Group) (t : Nat) (x : Tile) (w c : Nat) : acceptPush s g t x w c =
    settleTile s g t (acceptTile s g x w c) (pushViols x (iQueue w) (pushCmd s g x w) c) := rfl

section
variable {s : State} {g : Group} {t w c : Nat}

theorem acceptPush_pushed (clean : pushViols (tileOf s t) (iQueue w) (pushCmd s g (tileOf s t) w) c = []) :
    Pushed s (acceptPush s g t (tileOf s t) w c) t g (tileOf s t) w c (pushEntry (tileOf s t) (iQueue w) (pushCmd s g (tileOf s t) w) c) := by
  have same : pushCmd s g (tileOf s t) w = pushed (streamingOf s g.handle) (tileOf s t) (iRel w) (pushWord (tileOf s t) (iD w)) := rfl
  rw [acceptPush_eq, clean, settleTile_ok]
  unfold Pushed OnlyTile
  rw [tileOf_setTile]
  refine ⟨rfl, rfl, rfl, rfl, Tbl.get_put_self .., fun q other => Tbl.get_put_ne _ _ _ other, rfl, rfl, rfl, rfl, rfl, rfl, rfl,
    fun on i => ?streaming, fun off rel timed => ?moved, fun off kept => ?kept⟩
  case streaming =>
    show (pushCmd s g (tileOf s t) w).getLsbD i = _
    rw [same, on]
    exact pushed_streaming ..
  case moved =>
    show hAt (pushCmd s g (tileOf s t) w) = _ ∧ ∀ i, _ → (pushCmd s g (tileOf s t) w).getLsbD i = _
    rw [same, off, rel]
    exact pushed_moved timed
  case kept =>
    show pushCmd s g (tileOf s t) w = _
    rw [same, off]
    exact pushed_kept kept

theorem pushMarks_from (x : Tile) (q : Nat) (cmd : Cmd) (c : Nat) : ∀ m ∈ pushMarks x q cmd c, m.start = c ∧ m.commit = none := by
  intro m hm
  obtain ⟨i, hi, rfl⟩ := List.mem_mapIdx.mp hm
  exact ⟨rfl, rfl⟩

theorem pushHolds_from (x : Tile) (q : Nat) (cmd : Cmd) (c : Nat) : ∀ h ∈ pushHolds x q cmd c, h.start = c ∧ h.release = none := by
  intro h hh
  obtain ⟨p, -, rfl⟩ := List.mem_map.mp hh
  exact ⟨rfl, rfl⟩

/-- A TIMED command that comes too late, where nothing was violated before, ends its task. -/
theorem acceptPush_late (timed : hTimed (pushCmd s g (tileOf s t) w) = true) (queue : iQueue w < 4)
    (late : hAt (pushCmd s g (tileOf s t) w) ≤ c + 15) (fits : overBy (tileOf s t) c = none) (clean : openViols (tileOf s t) c = []) :
    PushedLate s (acceptPush s g t (tileOf s t) w c) t g (tileOf s t) (iQueue w) c (hAt (pushCmd s g (tileOf s t) w)) := by
  have viols : pushViols (tileOf s t) (iQueue w) (pushCmd s g (tileOf s t) w) c =
      [lateViol c (iQueue w) (pushEntry (tileOf s t) (iQueue w) (pushCmd s g (tileOf s t) w) c)] := by
    rw [pushViols, decide_eq_true queue, timed, decide_eq_true late, Bool.and_self, Bool.and_self, if_pos rfl]
    rfl
  have before : openViols (acceptTile s g (tileOf s t) w c) c = [] :=
    (openViols_later (x := tileOf s t) (y := acceptTile s g (tileOf s t) w c) rfl rfl rfl rfl (pushMarks_from _ _ _ _)
      (pushHolds_from _ _ _ _)).trans clean
  have first : earliest (acceptTile s g (tileOf s t) w c) (lateViol c (iQueue w) (pushEntry (tileOf s t) (iQueue w) (pushCmd s g (tileOf s t) w) c)) =
      lateViol c (iQueue w) (pushEntry (tileOf s t) (iQueue w) (pushCmd s g (tileOf s t) w) c) := by
    have none_ : overBy (acceptTile s g (tileOf s t) w c) c = none := fits
    simp only [earliest, lateViol, none_, before]
    rfl
  refine ⟨setTile s t (acceptTile s g (tileOf s t) w c),
    { lateViol c (iQueue w) (pushEntry (tileOf s t) (iQueue w) (pushCmd s g (tileOf s t) w) c) with epoch := g.epoch % 256, tile := t },
    ?ended, ?tile, rfl, rfl, rfl, rfl, rfl, rfl, rfl, rfl⟩
  case ended =>
    rw [acceptPush_eq, viols]
    simp only [settleTile, firstViol, tileAbort, tileOf_setTile, first]
    rfl
  case tile => rw [OnlyTile, tileOf_setTile]

end

/-- Settles O8 from what an accepted command leaves. -/
theorem pushAppendsOrStalls : Obligations.PushAppendsOrStalls := by
  intro s t g x w c
  refine ⟨fun ready => ?push, fun runs here waits word later below stalled clear caught => ?stallEnd⟩
  case push =>
    have row : exec (.push t) s = execPush t s := rfl
    have issued := fun ok => coreInstrIf_ready (row := "PUSH") ready
      (ok := fun x w c => decide (4 < iQueue w) || caughtUp x coreEvent (c + 1)) ok
    obtain rfl := ready_tile ready
    refine ⟨fun none_ => ?_, fun queue caught full => ?_, fun queue caught clear clean => ?_, fun queue caught clear timed late fits clean => ?_⟩
    · rw [row, execPush, issued (by simp [none_])]
      refine ⟨_, rfl, ?_⟩
      simp only [if_pos none_]
      exact core_moved ..
    · rw [row, execPush, issued (by simp [caught])]
      simp only [if_neg (Nat.not_lt.mpr queue), full]
      rfl
    · rw [row, execPush, issued (by simp [caught])]
      simp only [if_neg (Nat.not_lt.mpr queue), clear, if_true]
      exact ⟨_, _, rfl, acceptPush_pushed clean⟩
    · rw [row, execPush, issued (by simp [caught])]
      simp only [if_neg (Nat.not_lt.mpr queue.le), clear, if_true]
      exact ⟨_, rfl, acceptPush_late timed queue late fits clean⟩
  case stallEnd =>
    subst here
    have run : exec (.pushStallEnd t c) s = .next (acceptPush s g t (tileOf s t) w c) := by
      show execPushStallEnd t c s = _
      simp only [execPushStallEnd, runs, waits, word, decide_eq_true later, decide_eq_true below, clear, stalled, caught, Bool.not_false,
        Bool.and_self, if_true]
    exact ⟨fun clean => ⟨_, _, run, acceptPush_pushed clean⟩, fun queue timed late fits clean =>
      ⟨_, run, acceptPush_late timed queue late fits clean⟩⟩

end Sys2Proof.Proofs

/-! O7: the loads and the stores of the core (R130, R132 to R134, R163). -/

namespace Sys2Proof.Proofs

open Sys2Proof Sys2Proof.Machine Sys2Proof.Claims Sys2Proof.Laws

/-! What gives way to an access of the core (R163). -/

section
variable (x y : Tile)

theorem resettle_marks : (resettle x y).marks.map (fun m => { m with commit := none }) = y.marks.map (fun m => { m with commit := none }) := by
  unfold resettle
  simp only
  split
  · rfl
  · rw [List.map_map]
    refine List.map_congr_left fun m _ => ?_
    simp only [Function.comp_apply]
    split
    · rfl
    · split
      · rfl
      · split <;> rfl

theorem resettle_holds : (resettle x y).holds.map (fun h => { h with release := none }) = y.holds.map (fun h => { h with release := none }) := by
  unfold resettle
  simp only
  split
  · rfl
  · rw [List.map_map]
    refine List.map_congr_left fun h _ => ?_
    simp only [Function.comp_apply]
    split <;> rfl

variable (ks : List Claim)

theorem addClaims_marks : (addClaims x ks).marks.map (fun m => { m with commit := none }) = x.marks.map (fun m => { m with commit := none }) := by
  unfold addClaims
  simp only
  split
  · rfl
  · rw [resettle_marks, grantAll_frame]

theorem addClaims_holds : (addClaims x ks).holds.map (fun h => { h with release := none }) = x.holds.map (fun h => { h with release := none }) := by
  unfold addClaims
  simp only
  split
  · rfl
  · rw [resettle_holds, grantAll_frame]

/-- Without accesses of the lower ranks only the claims change. -/
theorem addClaims_claims {x : Tile} (none_ : NoLowRanks x) : addClaims x ks = { x with claims := (addClaims x ks).claims } := by
  have noHit : x.claims.filter (fun l => decide (coreRank < l.rank) && ks.any (fun k => decide (k.rank < l.rank) &&
      (claimAt k l.c0).any (fun a => bankOf a == claimBank l))) = [] := by
    rw [List.filter_eq_nil_iff]
    intro k stands
    simp [coreRank, Nat.not_lt.mpr (none_ k stands)]
  unfold addClaims
  simp only [noHit, List.isEmpty_nil, if_true]

theorem gaveWay_addClaims : GaveWay x (addClaims x ks) := by
  refine ⟨addClaims_writes x ks, addClaims_marks x ks, addClaims_holds x ks, fun none_ => ?_⟩
  rw [addClaims_claims ks none_]
  exact ⟨rfl, rfl, rfl⟩

end

/-! Loads (R132, R133). -/

theorem memAddr_eq (x : Tile) (w : Nat) : memAddr x w = imod ((regOf x (iA w)).toNat + iImm w) 0x800000 := rfl

section
variable {s : State} {t : Nat} {g : Group} {x : Tile} {w c a n k : Nat}

/-- The tile after a load is what it was but for the register, the core's own marks of time, and what gave way. -/
theorem coreLoaded_setTile (s : State) (t d lat : Nat) (v : Word64) (ks : List Claim) (k : Nat) :
    CoreLoaded s (setTile s t (saw (retire (putReg (addClaims (tileOf s t) ks) d v (k + lat)) k 1 ((tileOf s t).pc + 4)) k)) t (tileOf s t) d v k := by
  unfold CoreLoaded OnlyTile
  rw [tileOf_setTile]
  have regs : ∀ m, regOf (addClaims (tileOf s t) ks) m = regOf (tileOf s t) m := fun m => by rw [addClaims_frame]; rfl
  have same := gaveWay_addClaims (tileOf s t) ks
  have frame := addClaims_frame (tileOf s t) ks
  refine ⟨rfl, ?way, ?frame, fun m => ?regs⟩
  case way =>
    unfold putReg
    split <;> exact same
  case frame =>
    unfold putReg
    split <;> (rw [frame]; rfl)
  case regs =>
    rw [← regs m]
    exact regOf_putReg ..

theorem coreLoad_done {row : String} {op : Nat} (ready : CoreReady s t op (fun w => [iD w, iA w]) g x w c) (idle : x.store = none)
    (unarmed : Unarmed s t 3) (at_ : a = imod ((regOf x (iA w)).toNat + iImm w) 0x800000) (granted : k = grantFrom x a n (Nat.max c x.storeAt))
    (caught : caughtUp x coreEvent (k + 1) = true) (reads : readViols (footOf s g.handle) x k a n 5 x.pc 0 false = [])
    (moved : movedViols x (coreClaim x k a n false) = []) :
    ∃ s', coreLoad row op n t s = .next s' ∧ CoreLoaded s s' t x (iD w) (BitVec.ofNat 64 (leNat (spadBytes x k a n))) k := by
  obtain rfl := ready_tile ready
  subst at_ granted
  have free : (tileOf s t).store.isSome = false := by rw [idle]; rfl
  rw [coreLoad, free, if_neg Bool.false_ne_true,
    coreInstrIf_ready ready (ok := fun x w c => caughtUp x coreEvent (loadCycle x (memAddr x w) n c + 1)) caught]
  refine ⟨_, rfl, ?_⟩
  simp only [memAddr_eq, loadCycle, fireRead_none unarmed, reads, moved, List.append_nil, settleTile_ok]
  exact coreLoaded_setTile s t (iD w) _ _ _ _

/-! Stores (R134). -/

theorem coreStore_done {row : String} {op : Nat} (ready : CoreReady s t op (fun w => [iD w, iA w]) g x w c) (idle : x.store = none) (n : Nat) :
    ∃ s', coreStore row op n t s = .next s' ∧ s' = setTile s t { x with
      cyc := Nat.max c (x.storeAt - 1) + 1, pc := nextPc x,
      store := some { from_ := Nat.max c (x.storeAt - 1) + 1, addr := imod ((regOf x (iA w)).toNat + iImm w) 0x800000,
                      data := leBytes n (regOf x (iD w)).toNat, pc := x.pc } } := by
  obtain rfl := ready_tile ready
  have free : (tileOf s t).store.isSome = false := by rw [idle]; rfl
  rw [coreStore, free, if_neg Bool.false_ne_true, coreInstr_ready ready]
  exact ⟨_, rfl, rfl⟩

end

/-! The bytes of a store as reads find them (R83, R166). -/

/-- The latest write that a read finds is no later than all of them. -/
theorem lateByte_bound {ws : List TimedWrite} {k : Nat} (early : ∀ v ∈ ws, v.cyc ≤ k) {c a : Nat} {best : Option (Nat × Byte)}
    (before : ∀ p, best = some p → p.1 ≤ k) : ∀ p, lateByte ws c a best = some p → p.1 ≤ k := by
  induction ws generalizing best with
  | nil => exact before
  | cons v r ih =>
    obtain ⟨first, early⟩ := List.forall_mem_cons.mp early
    simp only [lateByte]
    split
    · exact ih early before
    · refine ih early fun p found => ?_
      generalize (decide (v.cyc < c) && _) = better at found
      cases better with
      | false => exact before p found
      | true =>
        cases found
        exact first

section
variable {ws : List TimedWrite} {v : TimedWrite} {r : Nat}

/-- A write later than all others is what a read of its bytes finds from the next cycle on. -/
theorem lateByte_newest {b : Byte} (early : ∀ u ∈ ws, u.cyc ≤ v.cyc) (later : v.cyc < r) {a : Nat}
    (hits : v.data[(a + spadSize - v.addr) % spadSize]? = some b) : lateByte (ws ++ [v]) r a none = some (v.cyc, b) := by
  have bound := lateByte_bound early (c := r) (a := a) (best := none) (by simp)
  rw [lateByte_append]
  simp only [lateByte, hits, decide_eq_true later, Bool.true_and]
  refine if_pos ?_
  split
  · rfl
  next p found => exact decide_eq_true (bound p found)

theorem lateByte_missed {a : Nat} (misses : v.data[(a + spadSize - v.addr) % spadSize]? = none) :
    lateByte (ws ++ [v]) r a none = lateByte ws r a none := by
  rw [lateByte_append]
  simp only [lateByte, misses]

end

/-- A write to the scratchpad touches nothing but the list of writes and, through rows that read it later, planes. -/
theorem addWrite_frame (x : Tile) (c a : Nat) (d : List Byte) (unit num pc : Nat) :
    ∃ ws ps, addWrite x c a d unit num pc = { x with writes := ws, planes := ps } := by
  have put : ∃ ws, putWrite x c a d unit num pc = { x with writes := ws } := by
    unfold putWrite
    split
    · exact ⟨_, rfl⟩
    · exact ⟨_, rfl⟩
  obtain ⟨ws, put⟩ := put
  unfold addWrite
  simp only [put]
  split
  · exact rebuild_frame _
  · exact ⟨_, _, rfl⟩

section
variable (x : Tile) (ks : List Claim) {k a : Nat} {d : List Byte} (unit num pc : Nat)

/-- An access of the core that writes: what the lower ranks lose, and the write. -/
theorem addWrite_addClaims_frame (k a : Nat) (d : List Byte) : ∃ cl ws ms hs ps, addWrite (addClaims x ks) k a d unit num pc =
    { x with claims := cl, writes := ws, marks := ms, holds := hs, planes := ps } := by
  obtain ⟨ws, ps, write⟩ := addWrite_frame (addClaims x ks) k a d unit num pc
  rw [write, addClaims_frame]
  exact ⟨_, _, _, _, _, rfl⟩

variable {x} (none_ : NoLowRanks x) (settled : Settled x k)
include none_ settled

/-- Where nothing gives way and no row under way reads later, the write is added to the others. -/
theorem addWrite_addClaims_writes : (addWrite (addClaims x ks) k a d unit num pc).writes = (putWrite x k a d unit num pc).writes := by
  have unread : readLater { x with claims := (addClaims x ks).claims } k a d.length = false :=
    readLater_settled (x := { x with claims := (addClaims x ks).claims }) settled _ _
  rw [addClaims_claims ks none_, addWrite, unread, if_neg Bool.false_ne_true, putWrite, putWrite]
  split <;> rfl

theorem spadByte_addWrite (r b : Nat) : spadByte (addWrite (addClaims x ks) k a d unit num pc) r b =
    spadByte (putWrite x k a d unit num pc) r b := by
  obtain ⟨cl, ws, ms, hs, ps, frame⟩ := addWrite_addClaims_frame x ks unit num pc k a d
  have spad : (addWrite (addClaims x ks) k a d unit num pc).spad = (putWrite x k a d unit num pc).spad := by
    rw [frame, putWrite]
    split <;> rfl
  rw [spadByte, spadByte, addWrite_addClaims_writes ks unit num pc none_ settled, spad]

end

section
variable {x : Tile} {k a r : Nat} {d : List Byte} (unit num pc : Nat)

/-- From the cycle after its write on a byte reads as written. -/
theorem spadByte_putWrite_hit (ha : a < 0x800000) (hd : d.length ≤ 8) {i : Nat} (hi : i < d.length) (early : ∀ v ∈ x.writes, v.cyc ≤ k)
    (later : k < r) : spadByte (putWrite x k a d unit num pc) r (a + i) = d.getD i 0 := by
  have some_ : d.isEmpty = false := by cases d with
    | nil => exact absurd hi (Nat.not_lt_zero i)
    | cons => rfl
  have index : ((a + i) % spadSize + spadSize - a % spadSize) % spadSize = i := by simp only [spadSize]; omega
  have hits : d[((a + i) % spadSize + spadSize - a % spadSize) % spadSize]? = some (d.getD i 0) := by
    rw [index, List.getD_eq_getElem?_getD, List.getElem?_eq_getElem hi, Option.getD_some]
  rw [putWrite, some_, if_neg Bool.false_ne_true, spadByte]
  simp only [lateByte_newest (v := { cyc := k, addr := a % spadSize, data := d, unit := unit, num := num, pc := pc }) early later hits]

/-- Every other byte reads as before. -/
theorem spadByte_putWrite_miss (ha : a < 0x800000) {b : Nat} (hb : b < 0x800000)
    (other : ∀ i, i < d.length → b ≠ (a + i) % 0x800000) : spadByte (putWrite x k a d unit num pc) r b = spadByte x r b := by
  rw [putWrite]
  split
  · rfl
  · have misses : d[(b % spadSize + spadSize - a % spadSize) % spadSize]? = none := by
      refine List.getElem?_eq_none (Nat.not_lt.mp fun inside => other _ inside ?_)
      simp only [spadSize] at inside ⊢
      omega
    simp only [spadByte, lateByte_missed (v := { cyc := k, addr := a % spadSize, data := d, unit := unit, num := num, pc := pc }) misses]

end

theorem fireMerge_none {s : State} {t : Nat} (unarmed : Unarmed s t 3) (g : Group) (a n c u : Nat) : fireMerge s g t a n c u = none := by
  simp only [fireMerge, fireRead_none unarmed, ite_self]

theorem coreStoreWrite_next {s : State} {t : Nat} {g : Group} {p : PendStore} {k : Nat} (runs : live s t = some g)
    (pending : (tileOf s t).store = some p) (unarmed : Unarmed s t 3) (granted : k = grantFrom (tileOf s t) p.addr p.data.length p.from_)
    (caught : caughtUp (tileOf s t) 5 (k + 1) = true)
    (writes : writeViols (footOf s g.handle) (tileOf s t) k p.addr p.data.length 5 p.pc 0 = [])
    (moved : movedViols (tileOf s t) (coreClaim (tileOf s t) k p.addr p.data.length true) = []) :
    exec (.coreStoreWrite t) s = .next (setTile s t
      { addWrite (coreClaim (tileOf s t) k p.addr p.data.length true) k p.addr p.data 5 0 p.pc with store := none, storeAt := k + 1 }) := by
  subst granted
  show execCoreStoreWrite t s = _
  simp only [execCoreStoreWrite, runs, pending, storeSlot, caught, Bool.not_true, Bool.false_eq_true, if_false, fireMerge_none unarmed, writes,
    moved, List.append_nil, settleTile_ok]

/-- Settles O7: loads read in the cycle of their grant, and a store's write is found from the cycle after its own. -/
theorem coreLoadsAndStores : Obligations.CoreLoadsAndStores := by
  intro s t g x w c
  refine ⟨fun a k ready idle unarmed at_ granted caught reads moved => ?ld, fun a k ready idle unarmed at_ granted caught reads moved => ?lw,
    fun ready idle => ?st, fun ready idle => ?sw, fun p k runs pending addr len unarmed granted caught writes moved => ?storeWrite⟩
  case ld =>
    show ∃ s', execLd t s = .next s' ∧ _
    exact coreLoad_done ready idle unarmed at_ granted caught reads moved
  case lw =>
    show ∃ s', execLw t s = .next s' ∧ _
    exact coreLoad_done ready idle unarmed at_ granted caught reads moved
  case st =>
    show ∃ s', execSt t s = .next s' ∧ _
    exact coreStore_done ready idle 8
  case sw =>
    show ∃ s', execSw t s = .next s' ∧ _
    exact coreStore_done ready idle 4
  case storeWrite =>
    refine ⟨_, coreStoreWrite_next runs pending unarmed granted caught writes moved, ?_⟩
    obtain ⟨cl, ws, ms, hs, ps, frame⟩ := addWrite_addClaims_frame (tileOf s t)
      [{ num := 0, unit := 5, pc := (tileOf s t).pc, rank := coreRank, c0 := k, step := 1, nw := (wordsOf p.addr p.data.length).length,
         write := true, addrs := [p.addr] }] 5 0 p.pc k p.addr p.data
    unfold OnlyTile
    rw [tileOf_setTile]
    refine ⟨rfl, rfl, rfl, fun none_ settled => ⟨fun i hi early r later => ?hit, fun b hb other r => ?miss⟩, fun n => ?regs, ?sems⟩
    case hit => exact (spadByte_addWrite _ 5 0 p.pc none_ settled r _).trans (spadByte_putWrite_hit 5 0 p.pc addr len hi early later)
    case miss => exact (spadByte_addWrite _ 5 0 p.pc none_ settled r _).trans (spadByte_putWrite_miss 5 0 p.pc addr hb other)
    case regs =>
      rw [coreClaim, frame]
      rfl
    case sems =>
      rw [coreClaim, frame]

end Sys2Proof.Proofs

/-! The end of a task: what its tiles keep, and the entry that tells it (R152, R285 to R292, R304). -/

namespace Sys2Proof.Proofs

open Sys2Proof Sys2Proof.Machine Sys2Proof.Claims Sys2Proof.Laws

/-! Tiles changed one after the other. -/

/-- Where each step changes its own tile alone, each of several tiles is changed once. -/
theorem foldl_tiles {R : Tile → Tile → Prop} {f : State → Nat → State} (own : ∀ s k, R (tileOf s k) (tileOf (f s k) k))
    (others : ∀ s k n, n ≠ k → tileOf (f s k) n = tileOf s n) {ks : List Nat} (once : ks.Nodup) (s : State) :
    (∀ n ∈ ks, R (tileOf s n) (tileOf (ks.foldl f s) n)) ∧ ∀ n, n ∉ ks → tileOf (ks.foldl f s) n = tileOf s n := by
  induction ks generalizing s with
  | nil => exact ⟨fun n among => absurd among List.not_mem_nil, fun _ _ => rfl⟩
  | cons k ks ih =>
    obtain ⟨fresh, once⟩ := List.nodup_cons.mp once
    obtain ⟨inside, outside⟩ := ih once (f s k)
    refine ⟨fun n among => ?_, fun n out => ?_⟩
    · by_cases same : n = k
      · subst same
        rw [List.foldl_cons, outside n fresh]
        exact own s n
      · have changed := inside n ((List.mem_cons.mp among).resolve_left same)
        rwa [others s k n same] at changed
    · obtain ⟨other, out⟩ := not_or.mp (List.mem_cons.not.mp out)
      rw [List.foldl_cons, outside n out, others s k n other]

/-! Bytes that no write covers (R152). -/

/-- The write lies in the scratchpad and does not cover byte `a`. -/
def Misses (a : Nat) (w : TimedWrite) : Prop := w.addr < 0x800000 ∧ ∀ i, i < w.data.length → (w.addr + i) % 0x800000 ≠ a

section
variable {a : Nat}

theorem misses_outsideBank {w : TimedWrite} (misses : Misses a w) (b : Nat) : ∀ v ∈ outsideBank b w, Misses a v := by
  intro v hv
  obtain ⟨i, hi, rfl⟩ := List.mem_mapIdx.mp (List.mem_of_mem_filter hv)
  refine ⟨Nat.mod_lt _ (by decide), fun j hj => ?_⟩
  obtain rfl : j = 0 := Nat.lt_one_iff.mp hj
  rw [Nat.add_zero, Nat.mod_mod]
  exact misses.2 i hi

theorem misses_stoppedWrites {x : Tile} (misses : ∀ w ∈ x.writes, Misses a w) (c : Nat) (d : Option Detail) :
    ∀ v ∈ stoppedWrites x c d, Misses a v := by
  intro v hv
  obtain ⟨l, hl, hv⟩ := List.mem_flatten.mp hv
  obtain ⟨w, hw, rfl⟩ := List.mem_map.mp hl
  have kept := misses w (List.mem_of_mem_filter hw)
  split at hv
  · exact List.mem_singleton.mp hv ▸ kept
  · split at hv
    · exact misses_outsideBank kept _ v hv
    · exact List.mem_singleton.mp hv ▸ kept

/-- Free bytes stand where the bytes of the write stood. -/
theorem misses_blurWrites (c : Nat) {l : List TimedWrite} (misses : ∀ w ∈ l, Misses a w) (s : State) :
    ∀ v ∈ (blurWrites c s l).2, Misses a v := by
  induction l generalizing s with
  | nil => exact fun v hv => absurd hv List.not_mem_nil
  | cons w r ih =>
    obtain ⟨first, rest⟩ := List.forall_mem_cons.mp misses
    simp only [blurWrites, List.forall_mem_cons]
    split
    · exact ⟨first, ih rest s⟩
    · refine ⟨⟨first.1, fun i hi => first.2 i ?_⟩, ih rest _⟩
      rwa [drawBytes_length] at hi

/-- Every write of the epoch applied leaves the bytes that none covers. -/
theorem rd_flushWrites {x : Tile} (inside : a < 0x800000) (misses : ∀ w ∈ x.writes, Misses a w) : (flushWrites x).rd a = x.spad.rd a := by
  have sorted : ∀ w ∈ sortBy (fun (a b : TimedWrite) => decide (a.cyc ≤ b.cyc)) x.writes, Misses a w := fun w hw =>
    misses w ((mem_sortBy _ _ _).mp hw)
  unfold flushWrites
  generalize sortBy _ x.writes = ws at sorted ⊢
  generalize x.spad = m
  induction ws generalizing m with
  | nil => rfl
  | cons w r ih =>
    obtain ⟨first, rest⟩ := List.forall_mem_cons.mp sorted
    obtain ⟨low, apart⟩ := first
    rw [List.foldl_cons, ih rest, Mem.rd_wrN_outside, Mem.rd_wrN_outside]
    · by_contra hit
      refine apart (a - w.addr) ?_ ?_ <;> simp only [List.length_take] at hit <;> omega
    · by_contra hit
      refine apart (a + 0x800000 - w.addr) ?_ ?_ <;> simp only [List.length_drop] at hit <;> omega

end

/-! A group whose work is cut short (R152, R215). -/

/-- Of a tile that stops only the writes have changed, and they cover no byte more. -/
def Cut (x y : Tile) : Prop := ∃ l, y = { x with writes := l } ∧ ∀ a, (∀ w ∈ x.writes, Misses a w) → ∀ w ∈ l, Misses a w

theorem Cut.refl (x : Tile) : Cut x x := ⟨x.writes, rfl, fun _ => id⟩

theorem blurWrites_tileOf (c : Nat) (s : State) (l : List TimedWrite) (n : Nat) : tileOf (blurWrites c s l).1 n = tileOf s n := by
  induction l generalizing s with
  | nil => rfl
  | cons w r ih =>
    simp only [blurWrites]
    split
    · exact ih s
    · exact ih _

theorem cutTile_tileOf (d : Option Detail) (s : State) (t : Nat) :
    Cut (tileOf s t) (tileOf (cutTile d s t) t) ∧ ∀ n, n ≠ t → tileOf (cutTile d s t) n = tileOf s n := by
  unfold cutTile
  simp only
  split
  · exact ⟨.refl _, fun _ _ => rfl⟩
  · refine ⟨?_, fun n other => ?_⟩
    · rw [tileOf_setTile]
      exact ⟨_, rfl, fun a misses => misses_blurWrites _ (misses_stoppedWrites misses _ _) _⟩
    · rw [tileOf_setTile_ne _ _ other, blurWrites_tileOf]
      split <;> rfl

/-- The handles and the completion rings are as they were. -/
def SameWork (s s' : State) : Prop := s'.ts.entries = s.ts.entries ∧ s'.hi.cqs = s.hi.cqs

theorem SameWork.refl (s : State) : SameWork s s := ⟨rfl, rfl⟩

theorem SameWork.trans {a b c : State} (h : SameWork a b) (k : SameWork b c) : SameWork a c := ⟨k.1.trans h.1, k.2.trans h.2⟩

theorem SameWork.entryOf {s s' : State} (same : SameWork s s') (h : Nat) : entryOf s' h = entryOf s h := by
  unfold Machine.entryOf
  rw [same.1]

theorem SameWork.cqOf {s s' : State} (same : SameWork s s') (g : Nat) : cqOf s' g = cqOf s g := by
  unfold Machine.cqOf
  rw [same.2]

theorem msixSend_cqs (s : State) (fn vec : Nat) : (msixSend s fn vec).hi.cqs = s.hi.cqs := by
  unfold msixSend
  simp only
  split
  · split <;> rfl
  · rfl

theorem msixSend_recent (s : State) (fn vec : Nat) : (msixSend s fn vec).hi.recent = s.hi.recent := by
  unfold msixSend
  simp only
  split
  · split <;> rfl
  · rfl

theorem faultInterrupt_sameWork (s : State) : SameWork s (faultInterrupt s) := by
  refine ⟨by rw [(faultInterrupt_frame s).ts], ?_⟩
  unfold faultInterrupt
  split
  · exact msixSend_cqs ..
  · rfl

theorem tsEvent_sameWork (s : State) (b : Nat) : SameWork s (tsEvent s b) := by
  unfold tsEvent
  simp only
  exact ite_keeps (R := SameWork) (SameWork.trans ⟨rfl, rfl⟩ (faultInterrupt_sameWork _)) ⟨rfl, rfl⟩

theorem offerTile_sameWork (s : State) (t : Nat) : SameWork s (offerTile s t) := by
  unfold offerTile
  simp only
  exact ite_keeps (R := SameWork) ⟨rfl, rfl⟩ (SameWork.trans ⟨rfl, rfl⟩ (tsEvent_sameWork ..))

theorem freeTiles_sameWork (s : State) (g : Group) : SameWork s (freeTiles s g) := by
  refine foldl_keeps SameWork.refl SameWork.trans (fun s t => ?_) _ s
  exact SameWork.trans (b := setInfo (setTile s t _) t _) ⟨rfl, rfl⟩ (offerTile_sameWork ..)

theorem blurWrites_sameWork (c : Nat) (s : State) (l : List TimedWrite) : SameWork s (blurWrites c s l).1 := by
  induction l generalizing s with
  | nil => exact .refl s
  | cons w r ih =>
    simp only [blurWrites]
    split
    · exact ih s
    · exact SameWork.trans ⟨rfl, rfl⟩ (ih _)

theorem cutTile_sameWork (d : Option Detail) (s : State) (t : Nat) : SameWork s (cutTile d s t) := by
  unfold cutTile
  simp only
  split
  · exact .refl s
  · refine SameWork.trans ?_ (SameWork.trans (blurWrites_sameWork ..) ⟨rfl, rfl⟩)
    split <;> exact ⟨rfl, rfl⟩

/-- The same tiles. -/
def SameTiles (s s' : State) : Prop := s'.tiles = s.tiles

theorem SameTiles.refl (s : State) : SameTiles s s := rfl

theorem SameTiles.trans {a b c : State} (h : SameTiles a b) (k : SameTiles b c) : SameTiles a c := Eq.trans k h

theorem SameTiles.tileOf {s s' : State} (same : SameTiles s s') (t : Nat) : tileOf s' t = tileOf s t := congrArg (Tbl.get · t tile0) same

theorem spoilHost_sameWork (s : State) (t : Nat) : SameWork s (spoilHost s t) := by
  refine foldl_keeps SameWork.refl SameWork.trans (fun s st => ?_) _ s
  exact ⟨rfl, rfl⟩

theorem spoilHost_sameTiles (s : State) (t : Nat) : SameTiles s (spoilHost s t) := by
  refine foldl_keeps SameTiles.refl SameTiles.trans (fun s st => ?_) _ s
  exact rfl

theorem spoilOutputs_sameWork (s : State) (g : Group) : SameWork s (spoilOutputs s g) := by
  unfold spoilOutputs
  split
  · exact .refl s
  · exact foldl_keeps SameWork.refl SameWork.trans (fun s (r : Nat × Nat) => (⟨rfl, rfl⟩ : SameWork s (spoilRange s r.1 r.2))) _ s

theorem spoilOutputs_sameTiles (s : State) (g : Group) : SameTiles s (spoilOutputs s g) := by
  unfold spoilOutputs
  split
  · exact .refl s
  · exact foldl_keeps SameTiles.refl SameTiles.trans (fun s (r : Nat × Nat) => (rfl : SameTiles s (spoilRange s r.1 r.2))) _ s

/-- The work of a group as it is cut short: its tiles stop, the handles, the rings and the stored bytes of device memory stay. -/
structure CutShort (s s' : State) (g : Group) : Prop where
  work : SameWork s s'
  task : TaskOnly s s'
  among : ∀ t ∈ groupTiles g, Cut (tileOf s t) (tileOf s' t)
  others : ∀ t, t ∉ groupTiles g → tileOf s' t = tileOf s t

theorem CutShort.refl (s : State) (g : Group) : CutShort s s g := ⟨.refl s, .refl s, fun _ _ => .refl _, fun _ _ => rfl⟩

theorem cutShort_cutGroup (s : State) {g : Group} (once : (groupTiles g).Nodup) (d : Option Detail) : CutShort s (cutGroup s g d) g := by
  have spoiled := foldl_keeps SameWork.refl SameWork.trans spoilHost_sameWork (groupTiles g) s
  have hosts := (foldl_keeps SameTiles.refl SameTiles.trans spoilHost_sameTiles (groupTiles g) s).tileOf
  have outputs := fun s => (spoilOutputs_sameTiles s g).tileOf
  obtain ⟨inside, outside⟩ := foldl_tiles (R := Cut) (fun s k => (cutTile_tileOf d s k).1) (fun s k => (cutTile_tileOf d s k).2) once
    ((groupTiles g).foldl spoilHost s)
  refine ⟨?work, cutGroup_frame s g d, fun t ht => ?among, fun t ht => ?others⟩
  case work =>
    exact spoiled.trans ((foldl_keeps SameWork.refl SameWork.trans (cutTile_sameWork d) _ _).trans (spoilOutputs_sameWork ..))
  case among =>
    rw [cutGroup, outputs, ← hosts t]
    exact inside t ht
  case others => rw [cutGroup, outputs, outside t ht, hosts t]

/-! The group is gone and its tiles are free (R152, R311). -/

theorem freeTiles_tileOf (s : State) {g : Group} (once : (groupTiles g).Nodup) :
    (∀ t ∈ groupTiles g, tileOf (freeTiles s g) t = stopTile (tileOf s t)) ∧
      ∀ t, t ∉ groupTiles g → tileOf (freeTiles s g) t = tileOf s t := by
  have offered : ∀ s t n, tileOf (offerTile s t) n = tileOf s n := fun s t n => congrArg (Tbl.get · n tile0) (offerTile_frame s t).tiles
  refine foldl_tiles (R := fun x y => y = stopTile x) (fun s k => ?_) (fun s k n other => ?_) once s
  · rw [offered]
    exact tileOf_setTile ..
  · rw [offered]
    exact tileOf_setTile_ne _ _ other

theorem freeTiles_groups (s : State) (g : Group) : (freeTiles s g).groups = s.groups := by
  refine foldl_keeps (R := fun s s' => s'.groups = s.groups) (fun _ => rfl) (fun h k => k.trans h) (fun s t => ?_) _ s
  exact (offerTile_frame ..).groups

theorem endGroup_groups (s : State) (g : Group) : (endGroup s g).groups = s.groups.filter (fun x => !(x.handle == g.handle)) :=
  freeTiles_groups ..

theorem endGroup_sameWork (s : State) (g : Group) : SameWork s (endGroup s g) :=
  SameWork.trans ⟨rfl, rfl⟩ (freeTiles_sameWork ..)

/-! The entry that tells the end (R285, R287, R292). -/

theorem find?_map_replaced {α : Type} {p : α → Bool} {l : List α} {a b : α} (found : l.find? p = some a) {q : α → Bool}
    (same : ∀ x, q x = p x) (hit : p b = true) : (l.map (fun x => if q x then b else x)).find? p = some b := by
  rw [List.find?_map]
  have still : p ∘ (fun x => if q x then b else x) = p := by
    funext x
    by_cases h : p x = true
    · rw [Function.comp_apply, same, if_pos h, h, hit]
    · rw [Function.comp_apply, same, if_neg h]
  rw [still, found, Option.map_some, same, if_pos (List.find?_some found)]

theorem entryOf_handle {s : State} {h : Nat} {e : Entry} (held : entryOf s h = some e) : e.handle = h := by
  simpa using List.find?_some held

/-- The entry of a handle, replaced. -/
theorem entryOf_setEntry {s : State} {h : Nat} {e e' : Entry} (held : entryOf s h = some e) (same : e'.handle = e.handle) :
    entryOf (setEntry s e') h = some e' := by
  have named := entryOf_handle held
  refine find?_map_replaced held (fun x => by rw [same, named]) ?_
  rw [same, named]
  exact beq_self_eq_true h

/-- A released handle is no longer held. -/
theorem entryOf_releaseEntry (s : State) (h : Nat) (good : Bool) : entryOf (releaseEntry s h good) h = none := by
  refine List.find?_eq_none.mpr fun e he => ?_
  obtain ⟨k, hk, rfl⟩ := List.mem_map.mp he
  simpa [settleDep] using (List.mem_filter.mp hk).2

theorem entryOf_settle (s : State) (h : Nat) (good : Bool) : entryOf (settle s (some (h, good))) h = none := by
  unfold settle
  simp only
  split
  next none_ => exact none_
  · exact entryOf_releaseEntry _ h good

theorem settle_recent (s : State) (done : Option (Nat × Bool)) : (settle s done).hi.recent = s.hi.recent := by
  unfold settle
  split
  · rfl
  · split
    · rfl
    · unfold recordOutcome
      simp only
      split <;> rfl

theorem over_setEntry {s : State} {h : Nat} {e : Entry} (held : entryOf s h = some e) : Over (setEntry s { e with state := .completing }) h := by
  intro e' held'
  obtain rfl := Option.some.inj ((entryOf_setEntry (e' := { e with state := .completing }) held rfl).symm.trans held')
  rfl

/-- After its completion the work of a handle is over. -/
theorem over_complete (s : State) (h status info : Nat) (d : Option Detail) (ex : Bool) : Over (complete s h status info d ex) h := by
  unfold complete
  split
  next none_ =>
    intro e held
    rw [none_] at held
    cases held
  next e held =>
    split
    next already =>
      intro e' held'
      obtain rfl := Option.some.inj (held.symm.trans held')
      exact already
    · simp only
      split
      · intro e' held'
        rw [entryOf_settle] at held'
        cases held'
      · exact over_setEntry (((postEntry_frame ..).entryOf h).trans held)

theorem cqSignal_recent (s : State) (g : Nat) : (cqSignal s g).hi.recent = s.hi.recent := msixSend_recent ..

/-- An entry that is written stands among those written last, its FLAGS with PHASE. -/
theorem recent_writeEntry (s : State) (g : Nat) (h : HeldEntry) :
    ∃ r ∈ (writeEntry s g h).hi.recent, r.ring = g ∧ ∃ f, r.entry = splice h.entry 1 [BitVec.ofNat 8 f] := by
  unfold writeEntry
  simp only
  rw [apply_ite (fun s : State => s.hi.recent), cqSignal_recent, ite_self]
  exact ⟨_, List.mem_cons_self, rfl, _, rfl⟩

theorem mem_held_setCq {s : State} {g k : Nat} {q : HeldEntry} (held : q ∈ (cqOf s g).held) {c : Cq} (grows : ∀ p ∈ (cqOf s k).held, p ∈ c.held) :
    q ∈ (cqOf (setCq s k c) g).held := by
  unfold cqOf setCq
  rw [Tbl.get_put]
  split
  next same =>
    subst same
    exact grows q held
  · exact held

theorem mem_held_holdEntry {s : State} {g k : Nat} {q : HeldEntry} (held : q ∈ (cqOf s g).held) (h : HeldEntry) :
    q ∈ (cqOf (holdEntry s k h) g).held := by
  have kept : q ∈ (cqOf (setCq s k { cqOf s k with halted := true, held := (cqOf s k).held ++ [h] }) g).held :=
    mem_held_setCq held fun p hp => List.mem_append_left _ hp
  unfold holdEntry
  simp only
  split <;> exact kept

theorem mem_held_noticeBy {s : State} {g : Nat} {q : HeldEntry} (held : q ∈ (cqOf s g).held) (fn code status handle : Nat) :
    q ∈ (cqOf (noticeBy holdEntry s fn code status handle) g).held := by
  unfold noticeBy
  simp only
  split
  · split
    · exact held
    · split
      · exact held
      · split
        · exact mem_held_setCq held fun p hp => hp
        · exact mem_held_holdEntry (s := (drawBytes s 15).2) held _
  · exact held

theorem self_mem_held_holdEntry (s : State) (g : Nat) (h : HeldEntry) : h ∈ (cqOf (holdEntry s g h) g).held := by
  have added : h ∈ (cqOf (setCq s g { cqOf s g with halted := true, held := (cqOf s g).held ++ [h] }) g).held := by
    unfold cqOf setCq
    rw [Tbl.get_put_self]
    exact List.mem_append_right _ (List.mem_singleton_self h)
  unfold holdEntry
  simp only
  split <;> exact added

/-- An entry for an enabled ring is written, or held. -/
theorem postEntry_told {s : State} {g : Nat} (enabled : (cqOf s g).enabled = true) (h : HeldEntry) :
    (cqSends s g = true → ∃ r ∈ (postEntry s g h).hi.recent, r.ring = g ∧ ∃ f, r.entry = splice h.entry 1 [BitVec.ofNat 8 f]) ∧
      (cqSends s g = false → h ∈ (cqOf (postEntry s g h) g).held) := by
  have on : (!(cqOf s g).enabled) = false := by rw [enabled]; rfl
  unfold postEntry cqSends
  simp only [on, Bool.false_eq_true, if_false]
  cases halted : (cqOf s g).halted with
  | true =>
    refine ⟨fun sends => absurd sends (by simp), fun _ => ?_⟩
    unfold cqOf setCq
    simp only [if_true, Tbl.get_put_self]
    exact List.mem_append_right _ (List.mem_singleton_self h)
  | false =>
    cases sendsTo : linkOpen s (cqOwner s g) with
    | true => exact ⟨fun _ => recent_writeEntry s g h, fun stays => absurd stays (by simp)⟩
    | false =>
      refine ⟨fun sends => absurd sends (by simp), fun _ => ?_⟩
      simp only [Bool.false_eq_true, if_false]
      split
      · exact self_mem_held_holdEntry s g h
      · exact mem_held_noticeBy (self_mem_held_holdEntry s g h) ..

theorem entryBytes_flags (kind flags status info handle time cookie f : Nat) :
    splice (entryBytes kind flags status info handle time cookie) 1 [BitVec.ofNat 8 f] = entryBytes kind f status info handle time cookie := rfl

/-- A completion tells its status and INFO. -/
theorem told_complete (s : State) (h status info : Nat) (d : Option Detail) (ex : Bool) :
    Told s (complete s h status info d ex) h status info := by
  intro e held open_ enabled sound
  have on : (!(cqOf s e.cq).enabled) = false := by rw [enabled]; rfl
  simp only [complete, held, if_neg open_, sound, on, Bool.false_eq_true, if_false, Bool.false_or]
  cases sends : cqSends s e.cq with
  | true =>
    obtain ⟨r, written, ring, f, entry⟩ := (postEntry_told enabled _).1 sends
    refine ⟨f, .inl ⟨r, ?_, ring, ?_⟩⟩
    · simpa only [if_true, settle_recent] using written
    · exact entry.trans (entryBytes_flags ..)
  | false =>
    exact ⟨_, .inr ⟨_, (postEntry_told enabled _).2 sends, rfl⟩⟩

/-- What is told of a handle depends on its entry, its ring, the time and the state of the device. -/
theorem Told.of_sameWork {s s1 s' : State} {h status info : Nat} (told : Told s1 s' h status info) (work : SameWork s s1)
    (flt : s1.flt = s.flt) (time : s1.time = s.time) : Told s s' h status info := by
  intro e held open_ enabled sound
  rw [← work.entryOf] at held
  rw [← work.cqOf] at enabled
  rw [← flt] at sound
  rw [← time]
  exact told e held open_ enabled sound

/-- A group cut short, removed and completed has ended. -/
theorem ended_complete {s s1 : State} {h : Nat} {g : Group} (cut : CutShort s s1 g) (named : g.handle = h) (once : (groupTiles g).Nodup)
    (status : Nat) (d : Option Detail) (ex : Bool) : Ended s (complete (endGroup s1 g) h status 0 d ex) h g status := by
  have task : TaskOnly s (endGroup s1 g) := cut.task.trans (endGroup_frame ..)
  have done := complete_frame (endGroup s1 g) h status 0 d ex
  obtain ⟨freed, kept⟩ := freeTiles_tileOf
    { dropReqs s1 (groupTiles g) with groups := (dropReqs s1 (groupTiles g)).groups.filter (fun x => !(x.handle == g.handle)) } once
  have tiles : ∀ t, tileOf (complete (endGroup s1 g) h status 0 d ex) t = tileOf (endGroup s1 g) t := fun t =>
    congrArg (Tbl.get · t tile0) done.tiles
  have time : (endGroup s1 g).time = s.time := by rw [task]
  refine ⟨⟨over_complete _ _ _ _ _ _, Told.of_sameWork (told_complete _ _ _ _ _ _) (cut.work.trans (endGroup_sameWork ..)) task.flt time⟩, ?gone,
    fun t ht => ?among, fun t ht => ?others, ?bytes⟩
  case gone =>
    unfold groupOf
    rw [done.groups, endGroup_groups, ← named]
    exact List.find?_eq_none.mpr fun x hx => by simpa using (List.mem_filter.mp hx).2
  case among =>
    have stopped : tileOf (endGroup s1 g) t = stopTile (tileOf s1 t) := freed t ht
    obtain ⟨l, shape, misses⟩ := cut.among t ht
    rw [tiles, stopped]
    refine ⟨rfl, rfl, rfl, fun a inside clear => ?_⟩
    have rest : ∀ w ∈ (tileOf s1 t).writes, Misses a w := by
      rw [shape]
      exact misses a clear
    have spad : (tileOf s1 t).spad = (tileOf s t).spad := by rw [shape]
    exact (rd_flushWrites inside rest).trans (by rw [spad])
  case others => exact (tiles t).trans ((kept t ht).trans (cut.others t ht))
  case bytes => rw [done.mem, task.bytes]

/-- An abort ends the task. -/
theorem ended_abortTask {s : State} {h : Nat} {g : Group} (found : groupOf s h = some g) (once : (groupTiles g).Nodup) (status : Nat)
    (d : Option Detail) : Ended s (abortTask s h status d) h g status := by
  unfold abortTask
  rw [found]
  exact ended_complete (cutShort_cutGroup s once d) (groupOf_handle found) once status d false

end Sys2Proof.Proofs

/-! Device memory under reads and writes of headers, and the headers themselves (R42, R43, R237, R247). -/

namespace Sys2Proof.Proofs

open Sys2Proof Sys2Proof.Machine Sys2Proof.Claims Sys2Proof.Laws

/-! What reads and writes of device memory leave. -/

/-- Only device memory and what its events touch differ; the held handles are the same. -/
structure StoreOnly (s s' : State) : Prop where
  frame : MemOnly s s'
  entries : s'.ts.entries = s.ts.entries

/-- As `StoreOnly`, with every byte of device memory as it was. -/
structure ReadOnly (s s' : State) : Prop extends StoreOnly s s' where
  bytes : s'.mem.bytes = s.mem.bytes
  undef : s'.mem.undef = s.mem.undef

theorem StoreOnly.refl (s : State) : StoreOnly s s := ⟨.refl s, rfl⟩

theorem StoreOnly.trans {a b c : State} (h : StoreOnly a b) (k : StoreOnly b c) : StoreOnly a c :=
  ⟨h.frame.trans k.frame, k.entries.trans h.entries⟩

theorem ReadOnly.refl (s : State) : ReadOnly s s := ⟨.refl s, rfl, rfl⟩

theorem ReadOnly.trans {a b c : State} (h : ReadOnly a b) (k : ReadOnly b c) : ReadOnly a c :=
  ⟨h.toStoreOnly.trans k.toStoreOnly, k.bytes.trans h.bytes, k.undef.trans h.undef⟩

theorem StoreOnly.entryOf {s s' : State} (only : StoreOnly s s') (h : Nat) : entryOf s' h = entryOf s h := by
  unfold Machine.entryOf
  rw [only.entries]

theorem StoreOnly.groupOf {s s' : State} (only : StoreOnly s s') (h : Nat) : groupOf s' h = groupOf s h := by
  unfold Machine.groupOf
  rw [only.frame.groups]

theorem ReadOnly.memByte {s s' : State} (only : ReadOnly s s') (a : Nat) : memByte s'.mem a = memByte s.mem a := by
  unfold Machine.memByte
  rw [only.undef, only.bytes]

theorem readOnly_of_hostOnly {s s' : State} (h : HostOnly s s') : ReadOnly s s' :=
  ⟨⟨h.hostTs.hostFlt.memOnly, by rw [h.ts]⟩, by rw [h.mem], by rw [h.mem]⟩

theorem fltEvent_readOnly (s : State) (b : Nat) : ReadOnly s (fltEvent s b) := by
  unfold fltEvent
  simp only
  refine ite_keeps (R := ReadOnly) (ReadOnly.trans ?_ (readOnly_of_hostOnly (faultInterrupt_frame _))) ?_ <;> exact ⟨⟨rfl, rfl⟩, rfl, rfl⟩

theorem memEvent_readOnly (s : State) (b : Nat) : ReadOnly s (memEvent s b) := by
  unfold memEvent
  simp only
  refine ite_keeps (R := ReadOnly) (ReadOnly.trans ?_ (readOnly_of_hostOnly (faultInterrupt_frame _))) ?_ <;> exact ⟨⟨rfl, rfl⟩, rfl, rfl⟩

theorem logFault_readOnly (s : State) (source action ltile ptile channel part handle detail : Nat) :
    ReadOnly s (logFault s source action ltile ptile channel part handle detail) := by
  unfold logFault
  simp only
  refine ite_keeps (R := ReadOnly) (ReadOnly.trans ?_ (fltEvent_readOnly ..)) ?_ <;> exact ⟨⟨rfl, rfl⟩, rfl, rfl⟩

theorem endInjection_readOnly (s : State) (fired : Bool) (kind code : Nat) : ReadOnly s (endInjection s fired kind code) := by
  refine ReadOnly.trans ?_ (fltEvent_readOnly ..)
  exact ⟨⟨rfl, rfl⟩, rfl, rfl⟩

theorem unitMended_readOnly (s : State) (st u : Nat) : ReadOnly s (unitMended s st u) := ⟨⟨rfl, rfl⟩, rfl, rfl⟩

theorem crcRepaired_readOnly (s : State) (source part handle st u : Nat) : ReadOnly s (crcRepaired s source part handle st u) :=
  (unitMended_readOnly s st u).trans ((memEvent_readOnly ..).trans (logFault_readOnly ..))

theorem poison_readOnly (s : State) (st : Nat) : ReadOnly s (poison s st) := by
  refine ReadOnly.trans ?_ (memEvent_readOnly ..)
  exact ⟨⟨rfl, rfl⟩, rfl, rfl⟩

theorem loseUnit_readOnly (source : Nat) (s : State) (part handle st u : Nat) : ReadOnly s (loseUnit source s part handle st u) :=
  .trans (ite_keeps (R := ReadOnly) (logFault_readOnly ..) (.refl s)) (poison_readOnly ..)

theorem fireUnit_readOnly (s : State) (part handle st u : Nat) : ReadOnly s (fireUnit s part handle st u) := by
  unfold fireUnit
  split
  · exact (endInjection_readOnly ..).trans (crcRepaired_readOnly ..)
  · exact .refl s

theorem fetchUnit_readOnly (s : State) (part handle st u : Nat) : ReadOnly s (fetchUnit s part handle st u).1 := by
  unfold fetchUnit fetchUnitBy
  split
  · exact (endInjection_readOnly ..).trans (crcRepaired_readOnly ..)
  · split
    · exact .refl s
    · exact .refl s
    · exact ite_keeps (R := ReadOnly) (crcRepaired_readOnly ..) (.refl s)
    · exact .refl s
    · exact loseUnit_readOnly ..

theorem lostRecord_readOnly (s : State) (h part st : Nat) : ReadOnly s (lostRecord s h part st) :=
  .trans (b := (drawBytes s 1).2) ⟨⟨rfl, rfl⟩, rfl, rfl⟩ (logFault_readOnly ..)

theorem readUnit_readOnly (part handle : Nat) (acc : State × Option (List Byte) × Option Nat) (p : Nat × Nat) :
    ReadOnly acc.1 (readUnit part handle acc p).1 := by
  have fetched := fetchUnit_readOnly acc.1 part handle p.1 p.2
  unfold readUnit
  revert fetched
  generalize fetchUnit acc.1 part handle p.1 p.2 = r
  intro fetched
  simp only
  split
  · exact fetched
  · exact fetched
  · exact ite_keeps (R := ReadOnly) fetched (fetched.trans (lostRecord_readOnly ..))

theorem rawRead_readOnly (s : State) (part handle a n : Nat) : ReadOnly s (rawRead s part handle a n).1 :=
  List.foldlRecOn (motive := fun acc => ReadOnly s acc.1) (unitsOf a n) (readUnit part handle) (ReadOnly.refl s)
    fun _ read p _ => read.trans (readUnit_readOnly part handle _ p)

theorem chargeUrgent_readOnly (s : State) (p n : Nat) : ReadOnly s (chargeUrgent s p n) := by
  unfold chargeUrgent
  exact ite_keeps (R := ReadOnly) ⟨⟨rfl, rfl⟩, rfl, rfl⟩ ⟨⟨rfl, rfl⟩, rfl, rfl⟩

theorem devRead_readOnly (s : State) (part handle a n : Nat) : ReadOnly s (devRead s part handle a n).1 :=
  (chargeUrgent_readOnly ..).trans (rawRead_readOnly ..)

/-- One range more of several reads. -/
def readNext (part handle : Nat) (acc : State × Option (List (List Byte))) (p : Nat × Nat) : State × Option (List (List Byte)) :=
  match acc.2 with
  | none => acc
  | some x =>
    match devRead acc.1 part handle p.1 p.2 with
    | (s, some b) => (s, some (x ++ [b]))
    | (s, none) => (loseWork s handle, none)

/-- Several reads, once none need wait, are made one after the other. -/
theorem readAll_eq (s : State) (part handle : Nat) (l : List (Nat × Nat)) :
    readAll s part handle l = if l.any (fun p => devWaits s part p.1 p.2) then .wait
      else .got (l.foldl (readNext part handle) (s, some [])).1 (l.foldl (readNext part handle) (s, some [])).2 := rfl

theorem foldl_readNext_none (part handle : Nat) (s : State) (l : List (Nat × Nat)) :
    l.foldl (readNext part handle) (s, none) = (s, none) := by
  induction l with
  | nil => rfl
  | cons p l ih => exact ih

theorem foldl_readNext_some {part handle : Nat} {s s' : State} {x bs : List (List Byte)} {l : List (Nat × Nat)}
    (got : l.foldl (readNext part handle) (s, some x) = (s', some bs)) : ReadOnly s s' ∧ bs.length = x.length + l.length := by
  induction l generalizing s x with
  | nil =>
    cases got
    exact ⟨.refl _, rfl⟩
  | cons p l ih =>
    have read := devRead_readOnly s part handle p.1 p.2
    simp only [List.foldl_cons, readNext] at got
    revert read got
    generalize devRead s part handle p.1 p.2 = r
    obtain ⟨s1, b⟩ := r
    intro got read
    cases b with
    | none =>
      rw [foldl_readNext_none] at got
      cases got
    | some b =>
      obtain ⟨rest, length⟩ := ih got
      refine ⟨read.trans rest, ?_⟩
      rw [length, List.length_append, List.length_cons, List.length_cons, List.length_nil]
      omega

/-- Where every read succeeds, no byte has changed and each range has its bytes. -/
theorem readAll_some {s s' : State} {part handle : Nat} {l : List (Nat × Nat)} {bs : List (List Byte)}
    (got : readAll s part handle l = .got s' (some bs)) : ReadOnly s s' ∧ bs.length = l.length := by
  rw [readAll_eq] at got
  split at got
  · cases got
  · injection got with state bytes
    have := foldl_readNext_some (Prod.ext state bytes)
    rwa [List.length_nil, Nat.zero_add] at this

theorem journal_readOnly (s : State) (st : Nat) (us keep : List Nat) : ReadOnly s (journal s st us keep) :=
  (foldl_keeps ReadOnly.refl ReadOnly.trans (fun s u => unitMended_readOnly s st u) _ s).trans ⟨⟨rfl, rfl⟩, rfl, rfl⟩

/-! One write of a stripe. -/

/-- The state with the enabled bytes of stripe `st` put. -/
def stripePut (s : State) (st : Nat) (data : List Byte) (en : List Bool) (x : StripeState) : State :=
  { s with mem := { s.mem with bytes := putEnabled s.mem.bytes (4096 * st) data en, undef := definedBy (4096 * st) en s.mem.undef,
                               stripes := s.mem.stripes.put st x } }

/-- A write that covers some unit puts its enabled bytes and changes no other. -/
theorem stripeWrite_puts (s : State) (st : Nat) (data : List Byte) {en : List Bool} (covers : (coveredUnits en).isEmpty = false) :
    ∃ s1 x, ReadOnly s s1 ∧ ReadOnly (stripePut s1 st data en x) (stripeWrite s st data en) := by
  unfold stripeWrite
  simp only [covers, Bool.false_eq_true, if_false]
  split
  · exact ⟨s, _, .refl s, journal_readOnly ..⟩
  · split
    · exact ⟨s, _, .refl s, journal_readOnly ..⟩
    · exact ⟨poison s st, _, poison_readOnly s st, journal_readOnly ..⟩
  · split
    · exact ⟨s, _, .refl s, journal_readOnly ..⟩
    · exact ⟨s, _, .refl s, journal_readOnly ..⟩

theorem writeStripe_puts (s : State) (part handle st : Nat) (data : List Byte) {en : List Bool} (covers : (coveredUnits en).isEmpty = false) :
    ∃ s1 x, ReadOnly s s1 ∧ ReadOnly (stripePut s1 st data en x) (writeStripe s part handle st data en) := by
  obtain ⟨s1, x, read, put⟩ := stripeWrite_puts ((writeReads s st en).foldl (fun s u => fireUnit s part handle st u) s) st data covers
  exact ⟨s1, x, (foldl_keeps ReadOnly.refl ReadOnly.trans (fun s u => fireUnit_readOnly s part handle st u) _ s).trans read, put⟩

theorem stripePut_storeOnly (s : State) (st : Nat) (data : List Byte) (en : List Bool) (x : StripeState) :
    StoreOnly s (stripePut s st data en x) := ⟨rfl, rfl⟩

/-- The bytes of a piece that begins at `lead` within its stripe and ends in it. -/
def pieceData (lead : Nat) (b : List Byte) : List Byte := List.replicate lead 0 ++ b ++ List.replicate (4096 - lead - b.length) 0

/-- The enables of such a piece. -/
def pieceEnables (lead : Nat) (b : List Byte) : List Bool :=
  List.replicate lead false ++ b.map (fun _ => true) ++ List.replicate (4096 - lead - b.length) false

/-- A string within one stripe is written in one piece. -/
theorem devWrite_oneStripe (s : State) (part handle a : Nat) {b : List Byte} (some_ : b ≠ []) (fits : a % 4096 + b.length ≤ 4096) :
    devWrite s part handle a b = writeStripe (chargeUrgent s part (256 * enableOps (pieceEnables (a % 4096) b))) part handle (a / 4096)
      (pieceData (a % 4096) b) (pieceEnables (a % 4096) b) := by
  have positive : 0 < b.length := List.length_pos_iff.mpr some_
  have one : (a % 4096 + b.length + 4095) / 4096 = 1 := by omega
  have whole : sub b (4096 * 0 + a % 4096 - a % 4096) (4096 - a % 4096) = b := by
    rw [Nat.mul_zero, Nat.zero_add, Nat.sub_self, sub, List.drop_zero, List.take_of_length_le (by omega)]
  have there : b.isEmpty = false := by simpa using some_
  unfold devWrite
  simp only [there, one, Bool.false_eq_true, if_false, List.range_one, List.foldl_cons, List.foldl_nil, if_true, whole, Nat.add_zero]
  rfl

theorem pieceEnables_getElem? (lead : Nat) (b : List Byte) (k : Nat) :
    (pieceEnables lead b)[k]? = some true ↔ lead ≤ k ∧ k < lead + b.length := by
  unfold pieceEnables
  rw [List.append_assoc]
  by_cases before : k < lead
  · rw [List.getElem?_append_left (by simpa using before), List.getElem?_replicate, if_pos before]
    simp
    omega
  · rw [List.getElem?_append_right (by simpa using before), List.length_replicate]
    by_cases inside : k - lead < b.length
    · rw [List.getElem?_append_left (by simpa using inside), List.getElem?_map, List.getElem?_eq_getElem inside]
      simp
      omega
    · rw [List.getElem?_append_right (by simpa using inside), List.getElem?_replicate]
      split
      · simp
        omega
      · simp
        omega

/-- Such a piece covers the unit in which it begins. -/
theorem coveredUnits_piece {lead : Nat} {b : List Byte} (some_ : b ≠ []) (low : lead < 4096) :
    (coveredUnits (pieceEnables lead b)).isEmpty = false := by
  have positive : 0 < b.length := List.length_pos_iff.mpr some_
  have first := (pieceEnables_getElem? lead b lead).mpr (by omega)
  rw [List.isEmpty_eq_false_iff_exists_mem]
  refine ⟨lead / 256, List.mem_filter.mpr ⟨List.mem_range.mpr (by omega), List.any_eq_true.mpr ⟨true, ?_, rfl⟩⟩⟩
  refine List.mem_of_getElem? (i := lead - 256 * (lead / 256)) ?_
  rw [List.getElem?_take_of_lt (by omega), List.getElem?_drop, ← first]
  congr 1
  omega

theorem putEnabled_skip (m : Mem) (a n : Nat) (l : List Byte) (en : List Bool) :
    putEnabled m a (List.replicate n 0 ++ l) (List.replicate n false ++ en) = putEnabled m (a + n) l en := by
  induction n generalizing a with
  | zero => rfl
  | succ n ih =>
    rw [List.replicate_succ, List.replicate_succ, List.cons_append, List.cons_append, putEnabled, if_neg Bool.false_ne_true, ih]
    congr 1
    omega

theorem putEnabled_none (m : Mem) (a n : Nat) : putEnabled m a (List.replicate n 0) (List.replicate n false) = m := by
  have := putEnabled_skip m a n [] []
  rwa [List.append_nil, List.append_nil] at this

theorem putEnabled_all (m : Mem) (a : Nat) (b l : List Byte) (en : List Bool) :
    putEnabled m a (b ++ l) (b.map (fun _ => true) ++ en) = putEnabled (m.wrN a b) (a + b.length) l en := by
  induction b generalizing m a with
  | nil => rfl
  | cons x b ih =>
    rw [List.map_cons, List.cons_append, List.cons_append, putEnabled, ih, if_pos rfl, Mem.wrN, List.length_cons]
    congr 1
    omega

theorem putEnabled_piece (m : Mem) (a lead : Nat) (b : List Byte) :
    putEnabled m a (pieceData lead b) (pieceEnables lead b) = m.wrN (a + lead) b := by
  unfold pieceData pieceEnables
  rw [List.append_assoc, List.append_assoc, putEnabled_skip, putEnabled_all, putEnabled_none]

/-! Undefined ranges (R152). -/

/-- The free value of a byte in an undefined range. -/
def undefAt (l : List Undef) (a : Nat) : Option Byte :=
  (l.find? (fun u => decide (u.lo ≤ a) && decide (a < u.hi))).map (fun u => BitVec.ofNat 8 (Config.freeNat u.key (a - u.base)))

theorem memByte_eq (m : DevMem) (a : Nat) : memByte m a = (undefAt m.undef a).getD (m.bytes.rd a) := by
  unfold memByte undefAt
  split
  next u found => rw [found]; rfl
  next none_ => rw [none_]; rfl

theorem undefAt_append (l r : List Undef) (a : Nat) : undefAt (l ++ r) a = (undefAt l a).or (undefAt r a) := by
  unfold undefAt
  rw [List.find?_append]
  cases l.find? _ <;> rfl

theorem undefAt_cons (u : Undef) (l : List Undef) (a : Nat) : undefAt (u :: l) a = (undefAt [u] a).or (undefAt l a) :=
  undefAt_append [u] l a

theorem undefAt_singleton (u : Undef) (x : Nat) :
    undefAt [u] x = if u.lo ≤ x ∧ x < u.hi then some (BitVec.ofNat 8 (Config.freeNat u.key (x - u.base))) else none := by
  by_cases covers : u.lo ≤ x ∧ x < u.hi
  · simp [undefAt, covers]
  · have apart : (decide (u.lo ≤ x) && decide (x < u.hi)) = false := by simpa using covers
    simp [undefAt, apart, covers]

/-- An empty range holds no byte. -/
theorem undefAt_filter (l : List Undef) (x : Nat) : undefAt (l.filter (fun u => decide (u.lo < u.hi))) x = undefAt l x := by
  unfold undefAt
  rw [List.find?_filter]
  congr 2
  funext u
  by_cases covers : u.lo ≤ x ∧ x < u.hi
  · simp [covers, Nat.lt_of_le_of_lt covers.1 covers.2]
  · have apart : (decide (u.lo ≤ x) && decide (x < u.hi)) = false := by simpa using covers
    simp [apart]

/-- The parts of one range outside [a, a + n). -/
theorem undefAt_parts (a n : Nat) (u : Undef) (x : Nat) :
    undefAt [{ u with hi := Nat.min u.hi a }, { u with lo := Nat.max u.lo (a + n) }] x =
      if a ≤ x ∧ x < a + n then none else undefAt [u] x := by
  have below : x < Nat.min u.hi a ↔ x < u.hi ∧ x < a := Nat.lt_min
  have above : Nat.max u.lo (a + n) ≤ x ↔ u.lo ≤ x ∧ a + n ≤ x := Nat.max_le
  rw [undefAt_cons, undefAt_singleton, undefAt_singleton, undefAt_singleton]
  simp only [below, above]
  by_cases low : x < a
  · rw [if_neg (c := a ≤ x ∧ x < a + n) (by omega), if_neg (c := (u.lo ≤ x ∧ a + n ≤ x) ∧ x < u.hi) (by omega), Option.or_none]
    simp [low]
  · rw [if_neg (c := u.lo ≤ x ∧ x < u.hi ∧ x < a) (by omega), Option.none_or]
    by_cases high : a + n ≤ x
    · rw [if_neg (c := a ≤ x ∧ x < a + n) (by omega)]
      simp [high]
    · rw [if_pos (c := a ≤ x ∧ x < a + n) (by omega), if_neg (by omega)]

theorem undefAt_outsideRange (a n : Nat) (l : List Undef) (x : Nat) :
    undefAt (outsideRange a n l) x = if a ≤ x ∧ x < a + n then none else undefAt l x := by
  unfold outsideRange
  rw [undefAt_filter]
  induction l with
  | nil => exact (ite_self _).symm
  | cons u l ih =>
    rw [List.map_cons, List.flatten_cons, undefAt_append, undefAt_parts, ih, undefAt_cons u l]
    split <;> rfl

/-- Ranges taken out one byte after the other. -/
theorem undefAt_foldl (a : Nat) (ps : List (Bool × Nat)) (l : List Undef) (x : Nat) :
    undefAt (ps.foldl (fun l p => outsideRange (a + p.2) 1 l) l) x = if ∃ p ∈ ps, a + p.2 = x then none else undefAt l x := by
  induction ps generalizing l with
  | nil => simp
  | cons p ps ih =>
    rw [List.foldl_cons, ih, undefAt_outsideRange]
    by_cases here : a + p.2 = x
    · rw [if_pos (c := a + p.2 ≤ x ∧ x < a + p.2 + 1) (by omega), ite_self, if_pos ⟨p, List.mem_cons_self, here⟩]
    · have later : (∃ q ∈ p :: ps, a + q.2 = x) ↔ ∃ q ∈ ps, a + q.2 = x := by simp [here]
      rw [if_neg (c := a + p.2 ≤ x ∧ x < a + p.2 + 1) (by omega)]
      simp only [later]

/-- A byte that is written is defined. -/
theorem undefAt_definedBy (a : Nat) (en : List Bool) (l : List Undef) (x : Nat) :
    undefAt (definedBy a en l) x = if a ≤ x ∧ en[x - a]? = some true then none else undefAt l x := by
  unfold definedBy
  split
  next empty =>
    rw [List.isEmpty_iff.mp empty]
    exact (ite_self _).symm
  · rw [undefAt_foldl]
    congr 1
    refine propext ⟨fun ⟨p, hp, at_⟩ => ?_, fun ⟨le, on⟩ => ?_⟩
    · obtain ⟨e, k⟩ := p
      obtain ⟨among, on⟩ := List.mem_filter.mp hp
      have found := List.mem_zipIdx_iff_getElem?.mp among
      subst at_
      refine ⟨Nat.le_add_right a k, ?_⟩
      rw [Nat.add_sub_cancel_left]
      exact found.trans (congrArg some on)
    · exact ⟨(true, x - a), List.mem_filter.mpr ⟨List.mem_zipIdx_iff_getElem?.mpr on, rfl⟩, Nat.add_sub_cancel' le⟩

/-! A string written within one stripe. -/

theorem devWrite_puts (s : State) (part handle a : Nat) {b : List Byte} (some_ : b ≠ []) (fits : a % 4096 + b.length ≤ 4096) :
    ∃ s1 x, ReadOnly s s1 ∧
      ReadOnly (stripePut s1 (a / 4096) (pieceData (a % 4096) b) (pieceEnables (a % 4096) b) x) (devWrite s part handle a b) := by
  rw [devWrite_oneStripe s part handle a some_ fits]
  obtain ⟨s1, x, read, put⟩ := writeStripe_puts (chargeUrgent s part (256 * enableOps (pieceEnables (a % 4096) b))) part handle (a / 4096)
    (pieceData (a % 4096) b) (coveredUnits_piece some_ (Nat.mod_lt a (by decide)))
  exact ⟨s1, x, (chargeUrgent_readOnly ..).trans read, put⟩

/-- Such a write changes the bytes that it names. -/
theorem memByte_devWrite {s : State} (wf : s.mem.bytes.wf = true) (part handle a : Nat) {b : List Byte} (some_ : b ≠ [])
    (fits : a % 4096 + b.length ≤ 4096) (x : Nat) :
    memByte (devWrite s part handle a b).mem x = if a ≤ x ∧ x < a + b.length then b.getD (x - a) 0 else memByte s.mem x := by
  obtain ⟨s1, y, read, put⟩ := devWrite_puts s part handle a some_ fits
  have whole : 4096 * (a / 4096) + a % 4096 = a := Nat.div_add_mod a 4096
  have enabled : (4096 * (a / 4096) ≤ x ∧ (pieceEnables (a % 4096) b)[x - 4096 * (a / 4096)]? = some true) ↔ a ≤ x ∧ x < a + b.length := by
    rw [pieceEnables_getElem?]
    omega
  rw [put.memByte, ← read.memByte, memByte_eq, memByte_eq]
  simp only [stripePut, undefAt_definedBy, putEnabled_piece, enabled, whole]
  split
  next inside =>
    have at_ : x = a + (x - a) := by omega
    rw [Option.getD_none, at_, Mem.rd_wrN_inside _ _ _ _ (by rw [read.bytes]; exact wf) (by omega), Nat.add_sub_cancel_left]
  next outside => rw [Mem.rd_wrN_outside _ _ _ _ (by omega)]

/-- A write of a stripe leaves the held handles. -/
theorem stripeWrite_storeOnly (s : State) (st : Nat) (data : List Byte) (en : List Bool) : StoreOnly s (stripeWrite s st data en) := by
  cases covers : (coveredUnits en).isEmpty with
  | true =>
    unfold stripeWrite
    simp only [covers, if_true]
    exact .refl s
  | false =>
    obtain ⟨s1, x, read, put⟩ := stripeWrite_puts s st data covers
    exact read.toStoreOnly.trans ((stripePut_storeOnly s1 st data en x).trans put.toStoreOnly)

theorem writeStripe_storeOnly (s : State) (part handle st : Nat) (data : List Byte) (en : List Bool) :
    StoreOnly s (writeStripe s part handle st data en) :=
  (foldl_keeps ReadOnly.refl ReadOnly.trans (fun s u => fireUnit_readOnly s part handle st u) _ s).toStoreOnly.trans (stripeWrite_storeOnly ..)

theorem devWrite_storeOnly (s : State) (part handle a : Nat) (b : List Byte) : StoreOnly s (devWrite s part handle a b) := by
  unfold devWrite
  refine ite_keeps (.refl s) ?_
  exact foldl_keeps StoreOnly.refl StoreOnly.trans (fun s i => (chargeUrgent_readOnly ..).toStoreOnly.trans (writeStripe_storeOnly ..)) _ s

/-! Headers written one after the other. -/

/-- One header more of several writes. -/
def headerNext (part handle : Nat) (acc : Option State) (p : Nat × List Byte) : Option State :=
  acc.bind fun s => if urgentWaits s part then none else some (devWrite s part handle p.1 p.2)

theorem headerWrites_eq (s : State) (part handle : Nat) (l : List (Nat × List Byte)) :
    headerWrites s part handle l = l.foldl (headerNext part handle) (some s) := by
  unfold headerWrites
  congr 1
  funext acc p
  cases acc <;> rfl

theorem foldl_headerNext_none (part handle : Nat) (l : List (Nat × List Byte)) : l.foldl (headerNext part handle) none = none := by
  induction l with
  | nil => rfl
  | cons p l ih => exact ih

theorem headerWrites_cons {s s' : State} {part handle : Nat} {p : Nat × List Byte} {l : List (Nat × List Byte)}
    (written : headerWrites s part handle (p :: l) = some s') : headerWrites (devWrite s part handle p.1 p.2) part handle l = some s' := by
  rw [headerWrites_eq, List.foldl_cons, headerNext, Option.bind_some] at written
  rw [headerWrites_eq]
  split at written
  · rw [foldl_headerNext_none] at written
    cases written
  · exact written

theorem headerWrites_storeOnly {s s' : State} {part handle : Nat} {l : List (Nat × List Byte)}
    (written : headerWrites s part handle l = some s') : StoreOnly s s' := by
  induction l generalizing s with
  | nil =>
    cases written
    exact .refl _
  | cons p l ih => exact (devWrite_storeOnly ..).trans (ih (headerWrites_cons written))

/-- Whole headers at different units stand there, and no other byte changes. -/
theorem headerWrites_written {s s' : State} {part handle : Nat} {l : List (Nat × List Byte)} (units : HeaderUnits s l)
    (written : headerWrites s part handle l = some s') : HeadersWritten s s' l := by
  induction l generalizing s with
  | nil =>
    cases written
    exact ⟨fun _ among => absurd among List.not_mem_nil, fun _ _ => rfl⟩
  | cons p l ih =>
    obtain ⟨wf, once, shapes⟩ := units
    obtain ⟨fresh, once⟩ := List.nodup_cons.mp once
    obtain ⟨⟨aligned, length⟩, shapes⟩ := List.forall_mem_cons.mp shapes
    have put := memByte_devWrite wf part handle p.1 (b := p.2) (List.ne_nil_of_length_pos (by omega)) (by omega)
    rw [length] at put
    obtain ⟨inside, outside⟩ := ih ⟨devWrite_wf _ _ _ _ _ wf, once, shapes⟩ (headerWrites_cons written)
    have apart : ∀ q ∈ l, q.1 + 256 ≤ p.1 ∨ p.1 + 256 ≤ q.1 := fun q hq => by
      have unequal : q.1 ≠ p.1 := fun same => fresh (List.mem_map.mpr ⟨q, hq, same⟩)
      have alignedToo := (shapes q hq).1
      omega
    refine ⟨List.forall_mem_cons.mpr ⟨fun k hk => ?first, inside⟩, fun a out => ?rest⟩
    case first =>
      rw [outside (p.1 + k) (fun q hq => by have := apart q hq; omega), put, if_pos (by omega), Nat.add_sub_cancel_left]
    case rest =>
      obtain ⟨here, there⟩ := List.forall_mem_cons.mp out
      rw [outside a there, put, if_neg here]

/-! The bytes of a header. -/

theorem le_append_left (l m : List Byte) {o n : Nat} (h : o + n ≤ l.length) : le (l ++ m) o n = le l o n := by
  unfold le sub
  rw [List.drop_append_of_le_length (by omega), List.take_append_of_le_length (by rw [List.length_drop]; omega)]

theorem le_append_right (l m : List Byte) {o n : Nat} (h : l.length ≤ o) : le (l ++ m) o n = le m (o - l.length) n := by
  unfold le
  rw [sub_append_skip m n h]

theorem le_take (l : List Byte) {o n k : Nat} (h : o + n ≤ k) : le (l.take k) o n = le l o n := by
  unfold le sub
  rw [List.drop_take, List.take_take, Nat.min_eq_left (by omega)]

theorem le_leBytes (n x : Nat) : le (leBytes n x) 0 n = x % 256 ^ n := by
  unfold le sub
  rw [List.drop_zero, List.take_of_length_le (Nat.le_of_eq (length_leBytes n x)), leNat_leBytes]

section
variable {l v : List Byte} {o : Nat} (fits : o + v.length ≤ l.length)
include fits

theorem splice_length : (splice l o v).length = l.length := by
  unfold splice
  simp only [List.length_append, List.length_take, List.length_drop]
  omega

theorem le_splice_before {a n : Nat} (before : a + n ≤ o) : le (splice l o v) a n = le l a n := by
  unfold splice
  rw [List.append_assoc, le_append_left _ _ (by rw [List.length_take]; omega), le_take l before]

theorem le_splice_same {n : Nat} (length : v.length = n) : le (splice l o v) o n = le v 0 n := by
  have taken : (l.take o).length = o := by rw [List.length_take]; omega
  unfold splice
  rw [List.append_assoc, le_append_right _ _ (by omega), taken, Nat.sub_self, le_append_left _ _ (by omega)]

theorem getD_splice_outside {k : Nat} (out : k < o ∨ o + v.length ≤ k) : (splice l o v).getD k 0 = l.getD k 0 := by
  have taken : (l.take o).length = o := by rw [List.length_take]; omega
  unfold splice
  rw [List.getD_eq_getElem?_getD, List.getD_eq_getElem?_getD, List.append_assoc]
  rcases out with before | after
  · rw [List.getElem?_append_left (by omega), List.getElem?_take_of_lt before]
  · rw [List.getElem?_append_right (by omega), List.getElem?_append_right (by omega), taken, List.getElem?_drop]
    congr 2
    omega

end

theorem crcBit_lt {c : Nat} (h : c < 2 ^ 32) : crcBit c < 2 ^ 32 := by
  unfold crcBit
  split
  · exact Nat.xor_lt_two_pow (by omega) (by decide)
  · omega

theorem crcByte_lt {c : Nat} (h : c < 2 ^ 32) (b : Byte) : crcByte c b < 2 ^ 32 := by
  have byte : b.toNat < 2 ^ 32 := Nat.lt_of_lt_of_le b.isLt (by decide)
  exact crcBit_lt (crcBit_lt (crcBit_lt (crcBit_lt (crcBit_lt (crcBit_lt (crcBit_lt (crcBit_lt (Nat.xor_lt_two_pow h byte))))))))

theorem crc32c_lt (l : List Byte) : crc32c l < 2 ^ 32 :=
  Nat.xor_lt_two_pow (List.foldlRecOn (motive := fun c => c < 2 ^ 32) l crcByte (by decide) fun _ low b _ => crcByte_lt low b) (by decide)

section
variable {l : List Byte} (long : 252 ≤ l.length)
include long

theorem sealHeader_length : (sealHeader l).length = 256 := by
  unfold sealHeader
  rw [List.length_append, List.length_take, length_leBytes]
  omega

/-- The fields before the CRC are as they were. -/
theorem le_sealHeader {o n : Nat} (h : o + n ≤ 252) : le (sealHeader l) o n = le l o n := by
  unfold sealHeader
  rw [le_append_left _ _ (by rw [List.length_take]; omega), le_take l h]

theorem getD_sealHeader {k : Nat} (h : k < 252) : (sealHeader l).getD k 0 = l.getD k 0 := by
  unfold sealHeader
  rw [List.getD_eq_getElem?_getD, List.getD_eq_getElem?_getD, List.getElem?_append_left (by rw [List.length_take]; omega),
    List.getElem?_take_of_lt h]

theorem crcOk_sealHeader : crcOk (sealHeader l) = true := by
  have taken : (l.take 0xFC).length = 0xFC := by rw [List.length_take]; omega
  have crc : le (sealHeader l) 0xFC 4 = crc32c (l.take 0xFC) := by
    unfold sealHeader
    rw [le_append_right _ _ (by omega), taken, Nat.sub_self, le_leBytes, Nat.mod_eq_of_lt (show _ < 256 ^ 4 from crc32c_lt _)]
  have rest : (sealHeader l).take 0xFC = l.take 0xFC := List.take_left' taken
  unfold crcOk
  rw [crc, rest]
  exact beq_self_eq_true _

theorem gen_splice_fits (gen : Nat) : 0x38 + (leBytes 8 (gen % 2 ^ 64)).length ≤ l.length := by
  rw [length_leBytes]
  omega

theorem gen_splice_length (gen : Nat) : 252 ≤ (splice l 0x38 (leBytes 8 (gen % 2 ^ 64))).length := by
  rw [splice_length (gen_splice_fits long gen)]
  exact long

theorem withGen_length (gen : Nat) : (withGen l gen).length = 256 := sealHeader_length (gen_splice_length long gen)

theorem crcOk_withGen (gen : Nat) : crcOk (withGen l gen) = true := crcOk_sealHeader (gen_splice_length long gen)

theorem ohGen_withGen (gen : Nat) : ohGen (withGen l gen) = gen % 2 ^ 64 := by
  unfold ohGen withGen
  rw [le_sealHeader (gen_splice_length long gen) (by decide), le_splice_same (gen_splice_fits long gen) (length_leBytes ..), le_leBytes]
  exact Nat.mod_mod _ _

/-- The fields before GEN are as they were. -/
theorem le_withGen_before (gen : Nat) {o n : Nat} (h : o + n ≤ 0x38) : le (withGen l gen) o n = le l o n := by
  unfold withGen
  rw [le_sealHeader (gen_splice_length long gen) (by omega), le_splice_before (gen_splice_fits long gen) h]

theorem getD_withGen (gen : Nat) {k : Nat} (h : k < 0x38 ∨ 0x40 ≤ k ∧ k < 0xFC) : (withGen l gen).getD k 0 = l.getD k 0 := by
  unfold withGen
  rw [getD_sealHeader (gen_splice_length long gen) (by omega), getD_splice_outside (gen_splice_fits long gen) (by rw [length_leBytes]; omega)]

end

/-- What `notValid` puts a generation into: an IGCT header that is not VALID. -/
def invalidHead (free : List Byte) : List Byte :=
  splice (leBytes 4 magicCt ++ leBytes 1 1 ++ free.drop 5) 6 (leBytes 2 (le (leBytes 4 magicCt ++ leBytes 1 1 ++ free.drop 5) 6 2 / 2 * 2))

theorem notValid_eq (free : List Byte) (gen : Nat) : notValid free gen = withGen (invalidHead free) gen := rfl

section
variable {free : List Byte} (length : free.length = 256)
include length

theorem invalid_splice_fits (x : Nat) : 6 + (leBytes 2 x).length ≤ (leBytes 4 magicCt ++ leBytes 1 1 ++ free.drop 5).length := by
  simp only [List.length_append, length_leBytes, List.length_drop, length]
  decide

theorem invalidHead_long : 252 ≤ (invalidHead free).length := by
  rw [invalidHead, splice_length (invalid_splice_fits length _)]
  simp only [List.length_append, length_leBytes, List.length_drop, length]
  decide

/-- The header is intact, and not VALID. -/
theorem notValid_shape (gen : Nat) : (notValid free gen).length = 256 ∧ intactCt (notValid free gen) = true ∧
    ohValid (notValid free gen) = false ∧ ohGen (notValid free gen) = gen % 2 ^ 64 := by
  have long := invalidHead_long length
  rw [notValid_eq]
  refine ⟨withGen_length long gen, ?intact, ?invalid, ohGen_withGen long gen⟩
  case intact =>
    have magic : le (withGen (invalidHead free) gen) 0 4 = magicCt := by
      rw [le_withGen_before long gen (by decide), invalidHead, le_splice_before (invalid_splice_fits length _) (by decide), List.append_assoc,
        le_append_left _ _ (by rw [length_leBytes]), le_leBytes]
      decide
    unfold intactCt
    rw [magic, crcOk_withGen long gen]
    rfl
  case invalid =>
    unfold ohValid ohFlags bitAt
    rw [le_withGen_before long gen (by decide), invalidHead, le_splice_same (invalid_splice_fits length _) (length_leBytes ..), le_leBytes,
      Nat.testBit_zero]
    simp only [decide_eq_false_iff_not]
    omega

end

end Sys2Proof.Proofs

/-! O37: the start of a task on a tile, its final headers, and idle tiles (R43, R125, R126, R174 to R177, R325). -/

namespace Sys2Proof.Proofs

open Sys2Proof Sys2Proof.Machine Sys2Proof.Claims Sys2Proof.Laws

/-! A tile at the start of a task (R125, R174). -/

/-- The entry of a table over the groups of a scratchpad. -/
theorem get_groupList {α : Type} (f : Nat → α) (d : α) {k : Nat} (h : k < 8) : Tbl.get (groupList.map (fun k => (k, f k))) k d = f k := by
  interval_cases k <;> rfl

/-- A byte none of whose cells is kept reads zero. -/
theorem rd_filter_gone {m : Mem} {p : Host.Cell → Bool} {a : Nat} (gone : ∀ v, p (a, v) = false) : Mem.rd (m.filter p) a = 0 := by
  induction m with
  | nil => rfl
  | cons c m ih =>
    obtain ⟨k, v⟩ := c
    by_cases here : k = a
    · subst here
      rwa [List.filter_cons_of_neg (by simp [gone v])]
    · by_cases kept : p (k, v) = true
      · rw [List.filter_cons_of_pos kept, Mem.rd, if_neg here]
        exact ih
      · rwa [List.filter_cons_of_neg kept]

theorem regOf_startTile (g : Group) (e : Entry) (i : Image) (t : Nat) (x : Tile) (n : Nat) : regOf (startTile g e i t x) n = 0 := by
  have empty : (startTile g e i t x).regs = [] := rfl
  unfold regOf
  rw [empty, Tbl.get_nil, ite_self]

theorem power_startTile (g : Group) (e : Entry) (i : Image) (t : Nat) (x : Tile) {k : Nat} (h : k < 8) :
    (startTile g e i t x).power.get k .on =
      if i.footprint.testBit k then .on else if g.idle = 1 then .penumbra else .umbra := get_groupList _ _ h

theorem spad_startTile (g : Group) (e : Entry) {i : Image} (t : Nat) (x : Tile) {a : Nat} (foot : i.footprint.testBit (a / 0x100000) = true) :
    (startTile g e i t x).spad.rd a = 0 := rd_filter_gone (p := fun p => !(bitAt i.footprint (spadGroup p.1)))
  fun _ => by rw [spadGroup, bitAt, foot, Bool.not_true]

section
variable {s : State} {h : Nat} {g : Group} {e : Entry} (found : groupOf s h = some g) (held : entryOf s h = some e) (t : Nat) (i : Image)
include found held

theorem startOn_eq : startOn s h t i =
    setGroup (setInfo (setTile s t (startTile g e i t (tileOf s t))) t { infoOf s t with lull := false }) { g with started := g.started ++ [t] } := by
  unfold startOn
  rw [found, held]

theorem tileOf_startOn : tileOf (startOn s h t i) t = startTile g e i t (tileOf s t) := by
  rw [startOn_eq found held]
  exact tileOf_setTile ..

theorem tileOf_startOn_ne {k : Nat} (other : k ≠ t) : tileOf (startOn s h t i) k = tileOf s k := by
  rw [startOn_eq found held]
  exact tileOf_setTile_ne s _ other

theorem started_startOn : (groupOf (startOn s h t i) h).map (fun k => k.started) = some (g.started ++ [t]) := by
  rw [startOn_eq found held]
  have replaced := groupOf_setGroup (s := setInfo (setTile s t (startTile g e i t (tileOf s t))) t { infoOf s t with lull := false })
    (g' := { g with started := g.started ++ [t] }) found rfl
  exact congrArg (Option.map fun k : Group => k.started) replaced

theorem startOn_mem : (startOn s h t i).mem = s.mem := by
  rw [startOn_eq found held]
  rfl

theorem startOn_ts : (startOn s h t i).ts = (setInfo s t { infoOf s t with lull := false }).ts := by
  rw [startOn_eq found held]
  rfl

end

/-! The destination headers at the first start (R43). -/

/-- A first start has read the destination headers and written each not-VALID, or the entry holds their generations already. -/
theorem clearDests_cases {s s1 : State} {g : Group} {e : Entry} {i : Image} (cleared : clearDests s g e i = some (s1, true)) :
    (e.prevGen ≠ [] ∧ s1 = s) ∨ ∃ s0 bs s3, e.prevGen = [] ∧
      readAll s g.part g.handle ((destHeads e i).map (fun p => (p.2, 256))) = .got s0 (some bs) ∧
      headerWrites (clearedHeads s0 ((destHeads e i).zip bs)).1 g.part g.handle (clearedHeads s0 ((destHeads e i).zip bs)).2 = some s3 ∧
      s1 = setEntry s3 { e with prevGen := ((destHeads e i).zip bs).map (fun p => (p.1.1, prevGenOf p.2)) } := by
  unfold clearDests at cleared
  split at cleared
  next recorded =>
    cases cleared
    exact .inl ⟨by simpa using recorded, rfl⟩
  next fresh =>
    have fresh : e.prevGen = [] := by simpa using fresh
    split at cleared
    · cases cleared
    · cases cleared
    next s0 bs got =>
      obtain ⟨s3, written, shape⟩ := Option.map_eq_some_iff.mp cleared
      exact .inr ⟨s0, bs, s3, fresh, got, written, (congrArg Prod.fst shape).symm⟩

/-- A not-VALID header for a destination, with the generation that stood there. -/
def ClearedHead (q : (Nat × Nat) × List Byte) (p : Nat × List Byte) : Prop :=
  ∃ free, free.length = 256 ∧ p = (q.1.2, notValid free (prevGenOf q.2))

theorem drawBytes_readOnly (s : State) (n : Nat) : ReadOnly s (drawBytes s n).2 := ⟨⟨rfl, rfl⟩, rfl, rfl⟩

theorem clearedHeads_go (l : List ((Nat × Nat) × List Byte)) (s : State) (acc : List (Nat × List Byte)) :
    ∃ r, List.Forall₂ ClearedHead l r ∧
      (l.foldl (fun acc p =>
        let (v, s) := drawBytes acc.1 256
        (s, acc.2 ++ [(p.1.2, notValid v (prevGenOf p.2))])) (s, acc)).2 = acc ++ r ∧
      ReadOnly s (l.foldl (fun acc p =>
        let (v, s) := drawBytes acc.1 256
        (s, acc.2 ++ [(p.1.2, notValid v (prevGenOf p.2))])) (s, acc)).1 := by
  induction l generalizing s acc with
  | nil => exact ⟨[], .nil, (List.append_nil acc).symm, .refl s⟩
  | cons q l ih =>
    obtain ⟨r, heads, bytes, read⟩ := ih (drawBytes s 256).2 (acc ++ [(q.1.2, notValid (drawBytes s 256).1 (prevGenOf q.2))])
    refine ⟨_ :: r, .cons ⟨(drawBytes s 256).1, drawBytes_length s 256, rfl⟩ heads, ?_, ?_⟩
    · rw [List.foldl_cons]
      exact bytes.trans (List.append_assoc ..)
    · rw [List.foldl_cons]
      exact (drawBytes_readOnly s 256).trans read

theorem clearedHeads_heads (s : State) (l : List ((Nat × Nat) × List Byte)) :
    List.Forall₂ ClearedHead l (clearedHeads s l).2 ∧ ReadOnly s (clearedHeads s l).1 := by
  obtain ⟨r, heads, bytes, read⟩ := clearedHeads_go l s []
  rw [List.nil_append] at bytes
  refine ⟨?_, read⟩
  rw [← bytes] at heads
  exact heads

theorem clearedHead_addr {l : List ((Nat × Nat) × List Byte)} {r : List (Nat × List Byte)} (heads : List.Forall₂ ClearedHead l r) :
    r.map (fun p => p.1) = l.map (fun q => q.1.2) := by
  induction heads with
  | nil => rfl
  | cons head _ ih =>
    obtain ⟨free, -, rfl⟩ := head
    rw [List.map_cons, List.map_cons, ih]

theorem clearedHead_get {l : List ((Nat × Nat) × List Byte)} {r : List (Nat × List Byte)} (heads : List.Forall₂ ClearedHead l r) {k : Nat}
    {q : (Nat × Nat) × List Byte} (at_ : l[k]? = some q) : ∃ p, r[k]? = some p ∧ ClearedHead q p := by
  induction heads generalizing k with
  | nil => cases at_
  | cons head _ ih =>
    cases k with
    | zero =>
      cases at_
      exact ⟨_, rfl, head⟩
    | succ k => exact ih at_

/-- What is written after reads counts from before them. -/
theorem headersWritten_of_readOnly {s s0 s3 s' : State} {l : List (Nat × List Byte)} (read : ReadOnly s s0)
    (written : HeadersWritten s0 s3 l) (same : ∀ a, memByte s'.mem a = memByte s3.mem a) : HeadersWritten s s' l :=
  ⟨fun p hp k hk => (same _).trans (written.1 p hp k hk), fun a out => (same a).trans ((written.2 a out).trans (read.memByte a))⟩

theorem headerUnits_of_readOnly {s s0 : State} {l : List (Nat × List Byte)} (read : ReadOnly s s0) (units : HeaderUnits s l) :
    HeaderUnits s0 l := by
  unfold HeaderUnits
  rw [read.bytes]
  exact units

/-- The first start records the generation of each destination and writes its header not-VALID. -/
theorem clearDests_writes {s s0 s1 : State} {g : Group} {e : Entry} {i : Image} {bs : List (List Byte)}
    (held : entryOf s g.handle = some e) (cleared : clearDests s g e i = some (s1, true)) (fresh : e.prevGen = [])
    (got : readAll s g.part g.handle ((destHeads e i).map (fun p => (p.2, 256))) = .got s0 (some bs)) :
    (entryOf s1 g.handle).map (fun k => k.prevGen) = some (((destHeads e i).zip bs).map (fun p => (p.1.1, prevGenOf p.2))) ∧
      ∃ l, List.Forall₂ ClearedHead ((destHeads e i).zip bs) l ∧ l.map (fun p => p.1) = (destHeads e i).map (fun p => p.2) ∧
        (HeaderUnits s l → HeadersWritten s s1 l) := by
  rcases clearDests_cases cleared with ⟨recorded, -⟩ | ⟨s0', bs', s3, -, got', written, rfl⟩
  · exact absurd fresh recorded
  rw [got] at got'
  injection got' with same same'
  injection same' with same'
  subst same same'
  obtain ⟨read, length⟩ := readAll_some got
  obtain ⟨heads, drawn⟩ := clearedHeads_heads s0 ((destHeads e i).zip bs)
  have still : entryOf s3 g.handle = some e :=
    ((headerWrites_storeOnly written).entryOf _).trans (((read.trans drawn).toStoreOnly.entryOf _).trans held)
  refine ⟨?_, _, heads, ?_, fun units => ?_⟩
  · refine (congrArg (Option.map fun k : Entry => k.prevGen) (entryOf_setEntry still ?_)).trans ?_ <;> rfl
  · have zipped : ((destHeads e i).zip bs).map Prod.fst = destHeads e i :=
      List.map_fst_zip (by rw [length, List.length_map])
    have addrs := congrArg (List.map fun p => p.2) zipped
    rw [List.map_map] at addrs
    exact (clearedHead_addr heads).trans addrs
  · exact headersWritten_of_readOnly (read.trans drawn)
      (headerWrites_written (headerUnits_of_readOnly (read.trans drawn) units) written) fun _ => rfl

/-- Clearing the destinations leaves the group and its handle. -/
theorem clearDests_keeps {s s1 : State} {g : Group} {e : Entry} {i : Image} (held : entryOf s g.handle = some e)
    (cleared : clearDests s g e i = some (s1, true)) : s1.groups = s.groups ∧ ∃ e1, entryOf s1 g.handle = some e1 := by
  rcases clearDests_cases cleared with ⟨-, rfl⟩ | ⟨s0, bs, s3, -, got, written, rfl⟩
  · exact ⟨rfl, e, held⟩
  obtain ⟨read, -⟩ := readAll_some got
  have only := (read.trans (clearedHeads_heads s0 ((destHeads e i).zip bs)).2).toStoreOnly.trans (headerWrites_storeOnly written)
  exact ⟨only.frame.groups, _, entryOf_setEntry ((only.entryOf _).trans held) rfl⟩

/-! The triples of an epoch (R430). -/

/-- What the consumption of triples keeps of a task. -/
structure Consumed (s s' : State) (h : Nat) : Prop where
  entries : s'.ts.entries = s.ts.entries
  started : (groupOf s' h).map (fun k => k.started) = (groupOf s h).map (fun k => k.started)

theorem Consumed.refl (s : State) (h : Nat) : Consumed s s h := ⟨rfl, rfl⟩

theorem Consumed.trans {a b c : State} {h : Nat} (x : Consumed a b h) (y : Consumed b c h) : Consumed a c h :=
  ⟨y.entries.trans x.entries, y.started.trans x.started⟩

theorem consumed_consumeOne {s s' : State} {g : Group} {e : Entry} {i : Image} {n : Nat} (done : consumeOne s g e i n = some (s', 0)) :
    Consumed s s' g.handle := by
  have read := devRead_readOnly s g.part g.handle (slotAddr e i n) 256
  unfold consumeOne at done
  simp only at done
  revert read done
  generalize devRead s g.part g.handle (slotAddr e i n) 256 = r
  obtain ⟨s1, b⟩ := r
  intro read done
  split at done
  · cases done
  · cases b with
    | none => cases done
    | some b =>
      simp only at done
      split at done
      · obtain ⟨s2, written, shape⟩ := Option.map_eq_some_iff.mp done
        have only := read.toStoreOnly.trans (headerWrites_storeOnly written)
        have groups := only.groupOf g.handle
        injection shape with state
        subst state
        cases found : groupOf s2 g.handle with
        | none =>
          refine ⟨only.entries, ?_⟩
          rw [groups]
        | some k =>
          refine ⟨only.entries, ?_⟩
          rw [← groups, found]
          have replaced := congrArg (Option.map fun k : Group => k.started)
            (groupOf_setGroup (g' := { k with triples := k.triples ++ [n] }) found rfl)
          exact replaced
      · cases done

/-- One triple more of those due. -/
def consumeNext (g : Group) (e : Entry) (i : Image) (acc : Option (State × Nat)) (n : Nat) : Option (State × Nat) :=
  match acc with
  | some (s, 0) => consumeOne s g e i n
  | r => r

theorem foldl_consumeNext_stays (g : Group) (e : Entry) (i : Image) {r : Option (State × Nat)} (ended : ∀ s, r ≠ some (s, 0)) (l : List Nat) :
    l.foldl (consumeNext g e i) r = r := by
  have fixed : ∀ n, consumeNext g e i r n = r := fun n => by
    unfold consumeNext
    split
    next s => exact absurd rfl (ended s)
    · rfl
  exact List.foldl_fixed' fixed l

theorem consumed_foldl {g : Group} {e : Entry} {i : Image} {l : List Nat} {s s' : State}
    (done : l.foldl (consumeNext g e i) (some (s, 0)) = some (s', 0)) : Consumed s s' g.handle := by
  induction l generalizing s with
  | nil =>
    cases done
    exact .refl _ _
  | cons n l ih =>
    rw [List.foldl_cons, consumeNext] at done
    cases first : consumeOne s g e i n with
    | none =>
      rw [first, foldl_consumeNext_stays g e i (fun s => by simp)] at done
      cases done
    | some r =>
      obtain ⟨s1, st⟩ := r
      rw [first] at done
      cases st with
      | zero => exact (consumed_consumeOne first).trans (ih done)
      | succ k =>
        rw [foldl_consumeNext_stays g e i (fun s => by simp)] at done
        cases done

theorem consumed_consumeTriples {g : Group} {e : Entry} {i : Image} {k : Nat} {s s' : State}
    (done : consumeTriples s g e i k = some (s', 0)) : Consumed s s' g.handle := by
  exact consumed_foldl (g := g) (e := e) (i := i) (l := triplesDue e i k g.triples) done

/-! TILE_TASK_START. -/

section
variable {s : State} {t : Nat} {g : Group} {e : Entry} {i : Image} (among : tileGroup s t = some g) (held : entryOf s g.handle = some e)
  (image : e.image = some i) (ready : g.fault = none) (runs : s.flt.mcRestarting = false)
  (domain : domainRuns s 7 = true) (wakes : mayWake s t = true)
include among held image ready runs domain wakes

/-- A further tile of a running group starts. -/
theorem tileTaskStart_further (fresh : t ∉ g.started) (further : g.started ≠ []) :
    exec (.tileTaskStart t) s = .next (startOn s g.handle t i) := by
  have first : g.started.isEmpty = false := by simpa using further
  have absent : g.started.contains t = false := by simpa using fresh
  show execTileTaskStart t s = _
  simp only [execTileTaskStart, among, held, image, absent, ready, runs, domain, wakes, first, Option.isSome_none, Bool.or_false, Bool.not_true,
    Bool.false_eq_true, if_false, Bool.not_false, if_true]

/-- The first start follows the headers of the destinations and the triples of epoch 0. -/
theorem tileTaskStart_first (first : g.started = []) {s1 s2 : State} (cleared : clearDests s g e i = some (s1, true))
    (consumed : consumeTriples s1 g e i 0 = some (s2, 0)) : exec (.tileTaskStart t) s = .next (startOn s2 g.handle t i) := by
  show execTileTaskStart t s = _
  simp only [execTileTaskStart, among, held, image, first, ready, runs, domain, wakes, Option.isSome_none, Bool.or_false, Bool.not_true,
    Bool.false_eq_true, if_false, List.contains_nil, List.isEmpty_nil, cleared, consumed, if_true]

end

/-! TASK_FINAL_HEADERS. -/

/-- A group without a violation whose tiles are done, in its last planned epoch. -/
structure Finishes (s : State) (h : Nat) (g : Group) (e : Entry) (i : Image) : Prop where
  found : groupOf s h = some g
  held : entryOf s h = some e
  image : e.image = some i
  done : groupDone s g = true
  last : lastPlanned i g = true
  runs : s.flt.mcRestarting = false
  clear : closeViols s g = none

theorem sourceStands_iff (e : Entry) (slot : Nat) (b : List Byte) :
    sourceStands e slot b = true ↔ intactCt b = true ∧ ohValid b = true ∧ ohGen b = ohGen (headerAt e.headers slot) := by
  unfold sourceStands
  rw [Bool.and_eq_true, Bool.and_eq_true, beq_iff_eq, and_assoc]

section
variable {s s1 : State} {h : Nat} {g : Group} {e : Entry} {i : Image} {bs : List (List Byte)} (fin : Finishes s h g e i)
  (got : readAll s g.part h ((declsOf i.objs 1).map (fun d => (slotAddr e i d.slot, 256))) = .got s1 (some bs))
include fin got

/-- A source that no longer stands ends the task. -/
theorem taskFinalHeaders_stale (stale : ((declsOf i.objs 1).zip bs).all (fun p => sourceStands e p.1.slot p.2) = false) :
    exec (.taskFinalHeaders h) s = .next (abortTask s1 h stHeaderInvalid none) := by
  show execTaskFinalHeaders h s = _
  simp only [execTaskFinalHeaders, fin.found, fin.held, fin.image, fin.done, fin.last, fin.runs, fin.clear, got, stale, Bool.not_true,
    Bool.or_false, Bool.false_eq_true, if_false, Bool.not_false, if_true]

/-- Where every source stands, the headers are written and the task completes. -/
theorem taskFinalHeaders_done (stands : ((declsOf i.objs 1).zip bs).all (fun p => sourceStands e p.1.slot p.2) = true) {s2 : State}
    (written : headerWrites s1 g.part h (finalHeads e i) = some s2) :
    exec (.taskFinalHeaders h) s = .next (complete (endGroup s2 g) h stOk 0 none (e.finals.any (fun p => ohExhausted p.2))) := by
  show execTaskFinalHeaders h s = _
  simp only [execTaskFinalHeaders, fin.found, fin.held, fin.image, fin.done, fin.last, fin.runs, fin.clear, got, stands, written, Bool.not_true,
    Bool.or_false, Bool.false_eq_true, if_false]

end

/-- The end of a group leaves the bytes of device memory. -/
theorem memByte_complete_endGroup (s : State) (g : Group) (h status info : Nat) (d : Option Detail) (ex : Bool) (a : Nat) :
    memByte (complete (endGroup s g) h status info d ex).mem a = memByte s.mem a := by
  have freed : ∀ s, (freeTiles s g).mem = s.mem := fun s => by
    refine foldl_keeps (R := fun s s' => s'.mem = s.mem) (fun _ => rfl) (fun h k => k.trans h) (fun s t => ?_) _ s
    exact (offerTile_frame ..).mem
  rw [(complete_frame ..).mem, endGroup, freed]
  rfl

theorem final_of_dest {e : Entry} {i : Image} {d : ObjDecl} (among : d ∈ declsOf i.objs 3) {g : Nat}
    (recorded : e.prevGen.find? (fun q => q.1 == d.slot) = some (d.slot, g)) :
    (slotAddr e i d.slot, withGen (headerAt e.finals d.slot) (g + 1)) ∈ finalHeads e i := by
  refine List.mem_map.mpr ⟨(d.slot, slotAddr e i d.slot), List.mem_map.mpr ⟨d, among, rfl⟩, ?_⟩
  simp only [recorded]

/-! Idle tiles (R176, R177, R325). -/

theorem tileOf_setInfo (s : State) (t k : Nat) (i : TileInfo) : tileOf (setInfo s t i) k = tileOf s k := rfl

section
variable {s : State} {t : Nat}

/-- Every register of a started tile is zero, and its core stands at CYC 0. -/
theorem startOn_runs {s : State} {h : Nat} {g : Group} {e : Entry} (found : groupOf s h = some g) (held : entryOf s h = some e) (t : Nat)
    (i : Image) : (tileOf (startOn s h t i) t).status = .running ∧ (tileOf (startOn s h t i) t).cyc = 0 ∧
      ∀ n, regOf (tileOf (startOn s h t i) t) n = 0 := by
  rw [tileOf_startOn found held]
  exact ⟨rfl, rfl, regOf_startTile g e i t _⟩

/-- An idle tile enters Lull after LULL_US. -/
theorem lullEntry_completes (idle : (infoOf s t).state = 0 ∨ (infoOf s t).state = 2) (awake : (infoOf s t).lull = false)
    (free : tileGroup s t = none) (low : t < 64) (late : (infoOf s t).freeAt + 1000 * s.ts.bundle.lullUs ≤ s.time) :
    exec (.lullEntry t) s = .next (setInfo (setTile s t (idleGroups (tileIdle s t) (tileOf s t))) t
      { infoOf s t with state := if (infoOf s t).state = 0 then 3 else (infoOf s t).state, lull := true }) := by
  have idle : ((infoOf s t).state == 0 || (infoOf s t).state == 2) = true := by simpa using idle
  show execLullEntry t s = _
  simp only [execLullEntry, idle, awake, free, low, late, Bool.not_false, Option.isNone_none, decide_true, Bool.and_self, if_true]

/-- No group of an idle tile is On. -/
theorem idleGroups_off (idle : Nat) (x : Tile) {k : Nat} (h : k < 8) : (idleGroups idle x).power.get k .on ≠ .on := by
  have power : (idleGroups idle x).power.get k .on =
      if x.power.get k .on == .on then (if idle = 1 then .penumbra else .umbra) else x.power.get k .on := get_groupList _ _ h
  rw [power]
  split
  · split <;> decide
  next off => simpa using off

/-- A tile that passes to another session is scrubbed. -/
theorem tileScrub_completes (free : tileGroup s t = none) (dirty : (infoOf s t).dirty = true) (held : (infoOf s t).state ≠ 1)
    (passes : (infoOf s t).state = 4 ∨ 4096 ≤ (infoOf s t).session ∨ wantedByOther s t = true) (wakes : mayWake s t = true) :
    exec (.tileScrub t) s = .next (setInfo (setTile s t (scrubbed (tileOf s t))) t { infoOf s t with
        dirty := false, lull := false,
        state := if (infoOf s t).state = 2 then 2 else if (infoOf s t).version = s.ts.bundle.version then 0 else 2 }) := by
  have passes : ((infoOf s t).state == 4 || decide (4096 ≤ (infoOf s t).session) || wantedByOther s t) = true := by
    simpa [or_assoc] using passes
  have held : ((infoOf s t).state != 1) = true := by simpa using held
  show execTileScrub t s = _
  simp only [execTileScrub, free, dirty, held, passes, wakes, Option.isNone_none, Bool.and_self, if_true]
  rfl

/-- A held-out tile takes the active version, or counts a failure. -/
theorem tileReconfigure_completes (heldOut : (infoOf s t).state = 2) (tries : (infoOf s t).fails < 2) (free : tileGroup s t = none)
    (domain : domainRuns s 3 = true) (ok : Bool) :
    exec (.tileReconfigure t ok) s = .next (setInfo s t (if ok
      then { infoOf s t with
        state := if (infoOf s t).lull then 3 else 0, version := s.ts.bundle.version, fails := 0, part := (tilePart s t).getD 0 }
      else { infoOf s t with fails := (infoOf s t).fails + 1 })) := by
  have heldOut : ((infoOf s t).state == 2) = true := by simpa using heldOut
  show execTileReconfigure t ok s = _
  simp only [execTileReconfigure, heldOut, tries, free, domain, Option.isNone_none, decide_true, Bool.and_self, if_true]
  cases ok <;> rfl

end

/-- Settles O37: each step answers the state that its lemma names, and the headers are read off those. -/
theorem tilesStartEndAndIdle : Obligations.TilesStartEndAndIdle := by
  unfold Obligations.TilesStartEndAndIdle
  intro s t
  refine ⟨fun g e i among held found image fresh ready runs domain wakes further => ?further,
    fun g e i s1 s2 among held found image first ready runs domain wakes cleared consumed => ⟨?first, fun s0 bs unread got => ?cleared⟩,
    fun h g e i found named held image done last runs clear once => ⟨fun noSource noDest => ?plain, fun s1 bs got => ⟨fun stale => ?stale,
      fun stands s2 written => ?done⟩⟩,
    fun e i g => ⟨?addrs, fun d among recorded length => ?final⟩,
    fun idle awake free low late => ?lull,
    fun free dirty held passes wakes => ?scrub,
    fun heldOut tries free domain => ⟨?configured, ?failed⟩⟩
  case further =>
    obtain ⟨running, cyc, regs⟩ := startOn_runs found held t i
    refine ⟨_, tileTaskStart_further among held image ready runs domain wakes fresh further, running, cyc, regs, ?_, ?_, ?_, fun k hk => ?_,
      fun a _ foot => ?_, fun k other => tileOf_startOn_ne found held t i other, started_startOn found held t i,
      startOn_mem found held t i, startOn_ts found held t i⟩ <;> rw [tileOf_startOn found held]
    · rfl
    · rfl
    · rfl
    · exact power_startTile g e i t _ hk
    · exact spad_startTile g e t _ foot
  case first =>
    obtain ⟨groups, e1, held1⟩ := clearDests_keeps held cleared
    have steps := consumed_consumeTriples consumed
    have held2 : entryOf s2 g.handle = some e1 := by
      unfold entryOf at held1 ⊢
      rw [steps.entries, held1]
    have found1 : groupOf s1 g.handle = some g := by
      unfold groupOf at found ⊢
      rw [groups, found]
    have started := steps.started
    rw [found1, Option.map_some, first] at started
    obtain ⟨g2, found2, none_⟩ := Option.map_eq_some_iff.mp started
    obtain ⟨running, cyc, regs⟩ := startOn_runs found2 held2 t i
    refine ⟨_, tileTaskStart_first among held image ready runs domain wakes first cleared consumed, running, cyc, regs, ?_,
      startOn_mem found2 held2 t i⟩
    rw [started_startOn found2 held2, none_]
    rfl
  case cleared =>
    obtain ⟨recorded, l, heads, addrs, written⟩ := clearDests_writes held cleared unread got
    refine ⟨recorded, l, addrs, written, fun k q at_ => ?_⟩
    obtain ⟨p, found, free, length, rfl⟩ := clearedHead_get heads at_
    obtain ⟨size, intact, invalid, gen⟩ := notValid_shape length (prevGenOf q.2)
    exact ⟨_, found, size, intact, invalid, gen⟩
  case plain =>
    have fin : Finishes s h g e i := ⟨found, held, image, done, last, runs, clear⟩
    have got : readAll s g.part h ((declsOf i.objs 1).map (fun d => (slotAddr e i d.slot, 256))) = .got s (some []) := by
      rw [noSource]
      rfl
    have written : headerWrites s g.part h (finalHeads e i) = some s := by
      rw [finalHeads, destHeads, noDest]
      rfl
    refine ⟨_, taskFinalHeaders_done fin got ?_ written, ended_complete (.refl s g) named once _ _ _⟩
    rw [noSource]
    rfl
  case stale =>
    have fin : Finishes s h g e i := ⟨found, held, image, done, last, runs, clear⟩
    obtain ⟨p, among, fails⟩ := stale
    have kept : groupOf s1 h = some g := ((readAll_some got).1.toStoreOnly.groupOf h).trans found
    refine ⟨_, taskFinalHeaders_stale fin got ?_, ended_abortTask kept once _ _⟩
    refine List.all_eq_false.mpr ⟨p, among, ?_⟩
    rwa [sourceStands_iff]
  case done =>
    have fin : Finishes s h g e i := ⟨found, held, image, done, last, runs, clear⟩
    have stand : ((declsOf i.objs 1).zip bs).all (fun p => sourceStands e p.1.slot p.2) = true :=
      List.all_eq_true.mpr fun p among => (sourceStands_iff e p.1.slot p.2).mpr (stands p among)
    obtain ⟨closed, gone, -⟩ := ended_complete (.refl s2 g) named once stOk none (e.finals.any (fun p => ohExhausted p.2))
    exact ⟨_, taskFinalHeaders_done fin got stand written, closed, gone, fun units =>
      headersWritten_of_readOnly (.refl s1) (headerWrites_written units written) fun a =>
        memByte_complete_endGroup s2 g h stOk 0 none _ a⟩
  case addrs =>
    rw [finalHeads, destHeads, List.map_map, List.map_map]
    rfl
  case final =>
    have long : 252 ≤ (headerAt e.finals d.slot).length := Nat.le_of_eq length.symm
    exact ⟨_, final_of_dest among recorded, withGen_length long _, crcOk_withGen long _, ohGen_withGen long _,
      fun k out => getD_withGen long _ out⟩
  case lull =>
    refine ⟨_, lullEntry_completes idle awake free low late, ?_, ?_, fun k hk => ?_, fun k other => tileOf_setTile_ne s _ other, rfl⟩
    · rw [infoOf_setInfo]
      rcases idle with state | state <;> simp [state]
    · rw [tileOf_setInfo, tileOf_setTile]
      rfl
    · rw [tileOf_setInfo, tileOf_setTile]
      exact idleGroups_off _ _ hk
  case scrub =>
    refine ⟨_, tileScrub_completes free dirty held passes wakes, ?_, ?_, ?_, ?_, ?_, ?_, ?_, fun k other => tileOf_setTile_ne s _ other, rfl⟩
    · rw [infoOf_setInfo]
    all_goals rw [tileOf_setInfo, tileOf_setTile]; rfl
  case configured =>
    refine ⟨_, tileReconfigure_completes heldOut tries free domain true, ?_, ?_, ?_, rfl, rfl⟩ <;> rw [infoOf_setInfo] <;> rfl
  case failed => exact tileReconfigure_completes heldOut tries free domain false

end Sys2Proof.Proofs

/-! O13: the tile that a deadlock's record names (R150, R154). -/

namespace Sys2Proof.Proofs

open Sys2Proof Sys2Proof.Machine Sys2Proof.Claims Sys2Proof.Laws

/-! A completion whose ring is halted. -/

/-- The detail record of a completion stands with what its halted ring holds. -/
theorem detail_complete_halted {s : State} {h : Nat} {e : Entry} (held : entryOf s h = some e) (live : e.state ≠ .completing)
    (enabled : (cqOf s e.cq).enabled = true) (halted : (cqOf s e.cq).halted = true) (sound : s.flt.unrecoverable = false)
    (status info : Nat) (d : Detail) (ex : Bool) :
    (cqOf (complete s h status info (some d) ex) e.cq).held.map (fun q => q.detail) =
      (cqOf s e.cq).held.map (fun q => q.detail) ++ [detailBytes { d with status := status }] := by
  have stays : cqSends s e.cq = false := by simp [cqSends, halted]
  have on : (!(cqOf s e.cq).enabled) = false := by rw [enabled]; rfl
  simp only [complete, held, if_neg live, sound, on, stays, Bool.false_eq_true, if_false, Bool.or_false, postEntry, halted, if_true]
  unfold cqOf setEntry setCq
  simp only [Tbl.get_put_self, List.map_append, List.map_cons, List.map_nil]

theorem detail_abortTask_halted {s : State} {h : Nat} {g : Group} {e : Entry} (found : groupOf s h = some g) (once : (groupTiles g).Nodup)
    (held : entryOf s h = some e) (live : e.state ≠ .completing) (enabled : (cqOf s e.cq).enabled = true)
    (halted : (cqOf s e.cq).halted = true) (sound : s.flt.unrecoverable = false) (status : Nat) (d : Detail) :
    (cqOf (abortTask s h status (some d)) e.cq).held.map (fun q => q.detail) =
      (cqOf s e.cq).held.map (fun q => q.detail) ++ [detailBytes { d with status := status }] := by
  have cut := cutShort_cutGroup s once (some d)
  have work := cut.work.trans (endGroup_sameWork (cutGroup s g (some d)) g)
  have task : TaskOnly s (endGroup (cutGroup s g (some d)) g) := cut.task.trans (endGroup_frame ..)
  rw [abortTask, found, ← work.cqOf]
  rw [← work.cqOf] at enabled halted
  rw [← task.flt] at sound
  exact detail_complete_halted ((work.entryOf h).trans held) live enabled halted sound status 0 d false

/-- TILE of a detail record (R150). -/
theorem detailBytes_tile (d : Detail) : (detailBytes d).getD 4 0 = BitVec.ofNat 8 d.tile := by
  obtain ⟨rest, bytes⟩ : ∃ rest, detailBytes d = leBytes 2 d.status ++ (leBytes 1 d.subtype ++ (leBytes 1 d.epoch ++ (leBytes 1 d.tile ++ rest))) := by
    refine ⟨?_, ?_⟩
    case refine_2 =>
      unfold detailBytes
      simp only [List.append_assoc]
      rfl
  rw [bytes]
  rfl

/-- An abort for a tile names it. -/
theorem tileAbort_names (s : State) (g : Group) (t : Nat) (d : Detail) :
    ∃ status v, tileAbort s g t d = abortTask s g.handle status (some v) ∧ v.tile = t := ⟨_, _, rfl, rfl⟩

/-- The record of a deadlock names the first waiting tile, and never one above 64. -/
theorem semaphoreDeadlock_names {s : State} {h : Nat} {g : Group} (found : groupOf s h = some g) (dead : deadlocked s g = true)
    (stalled : stallHeld s g = true) (clear : closeViols s g = none) :
    ∃ status d, exec (.semaphoreDeadlock h) s = .next (abortTask (drawBytes s 6).2 h status (some d)) ∧
      d.tile = minL ((groupTiles g).filter (fun t => !((waitersOf g t (tileOf s t)).isEmpty))) 64 := by
  have run : ∃ d, exec (.semaphoreDeadlock h) s = .next (tileAbort (drawBytes s 6).2 g
      (minL ((groupTiles g).filter (fun t => !((waitersOf g t (tileOf s t)).isEmpty))) 64) d) := by
    refine ⟨?_, ?_⟩
    case refine_2 =>
      show execSemaphoreDeadlock h s = _
      simp only [execSemaphoreDeadlock, found, dead, stalled, clear, Bool.and_self, if_true]
      rfl
  obtain ⟨d, run⟩ := run
  obtain ⟨status, v, abort, tile⟩ := tileAbort_names (drawBytes s 6).2 g
    (minL ((groupTiles g).filter (fun t => !((waitersOf g t (tileOf s t)).isEmpty))) 64) d
  rw [abort, groupOf_handle found] at run
  exact ⟨status, v, run, tile⟩

/-! A group below the 64 tiles. -/

/-- A core that waits for a signal that nothing sends. -/
def stuckTile : Tile := { tile0 with status := .waiting (.sem 9 1) }

/-- A group of the one tile 72, in a stall since time 0. -/
def farGroup : Group := { newGroup State.reset wholeTask wholeImage (0, 9) with started := [72], stalled := some (0, [(0, 0)]) }

/-- The machine that runs it, 2,048 ns later, the completion ring of its task halted. -/
def farStuck : State :=
  { State.reset with
    time := 2048, tiles := [(72, stuckTile)], groups := [farGroup], ts := { State.reset.ts with entries := [wholeTask] },
    hi := { State.reset.hi with cqs := [(wholeTask.cq, { cq0 with enabled := true, halted := true })] } }

theorem farStuck_held : groupOf farStuck 7 = some farGroup ∧ entryOf farStuck 7 = some wholeTask := ⟨rfl, rfl⟩

theorem farGroup_tiles : groupTiles farGroup = [72] := by decide +kernel

theorem farStuck_deadlocked : deadlocked farStuck farGroup = true ∧ farGroup.stalled = some (0, stallKey farStuck farGroup) ∧
    stallHeld farStuck farGroup = true ∧ closeViols farStuck farGroup = none := by decide +kernel

theorem farStuck_late : 0 + 2048 ≤ farStuck.time := Nat.le_refl 2048

theorem farStuck_ring : (cqOf farStuck wholeTask.cq).enabled = true ∧ (cqOf farStuck wholeTask.cq).halted = true ∧
    (cqOf farStuck wholeTask.cq).held = [] := by decide +kernel

/-- The record of an abort in that machine names the tile that the abort was given. -/
theorem tile_abortTask_farStuck (status : Nat) (d : Detail) :
    (cqOf (abortTask (drawBytes farStuck 6).2 7 status (some d)) wholeTask.cq).held.map (fun q => q.detail.getD 4 0) = [BitVec.ofNat 8 d.tile] := by
  obtain ⟨enabled, halted, empty⟩ := farStuck_ring
  have record := detail_abortTask_halted (s := (drawBytes farStuck 6).2) farStuck_held.1 (by rw [farGroup_tiles]; decide) farStuck_held.2
    (by decide) enabled halted rfl status d
  have kept : (cqOf (drawBytes farStuck 6).2 wholeTask.cq).held = [] := empty
  rw [kept, List.map_nil, List.nil_append] at record
  have bytes := congrArg (List.map fun b : List Byte => b.getD 4 0) record
  rwa [List.map_map, List.map_cons, List.map_nil, detailBytes_tile] at bytes

/-- Refutes O13: the record of a deadlock names the smallest of its waiting tiles and 64, so that of a group which is tile 72 alone names
tile 64, which is none of its tiles. -/
theorem not_deadlockAndOverflowEndTheTask : ¬ Obligations.DeadlockAndOverflowEndTheTask := by
  unfold Obligations.DeadlockAndOverflowEndTheTask
  intro claim
  obtain ⟨found, held⟩ := farStuck_held
  obtain ⟨dead, since, stalled, clear⟩ := farStuck_deadlocked
  obtain ⟨ends, -⟩ := claim farStuck 7 farGroup wholeTask found held (by rw [farGroup_tiles]; decide)
  obtain ⟨s', d, run, -, shape, among, -⟩ := ends 0 dead since farStuck_late clear
  obtain ⟨status, named, run', tile⟩ := semaphoreDeadlock_names found dead stalled clear
  have first : minL ((groupTiles farGroup).filter (fun t => !((waitersOf farGroup t (tileOf farStuck t)).isEmpty))) 64 = 64 := by decide +kernel
  have same := shape.symm.trans (Host.Outcome.next.inj (run.symm.trans run'))
  have bytes := tile_abortTask_farStuck 0x0303 d
  rw [same, tile_abortTask_farStuck] at bytes
  rw [farGroup_tiles, List.mem_singleton] at among
  rw [tile, first, among] at bytes
  exact absurd bytes (by decide)

end Sys2Proof.Proofs

/-! SUPPORT. The accesses of Q_SP, the stream engines and remote tiles: what placing one leaves of the accesses that give way to it and of their
writes (R163, R164, R429). -/

namespace Sys2Proof.Proofs

open Sys2Proof Sys2Proof.Machine Sys2Proof.Claims Sys2Proof.Laws

/-! Accesses that give way stand in later cycles and are otherwise as they were. -/

/-- `l` is the access `k` in the same or a later cycle. -/
def Postponed (k l : Claim) : Prop := l = { k with c0 := l.c0 } ∧ k.c0 ≤ l.c0

theorem Postponed.refl (k : Claim) : Postponed k k := ⟨rfl, Nat.le_refl _⟩

theorem Postponed.trans {k l m : Claim} (first : Postponed k l) (second : Postponed l m) : Postponed k m := by
  obtain ⟨same, later⟩ := first
  obtain ⟨same', later'⟩ := second
  refine ⟨?_, later.trans later'⟩
  rw [same', same]

theorem postponed_to (k : Claim) {c d : Nat} (later : c ≤ d) : Postponed { k with c0 := c } { k with c0 := d } := ⟨rfl, later⟩

/-- The accesses `ls` are the accesses `ks` in any order, each in its cycle or a later one. -/
def Kept (ks ls : Multiset Claim) : Prop := Multiset.Rel Postponed ks ls

theorem Kept.refl (ks : Multiset Claim) : Kept ks ks := Multiset.rel_refl_of_refl_on fun k _ => .refl k

theorem Kept.trans {ks ls ms : Multiset Claim} (first : Kept ks ls) (second : Kept ls ms) : Kept ks ms :=
  have : IsTrans Claim Postponed := ⟨fun _ _ _ => Postponed.trans⟩
  Multiset.Rel.trans Postponed first second

theorem Kept.add {ks ls ks' ls' : Multiset Claim} (first : Kept ks ls) (second : Kept ks' ls') : Kept (ks + ks') (ls + ls') :=
  Multiset.Rel.add first second

theorem Kept.singleton {k l : Claim} (later : Postponed k l) : Kept {k} {l} := .cons later .zero

/-- What does not depend on the cycle of an access is the same of all. -/
theorem Kept.map_eq {β : Type} {ks ls : Multiset Claim} (kept : Kept ks ls) {f : Claim → β} (blind : ∀ k c, f { k with c0 := c } = f k) :
    ks.map f = ls.map f := by
  induction kept with
  | zero => rfl
  | cons later _ ih =>
    rw [Multiset.map_cons, Multiset.map_cons, ih, later.1]
    exact congrArg (· ::ₘ _) (blind ..).symm

/-- The accesses of a list that request a slot, each in the cycle from which it does. -/
def requests (ps : List (Claim × Nat)) : Multiset Claim := ↑(ps.map fun p => { p.1 with c0 := p.2 })

theorem requests_nil : requests [] = 0 := rfl

theorem requests_cons (k : Claim) (c : Nat) (ps : List (Claim × Nat)) : requests ((k, c) :: ps) = {{ k with c0 := c }} + requests ps := rfl

theorem requests_append (ps qs : List (Claim × Nat)) : requests (ps ++ qs) = requests ps + requests qs := by
  rw [requests, List.map_append, ← Multiset.coe_add]
  rfl

/-- An access that is taken from its slot and requests again. -/
theorem kept_erase {ks : List Claim} {k : Claim} (stands : k ∈ ks) {c : Nat} (later : k.c0 ≤ c) :
    Kept ↑ks ((↑(ks.erase k) : Multiset Claim) + {{ k with c0 := c }}) := by
  have parts : (↑ks : Multiset Claim) = ↑(ks.erase k) + {k} := by
    rw [← Multiset.coe_erase, add_comm, Multiset.singleton_add, Multiset.cons_erase (Multiset.mem_coe.mpr stands)]
  rw [parts]
  exact (Kept.refl _).add (.singleton ⟨rfl, later⟩)

theorem follower_some {x : Tile} {k l : Claim} (h : follower x k = some l) : l ∈ x.claims ∧ l.unit = 4 ∧ l.c0 < k.c0 + 4 := by
  unfold follower at h
  split at h
  · have early := List.find?_some h
    simp only [Bool.and_eq_true, decide_eq_true_eq, beq_iff_eq] at early
    exact ⟨List.mem_of_find?_eq_some h, early.1.1.1.1, early.2⟩
  · cases h

theorem standing_some {x : Tile} {k l : Claim} {c : Nat} (h : standing x k c = some l) : l ∈ x.claims ∧ l.c0 = c := by
  unfold standing at h
  have there := List.find?_some h
  simp only [Bool.and_eq_true, beq_iff_eq] at there
  exact ⟨List.mem_of_find?_eq_some h, there.1.2⟩

/-- An access stands in its slot, and a write that follows it too early requests again. -/
theorem kept_seat (x : Tile) (k : Claim) : Kept (↑x.claims + {k}) (↑(seat x k).1.claims + requests (seat x k).2) := by
  have stood : (↑x.claims + {k} : Multiset Claim) = ↑(x.claims ++ [k]) := rfl
  rw [stood]
  unfold seat
  simp only
  split
  · rw [requests_nil, add_zero]
    exact .refl _
  next l found =>
    obtain ⟨stands, -, early⟩ := follower_some found
    exact kept_erase stands early.le

/-- Whatever gives way, every access stands in the end, none before it requested (R163, R164). -/
theorem kept_grantAll (fuel : Nat) (x : Tile) (ps : List (Claim × Nat)) :
    Kept (↑x.claims + requests ps) ↑(grantAll fuel x ps).claims := by
  induction fuel generalizing x ps with
  | zero => exact .refl _
  | succ fuel ih =>
    match ps with
    | [] =>
      rw [requests_nil, add_zero]
      exact .refl _
    | (k, c) :: r =>
      have next : Kept (↑x.claims + requests ((k, c) :: r)) ↑(grantAll fuel x ((k, c + 1) :: r)).claims := by
        refine Kept.trans ((Kept.refl _).add ?_) (ih x _)
        rw [requests_cons, requests_cons]
        exact (Kept.singleton (postponed_to k c.le_succ)).add (.refl _)
      unfold grantAll
      simp only
      split
      · split
        · have seated := (kept_seat x { k with c0 := c }).add (.refl (requests r))
          rw [add_assoc, ← requests_cons, add_assoc, ← requests_append] at seated
          exact seated.trans (ih _ _)
        · exact next
      next l found =>
        obtain ⟨stands, here⟩ := standing_some found
        split
        · have leaves := (kept_erase stands (here.le.trans c.le_succ)).add (.refl (requests ((k, c) :: r)))
          have seated := (kept_seat { x with claims := x.claims.erase l } { k with c0 := c }).add (.refl (requests ((l, c + 1) :: r)))
          refine (leaves.trans ?_).trans (ih _ _)
          convert seated using 1 <;> simp only [List.cons_append, requests_cons, requests_append, add_assoc, add_left_comm, add_comm]
        · exact next

/-! Which access is which: by the numbers that they are given as they are placed. -/

/-- Two accesses of the lower ranks bear different numbers. -/
def Apart (k l : Claim) : Prop := coreRank < k.rank → coreRank < l.rank → k.seq ≠ l.seq

theorem Apart.symm {k l : Claim} (apart : Apart k l) : Apart l k := fun low low' => (apart low' low).symm

/-- The accesses of the lower ranks bear different numbers, as the model gives them. -/
def SeqsDiffer (x : Tile) : Prop := x.claims.Pairwise Apart

/-- Only the unit `u` has accesses of the lower ranks. -/
def OnlyLow (u : Nat) (x : Tile) : Prop := ∀ k ∈ x.claims, coreRank < k.rank → k.unit = u

theorem onlyLow_of_noLowRanks {x : Tile} (none_ : NoLowRanks x) (u : Nat) : OnlyLow u x :=
  fun k stands low => absurd (none_ k stands) (Nat.not_le.mpr low)

theorem Kept.mem_left {ks ls : Multiset Claim} (kept : Kept ks ls) {k : Claim} (stands : k ∈ ks) : ∃ l ∈ ls, Postponed k l :=
  Multiset.exists_mem_of_rel_of_mem kept stands

theorem Kept.mem_right {ks ls : Multiset Claim} (kept : Kept ks ls) {l : Claim} (stands : l ∈ ls) : ∃ k ∈ ks, Postponed k l :=
  Multiset.exists_mem_of_rel_of_mem (Multiset.rel_flip.mpr kept) stands

section
variable {x y : Tile} {k : Claim} {c : Nat}

theorem lt_nextClaim_seq (x : Tile) (k : Claim) (c : Nat) : ∀ l ∈ x.claims, l.seq < (nextClaim x k c).seq :=
  fun l stands => (foldl_max_bounds (fun l : Claim => l.seq + 1) x.claims 0).2 l stands

/-- The number of the next access is that of no other. -/
theorem seqsDiffer_append (differ : SeqsDiffer x) (k : Claim) (c : Nat) :
    SeqsDiffer { x with claims := x.claims ++ [nextClaim x k c] } := by
  refine List.pairwise_append.mpr ⟨differ, List.pairwise_singleton _ _, fun l stands m new _ _ => ?_⟩
  obtain rfl := List.mem_singleton.mp new
  exact (lt_nextClaim_seq x k c l stands).ne

theorem Kept.seqsDiffer (kept : Kept ↑x.claims ↑y.claims) (differ : SeqsDiffer x) : SeqsDiffer y := by
  have same : (x.claims.map fun k => (k.rank, k.seq)).Perm (y.claims.map fun k => (k.rank, k.seq)) :=
    Multiset.coe_eq_coe.mp (kept.map_eq (f := fun k => (k.rank, k.seq)) fun _ _ => rfl)
  have on : ∀ ks : List Claim, ks.Pairwise Apart ↔
      (ks.map fun k => (k.rank, k.seq)).Pairwise (fun p q => coreRank < p.1 → coreRank < q.1 → p.2 ≠ q.2) := fun ks => by
    rw [List.pairwise_map]
    rfl
  rw [SeqsDiffer, on] at *
  exact (same.pairwise_iff fun apart low low' => (apart low' low).symm).mp differ

theorem Kept.onlyLow {ks : Multiset Claim} (kept : Kept ks ↑y.claims) {u : Nat} (only : ∀ k ∈ ks, coreRank < k.rank → k.unit = u) :
    OnlyLow u y := by
  intro l stands low
  obtain ⟨k, stood, same, -⟩ := kept.mem_right stands
  rw [same] at low ⊢
  exact only k stood low

/-- An access is found in a slot no earlier than the one it had. -/
theorem le_slotIn {ks : Multiset Claim} (kept : Kept ks ↑y.claims) (differ : SeqsDiffer y) (stood : k ∈ ks) (low : coreRank < k.rank) :
    k.c0 ≤ slotIn y k := by
  obtain ⟨l, stands, same, later⟩ := kept.mem_left stood
  unfold slotIn
  split
  next m found =>
    have alike := List.find?_some found
    simp only [Bool.and_eq_true, decide_eq_true_eq, beq_iff_eq] at alike
    have once : l = m := by
      by_contra other
      have : Std.Symm Apart := ⟨fun _ _ => Apart.symm⟩
      refine List.Pairwise.forall differ stands (List.mem_of_find?_eq_some found) other ?_ alike.1 ?_
      · rwa [same]
      · rw [same, alike.2]
    rwa [← once]
  · exact Nat.le_refl _

/-- Only one access has the number of the newest. -/
theorem eq_of_newest_seq {ks ls : List Claim} (kept : Kept (↑ks + {k}) ↑ls) (new : ∀ l ∈ ks, l.seq < k.seq) {l m : Claim} (hl : l ∈ ls)
    (hm : m ∈ ls) (seq : l.seq = k.seq) (seq' : m.seq = k.seq) : l = m := by
  have others : ks.countP (fun l => l.seq == k.seq) = 0 := by
    simp only [List.countP_eq_zero, beq_iff_eq]
    exact fun l stands => (new l stands).ne
  have once := congrArg (Multiset.count true) (kept.map_eq (f := fun l => l.seq == k.seq) fun _ _ => rfl)
  simp only [Multiset.map_add, Multiset.count_add, Multiset.map_singleton, beq_self_eq_true, Multiset.count_singleton_self, Multiset.map_coe,
    Multiset.coe_count, List.count, List.countP_map, Function.comp_def, beq_true, others, Nat.zero_add] at once
  obtain ⟨n, only⟩ := List.length_eq_one_iff.mp (List.countP_eq_length_filter.symm.trans once.symm)
  have found : ∀ l ∈ ls, l.seq = k.seq → l = n := fun l hl seq => by
    have : l ∈ ls.filter (fun l => l.seq == k.seq) := List.mem_filter.mpr ⟨hl, beq_iff_eq.mpr seq⟩
    rwa [only, List.mem_singleton] at this
  rw [found l hl seq, found m hm seq']

/-- The newest access is found where it stands. -/
theorem slotIn_new {ks : List Claim} (kept : Kept (↑ks + {k}) ↑y.claims) (new : ∀ l ∈ ks, l.seq < k.seq) (low : coreRank < k.rank)
    {c : Nat} (stands : { k with c0 := c } ∈ y.claims) : slotIn y k = c := by
  unfold slotIn
  split
  next m found =>
    have alike := List.find?_some found
    simp only [Bool.and_eq_true, decide_eq_true_eq, beq_iff_eq] at alike
    rw [eq_of_newest_seq kept new (List.mem_of_find?_eq_some found) stands alike.2 rfl]
  next none_ =>
    have absent := List.find?_eq_none.mp none_ _ stands
    simp [low] at absent

/-- The newest access is found in a slot no earlier than the one it requested. -/
theorem le_slotIn_new {ks : List Claim} (kept : Kept (↑ks + {k}) ↑y.claims) (new : ∀ l ∈ ks, l.seq < k.seq) : k.c0 ≤ slotIn y k := by
  obtain ⟨l, stands, same, later⟩ := kept.mem_left (Multiset.mem_add.mpr (.inr (Multiset.mem_singleton_self k)))
  unfold slotIn
  split
  next m found =>
    have alike := List.find?_some found
    simp only [Bool.and_eq_true, beq_iff_eq] at alike
    rwa [eq_of_newest_seq kept new (List.mem_of_find?_eq_some found) stands alike.2 (by rw [same])]
  · exact Nat.le_refl _

end

/-! The writes of the epoch move with their accesses (R163). -/

/-- A write of `x` once the accesses stand as in `y`. -/
def moveWrite (x y : Tile) (w : TimedWrite) : TimedWrite :=
  ((movedClaims x y).find? (isWriteOf w)).elim w fun k => { w with cyc := slotIn y k }

theorem resettle_writes_eq (x y : Tile) : (resettle x y).writes = y.writes.map (moveWrite x y) := by
  unfold resettle
  simp only
  split
  next still =>
    refine ((List.map_congr_left fun w _ => ?_).trans (List.map_id _)).symm
    rw [moveWrite, List.isEmpty_iff.mp still]
    rfl
  · refine List.map_congr_left fun w _ => ?_
    unfold moveWrite
    split
    next moved => rw [moved]; rfl
    next moved => rw [moved]; rfl

section
variable {x y : Tile}

theorem moveWrite_frame (x y : Tile) (w : TimedWrite) : moveWrite x y w = { w with cyc := (moveWrite x y w).cyc } := by
  unfold moveWrite
  cases (movedClaims x y).find? (isWriteOf w) <;> rfl

/-- What an access that has moved says of the write that moves with it. -/
theorem moved_of_find {w : TimedWrite} {k : Claim} (h : (movedClaims x y).find? (isWriteOf w) = some k) :
    k ∈ x.claims ∧ coreRank < k.rank ∧ w.cyc = k.c0 ∧ w.unit = k.unit := by
  have takes := List.find?_some h
  obtain ⟨stands, moved⟩ := List.mem_filter.mp (List.mem_of_find?_eq_some h)
  simp only [isWriteOf, Bool.and_eq_true, beq_iff_eq, decide_eq_true_eq] at takes moved
  obtain ⟨⟨⟨⟨-, cyc⟩, unit⟩, -⟩, -⟩ := takes
  exact ⟨stands, moved.1, cyc, unit⟩

theorem le_moveWrite (later : ∀ k ∈ x.claims, coreRank < k.rank → k.c0 ≤ slotIn y k) (w : TimedWrite) : w.cyc ≤ (moveWrite x y w).cyc := by
  unfold moveWrite
  cases h : (movedClaims x y).find? (isWriteOf w) with
  | none => exact Nat.le_refl _
  | some k =>
    obtain ⟨stands, low, cyc, -⟩ := moved_of_find h
    rw [cyc]
    exact later k stands low

/-- A write of another unit stays where it is. -/
theorem moveWrite_other {u : Nat} (only : OnlyLow u x) {w : TimedWrite} (other : w.unit ≠ u) : moveWrite x y w = w := by
  unfold moveWrite
  cases h : (movedClaims x y).find? (isWriteOf w) with
  | none => rfl
  | some k =>
    obtain ⟨stands, low, -, unit⟩ := moved_of_find h
    exact absurd (unit.trans (only k stands low)) other

end

/-! One access placed, and one word written in its slot (R163, R164, R172, R429). -/

section
variable (x : Tile) (k : Claim) (c : Nat)

/-- The tile in which an access that requests from cycle `c` on has its slot, the writes not yet moved. -/
def seated : Tile := grantAll (placeFuel x) x [(nextClaim x k c, c)]

theorem placeFrom_eq : placeFrom x k c = (resettle x (seated x k c), slotIn (seated x k c) (nextClaim x k c)) := rfl

theorem seated_frame : seated x k c = { x with claims := (seated x k c).claims } := grantAll_frame ..

theorem kept_seated : Kept (↑x.claims + {nextClaim x k c}) ↑(seated x k c).claims := kept_grantAll (placeFuel x) x [(nextClaim x k c, c)]

theorem placeFrom_frame : (placeFrom x k c).1 =
    { x with claims := (seated x k c).claims, writes := (placeFrom x k c).1.writes, marks := (placeFrom x k c).1.marks,
             holds := (placeFrom x k c).1.holds } := by
  rw [placeFrom_eq, resettle_frame, seated_frame]

theorem placeFrom_writes : (placeFrom x k c).1.writes = x.writes.map (moveWrite x (seated x k c)) := by
  rw [placeFrom_eq, resettle_writes_eq, seated_frame]

/-- No access has a slot before the cycle from which it requests. -/
theorem le_placeFrom_slot : c ≤ (placeFrom x k c).2 := le_slotIn_new (kept_seated x k c) (lt_nextClaim_seq x k c)

variable {x}

theorem seqsDiffer_seated (differ : SeqsDiffer x) : SeqsDiffer (seated x k c) :=
  Kept.seqsDiffer (x := { x with claims := x.claims ++ [nextClaim x k c] }) (kept_seated x k c) (seqsDiffer_append differ k c)

theorem onlyLow_seated (only : OnlyLow k.unit x) : OnlyLow k.unit (seated x k c) :=
  (kept_seated x k c).onlyLow fun l stood low => (Multiset.mem_add.mp stood).elim (fun old => only l (Multiset.mem_coe.mp old) low)
    fun own => by rw [Multiset.mem_singleton.mp own]; rfl

theorem later_seated (differ : SeqsDiffer x) : ∀ l ∈ x.claims, coreRank < l.rank → l.c0 ≤ slotIn (seated x k c) l :=
  fun _ stands low => le_slotIn (kept_seated x k c) (seqsDiffer_seated k c differ) (Multiset.mem_add.mpr (.inl (Multiset.mem_coe.mpr stands))) low

end

/-- The writes of these pieces in one cycle; of an empty piece there is none. -/
def writesOf (z unit num pc : Nat) (d : List (Nat × List Byte)) : List TimedWrite :=
  (d.filter fun p => !p.2.isEmpty).map fun p => { cyc := z, addr := p.1 % spadSize, data := p.2, unit := unit, num := num, pc := pc }

/-- The pieces as they are written: none that is empty, addresses modulo 8 MB (R166). -/
def written (d : List (Nat × List Byte)) : List (Nat × List Byte) := (d.filter fun p => !p.2.isEmpty).map fun p => (p.1 % spadSize, p.2)

theorem written_append (d d' : List (Nat × List Byte)) : written (d ++ d') = written d ++ written d' := by
  simp only [written, List.filter_append, List.map_append]

theorem writesOf_pieces (z unit num pc : Nat) (d : List (Nat × List Byte)) :
    (writesOf z unit num pc d).map (fun w => (w.addr, w.data)) = written d := by
  rw [writesOf, List.map_map]
  rfl

section
variable (z unit num pc : Nat) (d : List (Nat × List Byte))

theorem putWrite_writes (x : Tile) (a : Nat) (b : List Byte) :
    putWrite x z a b unit num pc = { x with writes := x.writes ++ writesOf z unit num pc [(a, b)] } := by
  unfold putWrite writesOf
  split
  next none_ => simp [none_]
  next some_ => simp [some_]

theorem foldl_addWrite_frame (x : Tile) :
    ∃ ws ps, d.foldl (fun x p => addWrite x z p.1 p.2 unit num pc) x = { x with writes := ws, planes := ps } := by
  induction d generalizing x with
  | nil => exact ⟨_, _, rfl⟩
  | cons p r ih =>
    obtain ⟨ws, ps, first⟩ := addWrite_frame x z p.1 p.2 unit num pc
    obtain ⟨vs, qs, rest⟩ := ih (addWrite x z p.1 p.2 unit num pc)
    exact ⟨vs, qs, by rw [List.foldl_cons, rest, first]⟩

/-- Where no row under way reads later, the pieces are added to the writes. -/
theorem foldl_addWrite_settled {x : Tile} (settled : Settled x z) :
    d.foldl (fun x p => addWrite x z p.1 p.2 unit num pc) x = { x with writes := x.writes ++ writesOf z unit num pc d } := by
  induction d generalizing x with
  | nil => simp [writesOf]
  | cons p r ih =>
    have first : addWrite x z p.1 p.2 unit num pc = { x with writes := x.writes ++ writesOf z unit num pc [p] } := by
      rw [addWrite, readLater_settled settled, putWrite_writes]
      rfl
    have parts : writesOf z unit num pc (p :: r) = writesOf z unit num pc [p] ++ writesOf z unit num pc r := by
      rw [writesOf, ← List.singleton_append, List.filter_append, List.map_append]
      rfl
    rw [List.foldl_cons, first, parts, ← List.append_assoc]
    exact ih settled

end

section
variable (x : Tile) (rank c a unit num pc : Nat) (d : List (Nat × List Byte))

theorem placeWrite_frame : ∃ ws ms hs ps, placeWrite x rank c a d unit num pc =
    { x with claims := (seated x (wordClaim unit rank num pc a true) c).claims, writes := ws, marks := ms, holds := hs, planes := ps } := by
  unfold placeWrite
  simp only
  obtain ⟨ws, ps, added⟩ := foldl_addWrite_frame (placeFrom x (wordClaim unit rank num pc a true) c).2 unit num pc d
    (moveMarks (placeFrom x (wordClaim unit rank num pc a true) c).1 num a c (placeFrom x (wordClaim unit rank num pc a true) c).2)
  rw [added, placeFrom_frame]
  exact ⟨_, _, _, _, rfl⟩

/-- Where no row under way reads later, a word's pieces are added in its slot to the writes of before, which move with their accesses. -/
theorem placeWrite_writes {x : Tile} {lo : Nat} (settled : Settled x lo) {c : Nat} (late : lo ≤ c) :
    (placeWrite x rank c a d unit num pc).writes = x.writes.map (moveWrite x (seated x (wordClaim unit rank num pc a true) c)) ++
      writesOf (placeFrom x (wordClaim unit rank num pc a true) c).2 unit num pc d := by
  have slot := le_placeFrom_slot x (wordClaim unit rank num pc a true) c
  have settled' : Settled (moveMarks (placeFrom x (wordClaim unit rank num pc a true) c).1 num a c
      (placeFrom x (wordClaim unit rank num pc a true) c).2) (placeFrom x (wordClaim unit rank num pc a true) c).2 := by
    rw [placeFrom_frame]
    exact settled.trans (late.trans slot)
  rw [placeWrite]
  simp only [foldl_addWrite_settled _ _ _ _ _ settled']
  rw [← placeFrom_writes]
  rfl

end

/-! What a unit writes in the course of one row of the table. -/

/-- What writes of the epoch have gone through on tile `x` while the unit `u` has placed accesses: only cycles differ, and where the accesses
bear different numbers no write comes earlier than it was; where only `u` has accesses of the lower ranks, those of other units stay. -/
structure Moves (u : Nat) (x : Tile) (f : TimedWrite → TimedWrite) : Prop where
  cycle : ∀ w, f w = { w with cyc := (f w).cyc }
  later : SeqsDiffer x → ∀ w, w.cyc ≤ (f w).cyc
  other : OnlyLow u x → ∀ w, w.unit ≠ u → f w = w

/-- The tile `y` is `x` on which the unit `u` has placed accesses and written these pieces: nothing but the banks, the writes, the marks, the
holds and the planes that rows under way read again has changed, and where no row reads after cycle `lo`, the writes are those of before, moved,
and these, none before cycle `lo` where the accesses bear different numbers. -/
structure Commits (u lo : Nat) (x y : Tile) (d : List (Nat × List Byte)) : Prop where
  frame : ∃ cl ws ms hs ps, y = { x with claims := cl, writes := ws, marks := ms, holds := hs, planes := ps }
  differ : SeqsDiffer x → SeqsDiffer y
  only : OnlyLow u x → OnlyLow u y
  writes : Settled x lo → ∃ f ws, y.writes = x.writes.map f ++ ws ∧ Moves u x f ∧ ws.map (fun w => (w.addr, w.data)) = written d ∧
    (∀ w ∈ ws, w.unit = u) ∧ (SeqsDiffer x → ∀ w ∈ ws, lo ≤ w.cyc)

theorem moves_id (u : Nat) (x : Tile) : Moves u x id := ⟨fun _ => rfl, fun _ _ => Nat.le_refl _, fun _ _ _ => rfl⟩

theorem moves_seated (x : Tile) (k : Claim) (c : Nat) : Moves k.unit x (moveWrite x (seated x k c)) :=
  ⟨moveWrite_frame x _, fun differ => le_moveWrite (later_seated k c differ), fun only _ other => moveWrite_other only other⟩

theorem Moves.comp {u : Nat} {x y : Tile} {f g : TimedWrite → TimedWrite} (first : Moves u x f) (second : Moves u y g)
    (differ : SeqsDiffer x → SeqsDiffer y) (only : OnlyLow u x → OnlyLow u y) : Moves u x (g ∘ f) where
  cycle w := by rw [Function.comp_apply, second.cycle, first.cycle]
  later h w := (first.later h w).trans (second.later (differ h) _)
  other h w hw := by rw [Function.comp_apply, first.other h w hw, second.other (only h) w hw]

section
variable {u lo : Nat} {x y z : Tile} {d d' : List (Nat × List Byte)}

/-- Marks and holds may change at any time. -/
theorem commits_of_marks (u lo : Nat) (x : Tile) (ms : List Mark) (hs : List Hold) : Commits u lo x { x with marks := ms, holds := hs } [] where
  frame := ⟨_, _, _, _, _, rfl⟩
  differ h := h
  only h := h
  writes _ := ⟨id, [], by simp, moves_id u x, rfl, by simp, by simp⟩

theorem commits_setCommits (u lo : Nat) (x : Tile) (num : Nat) (cs : List Nat) : Commits u lo x (setCommits x num cs) [] :=
  commits_of_marks u lo x _ x.holds

theorem commits_setReleases (u lo : Nat) (x : Tile) (num : Nat) (cs : List Nat) : Commits u lo x (setReleases x num cs) [] :=
  commits_of_marks u lo x x.marks _

theorem Commits.settled (h : Commits u lo x y d) (settled : Settled x lo) : Settled y lo := by
  obtain ⟨_, _, _, _, _, frame⟩ := h.frame
  rw [frame]
  exact settled

theorem Commits.trans (first : Commits u lo x y d) (second : Commits u lo y z d') : Commits u lo x z (d ++ d') where
  frame := by
    obtain ⟨_, _, _, _, _, frame⟩ := first.frame
    obtain ⟨_, _, _, _, _, frame'⟩ := second.frame
    rw [frame', frame]
    exact ⟨_, _, _, _, _, rfl⟩
  differ h := second.differ (first.differ h)
  only h := second.only (first.only h)
  writes settled := by
    obtain ⟨f, ws, now, moves, pieces, unit, late⟩ := first.writes settled
    obtain ⟨f', ws', now', moves', pieces', unit', late'⟩ := second.writes (first.settled settled)
    refine ⟨f' ∘ f, ws.map f' ++ ws', ?_, moves.comp moves' first.differ first.only, ?_, ?_, fun h => ?_⟩
    · rw [now', now, List.map_append, List.map_map, List.append_assoc]
    · rw [List.map_append, List.map_map, written_append, ← pieces, ← pieces']
      refine congrArg (· ++ _) (List.map_congr_left fun w _ => ?_)
      rw [Function.comp_apply, moves'.cycle]
    · simp only [List.forall_mem_append, List.forall_mem_map]
      refine ⟨fun w hw => ?_, unit'⟩
      rw [moves'.cycle]
      exact unit w hw
    · simp only [List.forall_mem_append, List.forall_mem_map]
      exact ⟨fun w hw => (late h w hw).trans (moves'.later (first.differ h) w), late' (first.differ h)⟩

theorem Commits.foldl {α : Type} {step : Tile → α → Tile} {out : α → List (Nat × List Byte)} {l : List α}
    (each : ∀ p ∈ l, ∀ x, Commits u lo x (step x p) (out p)) (x : Tile) : Commits u lo x (l.foldl step x) (l.flatMap out) := by
  induction l generalizing x with
  | nil => exact commits_of_marks u lo x x.marks x.holds
  | cons p r ih =>
    rw [List.flatMap_cons]
    exact (each p List.mem_cons_self x).trans (ih (fun q hq => each q (List.mem_cons_of_mem p hq)) _)

/-- A word that is read writes nothing. -/
theorem commits_placeRead (lo : Nat) (x : Tile) (rank c a u num pc : Nat) : Commits u lo x (placeRead x rank c a u num pc) [] where
  frame := ⟨_, _, _, _, _, placeFrom_frame ..⟩
  differ h := by rw [placeRead, placeFrom_frame]; exact seqsDiffer_seated (wordClaim u rank num pc a false) c h
  only h := by rw [placeRead, placeFrom_frame]; exact onlyLow_seated (wordClaim u rank num pc a false) c h
  writes _ := ⟨_, [], by rw [placeRead, placeFrom_writes, List.append_nil], moves_seated x (wordClaim u rank num pc a false) c, rfl,
    by simp, by simp⟩

theorem commits_placeWrite {lo c : Nat} (late : lo ≤ c) (x : Tile) (rank a u num pc : Nat) (d : List (Nat × List Byte)) :
    Commits u lo x (placeWrite x rank c a d u num pc) d := by
  obtain ⟨ws, ms, hs, ps, frame⟩ := placeWrite_frame x rank c a u num pc d
  refine ⟨⟨_, _, _, _, _, frame⟩, fun h => ?_, fun h => ?_, fun settled => ⟨_, _, placeWrite_writes _ _ _ _ _ _ settled late,
    moves_seated x (wordClaim u rank num pc a true) c, writesOf_pieces .., ?_, fun _ => ?_⟩⟩
  · rw [frame]
    exact seqsDiffer_seated (wordClaim u rank num pc a true) c h
  · rw [frame]
    exact onlyLow_seated (wordClaim u rank num pc a true) c h
  · simp only [writesOf, List.forall_mem_map]
    exact fun _ _ => trivial
  · simp only [writesOf, List.forall_mem_map]
    exact fun _ _ => late.trans (le_placeFrom_slot ..)

end


/-- Nothing that places an access or writes a word meets has changed from `x` to `y`. -/
def SameBanks (x y : Tile) : Prop := y.claims = x.claims ∧ y.writes = x.writes ∧ y.loads = x.loads ∧ y.jobs = x.jobs

theorem SameBanks.lastRead {x y : Tile} (same : SameBanks x y) : lastRead y = lastRead x := by
  obtain ⟨-, -, loads, jobs⟩ := same
  simp only [Machine.lastRead, loadJobReads, loads, jobs]

theorem sameWrites_map {f : TimedWrite → TimedWrite} (cycle : ∀ w, f w = { w with cyc := (f w).cyc }) (l : List TimedWrite) :
    SameWrites (l.map f) l := by
  rw [SameWrites, List.map_map]
  refine List.map_congr_left fun w _ => ?_
  rw [Function.comp_apply, cycle]

/-- A row of the table has written its pieces, in their order, and what stood before is as before but for what gave way; no piece comes before
cycle `lo` where the accesses of the lower ranks bear different numbers. -/
theorem Commits.wroteMore {u lo : Nat} {x y z : Tile} {d : List (Nat × List Byte)} (same : SameBanks x y) (h : Commits u lo y z d) :
    ∃ ws, WroteMore x z u lo ws ∧ ws.map (fun w => (w.addr, w.data)) = written d ∧ (∀ w ∈ ws, w.unit = u) ∧
      (SeqsDiffer x → ∀ w ∈ ws, lo ≤ w.cyc) := by
  have rows := same.lastRead
  obtain ⟨claims, writes, -, -⟩ := same
  by_cases settled : Settled x lo
  · obtain ⟨f, ws, now, moves, pieces, unit, late⟩ := h.writes (by rwa [Settled, rows])
    rw [writes] at now
    refine ⟨ws, fun _ => ⟨_, now, sameWrites_map moves.cycle _, fun none_ other => ?_⟩, pieces, unit,
      fun differ => late (by rwa [SeqsDiffer, claims])⟩
    have only : OnlyLow u y := by
      rw [OnlyLow, claims]
      exact onlyLow_of_noLowRanks none_ u
    exact (List.map_congr_left fun w hw => moves.other only w (other w hw)).trans (List.map_id _)
  · refine ⟨(written d).map fun p => { cyc := lo, addr := p.1, data := p.2, unit := u, num := 0, pc := 0 },
      fun s => absurd s settled, ?_, ?_, ?_⟩
    · rw [List.map_map]
      exact List.map_id _
    · simp only [List.forall_mem_map, implies_true]
    · simp only [List.forall_mem_map, Nat.le_refl, implies_true]

end Sys2Proof.Proofs

/-! O20: the fills and the copies of Q_SP, and the machine on which a word of a fill comes too early (R163, R167 to R172). -/

namespace Sys2Proof.Proofs

open Sys2Proof Sys2Proof.Machine Sys2Proof.Claims Sys2Proof.Laws

/-! The bytes and the words of a command (R168, R169). -/

theorem length_fillWord (w : Cmd) (whole : 64 % sfEsize w = 0) : (fillWord w).length = 64 := by
  simp only [fillWord, List.length_flatten, List.map_replicate, length_leBytes, List.sum_replicate, smul_eq_mul]
  exact Nat.div_mul_cancel (Nat.dvd_of_mod_eq_zero whole)

theorem length_spadBytes (x : Tile) (c a n : Nat) : (spadBytes x c a n).length = n := by simp [spadBytes]

/-- Pieces of a whole word are all written. -/
theorem written_words {α : Type} (l : List α) {f : α → Nat × List Byte} (whole : ∀ p ∈ l, (f p).2.length = 64) :
    written (l.map f) = l.map fun p => ((f p).1 % 0x800000, (f p).2) := by
  have some_ : (l.map f).filter (fun p => !p.2.isEmpty) = l.map f := by
    rw [List.filter_eq_self]
    simp only [List.forall_mem_map]
    intro p hp
    have := whole p hp
    cases h : (f p).2 with
    | nil => rw [h] at this; cases this
    | cons => rfl
  rw [written, some_, List.map_map]
  rfl

theorem map_mapIdx {α β γ : Type} {f : Nat → α → β} {g : β → γ} {h : α → γ} (forgets : ∀ i a, g (f i a) = h a) (l : List α) :
    (l.mapIdx f).map g = l.map h := by
  apply List.ext_getElem
  · simp
  · intro i _ _
    simp [forgets]

/-! The tile of a command of Q_SP that has started (R167, R172). -/

section
variable (x : Tile) (e : QEntry) (c : Nat)

/-- The head of Q_SP has left its queue and is under way. -/
def spBegun : Tile := { (popIssue x 4 c e).1 with spBusy := some e }

theorem sameBanks_spBegun : SameBanks x (spBegun x e c) := by
  rw [spBegun, popIssue_frame]
  exact ⟨rfl, rfl, rfl, rfl⟩

variable {x e c}

/-- What a command of Q_SP leaves that has written these pieces from cycle `lo` on. -/
theorem spStarted_of_commits {lo : Nat} {y : Tile} {d : List (Nat × List Byte)} (h : Commits 4 lo (spBegun x e c) y d)
    (whole : ∀ p ∈ written d, p.2.length = 64) (s : State) (t : Nat) :
    ∃ ws, SpStarted s (setTile s t y) t x lo ws ∧ (tileOf (setTile s t y) t).spBusy = some e ∧
      ws.map (fun r => (r.addr, r.data)) = written d ∧ (SeqsDiffer x → ∀ r ∈ ws, lo ≤ r.cyc) := by
  obtain ⟨ws, wrote, pieces, unit, late⟩ := h.wroteMore (sameBanks_spBegun x e c)
  obtain ⟨cl, vs, ms, hs, ps, frame⟩ := h.frame
  simp only [SpStarted, OnlyTile, tileOf_setTile]
  refine ⟨ws, ⟨trivial, wrote, ?_, ?_, ?_, fun r hr => ⟨?_, unit r hr⟩⟩, ?_, pieces, late⟩
  · rw [frame, spBegun, popIssue_frame]
    exact Tbl.get_put_self ..
  · rw [frame, spBegun, popIssue_frame]
  · rw [frame, spBegun, popIssue_frame]
  · exact whole (r.addr, r.data) (pieces ▸ List.mem_map_of_mem hr)
  · rw [frame, spBegun]

end

/-! SP.FILL (R168, R172). -/

section
variable {s : State} {t c : Nat} {g : Group} {x : Tile} {e : QEntry}

/-- A fill that issues in cycle `c` writes its word to each of these. -/
theorem commits_fillTile (x : Tile) (e : QEntry) (c : Nat) (words : List (Nat × Nat)) (d : List Byte) :
    Commits 4 (c + 2) (spBegun x e c) (fillTile x e c words d) (words.map fun p => (p.1, d)) := by
  have marked := commits_setCommits 4 (c + 2) (spBegun x e c) e.num (words.mapIdx fun i _ => c + 2 + i / 16)
  have each : ∀ p ∈ words.mapIdx (fun i p => (c + 2 + i / 16, p.1)), ∀ y, Commits 4 (c + 2) y (spWrite e y p.1 p.2 d) [(p.2, d)] := by
    intro p hp y
    obtain ⟨i, -, rfl⟩ := List.mem_mapIdx.mp hp
    exact commits_placeWrite (Nat.le_add_right ..) y spRank _ 4 e.num e.pc _
  have all_ := marked.trans (Commits.foldl each _)
  rw [List.nil_append, ← List.map_eq_flatMap, map_mapIdx (h := fun p : Nat × Nat => (p.1, d)) fun _ _ => rfl] at all_
  exact all_

/-- What a fill that issues in cycle `c` must not violate, as O20 has it (R141, R146, R147, R149). -/
def FillClean (foot : Nat) (x : Tile) (e : QEntry) (c : Nat) : Prop :=
  let y := fillTile x e c (fillWords e.word) (fillWord e.word)
  (popIssue x 4 c e).2 = [] ∧
    extentViol foot c (spDaddr e.word) (sfDstride e.word) (sfRows e.word) (64 * sfRowlen e.word) e.pc = [] ∧
    spWriteViols foot y e.num e.pc = [] ∧ lateReads y e.num = [] ∧ movedViols x y = []

theorem exec_spFill (head : spHead s t .fill = some (g, x, e, c)) (clean : FillClean (footOf s g.handle) x e c) :
    exec (.spFill t) s = .next (setTile s t (fillTile x e c (fillWords e.word) (fillWord e.word))) := by
  obtain ⟨wait, extent, writes, reads, moved⟩ := clean
  show execSpFill t s = _
  simp only [execSpFill, head, wait, extent, writes, reads, moved, List.append_nil, settleTile_ok]

/-- All that O20 says of a fill but the cycles of its words, and these where the accesses of the lower ranks bear different numbers. -/
theorem spFill_writesItsWords (head : spHead s t .fill = some (g, x, e, c)) (whole : 64 % sfEsize e.word = 0)
    (clean : FillClean (footOf s g.handle) x e c) :
    ∃ s' ws, exec (.spFill t) s = .next s' ∧ SpStarted s s' t x (c + 2) ws ∧ (tileOf s' t).spBusy = some e ∧
      ws.map (fun r => (r.addr, r.data)) = (fillWords e.word).map (fun p => (p.1 % 0x800000, fillWord e.word)) ∧
      (SeqsDiffer x → ∀ r ∈ ws, c + 2 ≤ r.cyc) := by
  have pieces := written_words (fillWords e.word) (f := fun p => (p.1, fillWord e.word)) fun _ _ => length_fillWord e.word whole
  obtain ⟨ws, started, busy, data, late⟩ := spStarted_of_commits (commits_fillTile x e c (fillWords e.word) (fillWord e.word))
    (by
      rw [pieces]
      simp only [List.forall_mem_map]
      exact fun _ _ => length_fillWord e.word whole) s t
  exact ⟨_, ws, exec_spFill head clean, started, busy, data.trans pieces, late⟩

/-- The architect's fill of two words, whose tile has no access yet, meets `spFill_writesItsWords`. -/
theorem spFill_writesItsWords_witness : ∃ s' ws, exec (.spFill 0) (Tests.wholeFoot (Tests.queued 4 Tests.cFill)) = .next s' ∧
    (tileOf s' 0).writes = ws ∧ ∀ r ∈ ws, 4 + 2 ≤ r.cyc := by
  obtain ⟨⟨head, -, whole, clean⟩, -, -, settled, -⟩ := Tests.witness_ScratchpadFillAndCopy
  obtain ⟨s', ws, run, ⟨-, wrote, -⟩, -, -, late⟩ := spFill_writesItsWords head whole clean
  obtain ⟨old, now, -, same⟩ := wrote settled
  rw [same (fun _ stands => nomatch stands) (fun _ stands => nomatch stands)] at now
  exact ⟨s', ws, run, now, late List.Pairwise.nil⟩

end

/-! SP.COPY (R169, R171, R172). -/

theorem length_insertBy {α : Type} (le : α → α → Bool) (a : α) (l : List α) : (insertBy le a l).length = l.length + 1 := by
  induction l with
  | nil => rfl
  | cons b r ih =>
    rw [insertBy]
    split
    · rfl
    · rw [List.length_cons, ih, List.length_cons]

theorem length_sortBy {α : Type} (le : α → α → Bool) (l : List α) : (sortBy le l).length = l.length := by
  induction l with
  | nil => rfl
  | cons a r ih => rw [sortBy, List.foldr_cons, ← sortBy, length_insertBy, ih, List.length_cons]

/-- A read of the command `num` at a lower rank. -/
def isReadOf (num : Nat) (k : Claim) : Bool := decide (coreRank < k.rank) && k.num == num && !(k.write)

theorem length_readCycles (x : Tile) (num : Nat) : (readCycles x num).length = x.claims.countP (isReadOf num) := by
  rw [readCycles, List.length_map, length_sortBy, List.countP_eq_length_filter]
  rfl

/-- A read that is placed is one more of its command. -/
theorem countP_reads_placeRead (x : Tile) (c a num pc : Nat) :
    (placeRead x spRank c a 4 num pc).claims.countP (isReadOf num) = x.claims.countP (isReadOf num) + 1 := by
  have same := congrArg (Multiset.count true) ((kept_seated x (wordClaim 4 spRank num pc a false) c).map_eq (f := isReadOf num) fun _ _ => rfl)
  have own : isReadOf num (nextClaim x (wordClaim 4 spRank num pc a false) c) = true := by simp [isReadOf, nextClaim, wordClaim, coreRank, spRank]
  rw [Multiset.map_add, Multiset.count_add, Multiset.map_singleton, own, Multiset.count_singleton_self] at same
  rw [placeRead, placeFrom_frame]
  simpa only [Multiset.map_coe, Multiset.coe_count, List.count, List.countP_map, Function.comp_def, beq_true] using same.symm

theorem countP_reads_foldl (l : List (Nat × Nat)) (num pc : Nat) (x : Tile) :
    (l.foldl (fun y p => placeRead y spRank p.1 p.2 4 num pc) x).claims.countP (isReadOf num) =
      x.claims.countP (isReadOf num) + l.length := by
  induction l generalizing x with
  | nil => rfl
  | cons p r ih => rw [List.foldl_cons, ih, countP_reads_placeRead, List.length_cons]; omega

section
variable {s : State} {t c : Nat} {g : Group} {x : Tile} {e : QEntry}

/-- Every word of the source is read. -/
theorem length_le_readCycles (x : Tile) (e : QEntry) (c : Nat) (src : List (Nat × Nat)) :
    src.length ≤ (readCycles (copyReads x e c src) e.num).length := by
  have reads := countP_reads_foldl (src.mapIdx fun i p => (c + i / 8, p.1)) e.num e.pc (spBegun x e c)
  rw [List.length_mapIdx] at reads
  rw [length_readCycles, copyReads, setReleases_frame]
  exact (Nat.le_add_left ..).trans reads.symm.le

theorem commits_copyReads (x : Tile) (e : QEntry) (c lo : Nat) (src : List (Nat × Nat)) :
    Commits 4 lo (spBegun x e c) (copyReads x e c src) [] := by
  have each : ∀ p ∈ src.mapIdx (fun i p => (c + i / 8, p.1)), ∀ y, Commits 4 lo y (placeRead y spRank p.1 p.2 4 e.num e.pc) [] :=
    fun p _ y => commits_placeRead lo y spRank p.1 p.2 4 e.num e.pc
  have read := Commits.foldl each (spBegun x e c)
  rw [List.flatMap_eq_nil_iff.mpr fun _ _ => rfl] at read
  exact read.trans (commits_setReleases ..)

/-- A copy that issues in cycle `c` writes to each word what its source held then. -/
theorem commits_copyTile (x : Tile) (e : QEntry) (c : Nat) (dst src : List (Nat × Nat)) :
    Commits 4 (c + 4) (spBegun x e c) (copyTile x e c dst src) ((dst.zip src).map fun p => (p.1.1, spadBytes x c p.2.1 64)) := by
  let y := copyReads x e c src
  let from_ := (readCycles y e.num).mapIdx fun i k => Nat.max (c + 4 + i / 8) (k + 4)
  have each : ∀ p ∈ (dst.zip src).zip from_, ∀ z,
      Commits 4 (c + 4) z (spWrite e z p.2 p.1.1.1 (spadBytes x c p.1.2.1 64)) [(p.1.1.1, spadBytes x c p.1.2.1 64)] := by
    rintro ⟨q, k⟩ hp z
    obtain ⟨i, -, rfl⟩ := List.mem_mapIdx.mp (List.of_mem_zip hp).2
    exact commits_placeWrite ((Nat.le_add_right ..).trans (Nat.le_max_left ..)) z spRank _ 4 e.num e.pc _
  have marked := commits_setCommits 4 (c + 4) y e.num from_
  have all_ := (commits_copyReads x e c (c + 4) src).trans (marked.trans (Commits.foldl each _))
  have enough : (dst.zip src).length ≤ from_.length := by
    rw [List.length_mapIdx, List.length_zip]
    exact (Nat.min_le_right ..).trans (length_le_readCycles x e c src)
  have words : ((dst.zip src).zip from_).flatMap (fun p => [(p.1.1.1, spadBytes x c p.1.2.1 64)]) =
      (dst.zip src).map fun p => (p.1.1, spadBytes x c p.2.1 64) := by
    rw [← List.map_eq_flatMap]
    conv_rhs => rw [← List.map_fst_zip enough, List.map_map]
    rfl
  rw [words] at all_
  exact all_

/-- What a copy that issues in cycle `c` must not violate, as O20 has it (R141, R146, R147, R149). -/
def CopyClean (foot : Nat) (x : Tile) (e : QEntry) (c : Nat) : Prop :=
  let y := copyTile x e c (copyDst e.word) (copySrc e.word)
  (popIssue x 4 c e).2 = [] ∧
    extentViol foot c (spDaddr e.word) (scDstride e.word) (scRows e.word) (64 * scRowlen e.word) e.pc = [] ∧
    extentViol foot c (scSaddr e.word) (scSstride e.word) (scRows e.word) (64 * scRowlen e.word) e.pc = [] ∧
    spReadViols foot y e.num e.pc = [] ∧ spWriteViols foot y e.num e.pc = [] ∧
    lateReads y e.num = [] ∧ lateWrites y e.num = [] ∧ movedViols x y = []

theorem exec_spCopy (head : spHead s t .copy = some (g, x, e, c)) (unarmed : Unarmed s t 3) (clean : CopyClean (footOf s g.handle) x e c) :
    exec (.spCopy t) s = .next (setTile s t (copyTile x e c (copyDst e.word) (copySrc e.word))) := by
  obtain ⟨wait, dst, src, reads, writes, late, held, moved⟩ := clean
  show execSpCopy t s = _
  simp only [execSpCopy, head, fireRead_none unarmed, wait, dst, src, reads, writes, late, held, moved, List.append_nil, settleTile_ok]

/-- All that O20 says of a copy but the cycles of its words, and these where the accesses of the lower ranks bear different numbers. -/
theorem spCopy_writesItsWords (head : spHead s t .copy = some (g, x, e, c)) (unarmed : Unarmed s t 3)
    (clean : CopyClean (footOf s g.handle) x e c) :
    ∃ s' ws, exec (.spCopy t) s = .next s' ∧ SpStarted s s' t x (c + 4) ws ∧ (tileOf s' t).spBusy = some e ∧
      ws.map (fun r => (r.addr, r.data)) =
        ((copyDst e.word).zip (copySrc e.word)).map (fun p => (p.1.1 % 0x800000, spadBytes x c p.2.1 64)) ∧
      (SeqsDiffer x → ∀ r ∈ ws, c + 4 ≤ r.cyc) := by
  have pieces := written_words ((copyDst e.word).zip (copySrc e.word)) (f := fun p => (p.1.1, spadBytes x c p.2.1 64))
    fun _ _ => length_spadBytes ..
  obtain ⟨ws, started, busy, data, late⟩ := spStarted_of_commits (commits_copyTile x e c (copyDst e.word) (copySrc e.word))
    (by
      rw [pieces]
      simp only [List.forall_mem_map]
      exact fun _ _ => length_spadBytes ..) s t
  exact ⟨_, ws, exec_spCopy head unarmed clean, started, busy, data.trans pieces, late⟩

/-- The end of a command of Q_SP, as O20 has it (R172). -/
theorem spCommandDone_signals {last : Nat} (runs : live s t = some g) (here : x = tileOf s t) (busy : x.spBusy = some e)
    (ends : last = lastAccess x e.num true 0) (next : due s g t x 6 (last + 1) = true)
    (fits : overBy (cmdSig { x with spBusy := none, spLast := last + 1 } (last + 1) 4 e) (last + 2) = none) :
    exec (.spCommandDone t) s = .next (setTile s t (cmdSig { x with spBusy := none, spLast := last + 1 } (last + 1) 4 e)) := by
  subst here ends
  show execSpCommandDone t s = _
  simp only [execSpCommandDone, runs, busy, spEnd, next, if_true, fits, overViols, settleTile_ok]

end

/-! The machine of the counterexample: in tile 0 a fill of two words is at the head of Q_SP and issues in cycle 4. Its words request their banks
in cycle 6. In that cycle two accesses of the lower ranks stand in the bank of the first word, and the second of them, an access of Q_SP to the
same word under the number of the same command, bears the sequence number of an access in cycle 0. `SeqsDiffer` rules this out, and O20 does
not. -/

/-- A write of one word at a lower rank that stands in cycle `c0`. -/
def lowWrite (unit num rank c0 a seq : Nat) : Claim :=
  { num := num, unit := unit, pc := 0, rank := rank, c0 := c0, step := 1, nw := 1, write := true, addrs := [a], seq := seq }

def twinTile : Tile :=
  { Tests.queued 4 Tests.cFill with
    claims := [lowWrite 4 1 spRank 0 0x80 0, lowWrite 2 2 lowRank 6 0x1000 1, lowWrite 4 1 spRank 6 0x1000 0] }

/-- The machine of the bench's task on that tile. -/
def twins : State := Tests.wholeFoot twinTile

theorem twins_issues : spHead twins 0 .fill = some (Tests.g2, twinTile, Tests.headE Tests.cFill, 4) := by decide +kernel

theorem twins_clean : FillClean (footOf twins Tests.g2.handle) twinTile (Tests.headE Tests.cFill) 4 := by
  unfold FillClean
  decide +kernel

/-- The access that bears the number of the one in cycle 0 is taken to stand there, and the first word of the fill moves with it. -/
theorem twins_writes :
    (fillTile twinTile (Tests.headE Tests.cFill) 4 (fillWords Tests.cFill) (fillWord Tests.cFill)).writes.map (fun w => w.cyc) = [0, 6] := by
  decide +kernel

/-- Refutes O20: the statement is about every tile, also one in which two accesses of the lower ranks bear one sequence number. A word of the fill
that is placed makes the model look up by their numbers where the accesses of before stand now. It finds the one of two twins for the other, and
moves the first word of the fill with it from cycle 6 to cycle 0, where the statement has no word before cycle 6. The model itself numbers its
accesses upwards; of tiles in which they differ, `spFill_writesItsWords`, `spCopy_writesItsWords` and `spCommandDone_signals` prove the whole of
O20. -/
theorem not_scratchpadFillAndCopy : ¬ Obligations.ScratchpadFillAndCopy := by
  unfold Obligations.ScratchpadFillAndCopy
  intro h
  obtain ⟨fill, -⟩ := h twins 0 Tests.g2 twinTile (Tests.headE Tests.cFill) 4
  obtain ⟨s', ws, run, started, -, -, late⟩ := fill twins_issues (by decide) (by decide) twins_clean
  obtain rfl := Host.Outcome.next.inj ((exec_spFill twins_issues twins_clean).symm.trans run)
  obtain ⟨-, wrote, -⟩ := started
  rw [tileOf_setTile] at wrote
  obtain ⟨old, appended, same, -⟩ := wrote (by decide)
  have unwritten : twinTile.writes = [] := rfl
  rw [SameWrites, unwritten, List.map_nil, List.map_eq_nil_iff] at same
  rw [same, List.nil_append] at appended
  have first : 0 ∈ ws.map (fun w => w.cyc) := by
    rw [← appended]
    exact twins_writes ▸ List.mem_cons_self
  obtain ⟨w, hw, early⟩ := List.mem_map.mp first
  have := late w hw
  omega

end Sys2Proof.Proofs


/-! SUPPORT. What the stream engines of a tile change when they send what they can (R202, R206). -/

namespace Sys2Proof.Proofs

open Sys2Proof Sys2Proof.Machine Sys2Proof.Claims Sys2Proof.Laws

/-- From one tile that only sends to the next. -/
theorem sending_trans {s s' s'' : State} {t : Nat} {y : Tile} (first : Sending s s' t y) (second : Sending s' s'' t (tileOf s' t)) :
    Sending s s'' t y := by
  obtain ⟨tile, others, ts, hi, flt, mgt, mem, host⟩ := first
  obtain ⟨tile', others', ts', hi', flt', mgt', mem', host'⟩ := second
  refine ⟨?_, fun u hu => (others' u hu).trans (others u hu), ts'.trans ts, hi'.trans hi, flt'.trans flt, mgt'.trans mgt, mem'.trans mem,
    host'.trans host⟩
  rw [tile', tile]

section
variable (s : State) (g : Group) (t e cyc : Nat)

theorem sending_refl : Sending s s t (tileOf s t) := ⟨rfl, fun _ _ => rfl, rfl, rfl, rfl, rfl, rfl, rfl⟩

/-- A tile whose streams and trackers alone have changed. -/
theorem sending_setTile {x y : Tile} (only : x = { y with streams := x.streams, trackers := x.trackers, lastShared := x.lastShared }) :
    Sending s (setTile s t x) t y := by
  refine ⟨?_, fun u hu => tileOf_setTile_ne _ _ hu, rfl, rfl, rfl, rfl, rfl, rfl⟩
  rw [tileOf_setTile]
  exact only

/-- A request leaves, or asks for its translation, or waits. -/
theorem sending_sendReq (st : Stream) (r : StreamReq) : Sending s (sendReq s g t e cyc st r).1 t (tileOf s t) := by
  unfold sendReq
  simp only
  split
  · split
    · exact sending_refl s t
    · exact sending_setTile _ t rfl
  · split
    · exact sending_refl s t
    · split
      · exact sending_setTile _ t rfl
      · split
        · exact sending_refl s t
        · exact sending_refl s t
  · split
    · exact sending_refl s t
    · exact sending_refl s t
  · exact sending_refl s t

theorem sending_pumpOne : Sending s (pumpOne s g t e cyc).1 t (tileOf s t) := by
  unfold pumpOne
  simp only
  split
  · exact sending_refl s t
  next st _ =>
    split
    · split
      · exact sending_trans (sending_setTile s t (y := tileOf s t) rfl) (sending_setTile _ t rfl)
      · exact sending_refl s t
    · split
      · split
        · exact sending_refl s t
        next r _ =>
          have sent := sending_sendReq s g t e (Nat.max cyc st.first) st r
          split
          all_goals
            next left =>
              rw [left] at sent
              exact sending_trans sent (sending_setTile _ t rfl)
      · exact sending_refl s t

theorem sending_pumpLoop (n : Nat) : Sending s (pumpLoop n s g t cyc) t (tileOf s t) := by
  induction n generalizing s with
  | zero => exact sending_refl s t
  | succ n ih =>
    have note : ∀ s k, Sending s (if holdsShared s t k then setTile s t { tileOf s t with lastShared := k } else s) t (tileOf s t) := by
      intro s k
      split
      · exact sending_setTile _ t rfl
      · exact sending_refl s t
    unfold pumpLoop
    simp only
    have one := sending_pumpOne s g t (1 - (tileOf s t).lastShared) cyc
    split
    next left =>
      rw [left] at one
      exact sending_trans (sending_trans one (note ..)) (ih _)
    next left =>
      rw [left] at one
      have other := sending_trans one (sending_pumpOne _ g t (1 - (1 - (tileOf s t).lastShared)) cyc)
      split
      next left' =>
        rw [left'] at other
        exact sending_trans (sending_trans other (note ..)) (ih _)
      next left' =>
        rw [left'] at other
        exact other

theorem sending_pumpBoth : Sending s (pumpBoth s g t cyc) t (tileOf s t) := sending_pumpLoop s g t cyc _

end

end Sys2Proof.Proofs

/-! O26: windows, DESC.MAKE, remote accesses and their answers, and the machine on which a word of an answer comes too early (R163, R164, R178 to
R185, R187, R194, R203). -/

namespace Sys2Proof.Proofs

open Sys2Proof Sys2Proof.Machine Sys2Proof.Claims Sys2Proof.Laws

theorem word64_eq (a : Nat) : word64 a = 64 * (a / 64) := by rw [word64]; omega

theorem spadMod_natCast (n : Nat) : spadMod (n : Int) = n % 0x800000 := imod_natCast n 0x800000

theorem fld_eq (x lo n : Nat) : fld x lo n = x / 2 ^ lo % 2 ^ n := by rw [fld, Nat.shiftRight_eq_div_pow]

/-! WIN (R179, R180, R183). -/

section
variable {x y : Tile} {c k : Nat}

/-- A table that stood until a cycle is what accesses up to that cycle meet. -/
theorem windowsAt_until {d : Nat} (past : y.winPast = x.winPast ++ [(d, x.windows)]) (before : k ≤ d) : windowsAt y k = windowsAt x k := by
  unfold windowsAt
  rw [past, List.find?_append]
  cases x.winPast.find? (fun p => decide (k ≤ p.1)) with
  | some p => rfl
  | none => rw [List.find?_cons_of_pos (by simpa using before)]; rfl

/-- Accesses after the last change meet the present table. -/
theorem windowsAt_now (past_ : ∀ p ∈ y.winPast, p.1 < k) : windowsAt y k = y.windows := by
  have none_ : y.winPast.find? (fun p => decide (k ≤ p.1)) = none := by
    simpa using past_
  unfold windowsAt
  rw [none_]

/-- The tables that accesses before a WIN meet stay as they are: where it opens a closed window, those of cycles before its own, else that of its
own cycle too (R183). -/
theorem windowsAt_windowPast {was : Bool} (past : y.winPast = windowPast x c was) (before : if was then k ≤ c else k < c) :
    windowsAt y k = windowsAt x k := by
  cases was with
  | true => exact windowsAt_until past before
  | false =>
    have some_ : c ≠ 0 := Nat.ne_of_gt (Nat.zero_lt_of_lt before)
    refine windowsAt_until (d := c - 1) ?_ (Nat.le_sub_one_of_lt before)
    rw [past, windowPast, if_neg Bool.false_ne_true, if_neg some_]

/-- The open of a closed window is met in its own cycle (R183). -/
theorem windowsAt_opened (past : y.winPast = windowPast x c false) (past_ : ∀ p ∈ x.winPast, p.1 < c) : windowsAt y c = y.windows := by
  refine windowsAt_now fun p hp => ?_
  rw [past, windowPast, if_neg Bool.false_ne_true] at hp
  split at hp
  · exact past_ p hp
  · rcases List.mem_append.mp hp with old | new
    · exact past_ p old
    · rw [List.mem_singleton.mp new]
      show c - 1 < c
      omega

end

/-- The number of the window that a WIN names (R179). -/
def winSlot (w : Nat) : Nat := imod (iImm w) (2 ^ 14) % 8

/-- The first word of its window. -/
def winBase (x : Tile) (w : Nat) : Nat := 64 * ((regOf x (iA w)).toNat % 2 ^ 23 / 64)

/-- The words of its window. -/
def winLen (x : Tile) (w : Nat) : Nat := (regOf x (iA w)).toNat / 2 ^ 32 % 2 ^ 18

/-- It closes its window (R180). -/
def winCloses (x : Tile) (w : Nat) : Prop := (imod (iImm w) (2 ^ 14)).testBit 13 = true ∨ winLen x w = 0

/-- The entry that it writes as it opens its window. -/
def winOpens (x : Tile) (w : Nat) : Window :=
  { open_ := true, base := winBase x w, words := Nat.min (winLen x w) 131072, rd := (imod (iImm w) (2 ^ 14)).testBit 3,
    wr := (imod (iImm w) (2 ^ 14)).testBit 4 }

/-- The window of a WIN was open. -/
def winWas (x : Tile) (w : Nat) : Bool := (x.windows.get (winSlot w) window0).open_

/-- The tile after a WIN in cycle `c` that leaves this entry. -/
def winTile (x : Tile) (w c : Nat) (v : Window) : Tile :=
  let y := retire (putReg x (iD w) (if winWas x w then 1 else 0) (c + 1)) c 1 (x.pc + 4)
  { y with windows := y.windows.put (winSlot w) v, winPast := windowPast x c (winWas x w) }

section
variable {s : State} {t : Nat} {g : Group} {x : Tile} {w c : Nat}

theorem putReg_frame (x : Tile) (n : Nat) (v : Word64) (rdy : Nat) :
    putReg x n v rdy = { x with regs := (putReg x n v rdy).regs, readyAt := (putReg x n v rdy).readyAt } := by
  unfold putReg
  split <;> rfl

theorem winTile_frame (x : Tile) (w c : Nat) (v : Window) : winTile x w c v =
    { x with regs := (winTile x w c v).regs, readyAt := (winTile x w c v).readyAt, cyc := (winTile x w c v).cyc, pc := (winTile x w c v).pc,
             windows := x.windows.put (winSlot w) v, winPast := windowPast x c (winWas x w) } := by
  rw [winTile, retire, putReg_frame]

theorem exec_win (ready : CoreReady s t 0x29 (fun w => [iD w, iA w]) g x w c)
    (inside : winCloses x w ∨ (winBase x w + 64 * winLen x w ≤ 0x800000 ∧
      ∀ a ∈ wordsOf (winBase x w) (64 * winLen x w), outside (footOf s g.handle) a = false)) :
    ∃ v, exec (.win t) s = .next (setTile s t (winTile x w c v)) ∧ (¬ winCloses x w → v = winOpens x w) ∧
      (winCloses x w → v.open_ = false) := by
  have base : word64 (fld (regOf x (iA w)).toNat 0 23) = winBase x w := by rw [word64_eq, fld_zero, winBase]
  have len : fld (regOf x (iA w)).toNat 32 18 = winLen x w := fld_eq ..
  have closes : (bitAt (imod (iImm w) (2 ^ 14)) 13 || winLen x w == 0) = true ↔ winCloses x w := by
    simp only [bitAt, winCloses, Bool.or_eq_true, beq_iff_eq]
  show ∃ v, execWin t s = _ ∧ _
  rw [execWin, coreInstr_ready ready]
  simp only [base, len]
  by_cases h : winCloses x w
  · simp only [closes.mpr h, Bool.not_true, Bool.false_and, Bool.false_eq_true, if_true, if_false, settleTile_ok]
    exact ⟨window0, rfl, fun n => absurd h n, fun _ => rfl⟩
  · obtain ⟨fits, covered⟩ := inside.resolve_left h
    have stays : (decide (spadSize < winBase x w + 64 * winLen x w) ||
        (wordsOf (winBase x w) (64 * winLen x w)).any (outside (footOf s g.handle))) = false := by
      simp only [Bool.or_eq_false_iff, decide_eq_false_iff_not, Nat.not_lt, List.any_eq_false, Bool.not_eq_true]
      exact ⟨fits, covered⟩
    simp only [Bool.eq_false_iff.mpr fun k => h (closes.mp k), stays, Bool.and_false, Bool.false_eq_true, if_false, settleTile_ok]
    exact ⟨winOpens x w, rfl, fun _ => rfl, fun k => absurd k h⟩

/-- All that O26 says of WIN. -/
theorem win_leaves (ready : CoreReady s t 0x29 (fun w => [iD w, iA w]) g x w c)
    (inside : winCloses x w ∨ (winBase x w + 64 * winLen x w ≤ 0x800000 ∧
      ∀ a ∈ wordsOf (winBase x w) (64 * winLen x w), outside (footOf s g.handle) a = false)) :
    ∃ s', exec (.win t) s = .next s' ∧ OnlyTile s s' t ∧ (tileOf s' t).spad = x.spad ∧ (tileOf s' t).writes = x.writes ∧
      (∀ n, regOf (tileOf s' t) n = if n = iD w ∧ 0 < n ∧ n < 64 then (if winWas x w then 1 else 0) else regOf x n) ∧
      (∀ k, (if winWas x w then k ≤ c else k < c) → windowsAt (tileOf s' t) k = windowsAt x k) ∧
      (winWas x w = false → (∀ p ∈ x.winPast, p.1 < c) → windowsAt (tileOf s' t) c = (tileOf s' t).windows) ∧
      (∀ n, n ≠ winSlot w → (tileOf s' t).windows.get n window0 = x.windows.get n window0) ∧
      (¬ winCloses x w → (tileOf s' t).windows.get (winSlot w) window0 = winOpens x w) ∧
      (winCloses x w → ((tileOf s' t).windows.get (winSlot w) window0).open_ = false) := by
  obtain ⟨v, run, opens, closes⟩ := exec_win ready inside
  have frame := winTile_frame x w c v
  have windows : (winTile x w c v).windows = x.windows.put (winSlot w) v := by rw [frame]
  have past : (winTile x w c v).winPast = windowPast x c (winWas x w) := rfl
  refine ⟨_, run, ?_⟩
  simp only [OnlyTile, tileOf_setTile]
  refine ⟨trivial, by rw [frame], by rw [frame], fun n => regOf_putReg x (iD w) n _ (c + 1), fun k => windowsAt_windowPast past, fun shut => ?_,
    fun n other => ?_, fun h => ?_, fun h => ?_⟩
  · rw [shut] at past
    exact windowsAt_opened past
  · rw [windows, Tbl.get_put_ne _ _ _ other]
  · rw [windows, Tbl.get_put_self, opens h]
  · rw [windows, Tbl.get_put_self, closes h]

end

/-! DESC.MAKE (R132, R133, R194). -/

theorem le_freeFrom (x : Tile) (r : Nat) (banks : List Nat) (fuel c : Nat) : c ≤ freeFrom x r banks fuel c := by
  induction fuel generalizing c with
  | zero => exact Nat.le_refl c
  | succ fuel ih =>
    rw [freeFrom]
    split
    · exact c.le_succ.trans (ih _)
    · exact Nat.le_refl c

theorem le_grantFrom (x : Tile) (a n c : Nat) : c ≤ grantFrom x a n c := le_freeFrom ..

/-- The address of the first word that DESC.MAKE reads. -/
def makeAddr (x : Tile) (w : Nat) : Nat := 64 * ((regOf x (iA w)).toNat % 0x800000 / 64)

section
variable (x : Tile) (w c a : Nat)

theorem spadMod_next : spadMod ((a : Int) + 64) = (a + 64) % 0x800000 := by
  rw [← spadMod_natCast]
  push_cast
  rfl

theorem word64_spadMod : word64 (spadMod (regOf x (iA w)).toNat) = makeAddr x w := by rw [word64_eq, spadMod_natCast, makeAddr]

theorem descCycles_eq : descCycles x w c = (grantFrom x (makeAddr x w) 64 (Nat.max c x.storeAt),
    grantFrom x ((makeAddr x w + 64) % 0x800000) 64 (grantFrom x (makeAddr x w) 64 (Nat.max c x.storeAt) + 1)) := by
  simp only [descCycles, word64_spadMod, spadMod_next, loadCycle]

end

/-- An access of the core moves no write of the epoch but to another cycle, and leaves the registers and the scratchpad (R163). -/
theorem coreClaim_frame (x : Tile) (c a n : Nat) (write : Bool) : ∃ cl ws ms hs,
    coreClaim x c a n write = { x with claims := cl, writes := ws, marks := ms, holds := hs } ∧ SameWrites ws x.writes :=
  ⟨_, _, _, _, addClaims_frame .., addClaims_writes ..⟩

section
variable {s : State} {t : Nat} {g : Group} {x : Tile} {w c : Nat}

theorem descMake_leaves {a r0 r1 : Nat} {d : Desc} (ready : CoreReady s t 0x2A (fun w => [iA w]) g x w c) (idle : x.store = none)
    (unarmed : Unarmed s t 3) (at_ : a = 64 * ((regOf x (iA w)).toNat % 0x800000 / 64)) (first : r0 = grantFrom x a 64 (Nat.max c x.storeAt))
    (second : r1 = grantFrom x ((a + 64) % 0x800000) 64 (r0 + 1)) (caught : caughtUp x coreEvent (r1 + 1) = true)
    (moved : movedViols x (coreClaim (coreClaim x r0 a 64 false) r1 ((a + 64) % 0x800000) 64 false) = [])
    (read : d = BitVec.ofNat 1024 (leNat (spadBytes x r0 a 64 ++ spadBytes x r1 (a + 64) 64)))
    (reads : readViols (footOf s g.handle) x r0 a 64 5 x.pc 0 false = [])
    (reads' : readViols (footOf s g.handle) x r1 ((a + 64) % 0x800000) 64 5 x.pc 0 false = []) (passed : tdCheck (placeIn s g x d) d = 0) :
    ∃ s', exec (.descMake t) s = .next s' ∧ OnlyTile s s' t ∧ (tileOf s' t).cyc = r1 + 3 ∧ (tileOf s' t).pc = nextPc x ∧
      (∀ k, (tileOf s' t).descs.find k = if k = imod (iImm w) 1024 then some d else x.descs.find k) ∧
      (tileOf s' t).regs = x.regs ∧ (tileOf s' t).spad = x.spad ∧ SameWrites (tileOf s' t).writes x.writes := by
  obtain rfl := ready_tile ready
  have idle' : (tileOf s t).store.isSome = false := by rw [idle]; rfl
  have cycles : descCycles (tileOf s t) w c = (r0, r1) := by rw [descCycles_eq, second, first, at_, makeAddr]
  have addr : word64 (spadMod (regOf (tileOf s t) (iA w)).toNat) = a := by rw [word64_spadMod, at_, makeAddr]
  have after : Nat.max c (tileOf s t).storeAt ≤ r1 := by
    rw [second, first]
    exact (le_grantFrom ..).trans ((Nat.le_succ _).trans (le_grantFrom ..))
  obtain ⟨_, _, _, _, frame, same⟩ := coreClaim_frame (tileOf s t) r0 a 64 false
  obtain ⟨_, _, _, _, frame', same'⟩ := coreClaim_frame (coreClaim (tileOf s t) r0 a 64 false) r1 ((a + 64) % 0x800000) 64 false
  rw [frame] at same'
  have run : exec (.descMake t) s = execDescMake t s := rfl
  rw [run, execDescMake, idle', if_neg Bool.false_ne_true,
    coreInstrIf_ready ready (ok := fun x w c => caughtUp x coreEvent ((descCycles x w c).2 + 1)) (by rwa [cycles])]
  simp only [cycles, addr, spadMod_next, fireRead_none unarmed, reads, reads', moved, ← read, passed, if_true, List.append_nil, settleTile_ok]
  refine ⟨_, rfl, ?_⟩
  simp only [OnlyTile, tileOf_setTile]
  rw [frame', frame]
  refine ⟨trivial, ?_, rfl, fun k => ?_, rfl, rfl, same'.trans same⟩
  · show Nat.max c (tileOf s t).storeAt + (r1 + 3 - Nat.max c (tileOf s t).storeAt) = r1 + 3
    omega
  · show ((tileOf s t).descs.put _ d).find k = _
    split
    next here => rw [here, Tbl.find_put_self]
    next other => rw [Tbl.find_put_ne _ _ other]

end

/-! Remote accesses (R164 to R166, R178, R182 to R185). -/

/-- An access that no other of its pair of tiles precedes is the one taken, and the others keep their order. -/
theorem takeAccess_append {src dst : Nat} {m : Msg} (hsrc : m.src = src) (hdst : m.dst = dst) (kind : m.kind < 2) (post : List Msg) :
    ∀ {pre : List Msg}, (∀ k ∈ pre, ¬(k.src = src ∧ k.dst = dst ∧ k.kind < 2)) →
      takeAccess src dst (pre ++ m :: post) = some (m, pre ++ post)
  | [], _ => if_pos ⟨hsrc, hdst, kind⟩
  | k :: pre, clear => by
    obtain ⟨first, others⟩ := List.forall_mem_cons.mp clear
    simp only [List.cons_append, takeAccess, if_neg first, takeAccess_append hsrc hdst kind post others]

theorem bankOf_word64 (a : Nat) : bankOf (word64 a) = bankOf a := by
  rw [bankOf, bankOf, word64_eq]
  omega

/-- What takes a slot of a later cycle leaves an access of a remote tile where it stands, and makes others request in later cycles. -/
theorem stays_seat {k : Claim} (remote : k.unit = 6) (l : Claim) {c : Nat} (below : k.c0 < c) {x : Tile} (stands : k ∈ x.claims) :
    k ∈ (seat x { l with c0 := c }).1.claims ∧ ∀ p ∈ (seat x { l with c0 := c }).2, k.c0 < p.2 := by
  unfold seat
  simp only
  split
  · exact ⟨List.mem_append_left _ stands, fun _ none_ => nomatch none_⟩
  next m found =>
    obtain ⟨-, unit, -⟩ := follower_some found
    refine ⟨(List.mem_erase_of_ne ?_).mpr (List.mem_append_left _ stands), fun p hp => ?_⟩
    · rintro rfl
      exact absurd unit (by rw [remote]; decide)
    · rw [List.mem_singleton.mp hp]
      exact below.trans_le (Nat.le_add_right c 4)

/-- Requests of later cycles leave an access of a remote tile where it stands. -/
theorem mem_grantAll {k : Claim} (remote : k.unit = 6) (fuel : Nat) {x : Tile} {ps : List (Claim × Nat)} (stands : k ∈ x.claims)
    (later : ∀ p ∈ ps, k.c0 < p.2) : k ∈ (grantAll fuel x ps).claims := by
  induction fuel generalizing x ps with
  | zero => exact List.mem_append_left _ stands
  | succ fuel ih =>
    match ps with
    | [] => exact stands
    | (l, c) :: r =>
      obtain ⟨below, rest⟩ := List.forall_mem_cons.mp later
      have waits : k.c0 < c + 1 := below.trans c.lt_succ_self
      have next : k ∈ (grantAll fuel x ((l, c + 1) :: r)).claims := ih stands (List.forall_mem_cons.mpr ⟨waits, rest⟩)
      unfold grantAll
      simp only
      split
      · split
        · obtain ⟨there, moved⟩ := stays_seat remote l below stands
          exact ih there (List.forall_mem_append.mpr ⟨moved, rest⟩)
        · exact next
      next m found =>
        split
        · have other : k ≠ m := fun e => below.ne (e ▸ (standing_some found).2)
          obtain ⟨there, moved⟩ := stays_seat remote l below (x := { x with claims := x.claims.erase m })
             ((List.mem_erase_of_ne other).mpr stands)
          exact ih there (List.forall_mem_cons.mpr ⟨waits, List.forall_mem_append.mpr ⟨moved, rest⟩⟩)
        · exact next

/-- A remote access that can be granted its bank in a cycle has its slot in that cycle (R164). -/
theorem placeFrom_remote {x : Tile} {a c : Nat} (granted : remoteSlot x a c = true) (num pc : Nat) (write : Bool) :
    (placeFrom x (wordClaim 6 lowRank num pc a write) c).2 = c := by
  let k := nextClaim x (wordClaim 6 lowRank num pc a write) c
  have stands : k ∈ (seated x (wordClaim 6 lowRank num pc a write) c).claims := by
    obtain ⟨fuel, some_⟩ : ∃ fuel, placeFuel x = fuel + 1 := ⟨(claimFuel x + 2) * (x.claims.length + 3) - 1, by
      have : 0 < (claimFuel x + 2) * (x.claims.length + 3) := Nat.mul_pos (Nat.succ_pos _) (Nat.succ_pos _)
      rw [placeFuel]
      omega⟩
    have free : bankTaken x lowRank c (claimBank k) = false := by
      have bank : claimBank k = bankOf a := bankOf_word64 a
      simp only [remoteSlot, Bool.and_eq_true, Bool.not_eq_true'] at granted
      rw [bank, granted.1]
    have uncapped : capReached x k c = false := rfl
    have gives : ∀ l, standing x k c = some l → yields x k l c = true := by
      intro l found
      have same : standing x (nextClaim x (wordClaim 6 lowRank 0 0xFFFFFFFF a false) c) c = some l := found
      simp only [remoteSlot, same, Bool.and_eq_true] at granted
      exact granted.2
    show k ∈ (grantAll (placeFuel x) x [(k, c)]).claims
    have rank : k.rank = lowRank := rfl
    rw [some_, grantAll]
    simp only [rank, free, Bool.not_false, Bool.true_and, uncapped, Bool.true_or, Bool.and_true, if_true]
    split
    · exact mem_grantAll rfl fuel (List.mem_append_right _ List.mem_cons_self) fun _ none_ => nomatch none_
    next l found =>
      rw [gives l found, if_pos rfl]
      exact mem_grantAll rfl fuel (List.mem_append_right _ List.mem_cons_self) fun p hp => by
        rw [List.mem_singleton.mp hp]
        exact c.lt_succ_self
  have low : coreRank < k.rank := (by decide : 12 < 14)
  exact slotIn_new (kept_seated ..) (lt_nextClaim_seq x _ c) low stands

section
variable (x : Tile) (m : Msg) (a c num : Nat)

/-- The tile after a remote access changes no register and no scratchpad byte but by a write of the epoch. -/
theorem remoteWrite_frame : ∃ cl ws ms hs ps, remoteWrite x m a c num =
    { x with claims := cl, writes := ws, marks := ms, holds := hs, planes := ps } := by
  obtain ⟨ws, ms, hs, ps, frame⟩ := placeWrite_frame x lowRank c a 6 num 0xFFFFFFFF ((enabledBytes m).map (fun p => (a + p.1, [p.2])))
  exact ⟨_, ws, ms, hs, ps, frame⟩

variable {x m a c num}

/-- A remote write that has its bank writes its enabled bytes in its cycle (R164 to R166). -/
theorem wroteMore_remoteWrite (granted : remoteSlot x a c = true) : ∃ ws, WroteMore x (remoteWrite x m a c num) 6 c ws ∧
    ws.map (fun k => (k.cyc, k.addr, k.data)) = (enabledBytes m).map (fun p => (c, (a + p.1) % 0x800000, [p.2])) := by
  refine ⟨writesOf c 6 num 0xFFFFFFFF ((enabledBytes m).map fun p => (a + p.1, [p.2])), fun settled => ?_, ?_⟩
  · have now := placeWrite_writes lowRank a 6 num 0xFFFFFFFF ((enabledBytes m).map fun p => (a + p.1, [p.2])) settled (Nat.le_refl c)
    rw [placeFrom_remote granted] at now
    refine ⟨_, now, sameWrites_map (moveWrite_frame x _) _, fun none_ other => ?_⟩
    exact (List.map_congr_left fun w hw => moveWrite_other (onlyLow_of_noLowRanks none_ 6) (other w hw)).trans (List.map_id _)
  · have some_ : ((enabledBytes m).map fun p => (a + p.1, [p.2])).filter (fun p => !p.2.isEmpty) =
        (enabledBytes m).map fun p => (a + p.1, [p.2]) := by
      rw [List.filter_eq_self]
      simp only [List.forall_mem_map, List.isEmpty_cons, Bool.not_false, implies_true]
    rw [writesOf, some_, List.map_map, List.map_map]
    rfl

end

section
variable {s : State} {t src c : Nat} {g : Group} {m : Msg} {pre post : List Msg}

/-- The access `m` from tile `src` is the one that may be granted its slot at tile `t` in cycle `c`, as O26 has it (R163, R164, R183, R185). -/
structure AccessComes (s : State) (t src c : Nat) (g : Group) (m : Msg) (pre post : List Msg) : Prop where
  runs : live s t = some g
  sent : g.msgs = pre ++ m :: post
  source : m.src = src
  target : m.dst = t
  kind : m.kind < 2
  first : ∀ k ∈ pre, ¬(k.src = src ∧ k.dst = t ∧ k.kind < 2)
  due : accessDue s g t (tileOf s t) src c = true
  slot : remoteSlot (tileOf s t) (accessWord (tileOf s t) m c) c = true

/-- An access that the window does not permit changes nothing and is answered with a NACK (R182). -/
theorem remoteAccess_denied (comes : AccessComes s t src c g m pre post) (denied : accessOk (tileOf s t) m c = false) :
    ∃ s' a, exec (.remoteAccessArrival t src c) s = .next s' ∧ a.nack = true ∧ a.dst = src ∧
      groupOf s' g.handle = groupOf (setGroup s { g with msgs := pre ++ post, answers := g.answers ++ [a] }) g.handle ∧
      (tileOf s' t).writes = (tileOf s t).writes ∧ (tileOf s' t).spad = (tileOf s t).spad ∧ s'.mem = s.mem := by
  obtain ⟨runs, sent, source, target, kind, first, due, slot⟩ := comes
  have taken := takeAccess_append source target kind post first
  rw [← sent] at taken
  have run : exec (.remoteAccessArrival t src c) s = execRemoteAccessArrival t src c s := rfl
  rw [run, execRemoteAccessArrival]
  simp only [runs, taken, due, slot, denied, Bool.and_self, if_true, Bool.not_false, Bool.false_eq_true, if_false, settleTile_ok]
  refine ⟨_, _, rfl, rfl, source, rfl, ?_, ?_, rfl⟩ <;> rw [tileOf_setTile] <;> rfl

/-- A read that the window permits is answered with the bytes of its word (R166, R182, R200). -/
theorem remoteAccess_read (comes : AccessComes s t src c g m pre post) (ok : accessOk (tileOf s t) m c = true) (reads : m.kind = 1)
    (unarmed : Unarmed s t 3) {own : Option Stream} (isOwn : own = ownCopy s g t (tileOf s t) m)
    {num : Nat} (numbered : num = if own.isSome then m.stream else 0)
    (clear : readViols (footOf s g.handle) (tileOf s t) c (accessWord (tileOf s t) m c) 64 6 0xFFFFFFFF num own.isSome = [])
    (moved : movedViols (tileOf s t) (hear (placeRead (tileOf s t) lowRank c (accessWord (tileOf s t) m c) 6 num 0xFFFFFFFF) src c) = []) :
    ∃ s' a, exec (.remoteAccessArrival t src c) s = .next s' ∧ a.nack = false ∧ a.dst = src ∧ a.req = m.req ∧
      (own = none → a.data = spadBytes (tileOf s t) c (accessWord (tileOf s t) m c) 64) ∧
      (∀ st, own = some st → a.data = spadBytes (tileOf s t) st.issue (accessWord (tileOf s t) m c) 64) ∧
      groupOf s' g.handle = groupOf (setGroup s { g with msgs := pre ++ post, answers := g.answers ++ [a] }) g.handle ∧
      SameWrites (tileOf s' t).writes (tileOf s t).writes ∧ (tileOf s' t).regs = (tileOf s t).regs ∧ s'.mem = s.mem := by
  obtain ⟨runs, sent, source, target, kind, first, due, slot⟩ := comes
  have taken := takeAccess_append source target kind post first
  rw [← sent] at taken
  have run : exec (.remoteAccessArrival t src c) s = execRemoteAccessArrival t src c s := rfl
  have fires : ∀ g' : Group, fireAccess s g' t m (accessWord (tileOf s t) m c) c = none := fun g' => by
    rw [fireAccess, reads, if_neg (by decide), fireRead_none unarmed]
  subst isOwn numbered
  rw [run, execRemoteAccessArrival]
  simp only [runs, taken, due, slot, ok, reads, fires, accessViols, clear, moved, Bool.and_self, if_true, Bool.not_true, Bool.false_eq_true,
    if_false, one_ne_zero, List.append_nil, settleTile_ok]
  refine ⟨_, _, rfl, rfl, source, rfl, fun none_ => ?_, fun st some_ => ?_, rfl, ?_, ?_, rfl⟩
  · simp only [answerTo, reads, none_, Bool.true_and, beq_self_eq_true, if_true]
  · simp only [answerTo, reads, some_, Bool.true_and, beq_self_eq_true, if_true]
  · rw [tileOf_setTile]
    show SameWrites (placeFrom _ _ c).1.writes _
    rw [placeFrom_writes]
    exact sameWrites_map (moveWrite_frame _ _) _
  · rw [tileOf_setTile]
    show (placeFrom _ _ c).1.regs = _
    rw [placeFrom_frame]

/-- A write that the window permits writes exactly its enabled bytes, in its cycle (R165, R166, R182). -/
theorem remoteAccess_write (comes : AccessComes s t src c g m pre post) (ok : accessOk (tileOf s t) m c = true) (writes : m.kind = 0)
    (unarmed : Unarmed s t 3) {num : Nat} (numbered : num = if (ownCopy s g t (tileOf s t) m).isSome then m.stream else 0)
    (clear : ∀ p ∈ enabledBytes m,
      writeViols (footOf s g.handle) (tileOf s t) c ((accessWord (tileOf s t) m c + p.1) % 0x800000) 1 6 0xFFFFFFFF num = [])
    (moved : movedViols (tileOf s t) (hear (remoteWrite (tileOf s t) m (accessWord (tileOf s t) m c) c num) src c) = []) :
    ∃ s' ws, exec (.remoteAccessArrival t src c) s = .next s' ∧ WroteMore (tileOf s t) (tileOf s' t) 6 c ws ∧
      ws.map (fun k => (k.cyc, k.addr, k.data)) = (enabledBytes m).map (fun p =>
        (c, (accessWord (tileOf s t) m c + p.1) % 0x800000, [p.2])) ∧
      (tileOf s' t).regs = (tileOf s t).regs ∧ s'.mem = s.mem := by
  obtain ⟨runs, sent, source, target, kind, first, due, slot⟩ := comes
  have taken := takeAccess_append source target kind post first
  rw [← sent] at taken
  have run : exec (.remoteAccessArrival t src c) s = execRemoteAccessArrival t src c s := rfl
  have fires : ∀ g' : Group, fireAccess s g' t m (accessWord (tileOf s t) m c) c = none := fun g' => by
    rw [fireAccess, if_pos writes, List.findSome?_eq_none_iff]
    exact fun _ _ => fireRead_none unarmed ..
  have viols : accessViols (footOf s g.handle) (tileOf s t) m (accessWord (tileOf s t) m c) c num
      (ownCopy s g t (tileOf s t) m).isSome = [] := by
    rw [accessViols, if_pos writes, List.flatten_eq_nil_iff]
    simp only [List.forall_mem_map, spadMod_natCast]
    exact clear
  obtain ⟨ws, wrote, bytes⟩ := wroteMore_remoteWrite (m := m) (num := num) slot
  obtain ⟨_, _, _, _, _, frame⟩ := remoteWrite_frame (tileOf s t) m (accessWord (tileOf s t) m c) c num
  subst numbered
  rw [run, execRemoteAccessArrival]
  simp only [runs, taken, due, slot, ok, writes, fires, viols, moved, Bool.and_self, if_true, Bool.not_true, Bool.false_eq_true, if_false,
    List.append_nil, settleTile_ok]
  refine ⟨_, ws, rfl, ?_, bytes, ?_, rfl⟩
  · rw [tileOf_setTile]
    exact wrote
  · rw [tileOf_setTile, hear, frame]

end

/-! Answers (R184, R187, R203). -/

section
variable {s : State} {t c : Nat} {g : Group} {a : Answer} {rest : List Answer}

/-- An acknowledgement is taken from the answers on their way, and nothing else changes. -/
theorem remoteResponse_acknowledged (runs : live s t = some g) (taken : takeAnswer t g.answers = some (a, rest)) (granted : a.nack = false)
    (writes : a.read = false) (below : c < 2 ^ 40) (late : answered s g t (tileOf s t) a c = true) :
    exec (.remoteResponseArrival t c) s = .next (setGroup s { g with answers := rest }) := by
  have row : exec (.remoteResponseArrival t c) s = execRemoteResponseArrival t c s := rfl
  rw [row, execRemoteResponseArrival]
  simp only [runs, taken, granted, writes, late, decide_eq_false (Nat.not_le.mpr below), Bool.not_true, Bool.or_self, Bool.false_eq_true,
    if_false]

/-- The data of an answer lands in its stream, and the engines send what they can (R203). -/
theorem exec_remoteResponse_read {st : Stream} {r : StreamReq} {y : Tile} (runs : live s t = some g)
    (taken : takeAnswer t g.answers = some (a, rest)) (granted : a.nack = false) (reads : a.read = true) (below : c < 2 ^ 40)
    (asked : streamWith (tileOf s t) (a.unit - 2) a.req = some (st, r)) (late : answered s g t (tileOf s t) a c = true)
    (unarmed : Unarmed s t 3) (lands : y = arrived (tileOf s t) (a.unit - 2) c st r a.data)
    (clear : landViols (footOf s g.handle) (tileOf s t) y (a.unit - 2) st.entry = []) (read : lateReads y st.entry.num = []) :
    exec (.remoteResponseArrival t c) s =
      .next (pumpBoth (setTile (setGroup s { g with answers := rest }) t y) { g with answers := rest } t c) := by
  subst lands
  have row : exec (.remoteResponseArrival t c) s = execRemoteResponseArrival t c s := rfl
  let g' : Group := { g with answers := rest }
  have fires : fireLand (setGroup s g') g' t (a.unit - 2) c (elemData st r a.data) = none := by
    rw [fireLand, List.findSome?_eq_none_iff]
    exact fun _ _ => fireMerge_none (s := setGroup s g') unarmed ..
  have lands : readLands (setGroup s g') g' t (a.unit - 2) c st r a.data =
      pumpBoth (setTile (setGroup s g') t (arrived (tileOf s t) (a.unit - 2) c st r a.data)) g' t c := by
    unfold readLands
    simp only [fires]
    have none_ : landViols (footOf (setGroup s g') g'.handle) (tileOf (setGroup s g') t)
        (arrived (tileOf s t) (a.unit - 2) c st r a.data) (a.unit - 2) st.entry ++
          lateReads (arrived (tileOf s t) (a.unit - 2) c st r a.data) st.entry.num = [] := List.append_eq_nil_iff.mpr ⟨clear, read⟩
    have viols := congrArg firstViol none_
    exact viols ▸ rfl
  rw [row, execRemoteResponseArrival]
  simp only [runs, taken, granted, reads, late, asked, decide_eq_false (Nat.not_le.mpr below), Bool.not_true, Bool.or_self, Bool.false_eq_true,
    if_false, if_true]
  exact congrArg _ lands

/-- A NACK ends the task with WINDOW_CLOSED, and names the unit and the window reference (R184). -/
theorem windowNack_aborts (runs : live s t = some g) (taken : takeAnswer t g.answers = some (a, rest)) (refused : a.nack = true) :
    ∃ s1 d, exec (.windowNack t) s = .next (tileAbort s1 g t d) ∧ d.status = 0x0305 ∧ d.unitA = a.unit ∧
      d.address = a.ref ∧ d.unitB = 0xFF := by
  have row : exec (.windowNack t) s = execWindowNack t s := rfl
  rw [row, execWindowNack]
  simp only [runs, taken, refused, if_true]
  exact ⟨_, _, rfl, rfl, rfl, rfl, rfl⟩

end

/-- Bytes that arrive in cycle `c` are written word by word, the pieces of each as they came (R203). -/
theorem commits_landElems (x : Tile) (e c : Nat) (q : QEntry) (l : List (Nat × List Byte)) (complete : Nat → Bool) :
    Commits (2 + e) c x (landElems x e c q l complete) ((byWord l).flatMap fun p => p.2) := by
  refine Commits.foldl (fun p _ x => ?_) x
  have marked : Commits (2 + e) c x (if complete p.1 then endMark x q.num p.1 c else x) [] := by
    split
    · exact commits_of_marks (2 + e) c x _ x.holds
    · exact commits_of_marks (2 + e) c x x.marks x.holds
  exact marked.trans (commits_placeWrite (Nat.le_refl c) _ lowRank p.1 (2 + e) q.num q.pc p.2)

theorem written_byWord (l : List (Nat × List Byte)) : written ((byWord l).flatMap fun p => p.2) = pieces l := rfl

theorem arrived_writes (x : Tile) (e c : Nat) (st : Stream) (r : StreamReq) (data : List Byte) : (arrived x e c st r data).writes =
    (landElems (putStream x e (reqDone st r.id c)) e c st.entry (elemData st r data) (wordComplete (reqDone st r.id c))).writes := rfl

theorem arrived_frame (x : Tile) (e c : Nat) (st : Stream) (r : StreamReq) (data : List Byte) : ∃ ss ts cl ws ms hs ps,
    arrived x e c st r data =
      { x with streams := ss, trackers := ts, claims := cl, writes := ws, marks := ms, holds := hs, planes := ps } := by
  obtain ⟨_, _, _, _, _, frame⟩ := (commits_landElems (putStream x e (reqDone st r.id c)) e c st.entry (elemData st r data)
    (wordComplete (reqDone st r.id c))).frame
  exact ⟨_, _, _, _, _, _, _, by rw [arrived, frame]; rfl⟩

/-- What data leaves that arrives for a request of a stream: its bytes as writes of its engine, none before its cycle where the accesses of the
lower ranks bear different numbers (R203, R206). -/
theorem landed_arrived (s : State) (g : Group) (t e c : Nat) (st : Stream) (r : StreamReq) (data : List Byte) (differ : SeqsDiffer (tileOf s t)) :
    ∃ ws, Landed s (pumpBoth (setTile (setGroup s g) t (arrived (tileOf s t) e c st r data)) g t c) t (tileOf s t) (2 + e) c ws ∧
      ws.map (fun k => (k.addr, k.data)) = pieces (elemData st r data) := by
  obtain ⟨tile, others, ts, -, -, -, mem, host⟩ := sending_pumpBoth (setTile (setGroup s g) t (arrived (tileOf s t) e c st r data)) g t c
  have commits := commits_landElems (putStream (tileOf s t) e (reqDone st r.id c)) e c st.entry (elemData st r data)
    (wordComplete (reqDone st r.id c))
  have same : SameBanks (tileOf s t) (putStream (tileOf s t) e (reqDone st r.id c)) := ⟨rfl, rfl, rfl, rfl⟩
  obtain ⟨ws, wrote, bytes, unit, late⟩ := commits.wroteMore same
  obtain ⟨_, _, _, _, _, _, _, frame⟩ := arrived_frame (tileOf s t) e c st r data
  rw [tileOf_setTile] at tile
  have writes := (congrArg Tile.writes tile).trans (arrived_writes (tileOf s t) e c st r data)
  refine ⟨ws, ⟨fun settled => ?_, fun w hw => ⟨late differ w hw, unit w hw⟩, ?_, ?_, ?_, ?_, fun u hu => ?_, ts, mem, host⟩,
    bytes.trans (written_byWord _)⟩
  · obtain ⟨old, now, rest⟩ := wrote settled
    exact ⟨old, writes.trans now, rest⟩
  · rw [tile, frame]
  · rw [tile, frame]
  · rw [tile, frame]
  · rw [tile, frame]
  · exact (others u hu).trans (tileOf_setTile_ne _ _ hu)

/-- All that O26 says of a read answer, where the accesses of the lower ranks bear different numbers. -/
theorem remoteResponse_lands {s : State} {t c : Nat} {g : Group} {a : Answer} {rest : List Answer} {st : Stream} {r : StreamReq} {y : Tile}
    (differ : SeqsDiffer (tileOf s t)) (runs : live s t = some g)
    (taken : takeAnswer t g.answers = some (a, rest)) (granted : a.nack = false) (reads : a.read = true) (below : c < 2 ^ 40)
    (asked : streamWith (tileOf s t) (a.unit - 2) a.req = some (st, r)) (late : answered s g t (tileOf s t) a c = true)
    (unarmed : Unarmed s t 3) (lands : y = arrived (tileOf s t) (a.unit - 2) c st r a.data)
    (clear : landViols (footOf s g.handle) (tileOf s t) y (a.unit - 2) st.entry = []) (read : lateReads y st.entry.num = []) :
    ∃ s' ws, exec (.remoteResponseArrival t c) s = .next s' ∧ Landed s s' t (tileOf s t) (2 + (a.unit - 2)) c ws ∧
      ws.map (fun k => (k.addr, k.data)) = pieces (elemData st r a.data) := by
  have run := exec_remoteResponse_read runs taken granted reads below asked late unarmed lands clear read
  subst lands
  obtain ⟨ws, landed, bytes⟩ := landed_arrived s { g with answers := rest } t (a.unit - 2) c st r a.data differ
  exact ⟨_, ws, run, landed, bytes⟩

/-- The tile of the architect's read answer has no access yet. -/
theorem answerState_seqsDiffer : SeqsDiffer (tileOf (Tests.answerState false true) 0) := by
  have none_ : (tileOf (Tests.answerState false true) 0).claims = [] := by decide +kernel
  rw [SeqsDiffer, none_]
  exact .nil

/-- The architect's read answer meets `remoteResponse_lands`. -/
theorem remoteResponse_lands_witness : ∃ s' ws, exec (.remoteResponseArrival 0 8) (Tests.answerState false true) = .next s' ∧
    Landed (Tests.answerState false true) s' 0 (tileOf (Tests.answerState false true) 0) 2 8 ws := by
  obtain ⟨arrives_, asked, clear, read⟩ := Tests.witness_RemoteWindows_answer
  obtain ⟨runs, taken, late⟩ := arrives_ (false, true) (by decide)
  obtain ⟨s', ws, run, landed, -⟩ := remoteResponse_lands answerState_seqsDiffer runs taken rfl rfl (by decide) asked late
    (fun _ armed => nomatch armed) rfl clear read
  exact ⟨s', ws, run, landed⟩

/-! The machine of the counterexample: an answer with the 64 bytes of a window's word reaches engine 0 of tile 0 in cycle 8. The stream takes
eight bytes of it to 0x2000 and eight to 0x2040. In cycle 8 two accesses of the lower ranks stand in the bank of 0x2000, and the second of them,
an access of engine 0 to the same word under the number of the same command, bears the sequence number of an access in cycle 0. -/

/-- The stream, whose one request takes two elements of its word. -/
def twoWords : Stream :=
  { Tests.moving 0 2 0 (Tests.td 0x2008 1 0) .sent with
    elems := [(0, 0x2000, 8), (8, 0x2040, 8)], reqs := [{ Tests.rq 2 0 .sent with hi := 2 }] }

def twinStreamTile : Tile :=
  { Tests.streamTile twoWords with
    claims := [lowWrite 2 1 lowRank 0 0x80 0, lowWrite 3 9 lowRank 8 0x2000 1, lowWrite 2 1 lowRank 8 0x2000 0] }

/-- The answer is on its way to the tile. -/
def twinAnswers : State :=
  Tests.withRegions { Tests.wholeFoot twinStreamTile with groups := [{ Tests.g2 with answers := [Tests.answer0 false true] }] }

/-- The tile once the answer has landed. -/
def twinLanded : Tile := arrived twinStreamTile 0 8 twoWords { Tests.rq 2 0 .sent with hi := 2 } (List.replicate 64 7)

theorem twinAnswers_unarmed : Unarmed twinAnswers 0 3 := fun _ armed => nomatch armed

theorem twinAnswers_arrive :
    live twinAnswers 0 = some { Tests.g2 with answers := [Tests.answer0 false true] } ∧
      takeAnswer 0 [Tests.answer0 false true] = some (Tests.answer0 false true, []) ∧ tileOf twinAnswers 0 = twinStreamTile ∧
      streamWith twinStreamTile 0 0 = some (twoWords, { Tests.rq 2 0 .sent with hi := 2 }) ∧
      answered twinAnswers { Tests.g2 with answers := [Tests.answer0 false true] } 0 twinStreamTile (Tests.answer0 false true) 8 = true := by
  decide +kernel

theorem twinAnswers_clean : landViols (footOf twinAnswers 7) twinStreamTile twinLanded 0 twoWords.entry = [] ∧
    lateReads twinLanded twoWords.entry.num = [] := by decide +kernel

/-- The access that bears the number of the one in cycle 0 is taken to stand there, and the first word moves with it. -/
theorem twinLanded_writes : twinLanded.writes.map (fun w => w.cyc) = [0, 8] := by decide +kernel

/-- Refutes O26: the statement is about every tile, also one in which two accesses of the lower ranks bear one sequence number. An answer that
arrives in cycle 8 is written in two words; as the second is placed, the model looks up by their numbers where the accesses of before stand now,
finds the one of two twins for the other, and moves the first word with it to cycle 0, where the statement has no word before cycle 8. All the
rest of O26 is proved above, of every tile but for the read answer: `win_leaves`, `descMake_leaves`, `remoteAccess_denied`, `remoteAccess_read`,
`remoteAccess_write`, `remoteResponse_acknowledged`, `windowNack_aborts`, and `remoteResponse_lands` of tiles in which the numbers differ. -/
theorem not_remoteWindows : ¬ Obligations.RemoteWindows := by
  unfold Obligations.RemoteWindows
  intro h
  obtain ⟨runs, taken, tile, asked, late⟩ := twinAnswers_arrive
  obtain ⟨clear, read⟩ := twinAnswers_clean
  obtain ⟨-, -, -, answers⟩ := h twinAnswers 0 { Tests.g2 with answers := [Tests.answer0 false true] } twinStreamTile 0 8
  obtain ⟨-, lands, -⟩ := answers _ _ runs taken
  rw [tile] at lands
  obtain ⟨s', ws, run, ⟨wrote, each, -⟩, -⟩ := lands _ _ _ rfl rfl (by decide) asked late twinAnswers_unarmed rfl clear read
  have run' := exec_remoteResponse_read runs taken rfl rfl (by decide) (tile.symm ▸ asked) (tile.symm ▸ late) twinAnswers_unarmed rfl
    (tile.symm ▸ clear) (tile.symm ▸ read)
  obtain ⟨after, -⟩ := sending_pumpBoth
    (setTile (setGroup twinAnswers { Tests.g2 with answers := [] }) 0 twinLanded) { Tests.g2 with answers := [] } 0 8
  have writes : (tileOf s' 0).writes = twinLanded.writes := by
    rw [← Host.Outcome.next.inj (run'.symm.trans run), tile]
    exact (congrArg Tile.writes after).trans (by rw [tileOf_setTile])
  obtain ⟨old, appended, same, -⟩ := wrote (by decide)
  have unwritten : twinStreamTile.writes = [] := rfl
  rw [SameWrites, unwritten, List.map_nil, List.map_eq_nil_iff] at same
  rw [same, List.nil_append, writes] at appended
  have first : 0 ∈ ws.map (fun w => w.cyc) := by
    rw [← appended]
    exact twinLanded_writes ▸ List.mem_cons_self
  obtain ⟨w, hw, early⟩ := List.mem_map.mp first
  have := (each w hw).1
  omega

end Sys2Proof.Proofs

/-! O21: the walk of a descriptor, its offsets and its packed addresses (R190, R198). -/

namespace Sys2Proof.Proofs

open Sys2Proof Sys2Proof.Machine Sys2Proof.Claims

/-- The elements of a walk over these dimensions (R198). -/
def walkCount (d : Desc) (dims : List Nat) : Nat := (dims.map (tdSize d)).foldl (· * ·) 1

theorem walkCount_nil (d : Desc) : walkCount d [] = 1 := rfl

theorem walkCount_cons (d : Desc) (i : Nat) (r : List Nat) : walkCount d (i :: r) = tdSize d i * walkCount d r := by
  simp only [walkCount, ← List.prod_eq_foldl, List.map_cons, List.prod_cons]

theorem tdSize_dvd_walkCount {d : Desc} {i : Nat} {dims : List Nat} (among : i ∈ dims) : tdSize d i ∣ walkCount d dims := by
  rw [walkCount, ← List.prod_eq_foldl]
  exact List.dvd_prod (List.mem_map_of_mem among)

theorem mixedOffset_cons (d : Desc) (i : Nat) (r : List Nat) (n : Nat) : mixedOffset d (i :: r) n =
    ((n / walkCount d r : Nat) : Int) * tdStride d i + mixedOffset d r (n % walkCount d r) := rfl

/-- Rows of one length, end to end: entry `n` lies in row `n / m`. -/
theorem getElem?_flatten_rows {α : Type} (f : Nat → List α) {m : Nat} (whole : ∀ k, (f k).length = m) (size : Nat) {n : Nat}
    (below : n < size * m) : (((List.range size).map f).flatten)[n]? = (f (n / m))[n % m]? := by
  induction size with
  | zero => omega
  | succ size ih =>
    have length : ((List.range size).map f).flatten.length = size * m := by
      simp [List.length_flatten, Function.comp_def, whole]
    rw [List.range_succ, List.map_append, List.flatten_append, List.map_singleton, List.flatten_singleton]
    rcases Nat.lt_or_ge n (size * m) with inside | last
    · rw [List.getElem?_append_left (length ▸ inside), ih inside]
    · obtain ⟨k, rfl⟩ := Nat.exists_eq_add_of_le last
      have low : k < m := by rw [Nat.succ_mul] at below; omega
      have pos : 0 < m := Nat.zero_lt_of_lt low
      rw [List.getElem?_append_right (length ▸ last), length, Nat.add_sub_cancel_left, Nat.mul_comm size m, Nat.mul_add_div pos,
        Nat.mul_add_mod, Nat.div_eq_of_lt low, Nat.mod_eq_of_lt low, Nat.add_zero]

theorem length_walkOffsets (d : Desc) (dims : List Nat) : (walkOffsets d dims).length = walkCount d dims := by
  induction dims with
  | nil => rfl
  | cons i r ih => simp [walkOffsets, walkCount_cons, ih, List.length_flatten, Function.comp_def]

/-- Entry `n` of the walk lies at the offset of the digits of `n` in the mixed radix of the sizes. -/
theorem getElem?_walkOffsets (d : Desc) (dims : List Nat) {n : Nat} (below : n < walkCount d dims) :
    (walkOffsets d dims)[n]? = some (mixedOffset d dims n) := by
  induction dims generalizing n with
  | nil =>
    obtain rfl := Nat.lt_one_iff.mp below
    rfl
  | cons i r ih =>
    rw [walkCount_cons] at below
    have pos : 0 < walkCount d r := Nat.pos_of_mul_pos_left (Nat.zero_lt_of_lt below)
    rw [walkOffsets, getElem?_flatten_rows _ (fun k => by rw [List.length_map, length_walkOffsets]) _ below, List.getElem?_map,
      ih (Nat.mod_lt n pos), mixedOffset_cons, Option.map_some, Int.add_comm]

/-- The walk without a block list is one block. -/
theorem walkElems_oneBlock (base : Nat) (d : Desc) (dims : List Nat) (saddr sstride : Nat) :
    walkElems base d dims [[]] saddr sstride = (walkOffsets d dims).mapIdx fun n o =>
      (((base : Int) + tdBase d + o).toNat, saddr + n / Nat.max 1 (tdSize d (dims.getLastD 0)) * sstride +
        n % Nat.max 1 (tdSize d (dims.getLastD 0)) * tdE d, tdE d) := by
  simp [walkElems, outerOffset]

/-- Settles O21: the offsets of the walk by its mixed radix, the packed addresses by the size of its fastest dimension. -/
theorem streamWalkOrder : Obligations.StreamWalkOrder := by
  intro base d dims saddr sstride n
  rw [walkElems_oneBlock]
  refine ⟨by rw [List.length_mapIdx, length_walkOffsets]; rfl, fun some_ below => ?_⟩
  have fastest : dims.getLastD 0 ∈ dims := by
    rw [List.getLastD_eq_getLast?, List.getLast?_eq_some_getLast some_]
    exact List.getLast_mem some_
  have size : Nat.max 1 (tdSize d (dims.getLastD 0)) = tdSize d (dims.getLastD 0) :=
    Nat.max_eq_right (Nat.pos_of_dvd_of_pos (tdSize_dvd_walkCount fastest) (Nat.zero_lt_of_lt below))
  rw [List.getElem?_mapIdx, getElem?_walkOffsets d dims below, Option.map_some, size]

end Sys2Proof.Proofs

/-! SUPPORT. The commands of the stream engines: what sending leaves of the newest of them, and what the reads of their sources leave of the tile
(R163, R202, R203, R206, R429). -/

namespace Sys2Proof.Proofs

open Sys2Proof Sys2Proof.Machine Sys2Proof.Claims Sys2Proof.Laws

/-! The newest command of an engine as its requests leave (R202, R206, R211). -/

/-- The same command, but for its requests and for what it has asked for. -/
def SameCommand (st st' : Stream) : Prop := st' = { st with reqs := st'.reqs, asking := st'.asking, asked := st'.asked }

theorem SameCommand.refl (st : Stream) : SameCommand st st := rfl

theorem SameCommand.trans {a b c : Stream} (first : SameCommand a b) (second : SameCommand b c) : SameCommand a c := by
  rw [SameCommand, second, first]

/-- The newest command of engine `e` of tile `t`, after the commands `l`, is `st` but for what it has sent and asked for. -/
def NewestOn (t e : Nat) (l : List Stream) (st : Stream) (s : State) : Prop :=
  ∃ st', streamsOf (tileOf s t) e = l ++ [st'] ∧ SameCommand st st'

theorem streamsOf_setStreams (x : Tile) (e k : Nat) (l : List Stream) :
    streamsOf (setStreams x e l) k = if k = e then l else streamsOf x k := Tbl.get_put ..

section
variable {s s' : State} {g : Group} {t e cyc : Nat} {l : List Stream} {st : Stream}

theorem NewestOn.of_streams (newest : NewestOn t e l st s) (same : (tileOf s' t).streams = (tileOf s t).streams) : NewestOn t e l st s' := by
  obtain ⟨st', here, command⟩ := newest
  exact ⟨st', by rwa [streamsOf, same], command⟩

/-- The newest command of one engine is replaced by the same command. -/
theorem NewestOn.replaced (newest : NewestOn t e l st s) {k : Nat} {last st' : Stream} (found : (streamsOf (tileOf s t) k).getLast? = some last)
    (same : SameCommand last st') (streams : (tileOf s' t).streams = (tileOf s t).streams) : NewestOn t e l st
      (setTile s' t (setStreams (tileOf s' t) k ((streamsOf (tileOf s' t) k).dropLast ++ [st']))) := by
  obtain ⟨mine, here, command⟩ := newest
  rw [NewestOn, tileOf_setTile, streamsOf_setStreams]
  have still : ∀ k, streamsOf (tileOf s' t) k = streamsOf (tileOf s t) k := fun k => by rw [streamsOf, streams, streamsOf]
  split
  next own =>
    subst own
    rw [here, List.getLast?_concat] at found
    obtain rfl := Option.some.inj found
    exact ⟨st', by rw [still, here, List.dropLast_concat], command.trans same⟩
  · exact ⟨mine, (still e).trans here, command⟩

theorem sendReq_streams (st : Stream) (r : StreamReq) : (tileOf (sendReq s g t e cyc st r).1 t).streams = (tileOf s t).streams := by
  unfold sendReq
  simp only
  split
  · split
    · rfl
    · rw [tileOf_setTile]
  · split
    · rfl
    · split
      · rw [tileOf_setTile]
      · split <;> rfl
  · split <;> rfl
  · rfl

theorem sendReq_command (st : Stream) (r : StreamReq) : SameCommand st (sendReq s g t e cyc st r).2.1 := by
  unfold sendReq
  simp only
  split
  · split <;> rfl
  · split
    · rfl
    · split
      · rfl
      · split <;> rfl
  · rfl
  · rfl

theorem NewestOn.pumpOne (newest : NewestOn t e l st s) (k : Nat) : NewestOn t e l st (pumpOne s g t k cyc).1 := by
  unfold Machine.pumpOne
  simp only
  split
  · exact newest
  next last found =>
    split
    · split
      · have streams : (tileOf (setTile s t { tileOf s t with trackers := (tileOf s t).trackers.put k ((tileOf s t).trackers.get k 0 + 1) })
            t).streams = (tileOf s t).streams := by rw [tileOf_setTile]
        exact newest.replaced found rfl streams
      · exact newest
    · split
      · split
        · exact newest
        next r _ =>
          have streams := sendReq_streams (s := s) (g := g) (t := t) (e := k) (cyc := Nat.max cyc last.first) last r
          have command := sendReq_command (s := s) (g := g) (t := t) (e := k) (cyc := Nat.max cyc last.first) last r
          split
          next left =>
            rw [left] at streams command
            exact newest.replaced found command streams
          next left =>
            rw [left] at streams command
            exact newest.replaced found (command.trans rfl) streams
      · exact newest

theorem NewestOn.pumpLoop (newest : NewestOn t e l st s) (n : Nat) : NewestOn t e l st (pumpLoop n s g t cyc) := by
  induction n generalizing s with
  | zero => exact newest
  | succ n ih =>
    have note : ∀ {s} k, NewestOn t e l st s →
        NewestOn t e l st (if holdsShared s t k then setTile s t { tileOf s t with lastShared := k } else s) := by
      intro s k newest
      split
      · exact newest.of_streams (by rw [tileOf_setTile])
      · exact newest
    unfold Machine.pumpLoop
    simp only
    have one := newest.pumpOne (g := g) (cyc := cyc) (1 - (tileOf s t).lastShared)
    split
    next left =>
      rw [left] at one
      exact ih (note _ one)
    next left =>
      rw [left] at one
      have other := one.pumpOne (g := g) (cyc := cyc) (1 - (1 - (tileOf s t).lastShared))
      split
      next left' =>
        rw [left'] at other
        exact ih (note _ other)
      next left' =>
        rw [left'] at other
        exact other

/-- A tile set, and what its engines can send sent: nothing but requests beside the tile, and the newest command is the same. -/
theorem sending_pump (s : State) (g : Group) (t c : Nat) (y : Tile) : Sending s (pumpBoth (setTile s t y) g t c) t y := by
  have sent := sending_pumpBoth (setTile s t y) g t c
  rw [tileOf_setTile] at sent
  refine sending_trans (sending_setTile s t (x := y) rfl) ?_
  rwa [tileOf_setTile]

theorem newest_pump (s : State) (g : Group) (t c : Nat) {y : Tile} (newest : streamsOf y e = l ++ [st]) :
    ∃ st', streamsOf (tileOf (pumpBoth (setTile s t y) g t c) t) e = l ++ [st'] ∧ SameCommand st st' := by
  have here : NewestOn t e l st (setTile s t y) := ⟨st, by rw [tileOf_setTile, newest], .refl st⟩
  exact here.pumpLoop _

end

/-! Words that a stream reads in scratchpad. -/

/-- Reads at the lower ranks have been placed: nothing but the banks and the cycles of what gave way has changed. -/
def OnlyReads (x y : Tile) : Prop :=
  y = { x with claims := y.claims, writes := y.writes, marks := y.marks, holds := y.holds } ∧ SameWrites y.writes x.writes

theorem OnlyReads.refl (x : Tile) : OnlyReads x x := ⟨rfl, rfl⟩

theorem OnlyReads.trans {x y z : Tile} (first : OnlyReads x y) (second : OnlyReads y z) : OnlyReads x z := by
  obtain ⟨frame, same⟩ := first
  obtain ⟨frame', same'⟩ := second
  exact ⟨by rw [frame', frame], same'.trans same⟩

section
variable (x : Tile) (e c : Nat)

theorem onlyReads_placeRead (rank a unit num pc : Nat) : OnlyReads x (placeRead x rank c a unit num pc) := by
  refine ⟨by rw [placeRead, placeFrom_frame], ?_⟩
  rw [placeRead, placeFrom_writes]
  exact sameWrites_map (moveWrite_frame x _) _

theorem onlyReads_readWords (q : QEntry) (ws : List Nat) : OnlyReads x (readWords x e q c ws) :=
  List.foldlRecOn (motive := OnlyReads x) _ _ (.refl x) fun _ read _ _ => read.trans (onlyReads_placeRead ..)

theorem onlyReads_readSource (st : Stream) : OnlyReads x (readSource x e c st) :=
  (onlyReads_readWords x e c st.entry _).trans ⟨rfl, rfl⟩

end

/-! O22: the commands of the stream engines as they issue (R195, R196, R198 to R200, R202, R207). -/

theorem OnlyReads.streamsOf {x y : Tile} (only : OnlyReads x y) (e : Nat) : streamsOf y e = streamsOf x e := by
  rw [only.1]
  rfl

theorem streamsOf_popIssue (x : Tile) (q c : Nat) (e : QEntry) (k : Nat) : streamsOf (popIssue x q c e).1 k = streamsOf x k := by
  rw [popIssue_frame]
  rfl

/-- An issue leaves the tile with its command popped and as the newest of its engine, and with its reads placed. -/
theorem issuedTile_reads (x : Tile) (e c : Nat) (q : QEntry) (write : Bool) (d : Desc) (p : Place) :
    ∃ st, OnlyReads (setStreams (popIssue x (2 + e) c q).1 e (streamsOf x e ++ [st])) (issuedTile x e c q write d p) ∧ st.entry = q ∧
      st.issue = c ∧ st.op = b2n write := by
  unfold issuedTile
  simp only [streamsOf_popIssue]
  split
  · exact ⟨_, onlyReads_readSource .., rfl, rfl, rfl⟩
  · exact ⟨_, onlyReads_readWords .., rfl, rfl, rfl⟩

/-- An issued SE.READ or SE.WRITE that has sent what it could is all that `StreamIssued` says. -/
theorem streamIssued_pump (s : State) (g : Group) (t e c : Nat) (x : Tile) (q : QEntry) (write : Bool) (d : Desc) (p : Place) :
    StreamIssued s (pumpBoth (setTile s t (issuedTile x e c q write d p)) g t c) t e c x q write d p := by
  have sent := sending_pump s g t c (issuedTile x e c q write d p)
  obtain ⟨st, only, entry, issue, op⟩ := issuedTile_reads x e c q write d p
  obtain ⟨st', newest, command⟩ := newest_pump (e := e) s g t c ((only.streamsOf e).trans ((streamsOf_setStreams ..).trans (if_pos rfl)))
  obtain ⟨tile, -⟩ := id sent
  obtain ⟨frame, writes⟩ := only
  have pop := popIssue_frame x (2 + e) c q
  refine ⟨sent, ?regs, ?spad, ?writes, ?queue, st', newest, ?entry, ?issue, ?op⟩
  case regs => rw [tile, frame, pop]; rfl
  case spad => rw [tile, frame, pop]; rfl
  case writes =>
    rw [tile]
    refine writes.trans ?_
    rw [pop]
    rfl
  case queue =>
    rw [tile, frame]
    exact (queueOf_popIssue x (2 + e) c q (2 + e)).trans (if_pos rfl)
  case entry => rw [command]; exact entry
  case issue => rw [command]; exact issue
  case op => rw [command]; exact op

section
variable {s : State} {t e c : Nat} {g : Group} {x : Tile} {q : QEntry}

theorem issueStream_check {row : String} {k : EKind} {v : Detail} (head : streamHead s t e c k = some (g, x, q))
    (fails : issueCheck s g t x (2 + e) c q (k == .seWrite) = some v) : issueStream row k t e c s = .next (tileAbort s g t v) := by
  simp only [issueStream, head, fails]

theorem issueStream_issues {row : String} {k : EKind} {d : Desc} {p : Place} (head : streamHead s t e c k = some (g, x, q))
    (passed : issueCheck s g t x (2 + e) c q (k == .seWrite) = none) (desc : q.desc = some d) (place : placeIn s g x d = some p)
    (unarmed : Unarmed s t 3)
    (clean : issueViols (footOf s g.handle) x (issuedTile x e c q (k == .seWrite) d p) g t e c q d p = []) :
    issueStream row k t e c s = .next (pumpBoth (setTile s t (issuedTile x e c q (k == .seWrite) d p)) g t c) := by
  simp only [issueStream, head, passed, desc, place, clean]
  cases firstRead q (k == .seWrite) d with
  | none => rfl
  | some a =>
    simp only [fireRead_none unarmed]
    rfl

/-- A head that does not issue in this cycle is no command that can be executed in it. -/
theorem streamHead_other {k : EKind} (head : headIs s t (2 + e) k = some (g, x, q)) (other : seIssue x e q ≠ some c) :
    streamHead s t e c k = none := by
  have not_ : (seIssue x e q == some c) = false := beq_false_of_ne other
  simp only [streamHead, head, not_, Bool.and_false, Bool.false_and, Bool.false_eq_true, if_false]

theorem seNop_issues (head : streamHead s t e c .nop = some (g, x, q)) (clean : (popIssue x (2 + e) c q).2 = []) :
    ∃ s', exec (.seNop t e c) s = .next s' ∧
      (streamsOf x e = [] → s' = setTile s t (cmdSig (popIssue x (2 + e) c q).1 c (2 + e) q)) ∧
      (streamsOf x e ≠ [] → s' = setTile s t (setStreams (popIssue x (2 + e) c q).1 e
        (streamsOf x e ++ [{ stream0 3 q c .active with first := c, last := c - 1 }]))) := by
  have row : exec (.seNop t e c) s = execSeNop t e c s := rfl
  rw [row, execSeNop, head]
  simp only [clean, settleTile_ok, streamsOf_popIssue, List.isEmpty_iff]
  split
  next none_ => exact ⟨_, rfl, fun _ => rfl, fun some_ => absurd none_ some_⟩
  next some_ => exact ⟨_, rfl, fun none_ => absurd none_ some_, fun _ => rfl⟩

/-- An SE.KEY whose checks pass is the newest stream of its engine, and waits for its header (R202, R207, R208). -/
theorem seKey_issues (head : streamHead s t e c .seKey = some (g, x, q))
    (passed : ∀ k, keyEntry q = some k → issueCheck s g t x (2 + e) c k false = none) (clean : (popIssue x (2 + e) c q).2 = []) :
    ∃ s' st, exec (.seKey t e c) s = .next s' ∧
      Sending s s' t (setStreams (popIssue x (2 + e) c q).1 e (streamsOf (popIssue x (2 + e) c q).1 e ++ [stream0 2 q c .header])) ∧
      streamsOf (tileOf s' t) e = streamsOf x e ++ [st] ∧ st.entry = q ∧ st.issue = c ∧ st.phase = .header := by
  have row : exec (.seKey t e c) s = execSeKey t e c s := rfl
  have streams : streamsOf (setStreams (popIssue x (2 + e) c q).1 e (streamsOf (popIssue x (2 + e) c q).1 e ++ [stream0 2 q c .header])) e =
      streamsOf x e ++ [stream0 2 q c .header] := by rw [streamsOf_setStreams, if_pos rfl, streamsOf_popIssue]
  obtain ⟨st', newest, command⟩ := newest_pump s g t c streams
  refine ⟨_, st', ?_, sending_pump .., newest, by rw [command]; rfl, by rw [command]; rfl, by rw [command]; rfl⟩
  rw [row, execSeKey, head]
  cases found : keyEntry q with
  | none =>
    simp only [found, clean]
    rfl
  | some k =>
    simp only [found, passed k found, clean]
    rfl

theorem seKey_check {k : QEntry} {v : Detail} (head : streamHead s t e c .seKey = some (g, x, q)) (half : keyEntry q = some k)
    (fails : issueCheck s g t x (2 + e) c k false = some v) : exec (.seKey t e c) s = .next (tileAbort s g t v) := by
  have row : exec (.seKey t e c) s = execSeKey t e c s := rfl
  rw [row, execSeKey, head]
  simp only [half, fails]

end

/-- Settles O22: each command from the tile that it leaves as it issues, and from what sending keeps of it. -/
theorem streamCommandsIssue : Obligations.StreamCommandsIssue := by
  intro s t e c g x q
  refine ⟨seNop_issues, fun head => ⟨fun v => issueStream_check head, fun d p passed desc place unarmed clean => ?read⟩,
    fun head => ⟨fun v => issueStream_check head, fun d p passed desc place unarmed clean => ?write⟩,
    fun head => ⟨fun k v => seKey_check head, seKey_issues head⟩, fun other => ⟨fun head => ?nop, fun head => ?rd, fun head => ?wr, fun head => ?key⟩⟩
  case read => exact ⟨_, issueStream_issues head passed desc place unarmed clean, streamIssued_pump ..⟩
  case write => exact ⟨_, issueStream_issues head passed desc place unarmed clean, streamIssued_pump ..⟩
  case nop =>
    show execSeNop t e c s = _
    rw [execSeNop, streamHead_other head other]
    rfl
  case rd =>
    show issueStream "SE_READ" .seRead t e c s = _
    rw [issueStream, streamHead_other head other]
    rfl
  case wr =>
    show issueStream "SE_WRITE" .seWrite t e c s = _
    rw [issueStream, streamHead_other head other]
    rfl
  case key =>
    show execSeKey t e c s = _
    rw [execSeKey, streamHead_other head other]
    rfl

end Sys2Proof.Proofs

/-! O25: translations, page requests and their answers, and host errors (R211 to R214). -/

namespace Sys2Proof.Proofs

open Sys2Proof Sys2Proof.Machine Sys2Proof.Claims Sys2Proof.Laws

/-! The host's answers leave the host side, the scheduler and the bytes of device memory (R211, R213). -/

/-- The host side, the scheduler and the bytes of device memory are as they were. -/
structure HostKept (s s' : State) : Prop where
  hi : s'.hi = s.hi
  ts : s'.ts = s.ts
  mem : s'.mem.bytes = s.mem.bytes

theorem HostKept.trans {a b c : State} (first : HostKept a b) (second : HostKept b c) : HostKept a c :=
  ⟨second.hi.trans first.hi, second.ts.trans first.ts, second.mem.trans first.mem⟩

theorem HostKept.cached {s s' : State} (kept : HostKept s s') (fn space page : Nat) : cached s' fn space page = cached s fn space page := by
  unfold Machine.cached
  rw [kept.hi]

/-- Noting a pause touches the record of the group alone (R337). -/
theorem notePause_frame (s : State) (h : Nat) : notePause s h = { s with groups := (notePause s h).groups } := by
  unfold notePause
  simp only
  split
  · rfl
  · split
    · rfl
    · split <;> rfl

theorem hostKept_pumpLater (s : State) (g : Group) (t e : Nat) : HostKept s (pumpLater s g t e) := by
  obtain ⟨-, -, ts, hi, -, -, mem, -⟩ := sending_pumpBoth (drawBytes s 4).2 g t (sentBy (tileOf (drawBytes s 4).2 t) e + leNat (drawBytes s 4).1)
  exact ⟨hi, ts, mem⟩

theorem find?_filter_not {α : Type} (p : α → Bool) (l : List α) : (l.filter fun a => !(p a)).find? p = none :=
  List.find?_eq_none.mpr fun _ kept => by simpa only [Bool.not_eq_true', Bool.not_eq_true] using (List.mem_filter.mp kept).2

/-- A page's translation, as it is cached, has what it grants now (R211). -/
theorem cached_cacheTranslation (s : State) (fn space page : Nat) (rd wr : Bool) : ∃ a,
    cached (cacheTranslation s fn space page rd wr) fn space page = some a ∧ (rd = true → a.rd = true) ∧ (wr = true → a.wr = true) := by
  unfold cached cacheTranslation
  simp only
  rw [List.find?_append, find?_filter_not, Option.none_or, List.find?_cons_of_pos (by simp)]
  exact ⟨_, rfl, fun h => by rw [h, Bool.or_true], fun h => by rw [h, Bool.or_true]⟩

/-- A page whose translation is dropped has none. -/
theorem cached_dropped (s : State) (fn space page : Nat) :
    cached { s with hi := { s.hi with ats := s.hi.ats.filter (fun a => !(a.fn == fn && a.space == space && a.page == page)) } } fn space page =
      none := find?_filter_not ..

section
variable {s : State} {t e req : Nat} {g : Group} {st : Stream} {r : StreamReq}

theorem staleAnswer_taken (row : String) (up : domainRuns s 1 = true) : staleAnswer row s = .next s := if_pos up

/-- The answer of the host is cached, and what it grants, the stream may use (R211). -/
theorem ats_cached {space fn : Nat} {grant : Bool} (runs : live s t = some g) (asked : askedFor s t e = some (st, r, space, fn))
    (here : r.addr = req) : ∃ s' a, exec (.atsTranslationCompletion t e req grant) s = .next s' ∧ cached s' fn space (req / 4096) = some a ∧
      (grant = true → (if st.op = 1 then a.wr else a.rd) = true) ∧ s'.mem.bytes = s.mem.bytes ∧ s'.ts = s.ts := by
  obtain ⟨a, found, rd, wr⟩ := cached_cacheTranslation s fn space (req / 4096) (grant && st.op != 1) (grant && st.op == 1)
  have usable : grant = true → (if st.op = 1 then a.wr else a.rd) = true := by
    intro granted
    subst granted
    split
    next writes => exact wr (by simp [writes])
    next reads => exact rd (by simp [reads])
  have row : exec (.atsTranslationCompletion t e req grant) s = execAtsTranslationCompletion t e req grant s := rfl
  rw [row, execAtsTranslationCompletion]
  simp only [runs, asked, here, if_true]
  cases grant with
  | false => exact ⟨_, a, rfl, found, usable, rfl, rfl⟩
  | true =>
    have kept : ∀ y, HostKept (cacheTranslation s fn space (req / 4096) (true && st.op != 1) (true && st.op == 1))
        (pumpLater (notePause (setTile (cacheTranslation s fn space (req / 4096) (true && st.op != 1) (true && st.op == 1)) t y) g.handle) g t e) := by
      intro y
      refine HostKept.trans ?_ (hostKept_pumpLater ..)
      rw [notePause_frame]
      exact ⟨rfl, rfl, rfl⟩
    exact ⟨_, a, rfl, ((kept _).cached ..).trans found, usable, (kept _).mem, (kept _).ts⟩

/-- A miss pauses the command, and its page request leaves (R212). -/
theorem miss_asks {space fn : Nat} {a : Translation} (runs : live s t = some g) (asked : askedFor s t e = some (st, r, space, fn))
    (here : r.addr = req) (known : cached s fn space (req / 4096) = some a) (denied : (if st.op = 1 then a.wr else a.rd) = false)
    (pri : (cfgOf s fn).pri = true) (room : priRoom s fn = true) : ∃ s', exec (.translationMiss t e req) s = .next s' ∧
      s'.out.link = s.out.link ++ [.pageRequest fn space (req / 4096) (st.op == 1)] ∧
      s'.hi.pris = s.hi.pris ++ [{ fn := fn, tile := t, engine := e, num := s.mem.nextReq + 1 }] ∧
      (tileOf s' t).regs = (tileOf s t).regs ∧ s'.ts = s.ts ∧ s'.mem = { s.mem with nextReq := s.mem.nextReq + 1 } := by
  have row : exec (.translationMiss t e req) s = execTranslationMiss t e req s := rfl
  rw [row, execTranslationMiss]
  simp only [runs, asked, here, known, denied, pri, room, Bool.not_true, Bool.and_false, Bool.false_eq_true, and_self, if_true, if_false]
  refine ⟨_, rfl, ?_⟩
  rw [notePause_frame]
  refine ⟨rfl, rfl, ?_, rfl, rfl⟩
  exact (congrArg Tile.regs (tileOf_setTile ..)).trans rfl

theorem miss_aborts {space fn : Nat} {a : Translation} (runs : live s t = some g) (asked : askedFor s t e = some (st, r, space, fn))
    (here : r.addr = req) (known : cached s fn space (req / 4096) = some a) (denied : (if st.op = 1 then a.wr else a.rd) = false)
    (off : (cfgOf s fn).pri = false) : exec (.translationMiss t e req) s = .next (hostFail s g t e 0x0405 st r.addr) := by
  have row : exec (.translationMiss t e req) s = execTranslationMiss t e req s := rfl
  rw [row, execTranslationMiss]
  simp only [runs, asked, here, known, denied, off, Bool.false_and, Bool.false_eq_true, and_self, if_true, if_false]
  rfl

/-- The machine once the oldest page request of an engine is answered (R213). -/
def answeredPri (s : State) (t e : Nat) : State := { s with hi := { s.hi with pris := (priAnswered t e s.hi.pris).2 } }

/-- An answer that nothing waits for is taken and discarded (R213). -/
theorem pri_discarded (none_ : pausedOf (answeredPri s t e) t e = none) (up : domainRuns s 1 = true) (k : PriCode) :
    exec (.priResponse t e k) s = .next (answeredPri s t e) := by
  have row : exec (.priResponse t e k) s = execPriResponse t e k s := rfl
  have waits : pausedOf { s with hi := { s.hi with pris := (priAnswered t e s.hi.pris).2 } } t e = none := none_
  rw [row, execPriResponse]
  simp only [waits]
  exact staleAnswer_taken _ up

/-- So is the answer to a page request of a command that has ended (R213). -/
theorem pri_abandoned (paused : pausedOf (answeredPri s t e) t e = some (g, st, r))
    (other : (priAnswered t e s.hi.pris).1.any (fun q => q.num == st.pri) = false) (up : domainRuns s 1 = true) (k : PriCode) :
    exec (.priResponse t e k) s = .next (answeredPri s t e) := by
  have row : exec (.priResponse t e k) s = execPriResponse t e k s := rfl
  have waits : pausedOf { s with hi := { s.hi with pris := (priAnswered t e s.hi.pris).2 } } t e = some (g, st, r) := paused
  rw [row, execPriResponse]
  simp only [waits, other, if_true]
  exact staleAnswer_taken _ up

/-- After Success the page has no translation, and the engine asks for it again (R212). -/
theorem pri_success (paused : pausedOf (answeredPri s t e) t e = some (g, st, r))
    (own : (priAnswered t e s.hi.pris).1.any (fun q => q.num == st.pri) = true) :
    ∃ s', exec (.priResponse t e .success) s = .next s' ∧ s'.ts = s.ts ∧ s'.mem.bytes = s.mem.bytes ∧
      cached s' g.fn (spaceOf (hostPasid s g (tileOf s t) (st.entry.desc.getD 0))) (r.addr / 4096) = none := by
  have row : exec (.priResponse t e .success) s = execPriResponse t e .success s := rfl
  have waits : pausedOf { s with hi := { s.hi with pris := (priAnswered t e s.hi.pris).2 } } t e = some (g, st, r) := paused
  rw [row, execPriResponse]
  simp only [waits, own, Bool.true_eq_false, if_false]
  refine ⟨_, rfl, (hostKept_pumpLater ..).ts, (hostKept_pumpLater ..).mem, ?_⟩
  rw [(hostKept_pumpLater ..).cached]
  exact cached_dropped (answeredPri s t e) ..

theorem pri_fails (paused : pausedOf (answeredPri s t e) t e = some (g, st, r))
    (own : (priAnswered t e s.hi.pris).1.any (fun q => q.num == st.pri) = true) {k : PriCode} (failure : k ≠ .success) :
    exec (.priResponse t e k) s = .next (hostFail (answeredPri s t e) g t e 0x0405 st r.addr) := by
  have row : exec (.priResponse t e k) s = execPriResponse t e k s := rfl
  have waits : pausedOf { s with hi := { s.hi with pris := (priAnswered t e s.hi.pris).2 } } t e = some (g, st, r) := paused
  rw [row, execPriResponse]
  simp only [waits, own, Bool.true_eq_false, if_false]
  cases k with
  | success => exact absurd rfl failure
  | _ => rfl

theorem timeout_aborts (paused : pausedOf s t e = some (g, st, r)) (late : st.firstPri - 1 + 100000000 ≤ s.time) :
    exec (.pageRequestTimeout t e) s = .next (hostFail s g t e 0x0405 st r.addr) := by
  have row : exec (.pageRequestTimeout t e) s = execPageRequestTimeout t e s := rfl
  rw [row, execPageRequestTimeout, paused]
  exact if_pos late

theorem hostAbort_sent (runs : live s t = some g) (sent : streamWith (tileOf s t) e req = some (st, r)) (host : r.dev = 1) :
    exec (.hostAbort t e req) s = .next (hostFail s g t e 0x0406 st r.addr) := by
  have row : exec (.hostAbort t e req) s = execHostAbort t e req s := rfl
  rw [row, execHostAbort, runs]
  simp only [sent, host, if_true]
  rfl

/-- A request that no IDE stream can carry ends its task (R300). -/
theorem hostAbort_unsent (runs : live s t = some g) (sent : streamWith (tileOf s t) e req = none) (closed : linkOpen s g.fn = false)
    (waits : hostWaiting (tileOf s t) e = some (st, r)) : exec (.hostAbort t e req) s = .next (hostFail s g t e 0x0406 st r.addr) := by
  have row : exec (.hostAbort t e req) s = execHostAbort t e req s := rfl
  rw [row, execHostAbort, runs]
  simp only [sent, closed, waits]
  rfl

/-- A failed host access ends its task: the record names the engine, the PUSH and the host address, unless the tile had violated its contract
before (R85, R212 to R214). -/
theorem hostFail_ends {status addr : Nat} (found : groupOf s g.handle = some g) (once : (groupTiles g).Nodup) :
    ∃ s1 d, hostFail s g t e status st addr = tileAbort s1 g t d ∧ d.status = status ∧ d.unitA = 2 + e ∧ d.pc = st.entry.pc ∧
      d.address = addr % 2 ^ 32 ∧ d.hostHi = addr / 2 ^ 32 ∧ (∃ st, Ended s (tileAbort s1 g t d) g.handle g st ∧
        (earliest (tileOf s1 t) d = d → st = status)) := by
  refine ⟨(drawBytes s 5).2, _, rfl, rfl, rfl, rfl, rfl, rfl, _, ended_abortTask (s := (drawBytes s 5).2) found once _ _, fun first => ?_⟩
  rw [first]
  rfl

end

/-- Settles O25: each answer of the host by what it finds waiting. -/
theorem hostPagingAndErrors : Obligations.HostPagingAndErrors := by
  intro s t e req g st r
  refine ⟨fun _ _ _ runs asked here => ats_cached runs asked here, fun grant none_ up => ?stale,
    fun _ _ _ runs asked here known denied => ⟨miss_asks runs asked here known denied, miss_aborts runs asked here known denied⟩,
    fun s1 answered => ?pri, timeout_aborts, hostAbort_sent, hostAbort_unsent, fun _ _ _ found _ once => hostFail_ends found once⟩
  case stale =>
    show execAtsTranslationCompletion t e req grant s = _
    unfold execAtsTranslationCompletion
    rw [none_]
    split
    next some_ => cases some_
    · exact staleAnswer_taken _ up
  case pri =>
    subst answered
    exact ⟨pri_discarded, pri_abandoned, fun paused own => ⟨pri_success paused own, fun _ => pri_fails paused own⟩⟩

end Sys2Proof.Proofs

/-! SUPPORT. What a stream engine writes as its data arrives: bytes that land in their tile, the rest of the machine kept (R163, R203, R206). -/

namespace Sys2Proof.Proofs

open Sys2Proof Sys2Proof.Machine Sys2Proof.Claims Sys2Proof.Laws

/-- Tiles, scheduler, stored bytes of device memory and host memory are the same. -/
structure SameRest (s s' : State) : Prop where
  tiles : s'.tiles = s.tiles
  ts : s'.ts = s.ts
  mem : s'.mem.bytes = s.mem.bytes
  host : s'.out.host = s.out.host

theorem SameRest.refl (s : State) : SameRest s s := ⟨rfl, rfl, rfl, rfl⟩

/-- Nothing has changed of what `Landed` says that it stays. -/
structure SameCore (x y : Tile) : Prop where
  spad : y.spad = x.spad
  regs : y.regs = x.regs
  pc : y.pc = x.pc
  queues : y.queues = x.queues

theorem SameCore.trans {x y z : Tile} (first : SameCore x y) (second : SameCore y z) : SameCore x z :=
  ⟨second.spad.trans first.spad, second.regs.trans first.regs, second.pc.trans first.pc, second.queues.trans first.queues⟩

section
variable {s s1 : State} {x y : Tile} {u c t : Nat} {ws : List TimedWrite}

/-- A tile that has these writes more, and whose engines have sent what they could, is all that `Landed` says. -/
theorem landed_pump (rest : SameRest s s1) (core : SameCore x y) (wrote : WroteMore x y u c ws) (late : ∀ w ∈ ws, c ≤ w.cyc ∧ w.unit = u)
    (g : Group) (k : Nat) : Landed s (pumpBoth (setTile s1 t y) g t k) t x u c ws := by
  obtain ⟨tile, others, ts, -, -, -, mem, host⟩ := sending_pump s1 g t k y
  refine ⟨?wrote, late, ?spad, ?regs, ?pc, ?queues, fun v hv => (others v hv).trans (congrArg (Tbl.get · v tile0) rest.tiles), ts.trans rest.ts,
    mem.trans rest.mem, host.trans rest.host⟩
  case wrote => rw [tile]; exact wrote
  case spad => rw [tile]; exact core.spad
  case regs => rw [tile]; exact core.regs
  case pc => rw [tile]; exact core.pc
  case queues => rw [tile]; exact core.queues

/-- A tile without a write has none before the cycle in which bytes land. -/
theorem not_landed_early {s' : State} (unwritten : x.writes = []) (settled : Settled x c) {k : Nat} (early : k < c)
    (found : k ∈ (tileOf s' t).writes.map fun w => w.cyc) : ¬ Landed s s' t x u c ws := by
  rintro ⟨wrote, late, -⟩
  obtain ⟨old, appended, same, -⟩ := wrote settled
  rw [SameWrites, unwritten, List.map_nil, List.map_eq_nil_iff] at same
  rw [appended, same, List.nil_append] at found
  obtain ⟨w, hw, rfl⟩ := List.mem_map.mp found
  exact absurd (late w hw).1 (Nat.not_le.mpr early)

end

/-- Words that an engine has placed change neither the scratchpad nor the core. -/
theorem Commits.sameCore {u lo : Nat} {x y : Tile} {d : List (Nat × List Byte)} (h : Commits u lo x y d) : SameCore x y := by
  obtain ⟨_, _, _, _, _, frame⟩ := h.frame
  rw [frame]
  exact ⟨rfl, rfl, rfl, rfl⟩

/-! O24: data of device and host memory and of a LOCAL copy, acknowledgements, and signals (R198, R200, R203, R204, R206, R211). -/

/-! Data that meets nothing lands (R203). -/

section
variable {s s1 : State} {g : Group} {t e c : Nat} {st : Stream} {r : StreamReq} {bytes : List Byte}

theorem fireLand_none (unarmed : Unarmed s t 3) (l : List (Nat × List Byte)) : fireLand s g t e c l = none := by
  rw [fireLand, List.findSome?_eq_none_iff]
  exact fun _ _ => fireMerge_none unarmed ..

theorem readLands_clean (unarmed : Unarmed s t 3)
    (clear : landViols (footOf s g.handle) (tileOf s t) (arrived (tileOf s t) e c st r bytes) e st.entry = [])
    (read : lateReads (arrived (tileOf s t) e c st r bytes) st.entry.num = []) :
    readLands s g t e c st r bytes = pumpBoth (setTile s t (arrived (tileOf s t) e c st r bytes)) g t c := by
  have clean := congrArg firstViol (List.append_eq_nil_iff.mpr ⟨clear, read⟩)
  unfold readLands
  simp only [fireLand_none unarmed]
  split
  next d found => cases found.symm.trans clean
  · rfl

theorem localMoves_clean (unarmed : Unarmed s t 3)
    (clear : landViols (footOf s g.handle) (tileOf s t) (copied (tileOf s t) e c st) e st.entry = [])
    (read : lateReads (copied (tileOf s t) e c st) st.entry.num = []) :
    localMoves s g t e c st = pumpBoth (setTile s t (copied (tileOf s t) e c st)) g t c := by
  have clean := congrArg firstViol (List.append_eq_nil_iff.mpr ⟨clear, read⟩)
  unfold localMoves
  simp only [fireLand_none unarmed]
  split
  next d found => cases found.symm.trans clean
  · rfl

/-- The pieces that arrive are written word by word, none before its cycle where the accesses of the lower ranks bear different numbers. -/
theorem landed_landElems (rest : SameRest s s1) (differ : SeqsDiffer (tileOf s t)) {y z : Tile} {q : QEntry} {l : List (Nat × List Byte)}
    {complete : Nat → Bool} (banks : SameBanks (tileOf s t) y) (core : SameCore (tileOf s t) y)
    (writes : z.writes = (landElems y e c q l complete).writes) (core' : SameCore (landElems y e c q l complete) z) (g : Group) :
    ∃ ws, Landed s (pumpBoth (setTile s1 t z) g t c) t (tileOf s t) (2 + e) c ws ∧ ws.map (fun w => (w.addr, w.data)) = pieces l := by
  have commits := commits_landElems y e c q l complete
  obtain ⟨ws, wrote, bytes, unit, late⟩ := commits.wroteMore banks
  have all : SameCore (tileOf s t) z := core.trans (commits.sameCore.trans core')
  have wrote' : WroteMore (tileOf s t) z (2 + e) c ws := by
    rw [WroteMore, writes]
    exact wrote
  exact ⟨ws, landed_pump rest all wrote' (fun w hw => ⟨late differ w hw, unit w hw⟩) g c, bytes.trans (written_byWord l)⟩

theorem sameBanks_putStream (x : Tile) (e : Nat) (st : Stream) : SameBanks x (putStream x e st) := ⟨rfl, rfl, rfl, rfl⟩

theorem sameCore_putStream (x : Tile) (e : Nat) (st : Stream) : SameCore x (putStream x e st) := ⟨rfl, rfl, rfl, rfl⟩

theorem sameCore_arrived (x : Tile) : SameCore (landElems (putStream x e (reqDone st r.id c)) e c st.entry (elemData st r bytes)
    (wordComplete (reqDone st r.id c))) (arrived x e c st r bytes) := ⟨rfl, rfl, rfl, rfl⟩

theorem landed_read (rest : SameRest s s1) (differ : SeqsDiffer (tileOf s t)) (g : Group) (e c : Nat) (st : Stream) (r : StreamReq)
    (bytes : List Byte) : ∃ ws, Landed s (pumpBoth (setTile s1 t (arrived (tileOf s t) e c st r bytes)) g t c) t (tileOf s t) (2 + e) c ws ∧
      ws.map (fun w => (w.addr, w.data)) = pieces (elemData st r bytes) :=
  landed_landElems rest differ (sameBanks_putStream _ e (reqDone st r.id c)) (sameCore_putStream _ e (reqDone st r.id c)) (arrived_writes ..)
    (sameCore_arrived _) g

/-- The stream of a LOCAL copy once its one request is done. -/
def copyDone (st : Stream) (c : Nat) : Stream :=
  { st with reqs := st.reqs.map (fun r => if r.dev == 3 then { r with phase := .done } else r), last := Nat.max st.last c }

theorem copied_writes (x : Tile) : (copied x e c st).writes =
    (landElems (putStream x e (copyDone st c)) e c st.entry (localData x st) (fun _ => true)).writes := rfl

theorem sameCore_copied (x : Tile) : SameCore (landElems (putStream x e (copyDone st c)) e c st.entry (localData x st) (fun _ => true))
    (copied x e c st) := ⟨rfl, rfl, rfl, rfl⟩

theorem landed_copied (differ : SeqsDiffer (tileOf s t)) (g : Group) (e c : Nat) (st : Stream) :
    ∃ ws, Landed s (pumpBoth (setTile s t (copied (tileOf s t) e c st)) g t c) t (tileOf s t) (2 + e) c ws ∧
      ws.map (fun w => (w.addr, w.data)) = pieces (localData (tileOf s t) st) :=
  landed_landElems (.refl s) differ (sameBanks_putStream _ e (copyDone st c)) (sameCore_putStream _ e (copyDone st c)) (copied_writes _)
    (sameCore_copied _) g

/-- The tile once a block of a write is acknowledged. -/
def acked (x : Tile) (e c : Nat) (st : Stream) (r : StreamReq) : Tile :=
  { putStream x e (reqDone st r.id c) with trackers := x.trackers.put e (x.trackers.get e 0 - r.held) }

theorem acked_writes (x : Tile) : (acked x e c st r).writes = x.writes := rfl

theorem sameCore_acked (x : Tile) : SameCore x (acked x e c st r) := ⟨rfl, rfl, rfl, rfl⟩

theorem sending_writeLands (s : State) (g : Group) (t e c : Nat) (st : Stream) (r : StreamReq) :
    Sending s (writeLands s g t e c st r) t (acked (tileOf s t) e c st r) := sending_pump ..

/-- The acknowledgement of a block leaves no write (R204, R206). -/
theorem landed_write (rest : SameRest s s1) (g : Group) (e c : Nat) (st : Stream) (r : StreamReq) :
    Landed s (writeLands s1 g t e c st r) t (tileOf s t) (2 + e) c [] := by
  have here : tileOf s1 t = tileOf s t := congrArg (Tbl.get · t tile0) rest.tiles
  have run : writeLands s1 g t e c st r = pumpBoth (setTile s1 t (acked (tileOf s1 t) e c st r)) g t c := rfl
  rw [run, here]
  refine landed_pump rest (sameCore_acked _) (ws := []) (fun _ => ⟨(tileOf s t).writes, ?_, rfl, fun _ _ => rfl⟩)
    (fun _ none_ => absurd none_ List.not_mem_nil) g c
  rw [acked_writes, List.append_nil]

end

/-! The rows of STREAM_DATA_ARRIVAL, by where the request went (R203, R204, R211). -/

/-- An answer for the request `req` of engine `e` of tile `t` reaches it in cycle `c`, the request having left. -/
structure DataComes (s : State) (t e req c : Nat) (g : Group) (st : Stream) (r : StreamReq) : Prop where
  runs : live s t = some g
  asked : streamWith (tileOf s t) e req = some (st, r)
  arrives : arrives s g t (tileOf s t) c = true
  left : leaveAt (tileOf s t) st r r.at_ ≤ c

/-- What the memory system has answered is taken from its requests. -/
def answerTaken (s : State) (req : Nat) : State :=
  { s with mem := { s.mem with reqs := s.mem.reqs.filter (fun k => !(k.id == req)) } }

/-- A memory with the enabled ones of these bytes written from `key` on, one after the other (R211). -/
def putMarked (h : Mem) (key : Nat) (l : List (Byte × Bool)) : Mem :=
  (l.mapIdx (fun i p => (i, p))).foldl (fun h p => if p.2.2 then h.wr (key + p.1) p.2.1 else h) h

theorem putMarked_nil (h : Mem) (key : Nat) : putMarked h key [] = h := rfl

theorem putMarked_concat (h : Mem) (key : Nat) (l : List (Byte × Bool)) (p : Byte × Bool) :
    putMarked h key (l ++ [p]) = if p.2 then (putMarked h key l).wr (key + l.length) p.1 else putMarked h key l := by
  simp only [putMarked, List.mapIdx_concat, List.foldl_append, List.foldl_cons, List.foldl_nil]

section
variable {h : Mem} {key : Nat} {l : List (Byte × Bool)}

theorem putMarked_wf (wf : h.wf = true) : (putMarked h key l).wf = true := by
  induction l using List.reverseRecOn with
  | nil => exact wf
  | append_singleton l p ih =>
    rw [putMarked_concat]
    split
    · exact Mem.wr_wf _ _ _ ih
    · exact ih

theorem rd_putMarked_outside {a : Nat} (outside : a < key ∨ key + l.length ≤ a) : (putMarked h key l).rd a = h.rd a := by
  induction l using List.reverseRecOn with
  | nil => rfl
  | append_singleton l p ih =>
    rw [List.length_append, List.length_singleton] at outside
    rw [putMarked_concat]
    split
    · rw [Mem.rd_wr_ne _ _ (by omega), ih (by omega)]
    · exact ih (by omega)

theorem rd_putMarked_inside (wf : h.wf = true) {i : Nat} {p : Byte × Bool} (found : l[i]? = some p) :
    (putMarked h key l).rd (key + i) = if p.2 then p.1 else h.rd (key + i) := by
  induction l using List.reverseRecOn with
  | nil => cases found
  | append_singleton l q ih =>
    have inside : i < (l ++ [q]).length := (List.getElem?_eq_some_iff.mp found).1
    rw [List.length_append, List.length_singleton] at inside
    rw [putMarked_concat]
    rcases Nat.lt_succ_iff_lt_or_eq.mp inside with before | rfl
    · rw [List.getElem?_append_left before] at found
      split
      · rw [Mem.rd_wr_ne _ _ (by omega), ih found]
      · exact ih found
    · rw [List.getElem?_concat_length] at found
      obtain rfl := Option.some.inj found
      split
      · exact Mem.rd_wr_same _ _ _ (putMarked_wf wf)
      · exact rd_putMarked_outside (.inr (Nat.le_refl _))

/-- Exactly the enabled bytes have been written. -/
theorem rd_putMarked_zip (wf : h.wf = true) (bytes : List Byte) (en : List Bool) (a : Nat) : (putMarked h key (bytes.zip en)).rd a =
    if key ≤ a ∧ en.getD (a - key) false = true ∧ a - key < bytes.length then bytes.getD (a - key) 0 else h.rd a := by
  rcases Nat.lt_or_ge a key with below | above
  · rw [if_neg (by omega), rd_putMarked_outside (.inl below)]
  · obtain ⟨i, rfl⟩ := Nat.exists_eq_add_of_le above
    rw [Nat.add_sub_cancel_left]
    by_cases both : i < (bytes.zip en).length
    · have found := List.getElem?_eq_getElem both
      rw [List.getElem_zip] at found
      rw [List.length_zip, Nat.lt_min] at both
      rw [rd_putMarked_inside wf found, List.getD_eq_getElem _ _ both.1, List.getD_eq_getElem _ _ both.2]
      simp only [above, both.1, true_and, and_true]
    · have none_ : ¬ (key ≤ key + i ∧ en.getD i false = true ∧ i < bytes.length) := by
        rintro ⟨-, on, inside⟩
        rw [List.length_zip, Nat.lt_min] at both
        rw [List.getD_eq_default _ _ (by omega)] at on
        cases on
      rw [if_neg none_, rd_putMarked_outside (.inr (by omega))]

end

section
variable {s : State} {t e req c : Nat} {g : Group} {st : Stream} {r : StreamReq} {data : HostData} {m : MemReq}

theorem streamData_row (comes : DataComes s t e req c g st r) : live s t = some g ∧ streamWith (tileOf s t) e req = some (st, r) ∧
    (decide (leaveAt (tileOf s t) st r r.at_ ≤ c) && arrives s g t (tileOf s t) c) = true := by
  obtain ⟨runs, asked, arrives, left⟩ := comes
  exact ⟨runs, asked, by rw [decide_eq_true left, arrives]; rfl⟩

theorem exec_deviceRead (comes : DataComes s t e req c g st r) (dev : r.dev = 0)
    (served : s.mem.reqs.find? (fun m => m.id == req && m.phase == .served) = some m) (reads : m.write = false) (unarmedLoad : Unarmed s t 5)
    (unarmed : Unarmed s t 3)
    (clear : landViols (footOf s g.handle) (tileOf s t) (arrived (tileOf s t) e c st r m.data) e st.entry = [])
    (read : lateReads (arrived (tileOf s t) e c st r m.data) st.entry.num = []) :
    exec (.streamDataArrival t e req c data) s =
      .next (pumpBoth (setTile (answerTaken s req) t (arrived (tileOf s t) e c st r m.data)) g t c) := by
  obtain ⟨runs, asked, comes⟩ := streamData_row comes
  have row : exec (.streamDataArrival t e req c data) s = execStreamDataArrival t e req c data s := rfl
  have unfired : fireTile { s with mem := { s.mem with reqs := s.mem.reqs.filter (fun k => !(k.id == req)) } } g t 5 0x0A c (2 + e) = none :=
    fire_none (s := answerTaken s req) unarmedLoad ..
  rw [row, execStreamDataArrival]
  simp only [runs, asked, comes, dev, served, reads, unfired, if_true, Bool.false_eq_true, if_false]
  exact congrArg _ (readLands_clean (s := answerTaken s req) unarmed clear read)

theorem exec_deviceWrite (comes : DataComes s t e req c g st r) (dev : r.dev = 0)
    (served : s.mem.reqs.find? (fun m => m.id == req && m.phase == .served) = some m) (writes : m.write = true) :
    exec (.streamDataArrival t e req c data) s = .next (writeLands (answerTaken s req) g t e c st r) := by
  obtain ⟨runs, asked, comes⟩ := streamData_row comes
  have row : exec (.streamDataArrival t e req c data) s = execStreamDataArrival t e req c data s := rfl
  rw [row, execStreamDataArrival]
  simp only [runs, asked, comes, dev, served, writes, if_true]
  rfl

theorem exec_hostRead {bytes : List Byte} (comes : DataComes s t e req c g st r) (dev : r.dev = 1) (reads : st.op ≠ 1)
    (unarmed : Unarmed s t 3)
    (clear : landViols (footOf s g.handle) (tileOf s t) (arrived (tileOf s t) e c st r bytes) e st.entry = [])
    (read : lateReads (arrived (tileOf s t) e c st r bytes) st.entry.num = []) :
    exec (.streamDataArrival t e req c (some bytes)) s = .next (pumpBoth (setTile s t (arrived (tileOf s t) e c st r bytes)) g t c) := by
  obtain ⟨runs, asked, comes⟩ := streamData_row comes
  have row : exec (.streamDataArrival t e req c (some bytes)) s = execStreamDataArrival t e req c (some bytes) s := rfl
  rw [row, execStreamDataArrival]
  simp only [runs, asked, comes, dev, reads, if_true, if_false]
  exact congrArg _ (readLands_clean unarmed clear read)

/-- The machine with the enabled bytes of a request's block written to host memory (R211). -/
def hostTaken (s : State) (g : Group) (t : Nat) (st : Stream) (r : StreamReq) : State :=
  let key := hostKey (hostPasid s g (tileOf s t) (st.entry.desc.getD 0)) r.addr
  { s with out := { s.out with host := putMarked s.out.host key ((blockData (tileOf s t) st r 256).1.zip (blockData (tileOf s t) st r 256).2) } }

theorem tileOf_hostTaken : tileOf (hostTaken s g t st r) t = tileOf s t := rfl

theorem exec_hostWrite (comes : DataComes s t e req c g st r) (dev : r.dev = 1) (writes : st.op = 1) :
    exec (.streamDataArrival t e req c data) s = .next (writeLands (hostTaken s g t st r) g t e c st r) := by
  obtain ⟨runs, asked, comes⟩ := streamData_row comes
  have row : exec (.streamDataArrival t e req c data) s = execStreamDataArrival t e req c data s := rfl
  rw [row, execStreamDataArrival]
  simp only [runs, asked, comes, dev, writes, if_true]
  rfl

theorem exec_localCopy (comes : DataComes s t e req c g st r) (dev : r.dev = 3) (unarmed : Unarmed s t 3)
    (clear : landViols (footOf s g.handle) (tileOf s t) (copied (tileOf s t) e c st) e st.entry = [])
    (read : lateReads (copied (tileOf s t) e c st) st.entry.num = []) :
    exec (.streamDataArrival t e req c data) s = .next (pumpBoth (setTile s t (copied (tileOf s t) e c st)) g t c) := by
  obtain ⟨runs, asked, comes⟩ := streamData_row comes
  have row : exec (.streamDataArrival t e req c data) s = execStreamDataArrival t e req c data s := rfl
  rw [row, execStreamDataArrival]
  simp only [runs, asked, comes, dev, if_true]
  exact congrArg _ (localMoves_clean unarmed clear read)

/-- The data of a read of device memory lands, where the accesses of the lower ranks bear different numbers (R203). -/
theorem deviceRead_lands (differ : SeqsDiffer (tileOf s t)) (comes : DataComes s t e req c g st r) (dev : r.dev = 0)
    (served : s.mem.reqs.find? (fun m => m.id == req && m.phase == .served) = some m) (reads : m.write = false) (unarmedLoad : Unarmed s t 5)
    (unarmed : Unarmed s t 3)
    (clear : landViols (footOf s g.handle) (tileOf s t) (arrived (tileOf s t) e c st r m.data) e st.entry = [])
    (read : lateReads (arrived (tileOf s t) e c st r m.data) st.entry.num = []) :
    ∃ s' ws, exec (.streamDataArrival t e req c data) s = .next s' ∧ Landed s s' t (tileOf s t) (2 + e) c ws ∧
      ws.map (fun w => (w.addr, w.data)) = pieces (elemData st r m.data) := by
  obtain ⟨ws, landed, bytes⟩ := landed_read (s1 := answerTaken s req) ⟨rfl, rfl, rfl, rfl⟩ differ g e c st r m.data
  exact ⟨_, ws, exec_deviceRead comes dev served reads unarmedLoad unarmed clear read, landed, bytes⟩

/-- An acknowledged write of device memory leaves the tile's bytes (R204). -/
theorem deviceWrite_acknowledged (comes : DataComes s t e req c g st r) (dev : r.dev = 0)
    (served : s.mem.reqs.find? (fun m => m.id == req && m.phase == .served) = some m) (writes : m.write = true) :
    ∃ s', exec (.streamDataArrival t e req c data) s = .next s' ∧ Landed s s' t (tileOf s t) (2 + e) c [] :=
  ⟨_, exec_deviceWrite comes dev served writes, landed_write (s1 := answerTaken s req) ⟨rfl, rfl, rfl, rfl⟩ g e c st r⟩

/-- The data of a read of host memory lands, where the accesses of the lower ranks bear different numbers (R203, R211). -/
theorem hostRead_lands {bytes : List Byte} (differ : SeqsDiffer (tileOf s t)) (comes : DataComes s t e req c g st r) (dev : r.dev = 1)
    (reads : st.op ≠ 1) (unarmed : Unarmed s t 3)
    (clear : landViols (footOf s g.handle) (tileOf s t) (arrived (tileOf s t) e c st r bytes) e st.entry = [])
    (read : lateReads (arrived (tileOf s t) e c st r bytes) st.entry.num = []) :
    ∃ s' ws, exec (.streamDataArrival t e req c (some bytes)) s = .next s' ∧ Landed s s' t (tileOf s t) (2 + e) c ws ∧
      ws.map (fun w => (w.addr, w.data)) = pieces (elemData st r bytes) := by
  obtain ⟨ws, landed, pieces⟩ := landed_read (.refl s) differ g e c st r bytes
  exact ⟨_, ws, exec_hostRead comes dev reads unarmed clear read, landed, pieces⟩

/-- A write of host memory puts exactly the enabled bytes of its block (R198, R211). -/
theorem hostWrite_written (comes : DataComes s t e req c g st r) (dev : r.dev = 1) (writes : st.op = 1) (wf : s.out.host.wf = true) :
    ∃ s', exec (.streamDataArrival t e req c data) s = .next s' ∧ (tileOf s' t).writes = (tileOf s t).writes ∧ s'.mem.bytes = s.mem.bytes ∧
      ∀ a, s'.out.host.rd a =
        (let key := hostKey (hostPasid s g (tileOf s t) (st.entry.desc.getD 0)) r.addr
         if key ≤ a ∧ (blockData (tileOf s t) st r 256).2.getD (a - key) false = true ∧ a - key < (blockData (tileOf s t) st r 256).1.length
         then (blockData (tileOf s t) st r 256).1.getD (a - key) 0 else s.out.host.rd a) := by
  obtain ⟨tile, -, -, -, -, -, mem, host⟩ := sending_writeLands (hostTaken s g t st r) g t e c st r
  rw [tileOf_hostTaken] at tile
  have kept := acked_writes (e := e) (c := c) (st := st) (r := r) (tileOf s t)
  refine ⟨_, exec_hostWrite comes dev writes, (congrArg Tile.writes tile).trans kept, mem, fun a => ?_⟩
  rw [host]
  exact rd_putMarked_zip wf _ _ a

/-- A LOCAL copy writes what its source held at issue, where the accesses of the lower ranks bear different numbers (R200, R203). -/
theorem localCopy_lands (differ : SeqsDiffer (tileOf s t)) (comes : DataComes s t e req c g st r) (dev : r.dev = 3) (unarmed : Unarmed s t 3)
    (clear : landViols (footOf s g.handle) (tileOf s t) (copied (tileOf s t) e c st) e st.entry = [])
    (read : lateReads (copied (tileOf s t) e c st) st.entry.num = []) :
    ∃ s' ws, exec (.streamDataArrival t e req c data) s = .next s' ∧ Landed s s' t (tileOf s t) (2 + e) c ws ∧
      ws.map (fun w => (w.addr, w.data)) = pieces (localData (tileOf s t) st) := by
  obtain ⟨ws, landed, pieces⟩ := landed_copied differ g e c st
  exact ⟨_, ws, exec_localCopy comes dev unarmed clear read, landed, pieces⟩

end

/-! An element by the words that it lies in (R166, R203). -/

/-- The byte of [a, a+n) with which its word `k` begins. -/
def edge (a n k : Nat) : Nat := min n (64 * k - a % 64)

section
variable (a n : Nat)

theorem length_partsOf : (partsOf a n).length = if n = 0 then 0 else (a % 64 + n + 63) / 64 := by
  rw [partsOf, List.length_mapIdx, wordsOf]
  split
  · rfl
  · rw [List.length_map, List.length_range]

theorem getElem?_partsOf {k : Nat} (inside : k < (partsOf a n).length) :
    (partsOf a n)[k]? = some ((a + edge a n k) % 0x800000, edge a n (k + 1) - edge a n k) := by
  rw [length_partsOf] at inside
  split at inside
  · omega
  next some_ =>
    rw [partsOf, wordsOf, if_neg some_, List.getElem?_mapIdx, List.getElem?_map, List.getElem?_range inside]
    have plain : ∀ u v : Nat, Nat.min u v = min u v := fun _ _ => rfl
    simp only [Option.map_some, Option.some.injEq, edge, spadSize, plain]
    split
    next first =>
      subst first
      rw [Prod.mk.injEq]
      omega
    next later =>
      rw [Prod.mk.injEq]
      omega

theorem sum_take_partsOf {k : Nat} (inside : k ≤ (partsOf a n).length) : (((partsOf a n).take k).map (fun q => q.2)).sum = edge a n k := by
  induction k with
  | zero => simp [edge]
  | succ k ih =>
    rw [List.take_add_one, getElem?_partsOf a n inside, Option.toList_some, List.map_append, List.sum_append, ih (Nat.le_of_succ_le inside)]
    simp only [List.map_singleton, List.sum_singleton, edge]
    omega

/-- The part in which byte `i` lies. -/
theorem partsOf_covers {i : Nat} (inside : i < n) : ∃ k, k < (partsOf a n).length ∧ edge a n k ≤ i ∧ i < edge a n (k + 1) ∧
    (a + edge a n k) % 0x800000 + (i - edge a n k) = (a + i) % 0x800000 := by
  refine ⟨(a % 64 + i) / 64, ?_⟩
  rw [length_partsOf, if_neg (by omega)]
  simp only [edge]
  omega

end

/-- A string cut into parts of these lengths, each with the address of its part. -/
def cutInto (ps : List (Nat × Nat)) (b : List Byte) : List (Nat × List Byte) :=
  (ps.foldl (fun (acc : List (Nat × List Byte) × List Byte) q => (acc.1 ++ [(q.1, acc.2.take q.2)], acc.2.drop q.2)) ([], b)).1

theorem foldl_cut (ps : List (Nat × Nat)) (acc : List (Nat × List Byte)) (b : List Byte) :
    (ps.foldl (fun (acc : List (Nat × List Byte) × List Byte) q => (acc.1 ++ [(q.1, acc.2.take q.2)], acc.2.drop q.2)) (acc, b)).1 =
      acc ++ ps.mapIdx (fun k q => (q.1, sub b ((ps.take k).map (fun q => q.2)).sum q.2)) := by
  induction ps generalizing acc b with
  | nil => simp
  | cons q ps ih =>
    rw [List.foldl_cons, ih, List.mapIdx_cons, List.append_assoc, List.singleton_append]
    simp only [List.take_zero, List.map_nil, List.sum_nil, List.take_succ_cons, List.map_cons, List.sum_cons, sub, List.drop_drop,
      List.drop_zero]

/-- Each byte of an element stands in one of its pieces, at its address modulo 8 MB. -/
theorem cutInto_covers (a : Nat) (b : List Byte) {i : Nat} (inside : i < b.length) : ∃ q ∈ cutInto (partsOf a b.length) b,
    q.1 ≤ (a + i) % 0x800000 ∧ (a + i) % 0x800000 - q.1 < q.2.length ∧ q.2.getD ((a + i) % 0x800000 - q.1) 0 = b.getD i 0 := by
  obtain ⟨k, among, from_, to_, place⟩ := partsOf_covers a b.length inside
  have below : edge a b.length (k + 1) ≤ b.length := Nat.min_le_left ..
  refine ⟨((a + edge a b.length k) % 0x800000, sub b (edge a b.length k) (edge a b.length (k + 1) - edge a b.length k)), ?_, ?_, ?_, ?_⟩
  · rw [cutInto, foldl_cut, List.nil_append]
    refine List.mem_of_getElem? (i := k) ?_
    rw [List.getElem?_mapIdx, getElem?_partsOf _ _ among, Option.map_some, sum_take_partsOf _ _ among.le]
  · omega
  · rw [sub, List.length_take, List.length_drop]
    simp only
    omega
  · rw [← place, Nat.add_sub_cancel_left, sub, List.getD_eq_getElem?_getD, List.getElem?_take_of_lt (by omega), List.getElem?_drop,
      Nat.add_sub_cancel' from_, List.getD_eq_getElem?_getD]

theorem byWord_eq (l : List (Nat × List Byte)) : byWord l =
    (((l.flatMap fun p => cutInto (partsOf p.1 p.2.length) p.2).map fun p => word64 p.1).eraseDups).map fun w =>
      (w, (l.flatMap fun p => cutInto (partsOf p.1 p.2.length) p.2).filter fun p => word64 p.1 == w) := by
  simp only [byWord, List.map_map]
  rfl

/-- Every byte of every element stands in the pieces of its word. -/
theorem byWord_covers (l : List (Nat × List Byte)) (a : Nat) (b : List Byte) (i : Nat) (among : (a, b) ∈ l) (inside : i < b.length) :
    ∃ p ∈ byWord l, ∃ q ∈ p.2, q.1 ≤ (a + i) % 0x800000 ∧ (a + i) % 0x800000 - q.1 < q.2.length ∧
      q.2.getD ((a + i) % 0x800000 - q.1) 0 = b.getD i 0 := by
  obtain ⟨q, piece, covers⟩ := cutInto_covers a b inside
  have part : q ∈ l.flatMap fun p => cutInto (partsOf p.1 p.2.length) p.2 := List.mem_flatMap.mpr ⟨_, among, piece⟩
  rw [byWord_eq]
  exact ⟨_, List.mem_map_of_mem (List.mem_eraseDups.mpr (List.mem_map_of_mem part)), q,
    List.mem_filter.mpr ⟨part, beq_self_eq_true _⟩, covers⟩

/-! STREAM_SIGNAL (R139, R141, R204). -/

/-- A single signal that its semaphore has room for overflows nothing (R141). -/
theorem overBy_cmdSig {x : Tile} (none_ : x.sigs = []) {c u : Nat} {e : QEntry} (room : x.sems.get (hSigSem e.word) 0 + hSigN e.word ≤ 255) :
    overBy (cmdSig x c u e) (c + 1) = none := by
  unfold cmdSig addSig
  split
  · simp only [overBy, foldSigs, none_]
    rfl
  · simp only [overBy, foldSigs, none_, List.nil_append, Nat.lt_succ_self, decide_true, Bool.and_true, List.filter_cons_of_pos,
      List.filter_nil, sortBy, insertBy, List.foldr_cons, List.foldr_nil, List.foldl_cons, List.foldl_nil, applySig, if_neg (Nat.not_lt.mpr room)]

/-- The commands that remain once the oldest has signalled: the next of them is met no earlier (R204). -/
def followers (c : Nat) : List Stream → List Stream
  | [] => []
  | n :: r => { n with last := Nat.max n.last (c - 1) } :: r

theorem length_followers (c : Nat) (l : List Stream) : (followers c l).length = l.length := by cases l <;> rfl

/-- The tile without its oldest command, whose marks have ended; its signal is still to be given. -/
def retired (x : Tile) (e c : Nat) (st : Stream) (rest : List Stream) : Tile :=
  let y := { setStreams x e (followers c rest) with seLast := x.seLast.put e (Nat.max (x.seLast.get e 0) (sentAll st)) }
  { y with marks := y.marks.map fun (m : Mark) => if m.num == st.entry.num && m.commit.isNone then { m with commit := some (doneAt x st) } else m }

section
variable {s : State} {t e c : Nat} {g : Group} {st : Stream} {rest : List Stream}

theorem streamSignal_signals {x : Tile} (runs : live s t = some g) (here : x = tileOf s t) (oldest : streamsOf x e = st :: rest)
    (done : streamDone st = true) (next : c = doneAt x st + 1) (below : c < 2 ^ 40) (due_ : due s g t x (9 + e) c = true) (none_ : x.sigs = [])
    (room : x.sems.get (hSigSem st.entry.word) 0 + hSigN st.entry.word ≤ 255)
    (read : lateReads { x with marks := x.marks.map (fun m =>
      if m.num == st.entry.num && m.commit.isNone then { m with commit := some (c - 1) } else m) } st.entry.num = []) :
    ∃ s', exec (.streamSignal t e c) s = .next s' ∧ OnlyTile s s' t ∧ (streamsOf (tileOf s' t) e).length = rest.length ∧
      (tileOf s' t).sigs = (addSig x c (hSigSem st.entry.word) (hSigN st.entry.word) (2 + e) st.entry.pc).sigs ∧
      (tileOf s' t).regs = x.regs ∧ (tileOf s' t).spad = x.spad ∧ (tileOf s' t).writes = x.writes := by
  subst here
  have row : exec (.streamSignal t e c) s = execStreamSignal t e c s := rfl
  have last : c - 1 = doneAt (tileOf s t) st := by omega
  have ready : (streamDone st && decide (c = doneAt (tileOf s t) st + 1) && decide (c < 2 ^ 40) && due s g t (tileOf s t) (9 + e) c) = true := by
    rw [done, decide_eq_true next, decide_eq_true below, due_]
    rfl
  have run : exec (.streamSignal t e c) s =
      .next (setTile s t (cmdSig (retired (tileOf s t) e c st rest) c (2 + e) st.entry)) := by
    rw [row, execStreamSignal]
    simp only [runs, oldest, ready, if_true]
    have signalled : settleTile s g t (cmdSig (retired (tileOf s t) e c st rest) c (2 + e) st.entry)
        (overViols (overBy (cmdSig (retired (tileOf s t) e c st rest) c (2 + e) st.entry) (c + 1)) ++
          lateReads (retired (tileOf s t) e c st rest) st.entry.num) =
        setTile s t (cmdSig (retired (tileOf s t) e c st rest) c (2 + e) st.entry) := by
      rw [overBy_cmdSig (x := retired (tileOf s t) e c st rest) none_ room, overViols, List.nil_append]
      rw [last] at read
      have clean : lateReads (retired (tileOf s t) e c st rest) st.entry.num = [] := read
      rw [clean, settleTile_ok]
    cases rest with
    | nil => exact congrArg _ signalled
    | cons n r => exact congrArg _ signalled
  refine ⟨_, run, by rw [OnlyTile, tileOf_setTile], ?streams, ?sigs, ?regs, ?spad, ?writes⟩
  all_goals rw [tileOf_setTile]
  case streams =>
    rw [cmdSig_frame]
    exact (congrArg List.length (Tbl.get_put_self ..)).trans (length_followers c rest)
  case sigs =>
    unfold cmdSig addSig
    split <;> rfl
  all_goals
    rw [cmdSig_frame]
    rfl

end

/-- The architect's read of host memory, whose tile has no access yet, meets `hostRead_lands`. -/
theorem hostRead_lands_witness :
    ∃ s' ws, exec (.streamDataArrival 0 0 0 8 (some (List.replicate 256 7)))
        (Tests.streamState (Tests.moving 0 1 0x20000 (Tests.td 2 1 2) .sent)) = .next s' ∧
      Landed (Tests.streamState (Tests.moving 0 1 0x20000 (Tests.td 2 1 2) .sent)) s' 0
        (tileOf (Tests.streamState (Tests.moving 0 1 0x20000 (Tests.td 2 1 2) .sent)) 0) 2 8 ws := by
  obtain ⟨-, -, ⟨asked, dev, reads, clear, read⟩, -⟩ := Tests.witness_StreamDataLands
  have none_ : (tileOf (Tests.streamState (Tests.moving 0 1 0x20000 (Tests.td 2 1 2) .sent)) 0).claims = [] := by decide +kernel
  have differ : SeqsDiffer (tileOf (Tests.streamState (Tests.moving 0 1 0x20000 (Tests.td 2 1 2) .sent)) 0) := by
    rw [SeqsDiffer, none_]
    exact .nil
  have comes : DataComes (Tests.streamState (Tests.moving 0 1 0x20000 (Tests.td 2 1 2) .sent)) 0 0 0 8 Tests.g2
      (Tests.moving 0 1 0x20000 (Tests.td 2 1 2) .sent) (Tests.rq 1 0x20000 .sent) :=
    ⟨by decide +kernel, asked, by decide +kernel, by decide +kernel⟩
  obtain ⟨s', ws, run, landed, -⟩ := hostRead_lands differ comes dev reads (fun _ armed => nomatch armed) clear read
  exact ⟨s', ws, run, landed⟩

/-! The machine of the counterexample: the bytes of a host read reach engine 0 of tile 0 in cycle 8. The stream takes eight of them to 0x2000 and
eight to 0x2040. In cycle 8 the two accesses of the machine of O26 stand in the bank of 0x2000. -/

/-- The stream, whose one request takes two elements of its block. -/
def twoHostWords : Stream :=
  { Tests.moving 0 1 0 (Tests.td 2 1 2) .sent with
    elems := [(0, 0x2000, 8), (8, 0x2040, 8)], reqs := [{ Tests.rq 1 0 .sent with hi := 2 }] }

def twinHostTile : Tile := { twinStreamTile with streams := [(0, [twoHostWords])] }

def twinHost : State := Tests.withRegions (Tests.wholeFoot twinHostTile)

/-- The tile once the data has landed. -/
def twinHostLanded : Tile := arrived twinHostTile 0 8 twoHostWords { Tests.rq 1 0 .sent with hi := 2 } (List.replicate 256 7)

theorem twinHost_tile : tileOf twinHost 0 = twinHostTile := by decide +kernel

theorem twinHost_comes : DataComes twinHost 0 0 0 8 Tests.g2 twoHostWords { Tests.rq 1 0 .sent with hi := 2 } where
  runs := by decide +kernel
  asked := by decide +kernel
  arrives := by decide +kernel
  left := by decide +kernel

theorem twinHost_unarmed : Unarmed twinHost 0 3 := fun _ armed => nomatch armed

theorem twinHost_clean : landViols (footOf twinHost 7) twinHostTile twinHostLanded 0 twoHostWords.entry = [] ∧
    lateReads twinHostLanded twoHostWords.entry.num = [] := by decide +kernel

/-- The access that bears the number of the one in cycle 0 is taken to stand there, and the first word moves with it. -/
theorem twinHostLanded_writes : twinHostLanded.writes.map (fun w => w.cyc) = [0, 8] := by decide +kernel

/-- Refutes O24: the statement is about every tile, also one in which two accesses of the lower ranks bear one sequence number. As the second word
of a host read is placed, the model takes one of the two for the other and moves the first word with it from cycle 8, in which the data arrived,
to cycle 0. The model itself numbers its accesses upwards; of tiles in which they differ, `deviceRead_lands`, `deviceWrite_acknowledged`,
`hostRead_lands`, `hostWrite_written`, `localCopy_lands`, `byWord_covers` and `streamSignal_signals` prove the whole of O24. -/
theorem not_streamDataLands : ¬ Obligations.StreamDataLands := by
  unfold Obligations.StreamDataLands
  intro h
  obtain ⟨arrival, -⟩ := h twinHost 0 0 0 8 (some (List.replicate 256 7)) Tests.g2 twoHostWords { Tests.rq 1 0 .sent with hi := 2 } twinHostTile
    twinHost_comes.runs twinHost_tile.symm
  obtain ⟨-, -, hostRead, -⟩ := arrival (twinHost_tile ▸ twinHost_comes.asked) (twinHost_tile ▸ twinHost_comes.arrives)
    (twinHost_tile ▸ twinHost_comes.left)
  obtain ⟨clear, read⟩ := twinHost_clean
  obtain ⟨s', ws, run, landed, -⟩ := hostRead _ rfl (by decide) rfl twinHost_unarmed clear read
  have run' := exec_hostRead twinHost_comes rfl (by decide) twinHost_unarmed (twinHost_tile.symm ▸ clear) (twinHost_tile.symm ▸ read)
  rw [twinHost_tile] at run'
  obtain rfl := Host.Outcome.next.inj (run'.symm.trans run)
  obtain ⟨after, -⟩ := sending_pump twinHost Tests.g2 0 8 twinHostLanded
  have cycles := (congrArg (fun y : Tile => y.writes.map fun w => w.cyc) after).trans twinHostLanded_writes
  exact not_landed_early rfl (by decide) (k := 0) (by decide) (cycles ▸ List.mem_cons_self) landed

end Sys2Proof.Proofs

/-! O23: the phases of a stream that precede its transfers (R51 to R53, R199, R203, R208 to R210, R429). -/

namespace Sys2Proof.Proofs

open Sys2Proof Sys2Proof.Machine Sys2Proof.Claims Sys2Proof.Laws

/-! The newest command of an engine. -/

theorem newestIn_iff {s : State} {t e : Nat} {ph : StreamPhase} {g : Group} {st : Stream} : newestIn s t e ph = some (g, st) ↔
    live s t = some g ∧ (streamsOf (tileOf s t) e).getLast? = some st ∧ st.phase = ph := by
  unfold newestIn
  split
  next runs newest =>
    rw [runs, newest]
    split
    next here => simp only [Option.some.injEq, Prod.mk.injEq]; exact ⟨fun ⟨a, b⟩ => ⟨a, b, b ▸ here⟩, fun ⟨a, b, _⟩ => ⟨a, b⟩⟩
    next other =>
      refine ⟨nofun, fun ⟨_, same, here⟩ => absurd ?_ other⟩
      rwa [Option.some.inj same]
  next none_ => exact ⟨nofun, fun ⟨runs, newest, _⟩ => absurd newest (none_ _ _ runs)⟩

section
variable {x : Tile} {e : Nat} {st st' : Stream}

theorem newest_last (newest : (streamsOf x e).getLast? = some st) : streamsOf x e = (streamsOf x e).dropLast ++ [st] :=
  (List.dropLast_append_getLast? st newest).symm

/-- The newest command of an engine is replaced as the command that it is. -/
theorem newest_putStream (newest : (streamsOf x e).getLast? = some st) (same : st'.entry.num = st.entry.num) :
    (streamsOf (putStream x e st') e).getLast? = some st' := by
  rw [putStream, streamsOf_setStreams, if_pos rfl, List.getLast?_map, newest, Option.map_some, same, beq_self_eq_true, if_pos rfl]

/-- The newest command of the tile is the newest once what can be sent is sent. -/
theorem newest_sent (s : State) (g : Group) (t c : Nat) (newest : (streamsOf x e).getLast? = some st) :
    ∃ st', (streamsOf (tileOf (pumpBoth (setTile s t x) g t c) t) e).getLast? = some st' ∧ SameCommand st st' := by
  obtain ⟨st', streams, same⟩ := newest_pump s g t c (newest_last newest)
  exact ⟨st', by rw [streams, List.getLast?_concat], same⟩

end

/-! BLOCK_LIST_READ (R199, R202, R203). -/

/-- The stream once its block list has been read. -/
def walking (x : Tile) (c : Nat) (st : Stream) (d : Desc) (p : Place) : Stream :=
  { startStream st d p (blockOuters x d c) with first := Nat.max st.first (c + 1), last := Nat.max st.last c }

theorem listedTile_reads (x : Tile) (e c : Nat) (st : Stream) (d : Desc) (p : Place) :
    OnlyReads (setStreams x e ((streamsOf x e).dropLast ++ [walking x c st d p])) (listedTile x e c st d p) := onlyReads_readSource ..

section
variable {s : State} {t e c : Nat} {g : Group} {st : Stream} {d : Desc} {p : Place}

theorem exec_blockListRead (runs : live s t = some g) (newest : (streamsOf (tileOf s t) e).getLast? = some st) (waits : st.phase = .list)
    (desc : st.entry.desc = some d) (place : placeIn s g (tileOf s t) d = some p)
    (last : lastAccess (tileOf s t) st.entry.num false st.issue = c) (below : c < 2 ^ 40) (caught : caughtUp (tileOf s t) (7 + e) (c + 1) = true)
    (due_ : due s g t (tileOf s t) (7 + e) c = true) (unarmed : Unarmed s t 3) (blocks : blockViols s g (tileOf s t) e c st d p = [])
    (read : streamReadViols (footOf s g.handle) (listedTile (tileOf s t) e c st d p) e st.entry false = [])
    (write : lateWrites (listedTile (tileOf s t) e c st d p) st.entry.num = [])
    (moved : movedViols (tileOf s t) (listedTile (tileOf s t) e c st d p) = []) :
    exec (.blockListRead t e c) s = .next (pumpBoth (setTile s t (listedTile (tileOf s t) e c st d p)) g t c) := by
  have row : exec (.blockListRead t e c) s = execBlockListRead t e c s := rfl
  have ready : (st.phase == .list && lastAccess (tileOf s t) st.entry.num false st.issue == c && decide (c < 2 ^ 40) &&
      caughtUp (tileOf s t) (7 + e) (c + 1) && due s g t (tileOf s t) (7 + e) c) = true := by
    rw [waits, last, decide_eq_true below, caught, due_, beq_self_eq_true, beq_self_eq_true]
    rfl
  have unfired : (sourceOf (startStream st d p (blockOuters (tileOf s t) d c))).head?.bind (fun k => fireRead s g t k.1 c (2 + e)) = none :=
    Option.bind_eq_none_iff.mpr fun _ _ => fireRead_none unarmed ..
  rw [row, execBlockListRead]
  simp only [runs, newest, desc, ready, if_true, place, unfired, blocks, read, write, moved]
  rfl

/-- What the last word of a block list leaves: the walk over the listed blocks, as the newest command. -/
theorem blockListRead_walks
    (run : exec (.blockListRead t e c) s = .next (pumpBoth (setTile s t (listedTile (tileOf s t) e c st d p)) g t c)) :
    ∃ s' st', exec (.blockListRead t e c) s = .next s' ∧ Sending s s' t (listedTile (tileOf s t) e c st d p) ∧
      (streamsOf (tileOf s' t) e).getLast? = some st' ∧ st'.phase = .active ∧ st'.entry = st.entry ∧
      st'.elems = walkElems (placeBase p).1 d (walkDims st.entry.word d) (blockOuters (tileOf s t) d c)
        (seSaddr st.entry.word) (seSstride st.entry.word) ∧
      (tileOf s' t).regs = (tileOf s t).regs ∧ (tileOf s' t).spad = (tileOf s t).spad ∧
      SameWrites (tileOf s' t).writes (tileOf s t).writes := by
  have sent := sending_pump s g t c (listedTile (tileOf s t) e c st d p)
  have only := listedTile_reads (tileOf s t) e c st d p
  have here : (streamsOf (listedTile (tileOf s t) e c st d p) e).getLast? = some (walking (tileOf s t) c st d p) := by
    rw [only.streamsOf, streamsOf_setStreams, if_pos rfl, List.getLast?_concat]
  obtain ⟨st', newest', command⟩ := newest_sent s g t c here
  obtain ⟨tile, -⟩ := id sent
  obtain ⟨frame, writes⟩ := only
  refine ⟨_, st', run, sent, newest', by rw [command]; rfl, by rw [command]; rfl, by rw [command]; rfl, ?regs, ?spad, ?writes⟩
  case regs => rw [tile, frame]; rfl
  case spad => rw [tile, frame]; rfl
  case writes => rw [tile]; exact writes

end

/-! KEY_HEADER_CHECK (R203, R207 to R209). -/

/-- The stream once its header has come. -/
def headed (c : Nat) (st : Stream) (h : List Byte) : Stream :=
  { st with header := h, asking := 0, first := c, last := Nat.max st.last c, phase := if khSeeded h then .sx else st.phase }

theorem headedTile_eq (x : Tile) (e c w : Nat) (st : Stream) (h : List Byte) : headedTile x e c w st h =
    (putStream { x with marks := (clearBeyond x st w c).marks, trackers := x.trackers.put e (x.trackers.get e 0 - 1) } e (headed c st h),
      headed c st h) := rfl

theorem keyRequests_started (s : State) (g : Group) (x : Tile) (st : Stream) :
    (keyRequests s g x st).phase = .active ∧ (keyRequests s g x st).entry = st.entry := by
  unfold keyRequests
  simp only
  split
  · exact ⟨rfl, rfl⟩
  · split <;> exact ⟨rfl, rfl⟩

section
variable (s : State) (g : Group) (x : Tile) (c : Nat) (st : Stream) (extra : List (Nat × Nat × Nat))

theorem keyStream_active : (keyStream s g x c st extra).phase = .active :=
  (keyRequests_started s g x st).1

theorem keyStream_entry : (keyStream s g x c st extra).entry = st.entry :=
  (keyRequests_started s g x st).2

theorem mem_keyStream_elems {k : Nat × Nat × Nat} (among : k ∈ extra) : k ∈ (keyStream s g x c st extra).elems :=
  List.mem_append_right _ among

theorem keyTile_reads (e : Nat) : OnlyReads (putStream x e (keyStream s g x c st extra)) (keyTile s g x e c st extra) :=
  onlyReads_readSource ..

/-- A key starts its transfers where what it reads and marks meets nothing. -/
theorem startKey_clear (t e : Nat) {v : List Detail} (landed : v = []) (clear : KeyClear s g x e c st extra) :
    startKey s g t e c x st extra v = pumpBoth (setTile s t (keyTile s g x e c st extra)) g t c := by
  obtain ⟨read, lateR, lateW⟩ := clear
  rw [← keyStream_entry s g x c st extra] at read lateR lateW
  have clean : v ++ streamReadViols (footOf s g.handle) (keyTile s g x e c st extra) e (keyStream s g x c st extra).entry false ++
      lateReads (keyTile s g x e c st extra) (keyStream s g x c st extra).entry.num ++
      lateWrites (keyTile s g x e c st extra) (keyStream s g x c st extra).entry.num = [] := by
    rw [landed, read, lateR, lateW]
    rfl
  unfold startKey
  simp only
  split
  next d found => cases found.symm.trans (congrArg firstViol clean)
  · rfl

end

section
variable {s s1 : State} {t e c a : Nat} {g : Group} {st : Stream} {h : List Byte}

/-- The header of a key reaches the engine in cycle `c` with a device memory that has only been read. -/
structure HeaderComes (s s1 : State) (t e c a : Nat) (g : Group) (st : Stream) (h : List Byte) : Prop where
  newest : newestIn s t e .header = some (g, st)
  slot : a = ((tileOf s t).args.get (skSlot st.entry.word) 0).toNat
  due_ : headerDue s g t (tileOf s t) st c = true
  ready : devWaits s g.part a 256 = false
  read : devRead s g.part g.handle a 256 = (s1, some h)
  unarmed : Unarmed s1 t 5

theorem HeaderComes.tile (comes : HeaderComes s s1 t e c a g st h) : tileOf s1 t = tileOf s t := by
  have only := (devRead_readOnly s g.part g.handle a 256).frame.tiles
  rw [comes.read] at only
  rw [tileOf, only, tileOf]

theorem HeaderComes.last (comes : HeaderComes s s1 t e c a g st h) : (streamsOf (tileOf s t) e).getLast? = some st :=
  (newestIn_iff.mp comes.newest).2.1

theorem keyHeaderCheck_fails (comes : HeaderComes s s1 t e c a g st h) (fails : keyChecks s1 g st.entry.word h ≠ 0) :
    exec (.keyHeaderCheck t e c) s = .next (tileAbort s1 g t (streamViol (keyChecks s1 g st.entry.word h) c (2 + e) a st.entry.pc)) := by
  obtain ⟨newest, rfl, due_, ready, read, unarmed⟩ := comes
  have row : exec (.keyHeaderCheck t e c) s = execKeyHeaderCheck t e c s := rfl
  rw [row, execKeyHeaderCheck]
  simp only [newest, due_, ready, read, fire_none unarmed, fails, Bool.not_true, Bool.or_false, Bool.false_eq_true, if_false, ne_eq,
    not_false_eq_true, if_true]

variable {p : Pset}

theorem keyHeaderCheck_passes (comes : HeaderComes s s1 t e c a g st h) (passed : keyChecks s1 g st.entry.word h = 0)
    (set : keySet s1 g h = some p)
    (half : aHalfCheck (footOf s1 g.handle) st.entry.word (keyEntry st.entry) (psWidth p) c (2 + e) st.entry.pc = none) :
    exec (.keyHeaderCheck t e c) s = .next (keyGoes s1 g t e c p st h) := by
  obtain ⟨newest, rfl, due_, ready, read, unarmed⟩ := comes
  have row : exec (.keyHeaderCheck t e c) s = execKeyHeaderCheck t e c s := rfl
  rw [row, execKeyHeaderCheck]
  simp only [newest, due_, ready, read, fire_none unarmed, passed, set, half, Bool.not_true, Bool.or_false, Bool.false_eq_true, if_false,
    ne_eq, not_true_eq_false]

/-- The tile that holds the header of its newest key. -/
theorem newest_headedTile (comes : HeaderComes s s1 t e c a g st h) (w : Nat) :
    (streamsOf (headedTile (tileOf s t) e c w st h).1 e).getLast? = some (headed c st h) := by
  rw [headedTile_eq]
  exact newest_putStream (x := { tileOf s t with marks := _, trackers := _ }) comes.last rfl

/-- A seeded key whose header passes waits for SX with its header held (R209). -/
theorem keyHeaderCheck_seeded (comes : HeaderComes s s1 t e c a g st h) (passed : keyChecks s1 g st.entry.word h = 0)
    (set : keySet s1 g h = some p)
    (half : aHalfCheck (footOf s1 g.handle) st.entry.word (keyEntry st.entry) (psWidth p) c (2 + e) st.entry.pc = none)
    (seeded : khSeeded h = true) : ∃ s' st', exec (.keyHeaderCheck t e c) s = .next s' ∧
      Sending s1 s' t (headedTile (tileOf s t) e c (psWidth p) st h).1 ∧ (streamsOf (tileOf s' t) e).getLast? = some st' ∧
      st'.phase = .sx ∧ st'.header = h ∧ st'.entry = st.entry ∧ (tileOf s' t).regs = (tileOf s t).regs ∧
      (tileOf s' t).spad = (tileOf s t).spad ∧ (tileOf s' t).writes = (tileOf s t).writes := by
  have goes : keyGoes s1 g t e c p st h = pumpBoth (setTile s1 t (headedTile (tileOf s t) e c (psWidth p) st h).1) g t c := by
    rw [← comes.tile, keyGoes]
    simp only [seeded, if_true]
  have sent := sending_pump s1 g t c (headedTile (tileOf s t) e c (psWidth p) st h).1
  obtain ⟨st', newest, command⟩ := newest_sent s1 g t c (newest_headedTile comes (psWidth p))
  obtain ⟨tile, -⟩ := id sent
  refine ⟨_, st', (keyHeaderCheck_passes comes passed set half).trans (congrArg _ goes), sent, newest, ?phase, by rw [command]; rfl,
    by rw [command]; rfl, ?regs, ?spad, ?writes⟩
  case phase =>
    rw [command]
    exact if_pos seeded
  all_goals
    rw [tile, headedTile_eq]
    rfl

/-- An unseeded key whose header passes transfers its stored a-half (R209). -/
theorem keyHeaderCheck_stored (comes : HeaderComes s s1 t e c a g st h) (passed : keyChecks s1 g st.entry.word h = 0)
    (set : keySet s1 g h = some p)
    (half : aHalfCheck (footOf s1 g.handle) st.entry.word (keyEntry st.entry) (psWidth p) c (2 + e) st.entry.pc = none)
    {y : Tile} {h' : Stream} (lands : headedTile (tileOf s t) e c (psWidth p) st h = (y, h')) {i : Image} (stored : khSeeded h = false)
    (image : imageOf s1 g.handle = some i) (inside : badElem i (tileOf s t).args g.epoch 0 (storedElems p h st.entry.word) = none)
    (clear : KeyClear s1 g y e c h' (storedElems p h st.entry.word)) : ∃ s' st', exec (.keyHeaderCheck t e c) s = .next s' ∧
      Sending s1 s' t (keyTile s1 g y e c h' (storedElems p h st.entry.word)) ∧ (streamsOf (tileOf s' t) e).getLast? = some st' ∧
      st'.phase = .active ∧ st'.entry = st.entry ∧ ∀ k ∈ storedElems p h st.entry.word, k ∈ st'.elems := by
  have held : h' = headed c st h := (congrArg Prod.snd lands).symm.trans (congrArg Prod.snd (headedTile_eq ..))
  have same : h'.entry = st.entry := by
    rw [held]
    rfl
  have entry := (keyStream_entry s1 g y c h' (storedElems p h st.entry.word)).trans same
  have goes : keyGoes s1 g t e c p st h = pumpBoth (setTile s1 t (keyTile s1 g y e c h' (storedElems p h st.entry.word))) g t c := by
    rw [keyGoes, comes.tile, lands]
    simp only [stored, Bool.false_eq_true, if_false, image, same, inside]
    exact startKey_clear s1 g y c h' _ t e rfl clear
  have old := newest_headedTile comes (psWidth p)
  rw [lands, ← held] at old
  have here : (streamsOf (keyTile s1 g y e c h' (storedElems p h st.entry.word)) e).getLast? =
      some (keyStream s1 g y c h' (storedElems p h st.entry.word)) := by
    rw [(keyTile_reads s1 g y c h' _ e).streamsOf]
    exact newest_putStream old (congrArg QEntry.num (entry.trans same.symm))
  obtain ⟨st', newest, command⟩ := newest_sent s1 g t c here
  refine ⟨_, st', (keyHeaderCheck_passes comes passed set half).trans (congrArg _ goes), sending_pump .., newest, ?phase, ?entry,
    fun k among => ?elems⟩
  case phase =>
    rw [command]
    exact keyStream_active s1 g y c h' (storedElems p h st.entry.word)
  case entry =>
    rw [command]
    exact entry
  case elems =>
    rw [command]
    exact mem_keyStream_elems s1 g y c h' _ among

end

/-! The elements and the words of an a-half (R51 to R53, R166, R209, R210). -/

theorem le_lt (l : List Byte) (o : Nat) : le l o 8 < 2 ^ 64 :=
  (leNat_lt _).trans_le (Nat.pow_le_pow_right (by decide) (List.length_take_le ..) |>.trans (by decide))

/-- The value that R51 to R53 give to element `j` of the a-half of a key. -/
theorem getElem?_sxElems (p : Pset) (h : List Byte) (k : Cmd) {j : Nat} (inside : j < skJcount k) : (sxElems p h k)[j]? =
    some (keyElem p h (skLidx k)
      (le (expandBytes (khXof h) (khSeed h) (skD k) (skLidx k) (kindWord p h) (8 * (skJ0 k + skJcount k))) (8 * (skJ0 k + j)) 8)) := by
  rw [sxElems, List.getElem?_map, List.getElem?_range inside, Option.map_some]

theorem length_sxElems (p : Pset) (h : List Byte) (k : Cmd) : (sxElems p h k).length = skJcount k := by
  rw [sxElems, List.length_map, List.length_range]

theorem keyElem_ring {p : Pset} {h : List Byte} (ring : ringKey h = true) (l u : Nat) :
    keyElem p h l u = u % ((p.primes[primeIndex p l]?).getD (1, 0, 0)).1 := if_pos ring

theorem keyElem_torus {p : Pset} {h : List Byte} (torus : ringKey h = false) (l : Nat) {u : Nat} (word : u < 2 ^ 64) :
    keyElem p h l u = u % 2 ^ (if psWidth p = 4 then 32 else 64) := by
  rw [keyElem, torus, if_neg Bool.false_ne_true]
  split
  · rfl
  · exact (Nat.mod_eq_of_lt word).symm

/-- The number of words that `n` bytes from `a` on lie in. -/
def wordCount (a n : Nat) : Nat := if n = 0 then 0 else (a % 64 + n + 63) / 64

/-- A word of an a-half: the cycle in which its last element is produced, its address and its bytes. -/
def sxWord (unit c w : Nat) (k : Cmd) (bytes : List Byte) (i : Nat) : Nat × Nat × List Byte :=
  let a := skXaddr k
  let n := w * skJcount k
  (sxCycle unit c (skJ0 k) (skJ0 k + (edge a n (i + 1) - 1) / w), (a + edge a n i) % 0x800000,
    sub bytes (edge a n i) (edge a n (i + 1) - edge a n i))

theorem sxWords_eq (unit c w : Nat) (k : Cmd) (bytes : List Byte) :
    sxWords unit c w k bytes = (List.range (wordCount (skXaddr k) (w * skJcount k))).map (sxWord unit c w k bytes) := by
  refine List.map_congr_left fun i among => ?_
  replace among : i < wordCount (skXaddr k) (w * skJcount k) := List.mem_range.mp among
  rw [wordCount] at among
  have lo : Nat.max (skXaddr k) (skXaddr k / 64 * 64 + 64 * i) - skXaddr k = edge (skXaddr k) (w * skJcount k) i := by
    have plain : ∀ u v : Nat, Nat.max u v = max u v := fun _ _ => rfl
    rw [plain, edge]
    split at among <;> omega
  have hi : Nat.min (w * skJcount k) (skXaddr k / 64 * 64 + 64 * i + 64 - skXaddr k) = edge (skXaddr k) (w * skJcount k) (i + 1) := by
    have plain : ∀ u v : Nat, Nat.min u v = min u v := fun _ _ => rfl
    rw [plain, edge]
    omega
  simp only [lo, hi, sxWord, Prod.mk.injEq, true_and, and_true]
  exact spadMod_natCast _

theorem le_sxCycle (unit c j0 j : Nat) : c ≤ sxCycle unit c j0 j := by
  unfold sxCycle
  split <;> omega

theorem edge_zero (a n : Nat) : edge a n 0 = 0 := by simp [edge]

theorem edge_le (a n i : Nat) : edge a n i ≤ n := Nat.min_le_left ..

theorem edge_mono (a n i : Nat) : edge a n i ≤ edge a n (i + 1) := by
  simp only [edge]
  omega

theorem edge_wordCount (a n : Nat) : edge a n (wordCount a n) = n := by
  simp only [edge, wordCount]
  split <;> omega

/-- The words put together are the bytes, up to where the next word begins. -/
theorem flatten_sxWords (unit c w : Nat) (k : Cmd) (bytes : List Byte) (i : Nat) :
    ((List.range i).map (fun j => (sxWord unit c w k bytes j).2.2)).flatten = bytes.take (edge (skXaddr k) (w * skJcount k) i) := by
  induction i with
  | zero => simp [edge_zero]
  | succ i ih =>
    rw [List.range_succ, List.map_append, List.flatten_append, ih, List.map_singleton, List.flatten_singleton]
    simp only [sxWord, sub]
    rw [← List.take_add, Nat.add_sub_cancel' (edge_mono ..)]

section
variable (p : Pset) (st : Stream) (c : Nat)

/-- The elements of an a-half, each little-endian. -/
def sxBytes : List Byte := ((sxElems p st.header st.entry.word).map (leBytes (psWidth p))).flatten

theorem length_sxBytes : (sxBytes p st).length = psWidth p * skJcount st.entry.word := by
  rw [sxBytes, length_flatten_leBytes, length_sxElems, Nat.mul_comm]

theorem sxOut_eq : sxOut p st c = (List.range (wordCount (skXaddr st.entry.word) (psWidth p * skJcount st.entry.word))).map
    (sxWord (sxNeeds st.header) c (psWidth p) st.entry.word (sxBytes p st)) := sxWords_eq ..

theorem sxOut_late : ∀ k ∈ sxOut p st c, c ≤ k.1 := by
  rw [sxOut_eq, List.forall_mem_map]
  exact fun _ _ => le_sxCycle ..

theorem sxOut_bytes : ((sxOut p st c).map (fun o => o.2.2)).flatten = sxBytes p st := by
  rw [sxOut_eq, List.map_map]
  refine (flatten_sxWords ..).trans ?_
  rw [edge_wordCount, ← length_sxBytes, List.take_length]

theorem sxOut_place {i : Nat} {o : Nat × Nat × List Byte} (here : (sxOut p st c)[i]? = some o) :
    o.2.1 = (skXaddr st.entry.word + ((((sxOut p st c).take i).map (fun o => o.2.2)).flatten).length) % 0x800000 := by
  rw [sxOut_eq] at here ⊢
  have inside : i < wordCount (skXaddr st.entry.word) (psWidth p * skJcount st.entry.word) := by
    have := (List.getElem?_eq_some_iff.mp here).1
    rwa [List.length_map, List.length_range] at this
  rw [List.getElem?_map, List.getElem?_range inside, Option.map_some] at here
  obtain rfl := Option.some.inj here
  rw [← List.map_take, List.take_range, Nat.min_eq_left inside.le, List.map_map]
  have before := congrArg List.length
    (flatten_sxWords (sxNeeds st.header) c (psWidth p) st.entry.word (sxBytes p st) i)
  rw [List.length_take, length_sxBytes, Nat.min_eq_left (edge_le ..)] at before
  exact congrArg (fun n => (skXaddr st.entry.word + n) % 0x800000) before.symm

end

/-! SX_STREAM_START (R163, R209, R210). -/

/-- The write `w` of the unit `u` is the word `k`, no earlier than it is produced where `differ` holds. -/
def WordOf (u : Nat) (differ : Prop) (w : TimedWrite) (k : Nat × Nat × List Byte) : Prop :=
  w.unit = u ∧ w.addr = k.2.1 % 0x800000 ∧ w.data = k.2.2 ∧ (differ → k.1 ≤ w.cyc)

/-- From tile `x` to `y` the unit `u` has placed accesses and written these words, the core left as it is: where no row reads after cycle `lo`, the
writes are those of before, moved, and one for each word in their order. -/
structure Produces (u lo : Nat) (x y : Tile) (l : List (Nat × Nat × List Byte)) : Prop where
  core : SameCore x y
  settled : Settled x lo → Settled y lo
  differ : SeqsDiffer x → SeqsDiffer y
  only : OnlyLow u x → OnlyLow u y
  writes : Settled x lo → ∃ f ws, y.writes = x.writes.map f ++ ws ∧ Moves u x f ∧ ws.Forall₂ (WordOf u (SeqsDiffer x)) l

section
variable {u lo : Nat} {x y z : Tile} {l l' : List (Nat × Nat × List Byte)}

theorem WordOf.moved {differ : Prop} {f : TimedWrite → TimedWrite} (cycle : ∀ w, f w = { w with cyc := (f w).cyc })
    (later : differ → ∀ w, w.cyc ≤ (f w).cyc) {w : TimedWrite} {k : Nat × Nat × List Byte} (word : WordOf u differ w k) :
    WordOf u differ (f w) k := by
  obtain ⟨unit, addr, data, late⟩ := word
  refine ⟨?_, ?_, ?_, fun d => (late d).trans (later d w)⟩
  all_goals rw [cycle]; assumption

/-- Accesses without a word, as `Commits` has them. -/
theorem produces_of_commits (h : Commits u lo x y []) : Produces u lo x y [] where
  core := h.sameCore
  settled := h.settled
  differ := h.differ
  only := h.only
  writes settled := by
    obtain ⟨f, ws, now, moves, pieces, -⟩ := h.writes settled
    obtain rfl := List.map_eq_nil_iff.mp pieces
    exact ⟨f, [], now, moves, .nil⟩

theorem produces_of_sameBanks (u lo : Nat) (banks : SameBanks x y) (core : SameCore x y) : Produces u lo x y [] where
  core := core
  settled h := by rwa [Settled, banks.lastRead]
  differ h := by rwa [SeqsDiffer, banks.1]
  only h := by rwa [OnlyLow, banks.1]
  writes _ := ⟨id, [], by rw [banks.2.1, List.map_id, List.append_nil], moves_id u x, .nil⟩

theorem Produces.trans (first : Produces u lo x y l) (second : Produces u lo y z l') : Produces u lo x z (l ++ l') where
  core := first.core.trans second.core
  settled h := second.settled (first.settled h)
  differ h := second.differ (first.differ h)
  only h := second.only (first.only h)
  writes settled := by
    obtain ⟨f, ws, now, moves, words⟩ := first.writes settled
    obtain ⟨f', ws', now', moves', words'⟩ := second.writes (first.settled settled)
    refine ⟨f' ∘ f, ws.map f' ++ ws', ?_, moves.comp moves' first.differ first.only, List.rel_append ?_ (words'.imp fun w k word => ?_)⟩
    · rw [now', now, List.map_append, List.map_map, List.append_assoc]
    · exact List.forall₂_map_left_iff.mpr (words.imp fun w k word => word.moved moves'.cycle fun d => moves'.later (first.differ d))
    · obtain ⟨unit, addr, data, late⟩ := word
      exact ⟨unit, addr, data, fun d => late (first.differ d)⟩

/-- A word stands in its slot, no earlier than it is produced. -/
theorem produces_placeWrite (x : Tile) (rank a num pc : Nat) {k : Nat × Nat × List Byte} (late : lo ≤ k.1) (some_ : k.2.2 ≠ []) :
    Produces u lo x (placeWrite x rank k.1 a [(k.2.1, k.2.2)] u num pc) [k] := by
  have commits := commits_placeWrite late x rank a u num pc [(k.2.1, k.2.2)]
  have word : [(k.2.1, k.2.2)].filter (fun p => !p.2.isEmpty) = [(k.2.1, k.2.2)] := by
    rw [List.filter_singleton, List.isEmpty_eq_false_iff.mpr some_]
    rfl
  refine ⟨commits.sameCore, commits.settled, commits.differ, commits.only, fun h => ⟨_, _, placeWrite_writes _ _ _ _ _ _ h late,
    moves_seated x (wordClaim u rank num pc a true) k.1, ?_⟩⟩
  rw [writesOf, word]
  exact .cons ⟨rfl, rfl, rfl, fun _ => le_placeFrom_slot ..⟩ .nil

theorem produces_sxLand (rows : List (Nat × Nat)) (e : Nat) (q : QEntry) (x : Tile) {k : Nat × Nat × List Byte} (late : lo ≤ k.1)
    (some_ : k.2.2 ≠ []) : Produces (2 + e) lo x (sxLand rows e q x k) [k] :=
  (produces_of_commits (commits_of_marks (2 + e) lo x _ x.holds)).trans (produces_placeWrite _ lowRank (word64 k.2.1) q.num q.pc late some_)

theorem produces_sxTile (x : Tile) (e c : Nat) (p : Pset) (st : Stream) (some_ : ∀ k ∈ sxOut p st c, k.2.2 ≠ []) :
    Produces (2 + e) c x (sxTile x e c p st) (sxOut p st c) := by
  have late := sxOut_late p st c
  rw [sxTile]
  generalize sxOut p st c = l at some_ late
  induction l generalizing x with
  | nil => exact produces_of_sameBanks (2 + e) c ⟨rfl, rfl, rfl, rfl⟩ ⟨rfl, rfl, rfl, rfl⟩
  | cons k r ih =>
    exact (produces_sxLand _ e st.entry x (late k List.mem_cons_self) (some_ k List.mem_cons_self)).trans
      (ih _ (fun j hj => some_ j (List.mem_cons_of_mem k hj)) fun j hj => late j (List.mem_cons_of_mem k hj))

theorem produces_putStream (x : Tile) (e u lo : Nat) (st : Stream) : Produces u lo x (putStream x e st) [] :=
  produces_of_sameBanks u lo (sameBanks_putStream x e st) (sameCore_putStream x e st)

theorem commits_readWords (x : Tile) (e : Nat) (q : QEntry) (c lo : Nat) (ws : List Nat) : Commits (2 + e) lo x (readWords x e q c ws) [] := by
  have read := Commits.foldl (u := 2 + e) (lo := lo) (out := fun _ => []) (l := ws.mapIdx (fun i a => (c + i / 8, a)))
    (fun p _ x => commits_placeRead lo x lowRank p.1 p.2 (2 + e) q.num q.pc) x
  rwa [List.flatMap_eq_nil_iff.mpr fun _ _ => rfl] at read

theorem commits_readSource (x : Tile) (e c lo : Nat) (st : Stream) : Commits (2 + e) lo x (readSource x e c st) [] :=
  (commits_readWords x e st.entry c lo _).trans (commits_setReleases ..)

/-- What SX leaves of the tile: each word of the a-half, and the reads with which the key's transfers begin. -/
theorem produces_sxStart (s : State) (g : Group) (x : Tile) (e c : Nat) (p : Pset) (st k : Stream) (some_ : ∀ k ∈ sxOut p st c, k.2.2 ≠ []) :
    Produces (2 + e) c x (keyTile s g (putStream (sxTile x e c p st) e k) e c k []) (sxOut p st c) := by
  have started := produces_of_commits (commits_readSource
    (putStream (putStream (sxTile x e c p st) e k) e (keyStream s g (putStream (sxTile x e c p st) e k) c k [])) e c c
    (keyStream s g (putStream (sxTile x e c p st) e k) c k []))
  have all_ := (produces_sxTile x e c p st some_).trans
    ((produces_putStream _ e (2 + e) c k).trans ((produces_putStream _ e (2 + e) c _).trans started))
  rwa [List.append_nil, List.append_nil, List.append_nil] at all_

theorem Produces.wroteMore (h : Produces u lo x y l) : ∃ ws, WroteMore x y u lo ws ∧ ws.Forall₂ (WordOf u (SeqsDiffer x)) l := by
  by_cases settled : Settled x lo
  · obtain ⟨f, ws, now, moves, words⟩ := h.writes settled
    refine ⟨ws, fun _ => ⟨_, now, sameWrites_map moves.cycle _, fun none_ other => ?_⟩, words⟩
    exact (List.map_congr_left fun w hw => moves.other (onlyLow_of_noLowRanks none_ u) w (other w hw)).trans (List.map_id _)
  · refine ⟨l.map fun k => { cyc := k.1, addr := k.2.1 % 0x800000, data := k.2.2, unit := u, num := 0, pc := 0 },
      fun s => absurd s settled, List.forall₂_map_left_iff.mpr (List.forall₂_same.mpr fun k _ => ⟨rfl, rfl, rfl, fun _ => le_rfl⟩)⟩

theorem words_bytes {differ : Prop} {ws : List TimedWrite} (words : ws.Forall₂ (WordOf u differ) l) :
    ws.map (fun w => (w.addr, w.data)) = l.map (fun k => (k.2.1 % 0x800000, k.2.2)) := by
  induction words with
  | nil => rfl
  | cons word _ ih =>
    obtain ⟨-, addr, data, -⟩ := word
    rw [List.map_cons, List.map_cons, ih, addr, data]

theorem words_at {differ : Prop} {ws : List TimedWrite} (words : ws.Forall₂ (WordOf u differ) l) {i : Nat} {k : Nat × Nat × List Byte}
    {w : TimedWrite} (word : l[i]? = some k) (write : ws[i]? = some w) : WordOf u differ w k := by
  obtain ⟨inside, rfl⟩ := List.getElem?_eq_some_iff.mp word
  obtain ⟨inside', rfl⟩ := List.getElem?_eq_some_iff.mp write
  exact words.get inside' inside

theorem words_mem {differ : Prop} {ws : List TimedWrite} (words : ws.Forall₂ (WordOf u differ) l) {w : TimedWrite} (among : w ∈ ws) :
    ∃ k ∈ l, WordOf u differ w k := by
  obtain ⟨i, write⟩ := List.getElem?_of_mem among
  have inside : i < l.length := words.length_eq ▸ (List.getElem?_eq_some_iff.mp write).1
  exact ⟨_, List.getElem_mem inside, words_at words (List.getElem?_eq_getElem inside) write⟩

end

section
variable {s : State} {t e c : Nat} {g : Group} {st k : Stream} {p : Pset}

theorem exec_sxStreamStart (newest : newestIn s t e .sx = some (g, st)) (set : keySet s g st.header = some p) (last : st.last ≤ c)
    (here : arrives s g t (tileOf s t) c = true) (free : sxFree (tileOf s t) e (sxNeeds st.header) c = true)
    (clean : landViols (footOf s g.handle) (tileOf s t) (sxTile (tileOf s t) e c p st) e st.entry = [])
    (started : k = { st with sxUnit := sxNeeds st.header, sxEnd := sxLast p st c })
    (clear : KeyClear s g (putStream (sxTile (tileOf s t) e c p st) e k) e c k []) : exec (.sxStreamStart t e c) s =
      .next (pumpBoth (setTile s t (keyTile s g (putStream (sxTile (tileOf s t) e c p st) e k) e c k [])) g t c) := by
  have row : exec (.sxStreamStart t e c) s = execSxStreamStart t e c s := rfl
  have ready : (decide (st.last ≤ c) && sxFree (tileOf s t) e (sxNeeds st.header) c && arrives s g t (tileOf s t) c) = true := by
    rw [decide_eq_true last, free, here]
    rfl
  subst started
  rw [row, execSxStreamStart]
  simp only [newest, set, ready, if_true]
  exact congrArg _ (startKey_clear s g _ c _ [] t e clean clear)

/-- SX writes the words of the a-half, none before it is produced, where the accesses of the lower ranks bear different numbers. -/
theorem sxStreamStart_lands (differ : SeqsDiffer (tileOf s t)) (some_ : ∀ k ∈ sxOut p st c, k.2.2 ≠ [])
    (run : exec (.sxStreamStart t e c) s =
      .next (pumpBoth (setTile s t (keyTile s g (putStream (sxTile (tileOf s t) e c p st) e k) e c k [])) g t c)) :
    ∃ s' ws, exec (.sxStreamStart t e c) s = .next s' ∧ Landed s s' t (tileOf s t) (2 + e) c ws ∧
      ws.map (fun w => (w.addr, w.data)) = (sxOut p st c).map (fun k => (k.2.1 % 0x800000, k.2.2)) ∧
      ∀ (i : Nat) (k : Nat × Nat × List Byte) (w : TimedWrite), (sxOut p st c)[i]? = some k → ws[i]? = some w → k.1 ≤ w.cyc := by
  have produced := produces_sxStart s g (tileOf s t) e c p st k some_
  obtain ⟨ws, wrote, words⟩ := produced.wroteMore
  refine ⟨_, ws, run, landed_pump (.refl s) produced.core wrote (fun w hw => ?_) g c, words_bytes words, fun i k w word write => ?_⟩
  · obtain ⟨k, among, unit, -, -, late⟩ := words_mem words hw
    exact ⟨(sxOut_late p st c k among).trans (late differ), unit⟩
  · obtain ⟨-, -, -, late⟩ := words_at words word write
    exact late differ

end

/-- The architect's seeded key, whose tile has no access yet, meets `sxStreamStart_lands`. -/
theorem sxStreamStart_lands_witness : ∃ s' ws, exec (.sxStreamStart 0 0 9) (Tests.keyState Tests.seeding) = .next s' ∧
    Landed (Tests.keyState Tests.seeding) s' 0 (tileOf (Tests.keyState Tests.seeding) 0) 2 9 ws := by
  obtain ⟨newest, set, last, here, free, clean, clear, some_, -, -⟩ := Tests.witness_StreamPhasesComplete_sx
  have none_ : (tileOf (Tests.keyState Tests.seeding) 0).claims = [] := by decide +kernel
  have differ : SeqsDiffer (tileOf (Tests.keyState Tests.seeding) 0) := by
    rw [SeqsDiffer, none_]
    exact .nil
  obtain ⟨s', ws, run, landed, -⟩ := sxStreamStart_lands differ some_ (exec_sxStreamStart newest set last here free clean rfl clear)
  exact ⟨s', ws, run, landed⟩

/-! The machine of the counterexample: a seeded key whose a-half is four elements of four bytes, from 0x2038 on, in two words. SX starts in cycle 9
and has produced both in cycle 13, in which the two accesses of the machine of O26 stand in the bank of 0x2000. -/

/-- SE.KEY with XADDR 0x2038, JCOUNT 4 and no b-half, which waits for SX. -/
def twoKeyWords : Stream :=
  { stream0 2 (Tests.seEntry (Tests.ec 0x42 2 (0x3FF * 2 ^ 150 + 0x2038 * 2 ^ 81 + 4 * 2 ^ 76 + 4 * 2 ^ 11)) 0) 4 .sx with
    header := Tests.keyHdr }

/-- The stream with SX started for it. -/
def twoKeyWordsStarted : Stream :=
  { twoKeyWords with sxUnit := sxNeeds twoKeyWords.header, sxEnd := sxLast Tests.keySet9 twoKeyWords 9 }

def twinKeyTile : Tile :=
  { Tests.streamTile twoKeyWords with
    claims := [lowWrite 2 1 lowRank 0 0x80 0, lowWrite 3 9 lowRank 13 0x2000 1, lowWrite 2 1 lowRank 13 0x2000 0] }

def twinKey : State := setTile (Tests.keyState twoKeyWords) 0 twinKeyTile

/-- The tile once SX has produced the a-half. -/
def twinKeyProduced : Tile := sxTile twinKeyTile 0 9 Tests.keySet9 twoKeyWords

theorem twinKey_tile : tileOf twinKey 0 = twinKeyTile := tileOf_setTile ..

theorem twinKey_starts : newestIn twinKey 0 0 .sx = some (Tests.g2, twoKeyWords) ∧
    keySet twinKey Tests.g2 twoKeyWords.header = some Tests.keySet9 ∧ twoKeyWords.last ≤ 9 ∧ arrives twinKey Tests.g2 0 twinKeyTile 9 = true ∧
    sxFree twinKeyTile 0 (sxNeeds twoKeyWords.header) 9 = true := by decide +kernel

theorem twinKey_clean : landViols (footOf twinKey 7) twinKeyTile twinKeyProduced 0 twoKeyWords.entry = [] ∧
    KeyClear twinKey Tests.g2 (putStream twinKeyProduced 0 twoKeyWordsStarted) 0 9 twoKeyWordsStarted [] ∧
    ∀ k ∈ sxOut Tests.keySet9 twoKeyWords 9, k.2.2 ≠ [] := by decide +kernel

/-- The access that bears the number of the one in cycle 0 is taken to stand there, and the first word moves with it. -/
theorem twinKey_writes : (keyTile twinKey Tests.g2 (putStream twinKeyProduced 0 twoKeyWordsStarted) 0 9 twoKeyWordsStarted []).writes.map
    (fun w => w.cyc) = [0, 13] := by decide +kernel

/-- Refutes O23: the statement is about every tile, also one in which two accesses of the lower ranks bear one sequence number. As the second word
of an a-half is placed, the model takes one of the two for the other and moves the first word with it from cycle 13, in which it is produced, to
cycle 0. The model itself numbers its accesses upwards; of tiles in which they differ, `sxStreamStart_lands` proves the clause, and of every tile
`exec_blockListRead` with `blockListRead_walks`, `keyHeaderCheck_fails`, `keyHeaderCheck_seeded`, `keyHeaderCheck_stored`, `getElem?_sxElems` with
`keyElem_ring` and `keyElem_torus`, `sxOut_bytes` and `sxOut_place` prove the others. -/
theorem not_streamPhasesComplete : ¬ Obligations.StreamPhasesComplete := by
  unfold Obligations.StreamPhasesComplete
  intro h
  obtain ⟨-, -, start, -⟩ := h twinKey 0 0 9 Tests.g2 twoKeyWords twinKeyTile twinKey_tile.symm
  obtain ⟨newest, set, last, here, free⟩ := twinKey_starts
  obtain ⟨clean, clear, some_⟩ := twinKey_clean
  obtain ⟨s', ws, run, landed, -⟩ := start _ _ _ newest set last here free rfl clean rfl clear some_
  have run' := exec_sxStreamStart (k := twoKeyWordsStarted) newest set last (twinKey_tile ▸ here) (twinKey_tile ▸ free)
    (twinKey_tile ▸ clean) rfl (twinKey_tile ▸ clear)
  rw [twinKey_tile] at run'
  obtain rfl := Host.Outcome.next.inj (run'.symm.trans run)
  obtain ⟨after, -⟩ := sending_pump twinKey Tests.g2 0 9 (keyTile twinKey Tests.g2 (putStream twinKeyProduced 0 twoKeyWordsStarted) 0 9
    twoKeyWordsStarted [])
  have cycles := (congrArg (fun y : Tile => y.writes.map fun w => w.cyc) after).trans twinKey_writes
  exact not_landed_early rfl (by decide) (k := 0) (by decide) (cycles ▸ List.mem_cons_self) landed

end Sys2Proof.Proofs

/-! SUPPORT. What device memory and completions keep of the Host Interface, and device memory under gathers and scatters (R205, R237, R242,
R246, R292, R294). -/

namespace Sys2Proof.Proofs

open Sys2Proof Sys2Proof.Machine Sys2Proof.Claims Sys2Proof.Laws

/-! The Host Interface under the events of device memory (R267, R353). -/

/-- The Host Interface but for its MSI-X tables, and whether the device is unrecoverable, are as they were. -/
structure HostCalm (s s' : State) : Prop where
  hi : s'.hi = { s.hi with msix := s'.hi.msix }
  sound : s'.flt.unrecoverable = s.flt.unrecoverable

theorem HostCalm.refl (s : State) : HostCalm s s := ⟨rfl, rfl⟩

theorem HostCalm.trans {a b c : State} (h : HostCalm a b) (k : HostCalm b c) : HostCalm a c :=
  ⟨by rw [k.hi, h.hi], k.sound.trans h.sound⟩

/-- A change elsewhere before it. -/
theorem HostCalm.after {a b c : State} (k : HostCalm b c) (hi : b.hi = a.hi) (sound : b.flt.unrecoverable = a.flt.unrecoverable) :
    HostCalm a c := .trans ⟨by rw [hi], sound⟩ k

theorem HostCalm.xfers {s s' : State} (calm : HostCalm s s') : s'.hi.xfers = s.hi.xfers := by rw [calm.hi]

theorem HostCalm.recent {s s' : State} (calm : HostCalm s s') : s'.hi.recent = s.hi.recent := by rw [calm.hi]

theorem HostCalm.cqs {s s' : State} (calm : HostCalm s s') : s'.hi.cqs = s.hi.cqs := by rw [calm.hi]

theorem msixSend_calm (s : State) (fn vec : Nat) : HostCalm s (msixSend s fn vec) := by
  unfold msixSend
  exact ite_keeps (R := HostCalm) (ite_keeps (R := HostCalm) ⟨rfl, rfl⟩ ⟨rfl, rfl⟩) (.refl s)

theorem faultInterrupt_calm (s : State) : HostCalm s (faultInterrupt s) := ite_keeps (msixSend_calm ..) (.refl s)

theorem fltEvent_calm (s : State) (b : Nat) : HostCalm s (fltEvent s b) :=
  ite_keeps (R := HostCalm) ((faultInterrupt_calm _).after rfl rfl) ⟨rfl, rfl⟩

theorem memEvent_calm (s : State) (b : Nat) : HostCalm s (memEvent s b) :=
  ite_keeps (R := HostCalm) ((faultInterrupt_calm _).after rfl rfl) ⟨rfl, rfl⟩

theorem tsEvent_calm (s : State) (b : Nat) : HostCalm s (tsEvent s b) :=
  ite_keeps (R := HostCalm) ((faultInterrupt_calm _).after rfl rfl) ⟨rfl, rfl⟩

theorem logFault_calm (s : State) (source action ltile ptile channel part handle detail : Nat) :
    HostCalm s (logFault s source action ltile ptile channel part handle detail) :=
  ite_keeps (R := HostCalm) ((fltEvent_calm ..).after rfl rfl) ⟨rfl, rfl⟩

theorem endInjection_calm (s : State) (fired : Bool) (kind code : Nat) : HostCalm s (endInjection s fired kind code) :=
  (fltEvent_calm ..).after rfl rfl

theorem crcRepaired_calm (s : State) (source part handle st u : Nat) : HostCalm s (crcRepaired s source part handle st u) :=
  .trans (b := unitMended s st u) ⟨rfl, rfl⟩ ((memEvent_calm ..).trans (logFault_calm ..))

theorem poison_calm (s : State) (st : Nat) : HostCalm s (poison s st) := (memEvent_calm ..).after rfl rfl

theorem fireUnit_calm (s : State) (part handle st u : Nat) : HostCalm s (fireUnit s part handle st u) := by
  unfold fireUnit
  split
  · exact (endInjection_calm ..).trans (crcRepaired_calm ..)
  · exact .refl s

theorem journal_calm (s : State) (st : Nat) (us keep : List Nat) : HostCalm s (journal s st us keep) :=
  (foldl_keeps HostCalm.refl HostCalm.trans (fun s u => (⟨rfl, rfl⟩ : HostCalm s (unitMended s st u))) _ s).trans ⟨rfl, rfl⟩

theorem stripeWrite_calm (s : State) (st : Nat) (data : List Byte) (en : List Bool) : HostCalm s (stripeWrite s st data en) := by
  unfold stripeWrite
  refine ite_keeps (.refl s) ?_
  split
  · exact (journal_calm ..).after rfl rfl
  · refine ite_keeps (R := HostCalm) ((journal_calm ..).after rfl rfl) ?_
    exact (poison_calm s st).trans ((journal_calm ..).after rfl rfl)
  · exact ite_keeps (R := HostCalm) ((journal_calm ..).after rfl rfl) ((journal_calm ..).after rfl rfl)

theorem writeStripe_calm (s : State) (part handle st : Nat) (data : List Byte) (en : List Bool) :
    HostCalm s (writeStripe s part handle st data en) :=
  (foldl_keeps HostCalm.refl HostCalm.trans (fun s u => fireUnit_calm s part handle st u) _ s).trans (stripeWrite_calm ..)

theorem charge_calm (s : State) (p : Nat) (n : Int) : HostCalm s (charge s p n) := ⟨rfl, rfl⟩

theorem chargeUrgent_calm (s : State) (p n : Nat) : HostCalm s (chargeUrgent s p n) :=
  ite_keeps (R := HostCalm) (charge_calm ..) ⟨rfl, rfl⟩

theorem devWrite_calm (s : State) (part handle a : Nat) (b : List Byte) : HostCalm s (devWrite s part handle a b) := by
  unfold devWrite
  refine ite_keeps (.refl s) ?_
  exact foldl_keeps HostCalm.refl HostCalm.trans (fun s i => (chargeUrgent_calm ..).trans (writeStripe_calm ..)) _ s

/-! The transfers on the engine under completions (R292, R294). -/

/-- The same transfers are on the engine. -/
def SameXfers (s s' : State) : Prop := s'.hi.xfers = s.hi.xfers

theorem SameXfers.refl (s : State) : SameXfers s s := rfl

theorem SameXfers.trans {a b c : State} (h : SameXfers a b) (k : SameXfers b c) : SameXfers a c := Eq.trans k h

theorem cqSignal_sameXfers (s : State) (g : Nat) : SameXfers s (cqSignal s g) := (msixSend_calm ..).xfers

theorem writeEntry_sameXfers (s : State) (g : Nat) (h : HeldEntry) : SameXfers s (writeEntry s g h) :=
  ite_keeps (R := SameXfers) (cqSignal_sameXfers ..) rfl

theorem holdEntry_sameXfers (s : State) (g : Nat) (h : HeldEntry) : SameXfers s (holdEntry s g h) :=
  ite_keeps (R := SameXfers) rfl rfl

theorem noticeBy_sameXfers (s : State) (fn code status handle : Nat) : SameXfers s (noticeBy holdEntry s fn code status handle) := by
  unfold noticeBy
  refine ite_keeps (R := SameXfers) ?_ rfl
  split
  · rfl
  · exact ite_keeps (R := SameXfers) rfl (ite_keeps (R := SameXfers) rfl (holdEntry_sameXfers (drawBytes s 15).2 _ _))

theorem postEntry_sameXfers (s : State) (g : Nat) (h : HeldEntry) : SameXfers s (postEntry s g h) := by
  unfold postEntry
  refine ite_keeps (R := SameXfers) rfl (ite_keeps (R := SameXfers) rfl (ite_keeps (R := SameXfers) (writeEntry_sameXfers ..) ?_))
  exact ite_keeps (R := SameXfers) (holdEntry_sameXfers ..) ((holdEntry_sameXfers ..).trans (noticeBy_sameXfers ..))

theorem settle_sameXfers (s : State) (done : Option (Nat × Bool)) : SameXfers s (settle s done) := by
  unfold settle
  split
  · rfl
  · split
    · rfl
    · exact ite_keeps (R := SameXfers) (s := s) rfl rfl

theorem complete_sameXfers (s : State) (h status info : Nat) (d : Option Detail) (ex : Bool) :
    SameXfers s (complete s h status info d ex) := by
  unfold complete
  split
  · rfl
  · refine ite_keeps (R := SameXfers) rfl ?_
    exact ite_keeps (R := SameXfers) ((postEntry_sameXfers ..).trans (settle_sameXfers ..)) (postEntry_sameXfers s _ _)

theorem time_of_memOnly {s s' : State} (only : MemOnly s s') : s'.time = s.time := by
  unfold MemOnly at only
  rw [only]

/-- The end of a transfer tells its status, whatever device memory has seen before, and takes the transfer off the engine. -/
theorem closed_endTransfer {s s1 : State} (store : StoreOnly s s1) (calm : HostCalm s s1) (h status : Nat) :
    Closed s (endTransfer s1 h status) h status 0 ∧ h ∉ (endTransfer s1 h status).hi.xfers := by
  have work : SameWork s { s1 with hi := { s1.hi with xfers := s1.hi.xfers.filter (· ≠ h) } } := ⟨store.entries, calm.cqs⟩
  refine ⟨⟨over_complete _ h status 0 none false, fun e held open_ enabled sound => ?_⟩, fun among => ?_⟩
  · rw [← work.entryOf] at held
    rw [← work.cqOf] at enabled
    rw [← calm.sound] at sound
    rw [← time_of_memOnly store.frame]
    exact told_complete _ h status 0 none false e held open_ enabled sound
  · rw [endTransfer, complete_sameXfers] at among
    simpa using (List.mem_filter.mp among).2

/-! The Stack Cache, and the units that a transfer reads (R205, R242, R246). -/

/-- Only the lines of the Stack Cache differ. -/
def LinesOnly (s s' : State) : Prop := s' = { s with mem := { s.mem with lines := s'.mem.lines } }

theorem LinesOnly.readOnly {s s' : State} (only : LinesOnly s s') : ReadOnly s s' := by
  rw [only]
  exact ⟨⟨rfl, rfl⟩, rfl, rfl⟩

theorem LinesOnly.calm {s s' : State} (only : LinesOnly s s') : HostCalm s s' := by
  rw [only]
  exact ⟨rfl, rfl⟩

theorem cacheRead_linesOnly (s : State) (st u hint session part : Nat) (rebuilt : Bool) :
    LinesOnly s (cacheRead s st u hint session part rebuilt) := by
  unfold cacheRead
  split
  · rfl
  · rfl
  · exact ite_keeps (R := LinesOnly) rfl rfl
  · exact ite_keeps (R := LinesOnly) rfl rfl
  · rfl

theorem cacheWrite_linesOnly (s : State) (st u hint session part : Nat) : LinesOnly s (cacheWrite s st u hint session part) := by
  unfold cacheWrite
  split <;> rfl

theorem charge_readOnly (s : State) (p : Nat) (n : Int) : ReadOnly s (charge s p n) := ⟨⟨rfl, rfl⟩, rfl, rfl⟩

/-- One unit more of a gather. -/
def gatherNext (part session hint handle : Nat) (acc : State × Bool) (p : Nat × Nat) : State × Bool :=
  if !acc.2 then acc
  else
    if lineServes acc.1 p.1 p.2 then (cacheRead acc.1 p.1 p.2 hint session part false, true)
    else
      let s := charge acc.1 part 256
      let direct := allocates s p.1 p.2
      match fetchUnit s part handle p.1 p.2 with
      | (s, some _) => (cacheRead s p.1 p.2 hint session part (!direct), true)
      | (s, none) => (objectLost s handle part p.1, false)

theorem devGather_eq (s : State) (part session hint handle : Nat) (l : List Nat) :
    devGather s part session hint handle l = (unitsAt l).foldl (gatherNext part session hint handle) (s, true) := rfl

/-- A unit that is there is read without a change of any byte. -/
theorem gatherNext_readOnly {part session hint handle : Nat} {acc : State × Bool} {p : Nat × Nat}
    (good : (gatherNext part session hint handle acc p).2 = true) :
    acc.2 = true ∧ ReadOnly acc.1 (gatherNext part session hint handle acc p).1 := by
  obtain ⟨s, b⟩ := acc
  cases b with
  | false => cases good
  | true =>
    refine ⟨rfl, ?_⟩
    simp only [gatherNext, Bool.not_true, Bool.false_eq_true, if_false] at good ⊢
    split
    · exact (cacheRead_linesOnly ..).readOnly
    next miss =>
      have fetched := fetchUnit_readOnly (charge s part 256) part handle p.1 p.2
      rw [if_neg miss] at good
      revert fetched good
      generalize fetchUnit (charge s part 256) part handle p.1 p.2 = r
      obtain ⟨s1, b⟩ := r
      intro good fetched
      cases b with
      | none => cases good
      | some b => exact (charge_readOnly ..).trans (fetched.trans (cacheRead_linesOnly ..).readOnly)

/-- A gather that finds every unit changes no byte. -/
theorem devGather_readOnly {s : State} {part session hint handle : Nat} {l : List Nat}
    (good : (devGather s part session hint handle l).2 = true) : ReadOnly s (devGather s part session hint handle l).1 := by
  rw [devGather_eq] at good ⊢
  have go : ∀ (us : List (Nat × Nat)) (acc : State × Bool), (us.foldl (gatherNext part session hint handle) acc).2 = true →
      acc.2 = true ∧ ReadOnly acc.1 (us.foldl (gatherNext part session hint handle) acc).1 := by
    intro us
    induction us with
    | nil => exact fun acc good => ⟨good, .refl _⟩
    | cons p us ih =>
      intro acc good
      obtain ⟨first, rest⟩ := ih _ good
      obtain ⟨start, read⟩ := gatherNext_readOnly first
      exact ⟨start, read.trans rest⟩
  exact (go _ _ good).2

/-! The enabled bytes of a stripe (R237). -/

/-- What a write with these enables puts at offset `k`. -/
def enabledAt (k : Nat) (w : List Byte × List Bool) : Option Byte := if w.2[k]? = some true then some (w.1.getD k 0) else none

theorem rd_putEnabled {m : Mem} (wf : m.wf = true) (a : Nat) {l : List Byte} {en : List Bool} (length : en.length = l.length) (x : Nat) :
    (putEnabled m a l en).rd x = if a ≤ x ∧ en[x - a]? = some true then l.getD (x - a) 0 else m.rd x := by
  induction l generalizing m a en with
  | nil =>
    obtain rfl := List.length_eq_zero_iff.mp length
    simp [putEnabled]
  | cons b l ih =>
    obtain ⟨e, en, rfl⟩ := List.exists_cons_of_length_eq_add_one length
    have wf' : (if e = true then m.wr a b else m).wf = true := by
      split
      · exact Mem.wr_wf m a b wf
      · exact wf
    have others : x ≠ a → (if e = true then m.wr a b else m).rd x = m.rd x := fun other => by
      split
      · exact Mem.rd_wr_ne m b other
      · rfl
    rw [putEnabled, ih wf' (a + 1) (by simpa using length)]
    rcases Nat.lt_trichotomy x a with below | rfl | above
    · rw [others (by omega), if_neg (c := a + 1 ≤ x ∧ _) (by omega), if_neg (by omega)]
    · rw [if_neg (c := x + 1 ≤ x ∧ _) (by omega), Nat.sub_self]
      cases e with
      | true => simp [Mem.rd_wr_same m x b wf]
      | false => simp
    · have next : x - a = (x - (a + 1)) + 1 := by omega
      rw [others (by omega), next, List.getElem?_cons_succ, List.getD_cons_succ]
      simp only [show a + 1 ≤ x ↔ a ≤ x by omega]

/-- A write that covers no unit enables no byte. -/
theorem enables_none {en : List Bool} (covers : (coveredUnits en).isEmpty = true) {k : Nat} (low : k < 4096) : en[k]? ≠ some true := by
  intro on
  have none_ := List.filter_eq_nil_iff.mp (List.isEmpty_iff.mp covers) (k / 256) (List.mem_range.mpr (by omega))
  refine none_ (List.any_eq_true.mpr ⟨true, List.mem_of_getElem? (i := k - 256 * (k / 256)) ?_, rfl⟩)
  rw [List.getElem?_take_of_lt (by omega), List.getElem?_drop, ← on]
  congr 1
  omega

/-- A write of a stripe changes the bytes that it enables. -/
theorem memByte_writeStripe {s : State} (wf : s.mem.bytes.wf = true) (part handle st : Nat) {w : List Byte × List Bool}
    (data : w.1.length = 4096) (enables : w.2.length = 4096) (x : Nat) :
    memByte (writeStripe s part handle st w.1 w.2).mem x =
      if x / 4096 = st then (enabledAt (x % 4096) w).getD (memByte s.mem x) else memByte s.mem x := by
  have place : (4096 * st ≤ x ∧ w.2[x - 4096 * st]? = some true) ↔ x / 4096 = st ∧ w.2[x % 4096]? = some true := by
    constructor
    · rintro ⟨le, on⟩
      have inside : x - 4096 * st < w.2.length := (List.getElem?_eq_some_iff.mp on).1
      have same : x - 4096 * st = x % 4096 := by omega
      exact ⟨by omega, same ▸ on⟩
    · rintro ⟨rfl, on⟩
      have same : x - 4096 * (x / 4096) = x % 4096 := by omega
      exact ⟨by omega, same.symm ▸ on⟩
  have merge : (if x / 4096 = st then (enabledAt (x % 4096) w).getD (memByte s.mem x) else memByte s.mem x) =
      if 4096 * st ≤ x ∧ w.2[x - 4096 * st]? = some true then w.1.getD (x - 4096 * st) 0 else memByte s.mem x := by
    rw [if_congr place rfl rfl]
    by_cases here : x / 4096 = st
    · have same : x - 4096 * st = x % 4096 := by omega
      simp only [enabledAt, here, same, true_and, if_true]
      split <;> rfl
    · simp only [here, false_and, if_false]
  rw [merge]
  cases covers : (coveredUnits w.2).isEmpty with
  | true =>
    have off : ¬(4096 * st ≤ x ∧ w.2[x - 4096 * st]? = some true) := fun on =>
      enables_none covers (Nat.mod_lt x (by decide)) (place.mp on).2
    rw [if_neg off]
    unfold writeStripe stripeWrite
    simp only [covers, if_true]
    exact (foldl_keeps ReadOnly.refl ReadOnly.trans (fun s u => fireUnit_readOnly s part handle st u) _ s).memByte x
  | false =>
    obtain ⟨s1, y, read, put⟩ := writeStripe_puts s part handle st w.1 covers
    rw [put.memByte, ← read.memByte, memByte_eq, memByte_eq]
    simp only [stripePut, undefAt_definedBy, rd_putEnabled (show s1.mem.bytes.wf = true by rw [read.bytes]; exact wf) _ (enables.trans data.symm)]
    split <;> rfl

/-! A scatter, the bytes of its stripes (R205, R294). -/

/-- What a scatter puts at an address. -/
def scattered (t : Scatter) (x : Nat) : Option Byte := (Tbl.find t (x / 4096)).bind (enabledAt (x % 4096))

/-- The stripes of a scatter rise, each with its 4,096 bytes and their enables. -/
structure WholeStripes (t : Scatter) : Prop where
  rising : t.Pairwise (fun p q => p.1 < q.1)
  whole : ∀ p ∈ t, p.2.1.length = 4096 ∧ p.2.2.length = 4096

theorem Tbl.put_rising {α : Type} {t : Tbl α} (rising : t.Pairwise (fun p q => p.1 < q.1)) (k : Nat) (v : α) :
    (t.put k v).Pairwise (fun p q => p.1 < q.1) := by
  induction t with
  | nil => exact List.pairwise_singleton ..
  | cons p r ih =>
    obtain ⟨j, w⟩ := p
    obtain ⟨first, rest⟩ := List.pairwise_cons.mp rising
    rw [Tbl.put]
    split_ifs with below here
    · refine List.pairwise_cons.mpr ⟨List.forall_mem_cons.mpr ⟨below, fun q hq => Nat.lt_trans below (first q hq)⟩, rising⟩
    · exact List.pairwise_cons.mpr ⟨here ▸ first, rest⟩
    · refine List.pairwise_cons.mpr ⟨fun q hq => ?_, ih rest⟩
      rcases Tbl.mem_put hq with rfl | old
      · show j < k
        omega
      · exact first q old

/-- A stripe of a scatter: its bytes and their enables, none before an element is added there. -/
def stripeAt (t : Scatter) (k : Nat) : List Byte × List Bool := Tbl.get t k (List.replicate 4096 0, List.replicate 4096 false)

theorem Scatter.stripeAt_whole {t : Scatter} (whole : WholeStripes t) (k : Nat) :
    (stripeAt t k).1.length = 4096 ∧ (stripeAt t k).2.length = 4096 := by
  unfold stripeAt Tbl.get
  cases found : Tbl.find t k with
  | none => exact ⟨List.length_replicate, List.length_replicate⟩
  | some w => exact whole.whole _ (Tbl.mem_of_find found)

theorem Scatter.enabledAt_stripeAt (t : Scatter) (x : Nat) :
    enabledAt (x % 4096) (stripeAt t (x / 4096)) = scattered t x := by
  unfold scattered stripeAt Tbl.get
  cases Tbl.find t (x / 4096) with
  | none =>
    rw [Option.getD_none, Option.bind_none, enabledAt, List.getElem?_replicate]
    split <;> simp
  | some w => rfl

theorem getElem?_spliced {α : Type} {l v : List α} {o : Nat} (fits : o + v.length ≤ l.length) (k : Nat) :
    (l.take o ++ v ++ l.drop (o + v.length))[k]? = if o ≤ k ∧ k < o + v.length then v[k - o]? else l[k]? := by
  have taken : (l.take o).length = o := by rw [List.length_take]; omega
  rw [List.append_assoc]
  rcases Nat.lt_or_ge k o with before | from_
  · rw [if_neg (by omega), List.getElem?_append_left (by omega), List.getElem?_take_of_lt before]
  · rw [List.getElem?_append_right (by omega), taken]
    rcases Nat.lt_or_ge k (o + v.length) with inside | after
    · rw [if_pos ⟨from_, inside⟩, List.getElem?_append_left (by omega)]
    · rw [if_neg (by omega), List.getElem?_append_right (by omega), List.getElem?_drop]
      congr 1
      omega

/-- One element added to its stripe. -/
def spliceElem (w : List Byte × List Bool) (o : Nat) (b : List Byte) : List Byte × List Bool :=
  (splice w.1 o b, w.2.take o ++ b.map (fun _ => true) ++ w.2.drop (o + b.length))

theorem Scatter.add_eq (t : Scatter) (a : Nat) (b : List Byte) : t.add a b =
    Tbl.put t (a / 4096) (spliceElem (stripeAt t (a / 4096)) (a % 4096) b) := rfl

section
variable {w : List Byte × List Bool} {o : Nat} {b : List Byte} (data : o + b.length ≤ w.1.length) (enables : o + b.length ≤ w.2.length)
include data enables

theorem spliceElem_length : (spliceElem w o b).1.length = w.1.length ∧ (spliceElem w o b).2.length = w.2.length := by
  refine ⟨splice_length data, ?_⟩
  simp only [spliceElem, List.length_append, List.length_take, List.length_map, List.length_drop]
  omega

theorem enabledAt_spliceElem (k : Nat) :
    enabledAt k (spliceElem w o b) = if o ≤ k ∧ k < o + b.length then some (b.getD (k - o) 0) else enabledAt k w := by
  have bytes := getElem?_spliced data k
  have on := getElem?_spliced (l := w.2) (v := b.map fun _ => true) (o := o) (by rw [List.length_map]; exact enables) k
  rw [List.length_map] at on
  unfold enabledAt spliceElem splice
  rw [on, List.getD_eq_getElem?_getD, bytes]
  split
  next inside =>
    have there : k - o < b.length := by omega
    rw [List.getElem?_map, List.getElem?_eq_getElem there, List.getD_eq_getElem?_getD, List.getElem?_eq_getElem there]
    rfl
  · rw [List.getD_eq_getElem?_getD]

end

section
variable {t : Scatter} (whole : WholeStripes t) {a : Nat} {b : List Byte} (fits : a % 4096 + b.length ≤ 4096)
include whole fits

theorem Scatter.add_whole : WholeStripes (t.add a b) := by
  obtain ⟨data, enables⟩ := Scatter.stripeAt_whole whole (a / 4096)
  rw [Scatter.add_eq]
  refine ⟨Tbl.put_rising whole.rising _ _, fun p hp => ?_⟩
  rcases Tbl.mem_put hp with rfl | old
  · have lengths := spliceElem_length (b := b) (o := a % 4096) (by rw [data]; exact fits) (by rw [enables]; exact fits)
    rwa [data, enables] at lengths
  · exact whole.whole p old

/-- An element added is what the scatter puts at its addresses. -/
theorem Scatter.scattered_add (x : Nat) :
    scattered (t.add a b) x = if a ≤ x ∧ x < a + b.length then some (b.getD (x - a) 0) else scattered t x := by
  obtain ⟨data, enables⟩ := Scatter.stripeAt_whole whole (a / 4096)
  rw [← Scatter.enabledAt_stripeAt t x]
  unfold scattered
  rw [Scatter.add_eq]
  by_cases same : x / 4096 = a / 4096
  · rw [same, Tbl.find_put_self, Option.bind_some, enabledAt_spliceElem (by rw [data]; exact fits) (by rw [enables]; exact fits)]
    have place : (a % 4096 ≤ x % 4096 ∧ x % 4096 < a % 4096 + b.length) ↔ a ≤ x ∧ x < a + b.length := by omega
    have offset : x % 4096 - a % 4096 = x - a := by omega
    simp only [place, offset]
  · rw [Tbl.find_put_ne _ _ same, if_neg (by omega), Scatter.enabledAt_stripeAt]
    rfl

end

/-- The elements of a scatter: each within its stripe, no two with a common byte. -/
structure ElemsApart (l : List (Nat × List Byte)) : Prop where
  fits : ∀ p ∈ l, p.1 % 4096 + p.2.length ≤ 4096
  disjoint : l.Pairwise (fun p q => p.1 + p.2.length ≤ q.1 ∨ q.1 + q.2.length ≤ p.1)

/-- Two elements, in either order. -/
theorem ElemsApart.clear {l : List (Nat × List Byte)} (apart : ElemsApart l) {p q : Nat × List Byte} (hp : p ∈ l) (hq : q ∈ l)
    (unequal : p ≠ q) : p.1 + p.2.length ≤ q.1 ∨ q.1 + q.2.length ≤ p.1 := by
  have symmetric : Std.Symm fun p q : Nat × List Byte => p.1 + p.2.length ≤ q.1 ∨ q.1 + q.2.length ≤ p.1 := ⟨fun _ _ => Or.symm⟩
  exact apart.disjoint.forall hp hq unequal

theorem ElemsApart.filter {l : List (Nat × List Byte)} (apart : ElemsApart l) (f : Nat × List Byte → Bool) : ElemsApart (l.filter f) :=
  ⟨fun p hp => apart.fits p (List.mem_of_mem_filter hp), apart.disjoint.filter f⟩

/-- The scatter of some elements. -/
def scatterOf (l : List (Nat × List Byte)) : Scatter := l.foldl (fun t p => t.add p.1 p.2) []

theorem scatterOf_append (l : List (Nat × List Byte)) (p : Nat × List Byte) : scatterOf (l ++ [p]) = (scatterOf l).add p.1 p.2 := by
  unfold scatterOf
  rw [List.foldl_append]
  rfl

theorem scatterOf_whole {l : List (Nat × List Byte)} (fits : ∀ p ∈ l, p.1 % 4096 + p.2.length ≤ 4096) : WholeStripes (scatterOf l) :=
  List.foldlRecOn (motive := WholeStripes) l _ ⟨.nil, fun _ among => absurd among List.not_mem_nil⟩
    fun _ whole p among => Scatter.add_whole whole (fits p among)

/-- Elements that lie apart are what their scatter puts at their addresses, and it puts nothing elsewhere. -/
theorem scattered_scatterOf {l : List (Nat × List Byte)} (apart : ElemsApart l) :
    (∀ p ∈ l, ∀ j, j < p.2.length → scattered (scatterOf l) (p.1 + j) = some (p.2.getD j 0)) ∧
      ∀ x, (∀ p ∈ l, ¬(p.1 ≤ x ∧ x < p.1 + p.2.length)) → scattered (scatterOf l) x = none := by
  induction l using List.reverseRecOn with
  | nil => exact ⟨fun _ among => absurd among List.not_mem_nil, fun _ _ => rfl⟩
  | append_singleton l p ih =>
    obtain ⟨fits, disjoint⟩ := apart
    obtain ⟨earlier, -, clear⟩ := List.pairwise_append.mp disjoint
    have fitsBefore : ∀ q ∈ l, q.1 % 4096 + q.2.length ≤ 4096 := fun q hq => fits q (List.mem_append_left _ hq)
    obtain ⟨inside, outside⟩ := ih ⟨fitsBefore, earlier⟩
    have added := Scatter.scattered_add (scatterOf_whole fitsBefore) (fits p (List.mem_append_right _ (List.mem_singleton_self p)))
    rw [scatterOf_append]
    refine ⟨fun q hq j hj => ?_, fun x out => ?_⟩
    · rw [added]
      rcases List.mem_append.mp hq with old | new
      · have := clear q old p (List.mem_singleton_self p)
        rw [if_neg (by omega), inside q old j hj]
      · obtain rfl := List.mem_singleton.mp new
        rw [if_pos (by omega), Nat.add_sub_cancel_left]
    · rw [added, if_neg (out p (List.mem_append_right _ (List.mem_singleton_self p))), outside x fun q hq => out q (List.mem_append_left _ hq)]

/-- Elements have been written to device memory, and no other byte. -/
structure Lands (s s' : State) (l : List (Nat × List Byte)) : Prop where
  inside : ∀ p ∈ l, ∀ j, j < p.2.length → memByte s'.mem (p.1 + j) = p.2.getD j 0
  outside : ∀ a, (∀ p ∈ l, ¬(p.1 ≤ a ∧ a < p.1 + p.2.length)) → memByte s'.mem a = memByte s.mem a

/-- One stripe more of a scatter. -/
def scatterNext (part session hint handle : Nat) (s : State) (p : Nat × List Byte × List Bool) : State :=
  let s := writeStripe (charge s part (256 * enableOps p.2.2)) part handle p.1 p.2.1 p.2.2
  (writtenUnits s p.1 p.2.2).foldl (fun s u => cacheWrite s p.1 u hint session part) s

theorem devScatter_eq (s : State) (part session hint handle : Nat) (l : List (Nat × List Byte)) :
    devScatter s part session hint handle l = (scatterOf l).foldl (scatterNext part session hint handle) s := rfl

section
variable (s : State) (part session hint handle : Nat)

theorem scatterNext_lines (p : Nat × List Byte × List Bool) :
    ReadOnly (writeStripe (charge s part (256 * enableOps p.2.2)) part handle p.1 p.2.1 p.2.2) (scatterNext part session hint handle s p) :=
  foldl_keeps ReadOnly.refl ReadOnly.trans (fun _ _ => (cacheWrite_linesOnly ..).readOnly) _ _

theorem scatterNext_wf (p : Nat × List Byte × List Bool) (wf : s.mem.bytes.wf = true) :
    (scatterNext part session hint handle s p).mem.bytes.wf = true := by
  rw [(scatterNext_lines s part session hint handle p).bytes]
  exact writeStripe_wf _ _ _ _ _ _ wf

theorem scatterNext_storeOnly (p : Nat × List Byte × List Bool) : StoreOnly s (scatterNext part session hint handle s p) :=
  (charge_readOnly ..).toStoreOnly.trans ((writeStripe_storeOnly ..).trans (scatterNext_lines s part session hint handle p).toStoreOnly)

theorem scatterNext_calm (p : Nat × List Byte × List Bool) : HostCalm s (scatterNext part session hint handle s p) :=
  (charge_calm ..).trans ((writeStripe_calm ..).trans
    (foldl_keeps HostCalm.refl HostCalm.trans (fun _ _ => (cacheWrite_linesOnly ..).calm) _ _))

theorem devScatter_storeOnly (l : List (Nat × List Byte)) : StoreOnly s (devScatter s part session hint handle l) :=
  foldl_keeps StoreOnly.refl StoreOnly.trans (fun s p => scatterNext_storeOnly s part session hint handle p) _ s

theorem devScatter_calm (l : List (Nat × List Byte)) : HostCalm s (devScatter s part session hint handle l) :=
  foldl_keeps HostCalm.refl HostCalm.trans (fun s p => scatterNext_calm s part session hint handle p) _ s

variable {s} (wf : s.mem.bytes.wf = true)
include wf

theorem devScatter_wf (l : List (Nat × List Byte)) : (devScatter s part session hint handle l).mem.bytes.wf = true :=
  foldl_keeps (R := fun x y => x.mem.bytes.wf = true → y.mem.bytes.wf = true) (fun _ => id) (fun k l => l ∘ k)
    (fun s p => scatterNext_wf s part session hint handle p) _ s wf

theorem memByte_scatterNext {p : Nat × List Byte × List Bool} (whole : p.2.1.length = 4096 ∧ p.2.2.length = 4096) (x : Nat) :
    memByte (scatterNext part session hint handle s p).mem x =
      if x / 4096 = p.1 then (enabledAt (x % 4096) p.2).getD (memByte s.mem x) else memByte s.mem x := by
  rw [(scatterNext_lines s part session hint handle p).memByte]
  exact memByte_writeStripe (s := charge s part (256 * enableOps p.2.2)) wf part handle p.1 whole.1 whole.2 x

/-- The stripes of a scatter written one after the other leave what it puts. -/
theorem memByte_foldl_scatterNext {t : Scatter} (whole : WholeStripes t) (x : Nat) :
    memByte (t.foldl (scatterNext part session hint handle) s).mem x = (scattered t x).getD (memByte s.mem x) := by
  induction t generalizing s with
  | nil => rfl
  | cons p r ih =>
    obtain ⟨rising, lengths⟩ := whole
    obtain ⟨above, rising⟩ := List.pairwise_cons.mp rising
    obtain ⟨here, lengths⟩ := List.forall_mem_cons.mp lengths
    rw [List.foldl_cons, ih (scatterNext_wf _ _ _ _ _ _ wf) ⟨rising, lengths⟩, memByte_scatterNext part session hint handle wf here]
    unfold scattered
    rw [Tbl.find]
    by_cases same : p.1 = x / 4096
    · have gone : Tbl.find r (x / 4096) = none := by
        cases found : Tbl.find r (x / 4096) with
        | none => rfl
        | some w => exact absurd (above _ (Tbl.mem_of_find found)) (by simp [same])
      rw [gone, if_pos same, if_pos same.symm]
      rfl
    · rw [if_neg same, if_neg (Ne.symm same)]

theorem devScatter_lands {l : List (Nat × List Byte)} (apart : ElemsApart l) : Lands s (devScatter s part session hint handle l) l := by
  obtain ⟨inside, outside⟩ := scattered_scatterOf apart
  have put := memByte_foldl_scatterNext part session hint handle wf (scatterOf_whole apart.fits)
  refine ⟨fun p hp j hj => ?_, fun a out => ?_⟩
  · rw [devScatter_eq, put, inside p hp j hj, Option.getD_some]
  · rw [devScatter_eq, put, outside a out, Option.getD_none]

end

/-- Elements that lie apart, written in two groups. -/
theorem lands_of_split {s s1 s2 : State} {l : List (Nat × List Byte)} (apart : ElemsApart l) (f : Nat × List Byte → Bool)
    (first : Lands s s1 (l.filter (fun p => !(f p)))) (second : Lands s1 s2 (l.filter f)) : Lands s s2 l := by
  refine ⟨fun p hp j hj => ?_, fun a out => ?_⟩
  · cases late : f p with
    | true => exact second.inside p (List.mem_filter.mpr ⟨hp, late⟩) j hj
    | false =>
      rw [second.outside, first.inside p (List.mem_filter.mpr ⟨hp, by rw [late]; rfl⟩) j hj]
      intro q hq
      obtain ⟨among, later⟩ := List.mem_filter.mp hq
      have unequal : p ≠ q := fun same => by rw [same, later] at late; cases late
      have clear := apart.clear hp among unequal
      omega
  · rw [second.outside a fun p hp => out p (List.mem_of_mem_filter hp), first.outside a fun p hp => out p (List.mem_of_mem_filter hp)]

end Sys2Proof.Proofs

/-! O39: TRANSFER_START and TRANSFER_COMPLETE (R43, R44, R212, R228 to R230, R293, R294, R308, R327). -/

namespace Sys2Proof.Proofs

open Sys2Proof Sys2Proof.Machine Sys2Proof.Claims Sys2Proof.Laws

/-! What reads of device memory return. -/

theorem memBytes_eq_map (m : DevMem) (a n : Nat) : memBytes m a n = (List.range n).map (fun k => memByte m (a + k)) := by
  unfold memBytes
  split
  next defined =>
    rw [Tests.rdN_eq_map]
    simp only [memByte_eq, List.isEmpty_iff.mp defined, undefAt, List.find?_nil, Option.map_none, Option.getD_none]
  · rfl

theorem memBytes_length (m : DevMem) (a n : Nat) : (memBytes m a n).length = n := by
  rw [memBytes_eq_map, List.length_map, List.length_range]

theorem ReadOnly.memBytes {s s' : State} (read : ReadOnly s s') (a n : Nat) : memBytes s'.mem a n = memBytes s.mem a n := by
  simp only [memBytes_eq_map, read.memByte]

/-! The start of a transfer (R44, R294, R308, R327). -/

theorem mem_of_readyOrder_head {s : State} {p : Entry → Bool} {e : Entry} {rest : List Entry} (first : readyOrder s p = e :: rest) :
    e ∈ s.ts.entries := by
  have among : e ∈ readyOrder s p := first ▸ List.mem_cons_self
  exact List.mem_of_mem_filter ((mem_sortBy ..).mp among)

/-- A held entry, replaced, is what its handle holds. -/
theorem entryOf_setEntry_of_mem {s : State} {e e' : Entry} (among : e ∈ s.ts.entries) (same : e'.handle = e.handle) :
    entryOf (setEntry s e') e.handle = some e' := by
  cases held : entryOf s e.handle with
  | none => exact absurd (beq_self_eq_true e.handle) (List.find?_eq_none.mp held e among)
  | some k => exact entryOf_setEntry held (same.trans (entryOf_handle held).symm)

/-- The state with the entry running on the engine. -/
def startedOn (s : State) (e : Entry) : State :=
  { setEntry s { e with state := .running } with hi := { s.hi with xfers := s.hi.xfers ++ [e.handle] } }

section
variable {s : State} {e : Entry} {rest : List Entry} (first : readyOrder s isTransfer = e :: rest) (room : s.hi.xfers.length < 8)
  (runs : domainRuns s 1 = true)
include first room runs

theorem transferStart_stale (stale : e.version ≠ s.ts.bundle.version) :
    exec .transferStart s = .next (tsEvent (complete s e.handle stConfigStale 0 none false) 5) := by
  have old : isStale s e = true := bne_iff_ne.mpr stale
  show execTransferStart s = _
  simp only [execTransferStart, first, room, runs, old, and_self, if_true]

theorem transferStart_runs (active : e.version = s.ts.bundle.version) {t : State}
    (cleared : (if e.row = "MOVE" then clearHeader (startedOn s e) e else some (startedOn s e)) = some t) :
    exec .transferStart s = .next t := by
  have fresh : isStale s e = false := bne_eq_false_iff_eq.mpr active
  show execTransferStart s = _
  simp only [execTransferStart, first, room, runs, fresh, and_self, if_true, Bool.false_eq_true, if_false]
  change (match (if e.row = "MOVE" then clearHeader (startedOn s e) e else some (startedOn s e)) with
    | none => no "TRANSFER_START"
    | some t => .next t) = _
  rw [cleared]

end

/-- The end of a stale transfer sets its event and leaves the engine and device memory. -/
theorem closed_stale (s : State) (h status : Nat) : Closed s (tsEvent (complete s h status 0 none false) 5) h status 0 ∧
    (tsEvent (complete s h status 0 none false) 5).ts.event.testBit 5 = true ∧
    (tsEvent (complete s h status 0 none false) 5).hi.xfers = s.hi.xfers ∧ (tsEvent (complete s h status 0 none false) 5).mem = s.mem := by
  have calm := tsEvent_calm (complete s h status 0 none false) 5
  have work := tsEvent_sameWork (complete s h status 0 none false) 5
  refine ⟨⟨fun e held => ?_, fun e held open_ enabled sound => ?_⟩, ?_, ?_, ?_⟩
  · rw [work.entryOf] at held
    exact over_complete s h status 0 none false e held
  · rw [calm.recent, work.cqOf]
    exact told_complete s h status 0 none false e held open_ enabled sound
  · rw [tsEvent_ts]
    simp only [Nat.testBit_or, Nat.testBit_two_pow_self, Bool.or_true]
  · rw [calm.xfers, complete_sameXfers]
  · rw [(tsEvent_frame ..).mem, (complete_frame ..).mem]

theorem le_two {l : List Byte} {o : Nat} (fits : o + 1 < l.length) : le l o 2 = (l.getD o 0).toNat + 256 * (l.getD (o + 1) 0).toNat := by
  rw [le, sub, List.drop_eq_getElem_cons (by omega), List.drop_eq_getElem_cons fits, List.getD_eq_getElem _ _ (by omega),
    List.getD_eq_getElem _ _ fits]
  simp only [List.take_succ_cons, List.take_zero, leNat, Nat.mul_zero, Nat.add_zero]

/-- Clearing VALID leaves the second byte of FLAGS. -/
theorem flags_second {h : List Byte} (length : h.length = 256) : BitVec.ofNat 8 (ohFlags h / 2 * 2 / 256) = h.getD 7 0 := by
  have low := (h.getD 6 0).isLt
  apply BitVec.eq_of_toNat_eq
  rw [BitVec.toNat_ofNat, ohFlags, le_two (by rw [length]; decide), show 6 + 1 = 7 from rfl]
  have high := (h.getD 7 0).isLt
  omega

/-- An intact header that is no longer VALID. -/
def clearedHeader (h : List Byte) : List Byte := sealHeader (splice h 6 (leBytes 2 (ohFlags h / 2 * 2)))

theorem moveHeader_some {s : State} {e : Entry} {p : Nat × List Byte} (found : moveHeader s e = some p) :
    p.1 % 256 = 0 ∧ p.2 = memBytes s.mem p.1 256 := by
  unfold moveHeader at found
  split at found
  · cases found
  next a unit =>
    simp only at found
    split at found
    · cases found
      refine ⟨?_, rfl⟩
      unfold headUnit at unit
      simp only at unit
      split at unit
      · cases unit
      next aligned =>
        cases unit
        simp only [Bool.or_eq_true, bne_iff_ne, not_or, not_not] at aligned
        exact aligned.2
    · cases found

section
variable {h : List Byte} (length : h.length = 256)
include length

theorem flags_splice_fits (x : Nat) : 6 + (leBytes 2 x).length ≤ h.length := by
  rw [length_leBytes, length]
  decide

theorem flags_splice_long (x : Nat) : 252 ≤ (splice h 6 (leBytes 2 x)).length := by
  rw [splice_length (flags_splice_fits length x), length]
  decide

/-- The cleared header is intact, not VALID, and keeps its other bytes. -/
theorem clearedHeader_shape : (clearedHeader h).length = 256 ∧ crcOk (clearedHeader h) = true ∧ ohValid (clearedHeader h) = false ∧
    ∀ k, k < 0xFC → k ≠ 6 → (clearedHeader h).getD k 0 = h.getD k 0 := by
  have long := flags_splice_long length (ohFlags h / 2 * 2)
  have fits := flags_splice_fits length (ohFlags h / 2 * 2)
  have flags : ohFlags (clearedHeader h) = ohFlags h / 2 * 2 % 256 ^ 2 := by
    show le (clearedHeader h) 6 2 = _
    rw [clearedHeader, le_sealHeader long (by decide), le_splice_same fits (length_leBytes ..), le_leBytes]
  refine ⟨sealHeader_length long, crcOk_sealHeader long, ?_, fun k low other => ?_⟩
  · rw [ohValid, bitAt, flags, Nat.testBit_zero, decide_eq_false_iff_not]
    omega
  · rw [clearedHeader, getD_sealHeader long low]
    by_cases seventh : k = 7
    · subst seventh
      rw [← flags_second length, splice, List.getD_eq_getElem?_getD, getElem?_spliced fits, if_pos (by rw [length_leBytes]; decide)]
      rfl
    · exact getD_splice_outside fits (by rw [length_leBytes]; omega)

end

/-! The end of a transfer (R212, R228 to R230, R294). -/

theorem translatePage_hostOnly (fn space : Nat) (write : Bool) (missing : List Nat) (s : State) (page : Nat) :
    HostOnly s (translatePage fn space write missing s page) := ite_keeps (R := HostOnly) rfl rfl

theorem translateAll_hostOnly (s : State) (e : Entry) (missing : List Nat) : HostOnly s (translateAll s e missing) :=
  ite_keeps (foldl_keeps HostOnly.refl HostOnly.trans (translatePage_hostOnly e.fn _ _ missing) _ s) (.refl s)

theorem moveWaits_of_hostOnly {s s' : State} (only : HostOnly s s') (e : Entry) : moveWaits s' e = moveWaits s e := by
  rw [only]
  rfl

theorem partOfFn_of_hostOnly {s s' : State} (only : HostOnly s s') (fn : Nat) : partOfFn s' fn = partOfFn s fn := by
  unfold Machine.partOfFn fnRecOf
  rw [only.ts]

section
variable {s : State} {h : Nat} {e : Entry} (held : entryOf s h = some e) (busy : h ∈ s.hi.xfers) (runs : domainRuns s 1 = true)
include held busy runs

theorem transferComplete_linkError :
    exec (.transferComplete h .linkError 0) s = .next (endTransfer (failTransfer s e) h stHostAbort) := by
  show execTransferComplete h .linkError 0 s = _
  simp only [execTransferComplete, held, List.contains_iff_mem.mpr busy, runs, ite_self, Bool.not_true, Bool.or_self, Bool.false_eq_true,
    if_false]
  rfl

theorem transferComplete_pageFault (open_ : linkOpen s e.fn = true) {p : Nat} (missing : missingPage s e = some p)
    (asks : (cfgOf s e.fn).pri = false ∨ priRoom s e.fn = true) :
    exec (.transferComplete h .pageFault 0) s = .next (endTransfer (failTransfer (askPage s e p) e) h stPageFault) := by
  have may : ((cfgOf s e.fn).pri && !(priRoom s e.fn)) = false := by
    rcases asks with off | room
    · rw [off, Bool.false_and]
    · rw [room, Bool.not_true, Bool.and_false]
  show execTransferComplete h .pageFault 0 s = _
  simp only [execTransferComplete, held, List.contains_iff_mem.mpr busy, runs, open_, missing, may, if_true, Bool.not_true, Bool.or_self,
    Bool.false_eq_true, if_false]
  rfl

/-- A transfer whose host side ended well ends as its row says, once its host pages are translated. -/
theorem transferComplete_bytes (open_ : linkOpen s e.fn = true) {l : List Byte} {t : State}
    (good : goodTransfer (translateAll s e []) e l = some t) : exec (.transferComplete h (.bytes l) 0) s = .next t := by
  show execTransferComplete h (.bytes l) 0 s = _
  simp only [execTransferComplete, held, List.contains_iff_mem.mpr busy, runs, open_, if_true, Bool.not_true, Bool.or_self,
    Bool.false_eq_true, if_false]
  rw [show noteReruns s e 0x33 0 = s from rfl, good]

end

/-- A transfer that starts without a header to clear runs on the engine; the rest of the machine is as it was. -/
theorem startedOn_keeps {s : State} {e : Entry} (among : e ∈ s.ts.entries) : (startedOn s e).hi.xfers = s.hi.xfers ++ [e.handle] ∧
    entryOf (startedOn s e) e.handle = some { e with state := .running } ∧ (startedOn s e).tiles = s.tiles ∧ (startedOn s e).mem = s.mem :=
  ⟨rfl, entryOf_setEntry_of_mem (e' := { e with state := .running }) among rfl, rfl, rfl⟩

theorem moveHeader_startedOn (s : State) (e : Entry) : moveHeader (startedOn s e) e = moveHeader s e := rfl

theorem clearHeader_none {s : State} {e : Entry} (absent : moveHeader s e = none) : clearHeader (startedOn s e) e = some (startedOn s e) := by
  unfold clearHeader
  rw [moveHeader_startedOn, absent]

theorem clearHeader_some {s : State} {e : Entry} {p : Nat × List Byte} (found : moveHeader s e = some p)
    (free : urgentWaits s (partOfFn s e.fn) = false) :
    clearHeader (startedOn s e) e = some (devWrite (startedOn s e) (partOfFn s e.fn) e.handle p.1 (clearedHeader p.2)) := by
  have free' : urgentWaits (startedOn s e) (partOfFn s e.fn) = false := free
  unfold clearHeader
  rw [moveHeader_startedOn, found]
  show headerWrites (startedOn s e) (partOfFn s e.fn) e.handle [(p.1, clearedHeader p.2)] = _
  simp only [headerWrites, List.foldl_cons, List.foldl_nil, free', Bool.false_eq_true, if_false]

/-- The cleared header stands in its unit, and no other byte has changed. -/
theorem devWrite_clearedHeader {s : State} {e : Entry} {p : Nat × List Byte} (found : moveHeader s e = some p) (wf : s.mem.bytes.wf = true)
    (part : Nat) : HeadersWritten s (devWrite (startedOn s e) part e.handle p.1 (clearedHeader p.2)) [(p.1, clearedHeader p.2)] := by
  obtain ⟨aligned, bytes⟩ := moveHeader_some found
  obtain ⟨length, -⟩ := clearedHeader_shape (h := p.2) (by rw [bytes, memBytes_length])
  have put := memByte_devWrite (s := startedOn s e) wf part e.handle p.1 (b := clearedHeader p.2)
    (List.ne_nil_of_length_pos (by omega)) (by omega)
  rw [length] at put
  refine ⟨fun q hq k hk => ?_, fun a out => ?_⟩
  · obtain rfl := List.mem_singleton.mp hq
    rw [put, if_pos (by omega), Nat.add_sub_cancel_left]
  · rw [put, if_neg (out _ (List.mem_singleton_self _))]
    rfl

section
variable {s : State} {e : Entry} {rest : List Entry} (first : readyOrder s isTransfer = e :: rest) (room : s.hi.xfers.length < 8)
  (runs : domainRuns s 1 = true) (active : e.version = s.ts.bundle.version)
include first room runs active

/-- The first READY transfer of the active version starts (R294, R308). -/
theorem transferStart_starts (may : e.row ≠ "MOVE" ∨ moveHeader s e = none ∨ urgentWaits s (fnRecOf s e.fn).part = false) :
    ∃ s', exec .transferStart s = .next s' ∧ s'.hi.xfers = s.hi.xfers ++ [e.handle] ∧
      entryOf s' e.handle = some { e with state := .running } ∧ s'.tiles = s.tiles ∧
      (e.row ≠ "MOVE" ∨ moveHeader s e = none → s'.mem = s.mem) ∧
      (∀ p, e.row = "MOVE" → moveHeader s e = some p → s.mem.bytes.wf = true → ∃ b, HeadersWritten s s' [(p.1, b)] ∧ crcOk b = true ∧
        ohValid b = false ∧ ∀ k, k < 0xFC → k ≠ 6 → b.getD k 0 = p.2.getD k 0) := by
  obtain ⟨xfers, entry, tiles, mem⟩ := startedOn_keeps (mem_of_readyOrder_head first)
  by_cases move : e.row = "MOVE"
  · cases found : moveHeader s e with
    | none =>
      refine ⟨startedOn s e, transferStart_runs first room runs active ?_, xfers, entry, tiles, fun _ => mem, fun p _ some_ => ?_⟩
      · rw [if_pos move, clearHeader_none found]
      · cases some_
    | some p =>
      have free : urgentWaits s (partOfFn s e.fn) = false := by
        rcases may with other | none_ | free
        · exact absurd move other
        · rw [found] at none_
          cases none_
        · exact free
      have store := devWrite_storeOnly (startedOn s e) (partOfFn s e.fn) e.handle p.1 (clearedHeader p.2)
      have calm := devWrite_calm (startedOn s e) (partOfFn s e.fn) e.handle p.1 (clearedHeader p.2)
      refine ⟨_, transferStart_runs first room runs active (by rw [if_pos move, clearHeader_some found free]), ?_, ?_, ?_, ?_, ?_⟩
      · rw [calm.xfers, xfers]
      · rw [store.entryOf, entry]
      · rw [store.frame.tiles, tiles]
      · rintro (other | none_)
        · exact absurd move other
        · cases none_
      · intro q _ same wf
        cases same
        obtain ⟨-, crc, valid, rest⟩ := clearedHeader_shape (h := p.2) (by rw [(moveHeader_some found).2, memBytes_length])
        exact ⟨clearedHeader p.2, devWrite_clearedHeader found wf _, crc, valid, rest⟩
  · refine ⟨startedOn s e, transferStart_runs first room runs active ?_, xfers, entry, tiles, fun _ => mem, fun p row => absurd row move⟩
    rw [if_neg move]

end

/-! What a failed transfer leaves (R296). -/

theorem devScatter_keeps (s s1 : State) (store : StoreOnly s s1) (calm : HostCalm s s1) (part session hint handle : Nat)
    (l : List (Nat × List Byte)) :
    StoreOnly s (devScatter s1 part session hint handle l) ∧ HostCalm s (devScatter s1 part session hint handle l) :=
  ⟨store.trans (devScatter_storeOnly ..), calm.trans (devScatter_calm ..)⟩

theorem spoilMove_keeps (s : State) (e : Entry) : StoreOnly s (spoilMove s e) ∧ HostCalm s (spoilMove s e) := by
  unfold spoilMove
  simp only
  split
  · exact ⟨⟨rfl, rfl⟩, ⟨rfl, rfl⟩⟩
  · refine devScatter_keeps s _ ?_ ?_ .. <;> exact ⟨rfl, rfl⟩

theorem spoilImport_keeps (s : State) (e : Entry) : StoreOnly s (spoilImport s e) ∧ HostCalm s (spoilImport s e) := by
  unfold spoilImport
  simp only
  split
  · refine devScatter_keeps s _ ?_ ?_ .. <;> exact ⟨rfl, rfl⟩
  · exact ⟨.refl s, .refl s⟩

theorem failTransfer_keeps (s : State) (e : Entry) : StoreOnly s (failTransfer s e) ∧ HostCalm s (failTransfer s e) := by
  unfold failTransfer spoilTransfer
  split_ifs
  · exact ⟨.refl s, .refl s⟩
  · exact spoilMove_keeps s e
  · exact ⟨⟨rfl, rfl⟩, ⟨rfl, rfl⟩⟩
  · exact spoilImport_keeps s e

theorem failTransfer_import (s : State) {e : Entry} (row : e.row = "IMPORT") : failTransfer s e = s := if_pos row

theorem endTransfer_mem (s : State) (h st : Nat) : (endTransfer s h st).mem = s.mem := (endTransfer_frame s h st).mem

section
variable {s : State} {h : Nat} {e : Entry} (held : entryOf s h = some e) (busy : h ∈ s.hi.xfers) (runs : domainRuns s 1 = true)
include held busy runs

/-- A link error ends the transfer with 0x0406. -/
theorem transferComplete_linkError_ends : ∃ s', exec (.transferComplete h .linkError 0) s = .next s' ∧ Closed s s' h 0x0406 0 ∧
    h ∉ s'.hi.xfers ∧ (e.row = "IMPORT" → s'.mem = s.mem ∧ s' = endTransfer s h 0x0406) := by
  obtain ⟨store, calm⟩ := failTransfer_keeps s e
  obtain ⟨closed, off⟩ := closed_endTransfer store calm h stHostAbort
  refine ⟨_, transferComplete_linkError held busy runs, closed, off, fun row => ?_⟩
  rw [failTransfer_import s row]
  exact ⟨endTransfer_mem .., rfl⟩

/-- A page that stays missing ends the transfer with 0x0405. -/
theorem transferComplete_pageFault_ends (open_ : linkOpen s e.fn = true) {p : Nat} (missing : missingPage s e = some p)
    (asks : (cfgOf s e.fn).pri = false ∨ priRoom s e.fn = true) :
    ∃ s', exec (.transferComplete h .pageFault 0) s = .next s' ∧ Closed s s' h 0x0405 0 ∧ h ∉ s'.hi.xfers ∧
      (e.row = "IMPORT" → s'.mem = s.mem ∧ s' = endTransfer (askPage s e p) h 0x0405) := by
  obtain ⟨store, calm⟩ := failTransfer_keeps (askPage s e p) e
  obtain ⟨closed, off⟩ := closed_endTransfer (s := s) (.trans (b := askPage s e p) ⟨rfl, rfl⟩ store) (calm.after rfl rfl) h stPageFault
  refine ⟨_, transferComplete_pageFault held busy runs open_ missing asks, closed, off, fun row => ?_⟩
  rw [failTransfer_import _ row]
  exact ⟨endTransfer_mem .., rfl⟩

end

/-! A MOVE from the host (R44, R294). -/

/-- The elements of a MOVE from the host: the bytes read, one after the other, at the addresses of the destination's walk. -/
def movedElems (e : Entry) (l : List Byte) : List (Nat × List Byte) :=
  (moveAddrs e).2.mapIdx (fun i a => (a, sub l (tdE (moveDst e.arg) * i) (tdE (moveDst e.arg))))

theorem moveIn_eq (s : State) (e : Entry) (l : List Byte) : moveIn s e l = endTransfer (uploadScatter s e (movedElems e l)) e.handle stOk := rfl

theorem length_sub {l : List Byte} {o n : Nat} (fits : o + n ≤ l.length) : (sub l o n).length = n := by
  rw [sub, List.length_take, List.length_drop]
  omega

theorem getD_sub {l : List Byte} {o n k : Nat} (inside : k < n) : (sub l o n).getD k 0 = l.getD (o + k) 0 := by
  rw [sub, List.getD_eq_getElem?_getD, List.getElem?_take_of_lt inside, List.getElem?_drop, List.getD_eq_getElem?_getD]

/-- An upload writes its elements, whether its first unit is a header, which comes last, or not. -/
theorem uploadScatter_lands {s : State} (wf : s.mem.bytes.wf = true) (e : Entry) {l : List (Nat × List Byte)} (apart : ElemsApart l) :
    Lands s (uploadScatter s e l) l := by
  unfold uploadScatter
  split
  · exact devScatter_lands _ _ _ _ wf apart
  next a _ =>
    split
    · exact lands_of_split apart (inUnit a) (devScatter_lands _ _ _ _ wf (apart.filter _))
        (devScatter_lands _ _ _ _ (devScatter_wf _ _ _ _ wf _) (apart.filter _))
    · exact devScatter_lands _ _ _ _ wf apart

section
variable {e : Entry} {l : List Byte} (length : l.length = tdE (moveDst e.arg) * (moveAddrs e).2.length)
include length

theorem movedElems_get {i : Nat} (low : i < (moveAddrs e).2.length) :
    ((moveAddrs e).2.getD i 0, sub l (tdE (moveDst e.arg) * i) (tdE (moveDst e.arg))) ∈ movedElems e l ∧
      (sub l (tdE (moveDst e.arg) * i) (tdE (moveDst e.arg))).length = tdE (moveDst e.arg) := by
  have fits : tdE (moveDst e.arg) * i + tdE (moveDst e.arg) ≤ l.length := by
    rw [length, ← Nat.mul_succ]
    exact Nat.mul_le_mul_left _ low
  refine ⟨List.mem_mapIdx.mpr ⟨i, low, ?_⟩, length_sub fits⟩
  rw [List.getD_eq_getElem _ _ low]

theorem mem_movedElems {p : Nat × List Byte} (among : p ∈ movedElems e l) : p.1 ∈ (moveAddrs e).2 ∧ p.2.length = tdE (moveDst e.arg) := by
  obtain ⟨i, low, rfl⟩ := List.mem_mapIdx.mp among
  exact ⟨List.getElem_mem low, (movedElems_get length low).2⟩

theorem movedElems_apart (fits : ∀ a ∈ (moveAddrs e).2, a % 4096 + tdE (moveDst e.arg) ≤ 4096)
    (disjoint : (moveAddrs e).2.Pairwise (fun a b => a + tdE (moveDst e.arg) ≤ b ∨ b + tdE (moveDst e.arg) ≤ a)) :
    ElemsApart (movedElems e l) := by
  refine ⟨fun p hp => ?_, List.pairwise_iff_getElem.mpr fun i j hi hj before => ?_⟩
  · obtain ⟨among, width⟩ := mem_movedElems length hp
    rw [width]
    exact fits p.1 among
  · have widthI := (mem_movedElems length (List.getElem_mem hi)).2
    have widthJ := (mem_movedElems length (List.getElem_mem hj)).2
    rw [widthI, widthJ]
    simp only [movedElems, List.getElem_mapIdx]
    exact List.pairwise_iff_getElem.mp disjoint i j _ _ before

end

theorem firstBad_cons_of_bad {x : Nat} (bad : x ≠ 0) (l : List Nat) : firstBad (x :: l) = x := by
  rw [firstBad, List.find?_cons_of_pos (by simpa using bad), Option.getD_some]

section
variable {s : State} {h : Nat} {e : Entry} (held : entryOf s h = some e) (busy : h ∈ s.hi.xfers) (runs : domainRuns s 1 = true)
  (open_ : linkOpen s e.fn = true)
include held busy runs open_

/-- A MOVE from the host ends with each element at its address, and no other byte of device memory changed. -/
theorem transferComplete_moveIn {l : List Byte} (wf : s.mem.bytes.wf = true) (row : e.row = "MOVE") (host : tdHost (moveSrc e.arg) = true)
    (ready : moveWaits s e = false) (length : l.length = tdE (moveDst e.arg) * (moveAddrs e).2.length)
    (fits : ∀ a ∈ (moveAddrs e).2, a % 4096 + tdE (moveDst e.arg) ≤ 4096)
    (disjoint : (moveAddrs e).2.Pairwise (fun a b => a + tdE (moveDst e.arg) ≤ b ∨ b + tdE (moveDst e.arg) ≤ a)) :
    ∃ s2, exec (.transferComplete h (.bytes l) 0) s = .next (endTransfer s2 h 0) ∧
      (∀ i j, i < (moveAddrs e).2.length → j < tdE (moveDst e.arg) →
        memByte s2.mem ((moveAddrs e).2.getD i 0 + j) = l.getD (tdE (moveDst e.arg) * i + j) 0) ∧
      (∀ a, (∀ b ∈ (moveAddrs e).2, ¬(b ≤ a ∧ a < b + tdE (moveDst e.arg))) → memByte s2.mem a = memByte s.mem a) := by
  have translated := translateAll_hostOnly s e []
  have good : goodTransfer (translateAll s e []) e l = some (moveIn (translateAll s e []) e l) := by
    unfold goodTransfer
    rw [if_pos row, moveWaits_of_hostOnly translated, ready, if_neg Bool.false_ne_true, if_pos host]
  have put := uploadScatter_lands (s := translateAll s e []) (by rw [translated.mem]; exact wf) e (movedElems_apart length fits disjoint)
  refine ⟨uploadScatter (translateAll s e []) e (movedElems e l), ?_, fun i j hi hj => ?_, fun a out => ?_⟩
  · rw [transferComplete_bytes held busy runs open_ good, moveIn_eq, entryOf_handle held]
    rfl
  · obtain ⟨among, width⟩ := movedElems_get length hi
    rw [put.inside _ among j (by rw [width]; exact hj), getD_sub hj]
  · rw [put.outside a, translated.mem]
    intro p hp
    obtain ⟨among, width⟩ := mem_movedElems length hp
    rw [width]
    exact out p.1 among

/-! A MOVE to the host (R294). -/

/-- A MOVE to the host writes there the elements that device memory holds. -/
theorem transferComplete_moveOut (l : List Byte) (row : e.row = "MOVE") (device : tdHost (moveSrc e.arg) = false)
    (ready : moveWaits s e = false)
    (found : (devGather (translateAll s e []) (fnRecOf s e.fn).part (e.tag % 4096) (tdHint (moveSrc e.arg)) h (moveAddrs e).1).2 = true) :
    ∃ s2, exec (.transferComplete h (.bytes l) 0) s = .next (endTransfer (hostPut s2 (sideOf e.regions (tdRegion (moveDst e.arg))).key
        (((moveAddrs e).2.zip (moveAddrs e).1).map (fun p => (p.1, memBytes s.mem p.2 (tdE (moveSrc e.arg)))))) h 0) ∧
      s2.mem.bytes = s.mem.bytes ∧ s2.tiles = s.tiles := by
  have translated := translateAll_hostOnly s e []
  have part : partOfFn (translateAll s e []) e.fn = (fnRecOf s e.fn).part := partOfFn_of_hostOnly translated e.fn
  have good : goodTransfer (translateAll s e []) e l = some (moveOut (translateAll s e []) e) := by
    unfold goodTransfer
    rw [if_pos row, moveWaits_of_hostOnly translated, ready, if_neg Bool.false_ne_true, device, if_neg Bool.false_ne_true]
  have read := (readOnly_of_hostOnly translated).trans (devGather_readOnly found)
  rw [transferComplete_bytes held busy runs open_ good]
  unfold moveOut
  simp only [part, entryOf_handle held]
  revert read found
  generalize devGather (translateAll s e []) (fnRecOf s e.fn).part (e.tag % 4096) (tdHint (moveSrc e.arg)) h (moveAddrs e).1 = r
  obtain ⟨s2, b⟩ := r
  rintro rfl read
  refine ⟨s2, ?_, read.bytes, read.frame.tiles⟩
  simp only [read.memBytes]
  rfl

/-! EXPORT (R228, R229). -/

/-- An EXPORT writes the exchange header and the bytes of the object's data. -/
theorem transferComplete_exports (l : List Byte) (row : e.row = "EXPORT") {s1 s2 : State} {hd pay : List Byte}
    (header : readAll (translateAll s e []) (fnRecOf s e.fn).part h [(xgObj e.desc, 256)] = .got s1 (some [hd]))
    (fit : exportOk e.desc hd = true) (room : 128 + ohLength hd ≤ xgLen e.desc) (inside : inRegion e.regions (ohData hd) (ohLength hd) = true)
    (ready : gatherWaits s1 (exportAddrs hd) = false)
    (found : devGather s1 (fnRecOf s e.fn).part (e.tag % 4096) 0 h (exportAddrs hd) = (s2, true))
    (payload : pay = (List.range (ohLength hd)).map (fun k => memByte s.mem (ohData hd + k))) :
    exec (.transferComplete h (.bytes l) 0) s =
      .next (endTransfer (hostPut s2 (buffer_ e).1 [((buffer_ e).2, exchangeHeader e.desc hd pay ++ pay)]) h 0) := by
  have translated := translateAll_hostOnly s e []
  have part : partOfFn (translateAll s e []) e.fn = (fnRecOf s e.fn).part := partOfFn_of_hostOnly translated e.fn
  have gathered := devGather_readOnly (congrArg Prod.snd found)
  rw [found] at gathered
  have read := (readOnly_of_hostOnly translated).trans ((readAll_some header).1.trans gathered)
  rw [← memBytes_eq_map, ← read.memBytes] at payload
  subst payload
  refine transferComplete_bytes held busy runs open_ ?_
  unfold goodTransfer runExport
  rw [if_neg (by rw [row]; decide), if_pos row]
  simp only [part, entryOf_handle held, header, List.headD_cons, fit, Nat.not_lt.mpr room, inside, ready, found, Bool.not_true,
    Bool.false_eq_true, if_false]
  rfl

/-! IMPORT (R230). -/

/-- An IMPORT whose checks fail ends with their status, nothing written. -/
theorem transferComplete_import_bad {l : List Byte} (row : e.row = "IMPORT") (bad : importCheck e.desc l ≠ 0) :
    exec (.transferComplete h (.bytes l) 0) s = .next (endTransfer (translateAll s e []) h (importCheck e.desc l)) := by
  refine transferComplete_bytes held busy runs open_ ?_
  unfold goodTransfer runImport
  rw [if_neg (by rw [row]; decide), if_neg (by rw [row]; decide)]
  simp only [firstBad_cons_of_bad bad, entryOf_handle held, ne_eq, bad, not_false_eq_true, if_true]

end

/-! The share header that an IMPORT writes (R230). -/

/-- The share header before its GEN and its CRC. -/
def importFields (d : Desc) (b : List Byte) : List Byte :=
  leBytes 4 magicCt ++ leBytes 1 1 ++ leBytes 1 6 ++ leBytes 2 1 ++ leBytes 4 (if le b 0x0F 1 = 4 then 0xFFFF0005 else 0xFFFF0006) ++
    leBytes 1 0x20 ++ leBytes 1 (le b 0x0F 1) ++ leBytes 2 1 ++ leBytes 8 (le b 0x10 8) ++ leBytes 2 0 ++ leBytes 2 0 ++ leBytes 2 0xFFFF ++
    leBytes 2 0 ++ leBytes 4 0 ++ leBytes 1 (le b 0x0C 1) ++ leBytes 1 (le b 0x0E 1) ++ leBytes 2 0 ++ leBytes 8 (xgData d) ++
    leBytes 8 (le b 0x20 8) ++ List.replicate 196 0

theorem importHeader_eq (d : Desc) (b : List Byte) (gen : Nat) : importHeader d b gen = withGen (importFields d b) gen := rfl

theorem importFields_length (d : Desc) (b : List Byte) : (importFields d b).length = 252 := by
  unfold importFields
  rw [List.length_append, List.length_replicate]
  simp only [List.length_append, length_leBytes]

/-- The first field of a string of fields, and the fields after it. -/
theorem le_field_here (n x : Nat) (l : List Byte) : le (leBytes n x ++ l) 0 n = x % 256 ^ n := by
  rw [le_append_left _ _ (by rw [length_leBytes]; omega), le_leBytes]

theorem le_field_skip {n o : Nat} (past : n ≤ o) (x m : Nat) (l : List Byte) : le (leBytes n x ++ l) o m = le l (o - n) m := by
  rw [le_append_right _ _ (by rw [length_leBytes]; exact past), length_leBytes]

theorem importFields_fields (d : Desc) (b : List Byte) : le (importFields d b) 0 4 = magicCt % 256 ^ 4 ∧ le (importFields d b) 5 1 = 6 ∧
    le (importFields d b) 6 2 = 1 ∧ le (importFields d b) 0x10 8 = le b 0x10 8 % 256 ^ 8 ∧ le (importFields d b) 0x28 8 = xgData d % 256 ^ 8 ∧
    le (importFields d b) 0x30 8 = le b 0x20 8 % 256 ^ 8 := by
  unfold importFields
  simp (disch := decide) only [List.append_assoc, le_field_here, le_field_skip, Nat.reduceSub]
  decide

theorem xgData_lt (d : Desc) : xgData d < 2 ^ 64 := Nat.mod_lt _ (by decide)

/-- The header is an intact VALID share, with the fields that the buffer and the descriptor give. -/
theorem importHeader_shape (d : Desc) (b : List Byte) (gen : Nat) : (importHeader d b gen).length = 256 ∧
    intactCt (importHeader d b gen) = true ∧ ohValid (importHeader d b gen) = true ∧ ohScheme (importHeader d b gen) = 6 ∧
    ohGen (importHeader d b gen) = gen % 2 ^ 64 ∧ ohData (importHeader d b gen) = xgData d ∧ ohLength (importHeader d b gen) = le b 0x20 8 ∧
    ohKeyid (importHeader d b gen) = le b 0x10 8 := by
  have long : 252 ≤ (importFields d b).length := Nat.le_of_eq (importFields_length d b).symm
  obtain ⟨magic, scheme, flags, keyid, data, length⟩ := importFields_fields d b
  have field : ∀ o n, o + n ≤ 0x38 → le (importHeader d b gen) o n = le (importFields d b) o n := fun o n low =>
    le_withGen_before long gen low
  refine ⟨withGen_length long gen, ?_, ?_, (field 5 1 (by decide)).trans scheme, ohGen_withGen long gen, ?_, ?_, ?_⟩
  · rw [intactCt, field 0 4 (by decide), magic, importHeader_eq, crcOk_withGen long gen]
    rfl
  · rw [ohValid, ohFlags, field 6 2 (by decide), flags]
    rfl
  · rw [ohData, field 0x28 8 (by decide), data, Nat.mod_eq_of_lt (show _ < 256 ^ 8 from xgData_lt d)]
  · rw [ohLength, field 0x30 8 (by decide), length, Nat.mod_eq_of_lt (show _ < 256 ^ 8 from le_lt b 0x20)]
  · rw [ohKeyid, field 0x10 8 (by decide), keyid, Nat.mod_eq_of_lt (show _ < 256 ^ 8 from le_lt b 0x10)]

/-! The payload of an IMPORT (R230). -/

/-- Where no check fails, each holds. -/
theorem unlessOk_of_firstBad {c : Bool} {st : Nat} (bad : st ≠ 0) {l : List Nat} (among : unlessOk c st ∈ l) (good : firstBad l = 0) :
    c = true := by
  cases c with
  | true => rfl
  | false =>
    unfold firstBad at good
    cases found : l.find? (fun x => x != 0) with
    | none => exact absurd (List.find?_eq_none.mp found _ among) (by simpa [unlessOk] using bad)
    | some x =>
      rw [found, Option.getD_some] at good
      exact absurd (List.find?_some found) (by simp [good])

/-- A buffer that passes the checks holds whole stripes. -/
theorem importCheck_stripes {d : Desc} {b : List Byte} (good : importCheck d b = 0) : le b 0x20 8 % 4096 = 0 := by
  have third := unlessOk_of_firstBad (st := stHeaderInvalid) (by decide)
    (List.mem_cons_of_mem _ (List.mem_cons_of_mem _ List.mem_cons_self)) good
  rw [Bool.and_eq_true, beq_iff_eq] at third
  exact third.2

/-- The units of the payload, at DATA. -/
def payloadUnits (d : Desc) (l : List Byte) (n : Nat) : List (Nat × List Byte) :=
  (List.range (n / 256)).map (fun i => (xgData d + 256 * i, sub l (128 + 256 * i) 256))

section
variable {d : Desc} {l : List Byte} {n : Nat} (room : 128 + n ≤ l.length)
include room

theorem payloadUnit_length {i : Nat} (low : i < n / 256) : (sub l (128 + 256 * i) 256).length = 256 := length_sub (by omega)

theorem mem_payloadUnits {p : Nat × List Byte} (among : p ∈ payloadUnits d l n) :
    ∃ i, i < n / 256 ∧ p = (xgData d + 256 * i, sub l (128 + 256 * i) 256) ∧ p.2.length = 256 := by
  obtain ⟨i, hi, rfl⟩ := List.mem_map.mp among
  exact ⟨i, List.mem_range.mp hi, rfl, payloadUnit_length room (List.mem_range.mp hi)⟩

theorem payloadUnits_apart (aligned : xgData d % 256 = 0) : ElemsApart (payloadUnits d l n) := by
  refine ⟨fun p hp => ?_, List.pairwise_map.mpr (List.pairwise_lt_range.imp_of_mem fun {i j} hi hj before => ?_)⟩
  · obtain ⟨i, -, rfl, width⟩ := mem_payloadUnits room hp
    rw [width]
    show (xgData d + 256 * i) % 4096 + 256 ≤ 4096
    omega
  · rw [payloadUnit_length room (List.mem_range.mp hi)]
    omega

/-- The payload, in whole units, stands at DATA. -/
theorem lands_payloadUnits {s s' : State} (put : Lands s s' (payloadUnits d l n)) (whole : n % 256 = 0) :
    (∀ k, k < n → memByte s'.mem (xgData d + k) = l.getD (128 + k) 0) ∧
      ∀ a, ¬(xgData d ≤ a ∧ a < xgData d + n) → memByte s'.mem a = memByte s.mem a := by
  refine ⟨fun k hk => ?_, fun a out => put.outside a fun p hp => ?_⟩
  · have low : k / 256 < n / 256 := by omega
    have unit := put.inside _ (List.mem_map.mpr ⟨k / 256, List.mem_range.mpr low, rfl⟩) (k % 256)
      (by rw [payloadUnit_length room low]; exact Nat.mod_lt k (by decide))
    rw [getD_sub (Nat.mod_lt k (by decide))] at unit
    rwa [Nat.add_assoc, Nat.add_assoc, Nat.div_add_mod] at unit
  · obtain ⟨i, low, rfl, width⟩ := mem_payloadUnits room hp
    rw [width]
    show ¬(xgData d + 256 * i ≤ a ∧ a < xgData d + 256 * i + 256)
    omega

end

/-- Ranges that share no byte. -/
theorem apart_of_not_overlaps {a n b m : Nat} (clear : overlaps a n b m = false) (some_ : 0 < n) (some_' : 0 < m) : b + m ≤ a ∨ a + n ≤ b := by
  simp only [overlaps, some_, some_', decide_true, Bool.and_true, Bool.and_eq_false_iff, decide_eq_false_iff_not] at clear
  omega

/-- The generation of a header that stood at OBJ, plus 1. -/
theorem gen_next (hd : List Byte) : (if intactCt hd then ohGen hd + 1 else if intactKy hd then khGen hd + 1 else 1) =
    (if intactCt hd then ohGen hd else if intactKy hd then khGen hd else 0) + 1 := by
  split
  · rfl
  · split <;> rfl

section
variable {s : State} {h : Nat} {e : Entry} (held : entryOf s h = some e) (busy : h ∈ s.hi.xfers) (runs : domainRuns s 1 = true)
  (open_ : linkOpen s e.fn = true)

section
include held busy runs open_

/-- An IMPORT whose checks pass ends once its payload and its header are written. -/
theorem transferComplete_import {l : List Byte} (row : e.row = "IMPORT") (good : importCheck e.desc l = 0) {n : Nat} (size : n = le l 0x20 8)
    (data : inRegion e.regions (xgData e.desc) n = true) (object : inRegion e.regions (xgObj e.desc) 256 = true)
    (clear : overlaps (xgData e.desc) n (xgObj e.desc) 256 = false) {s1 s2 : State} {hd : List Byte}
    (header : readAll (translateAll s e []) (fnRecOf s e.fn).part h [(xgObj e.desc, 256)] = .got s1 (some [hd]))
    (written : headerWrites (devScatter s1 (fnRecOf s e.fn).part (e.tag % 4096) 0 h (payloadUnits e.desc l n)) (fnRecOf s e.fn).part h
      [(xgObj e.desc, importHeader e.desc l ((if intactCt hd then ohGen hd else if intactKy hd then khGen hd else 0) + 1))] = some s2) :
    exec (.transferComplete h (.bytes l) 0) s = .next (endTransfer s2 h 0) := by
  subst size
  have part : partOfFn (translateAll s e []) e.fn = (fnRecOf s e.fn).part := partOfFn_of_hostOnly (translateAll_hostOnly s e []) e.fn
  have passes : firstBad [importCheck e.desc l,
      unlessOk (inRegion e.regions (xgData e.desc) (le l 0x20 8) && inRegion e.regions (xgObj e.desc) 256) stDescRange,
      unlessOk (!(overlaps (xgData e.desc) (le l 0x20 8) (xgObj e.desc) 256)) stInPlaceForbidden] = 0 := by
    rw [good, data, object, clear]
    rfl
  refine transferComplete_bytes held busy runs open_ ?_
  unfold goodTransfer runImport
  rw [if_neg (by rw [row]; decide), if_neg (by rw [row]; decide)]
  simp only [passes, part, entryOf_handle held, header, ne_eq, not_true_eq_false, if_false]
  rw [gen_next]
  exact congrArg (Option.map fun s => endTransfer s h stOk) written

end

/-- What such an IMPORT has written: its header at OBJ, its payload at DATA, and no other byte. -/
theorem import_written {l b : List Byte} {n part : Nat} {s1 s2 : State} {hd : List Byte} (wf : s.mem.bytes.wf = true)
    (good : importCheck e.desc l = 0) (size : n = le l 0x20 8) (room : 128 + n ≤ l.length)
    (clear : overlaps (xgData e.desc) n (xgObj e.desc) 256 = false) (alignedData : xgData e.desc % 256 = 0) (alignedObj : xgObj e.desc % 256 = 0)
    (length : b.length = 256) (header : readAll (translateAll s e []) part h [(xgObj e.desc, 256)] = .got s1 (some [hd]))
    (written : headerWrites (devScatter s1 part (e.tag % 4096) 0 h (payloadUnits e.desc l n)) part h [(xgObj e.desc, b)] = some s2) :
    (∀ k, k < 256 → memByte s2.mem (xgObj e.desc + k) = b.getD k 0) ∧
      (∀ k, k < n → memByte s2.mem (xgData e.desc + k) = l.getD (128 + k) 0) ∧
      ∀ a, ¬(xgObj e.desc ≤ a ∧ a < xgObj e.desc + 256) → ¬(xgData e.desc ≤ a ∧ a < xgData e.desc + n) →
        memByte s2.mem a = memByte s.mem a := by
  have read := (readOnly_of_hostOnly (translateAll_hostOnly s e [])).trans (readAll_some header).1
  have wf1 : s1.mem.bytes.wf = true := by rw [read.bytes]; exact wf
  have whole := importCheck_stripes good
  obtain ⟨payload, rest⟩ := lands_payloadUnits room
    (devScatter_lands part (e.tag % 4096) 0 h wf1 (payloadUnits_apart room alignedData)) (by omega)
  have units : HeaderUnits (devScatter s1 part (e.tag % 4096) 0 h (payloadUnits e.desc l n)) [(xgObj e.desc, b)] :=
    ⟨devScatter_wf _ _ _ _ wf1 _, List.nodup_singleton (xgObj e.desc), fun q hq => List.mem_singleton.mp hq ▸ ⟨alignedObj, length⟩⟩
  obtain ⟨inside, outside⟩ := headerWrites_written units written
  have others : ∀ a, ¬(xgObj e.desc ≤ a ∧ a < xgObj e.desc + 256) →
      memByte s2.mem a = memByte (devScatter s1 part (e.tag % 4096) 0 h (payloadUnits e.desc l n)).mem a := fun a out =>
    outside a fun q hq => List.mem_singleton.mp hq ▸ out
  refine ⟨inside _ (List.mem_singleton_self _), fun k hk => ?_, fun a outObj outData => ?_⟩
  · have := apart_of_not_overlaps clear (by omega) (by decide)
    rw [others _ (by omega), payload k hk]
  · rw [others a outObj, rest a outData, read.memByte]

end

/-- Settles O39: a start from the entry and the header that it clears, each end from what its row writes. -/
theorem transfers : Obligations.Transfers := by
  unfold Obligations.Transfers
  intro s h e
  refine ⟨fun rest first room runs => ⟨fun stale => ?stale, fun active may => transferStart_starts first room runs active may⟩,
    fun held busy runs => ⟨transferComplete_linkError_ends held busy runs,
      fun p open_ missing asks => transferComplete_pageFault_ends held busy runs open_ missing asks, ?moveIn,
      fun l open_ row device ready found => transferComplete_moveOut held busy runs open_ l row device ready found,
      fun l s1 hd s2 pay open_ row header fit room inside ready found payload =>
        transferComplete_exports held busy runs open_ l row header fit room inside ready found payload,
      fun l open_ row bad => transferComplete_import_bad held busy runs open_ row bad, ?imported⟩⟩
  case stale =>
    obtain ⟨closed, event, xfers, mem⟩ := closed_stale s e.handle stConfigStale
    exact ⟨_, transferStart_stale first room runs stale, closed, event, xfers, mem⟩
  case moveIn =>
    rintro l _ _ wf open_ row host ready rfl rfl - length fits disjoint
    exact transferComplete_moveIn held busy runs open_ wf row host ready length fits disjoint
  case imported =>
    intro l n s1 s2 hd b open_ row good size room data object clear alignedData alignedObj wf header shape written
    have fields := importHeader_shape e.desc l ((if intactCt hd then ohGen hd else if intactKy hd then khGen hd else 0) + 1)
    rw [← shape] at fields
    obtain ⟨length, intact, valid, scheme, gen, dataAt, lengthAt, keyid⟩ := fields
    have placed := import_written wf good size room clear alignedData alignedObj length header written
    rw [shape] at written
    exact ⟨transferComplete_import held busy runs open_ row good size data object clear header written, intact, valid, scheme, gen, dataAt,
      lengthAt.trans size.symm, keyid, placed⟩

end Sys2Proof.Proofs

/-! O42: the address map of device memory (R232, R233, R235). -/

namespace Sys2Proof.Proofs
open Sys2Proof Sys2Proof.Machine Sys2Proof.Laws Sys2Proof.Claims

/-- On the stack of its unit `u` a stripe's local index is the stripe's row and `16 - u` (R233). -/
theorem localIndex_unitStack (st : Nat) {u : Nat} (among : u < 17) : localIndex st (unitStack st u) = 17 * (st / 20) + (16 - u) := by
  simp only [localIndex, unitStack]
  omega

/-- The 17 units of a stripe group lie on different stacks (R232). -/
theorem unitStack_injOn (st : Nat) {u v : Nat} (hu : u < 17) (hv : v < 17) (same : unitStack st u = unitStack st v) : u = v := by
  simp only [unitStack] at same
  omega

/-- A place on a stack holds one unit of one stripe (R233). -/
theorem unit_of_place {st st' u u' : Nat} (hu : u < 17) (hu' : u' < 17) (stack : unitStack st u = unitStack st' u')
    (index : localIndex st (unitStack st u) = localIndex st' (unitStack st' u')) : st = st' ∧ u = u' := by
  rw [localIndex_unitStack st hu, localIndex_unitStack st' hu'] at index
  have row : st / 20 = st' / 20 := by omega
  have unit : u = u' := by omega
  subst unit
  simp only [unitStack] at stack
  exact ⟨by omega, rfl⟩

/-- Settles O42, by the laws of sparse memories and the arithmetic of the address map. -/
theorem memoryReadsBack : Obligations.MemoryReadsBack := by
  unfold Obligations.MemoryReadsBack
  refine ⟨fun m a b v wf => ?_, fun m a v => Mem.wr_wf m a v, fun m k => Mem.ext_wf (lo := 0) m k,
    fun st u v hu hv differ same => differ (unitStack_injOn st hu hv same), fun st st' u u' => unit_of_place⟩
  split
  case isTrue same => rw [same, Mem.rd_wr_same m a v wf]
  case isFalse differ => exact Mem.rd_wr_ne m v differ

end Sys2Proof.Proofs

/-! O59: the canonical form of device memory. What each operation of the model, in the order of the model's files, does to the bytes: only a
write of a stripe, the release of a region and a reset change them. `_keepsMem`: device memory is as before; `_keepsBytes`: its bytes are;
`_keepsForm`: they stand in canonical form when they did before. -/

namespace Sys2Proof.Proofs
open Sys2Proof Sys2Proof.Machine Sys2Proof.Laws Sys2Proof.Claims

/-- A command that answers a next state has kept device memory in its canonical form there. -/
def AnswersInForm (r : Res) : Prop := ∀ t, r = .next t → t.mem.bytes.wf = true

@[simp] theorem answersInForm_next (t : State) : AnswersInForm (.next t) ↔ t.mem.bytes.wf = true := by simp [AnswersInForm]

@[simp] theorem answersInForm_no (row : String) : AnswersInForm (no row) := by simp [AnswersInForm, no]

@[simp] theorem answersInForm_refused (r : Refusal) : AnswersInForm (.refused r) := by simp [AnswersInForm]

@[simp] theorem answersInForm_fault (f : Fault) : AnswersInForm (.fault f) := by simp [AnswersInForm]

@[simp] theorem answersInForm_ite {c : Prop} [Decidable c] (a b : Res) :
    AnswersInForm (if c then a else b) ↔ if c then AnswersInForm a else AnswersInForm b := by split <;> rfl

@[simp] theorem ite_mem {c : Prop} [Decidable c] (a b : State) : (if c then a else b).mem = if c then a.mem else b.mem := apply_ite ..

@[simp] theorem ite_bytes {c : Prop} [Decidable c] (a b : DevMem) : (if c then a else b).bytes = if c then a.bytes else b.bytes :=
  apply_ite ..

@[simp] theorem foldl_keepsMem {α : Type} {g : State → α → State} (kept : ∀ s x, (g s x).mem = s.mem) (l : List α) (s : State) :
    (l.foldl g s).mem = s.mem :=
  foldl_keeps (R := fun a b => b.mem = a.mem) (fun _ => rfl) (fun h k => k.trans h) kept l s

@[simp] theorem foldl_keepsBytes {α : Type} {g : State → α → State} (kept : ∀ s x, (g s x).mem.bytes = s.mem.bytes) (l : List α)
    (s : State) : (l.foldl g s).mem.bytes = s.mem.bytes :=
  foldl_keeps (R := fun a b => b.mem.bytes = a.mem.bytes) (fun _ => rfl) (fun h k => k.trans h) kept l s

@[simp] theorem foldl_keepsForm {α : Type} {g : State → α → State}
    (kept : ∀ s x, s.mem.bytes.wf = true → (g s x).mem.bytes.wf = true) (l : List α) (s : State) (wf : s.mem.bytes.wf = true) :
    (l.foldl g s).mem.bytes.wf = true :=
  foldl_keeps (R := fun a b => a.mem.bytes.wf = true → b.mem.bytes.wf = true) (fun _ => id) (fun h k => k ∘ h) kept l s wf

/-! Time. -/

@[simp] theorem idleTick_keepsMem (s : State) : (idleTick s).mem = s.mem := by simp [idleTick]

/-! Ops. -/

@[simp] theorem drawBytes_keepsMem (s : State) (n : Nat) : (drawBytes s n).2.mem = s.mem := rfl

@[simp] theorem msixSend_keepsMem (s : State) (fn vec : Nat) : (msixSend s fn vec).mem = s.mem := (msixSend_frame ..).mem

@[simp] theorem fltEvent_keepsMem (s : State) (b : Nat) : (fltEvent s b).mem = s.mem := (fltEvent_frame ..).mem

@[simp] theorem memEvent_keepsBytes (s : State) (b : Nat) : (memEvent s b).mem.bytes = s.mem.bytes := (memEvent_frame ..).2

@[simp] theorem tsEvent_keepsMem (s : State) (b : Nat) : (tsEvent s b).mem = s.mem := (tsEvent_frame ..).mem

@[simp] theorem clkEvent_keepsMem (s : State) (b : Nat) : (clkEvent s b).mem = s.mem := rfl

@[simp] theorem cacheTranslation_keepsMem (s : State) (fn space page : Nat) (rd wr : Bool) :
    (cacheTranslation s fn space page rd wr).mem = s.mem := rfl

@[simp] theorem cqSignal_keepsMem (s : State) (g : Nat) : (cqSignal s g).mem = s.mem := (cqSignal_frame ..).mem

@[simp] theorem writeEntry_keepsMem (s : State) (g : Nat) (h : HeldEntry) : (writeEntry s g h).mem = s.mem := (writeEntry_frame ..).mem

@[simp] theorem linkError_keepsMem (s : State) (fn : Nat) : (linkError s fn).mem = s.mem := (linkError_frame ..).mem

@[simp] theorem postEntry_keepsMem (s : State) (g : Nat) (h : HeldEntry) : (postEntry s g h).mem = s.mem := (postEntry_frame ..).mem

@[simp] theorem notice_keepsMem (s : State) (fn code status handle : Nat) : (notice s fn code status handle).mem = s.mem :=
  (notice_frame ..).mem

@[simp] theorem noticeAll_keepsMem (s : State) (code status handle : Nat) : (noticeAll s code status handle).mem = s.mem :=
  (noticeAll_frame ..).mem

@[simp] theorem settle_keepsMem (s : State) (done : Option (Nat × Bool)) : (settle s done).mem = s.mem := (settle_frame ..).mem

@[simp] theorem complete_keepsMem (s : State) (h status info : Nat) (detail : Option Detail) (exhausted : Bool) :
    (complete s h status info detail exhausted).mem = s.mem := (complete_frame ..).mem

@[simp] theorem dropHandle_keepsMem (s : State) (h : Nat) : (dropHandle s h).mem = s.mem := (dropHandle_frame ..).mem

@[simp] theorem logFault_keepsMem (s : State) (source action ltile ptile channel part handle detail : Nat) :
    (logFault s source action ltile ptile channel part handle detail).mem = s.mem := (logFault_frame ..).mem

@[simp] theorem absorbed_keepsMem (s : State) : (absorbed s).mem = s.mem := rfl

@[simp] theorem spoilHost_keepsMem (s : State) (t : Nat) : (spoilHost s t).mem = s.mem := by simp [spoilHost]

@[simp] theorem spoilRange_keepsBytes (s : State) (a n : Nat) : (spoilRange s a n).mem.bytes = s.mem.bytes := (spoilRange_frame ..).bytes

@[simp] theorem spoilOutputs_keepsBytes (s : State) (g : Group) : (spoilOutputs s g).mem.bytes = s.mem.bytes :=
  (spoilOutputs_frame ..).bytes

@[simp] theorem offerTile_keepsMem (s : State) (t : Nat) : (offerTile s t).mem = s.mem := (offerTile_frame ..).mem

@[simp] theorem dropReqs_keepsBytes (s : State) (ts : List Nat) : (dropReqs s ts).mem.bytes = s.mem.bytes := by simp [dropReqs]

@[simp] theorem endGroup_keepsBytes (s : State) (g : Group) : (endGroup s g).mem.bytes = s.mem.bytes := (endGroup_frame ..).bytes

@[simp] theorem abortTask_keepsBytes (s : State) (h status : Nat) (detail : Option Detail) :
    (abortTask s h status detail).mem.bytes = s.mem.bytes := (abortTask_frame ..).bytes

@[simp] theorem goUnrecoverable_keepsBytes (s : State) (cause : Nat) : (goUnrecoverable s cause).mem.bytes = s.mem.bytes :=
  by simp [goUnrecoverable]

/-! Measure. -/

@[simp] theorem signIdk_keepsMem (s : State) (m : List Byte) : (signIdk s m).2.mem = s.mem := rfl

/-! Tiles. -/

@[simp] theorem tileAbort_keepsBytes (s : State) (g : Group) (t : Nat) (d : Detail) : (tileAbort s g t d).mem.bytes = s.mem.bytes :=
  (tileAbort_frame ..).bytes

@[simp] theorem settleTile_keepsBytes (s : State) (g : Group) (t : Nat) (x : Tile) (viols : List Detail) :
    (settleTile s g t x viols).mem.bytes = s.mem.bytes := (settleTile_frame ..).bytes

@[simp] theorem groupFault_keepsMem (s : State) (g : Group) (t source cyc unit : Nat) (injected : Bool) :
    (groupFault s g t source cyc unit injected).mem = s.mem := rfl

@[simp] theorem endInjection_keepsMem (s : State) (fired : Bool) (kind code : Nat) : (endInjection s fired kind code).mem = s.mem :=
  (endInjection_frame ..).mem

theorem fireTile_keepsMem (s : State) (g : Group) (t kind source cyc unit : Nat) {out : State}
    (gives : fireTile s g t kind source cyc unit = some out) :
    out.mem = s.mem := by
  grind [fireTile, endInjection_keepsMem, groupFault_keepsMem]

theorem fireRead_keepsMem (s : State) (g : Group) (t a cyc unit : Nat) {out : State} (gives : fireRead s g t a cyc unit = some out) :
    out.mem = s.mem := by
  grind [fireRead, → fireTile_keepsMem]

theorem fireMerge_keepsMem (s : State) (g : Group) (t a n cyc unit : Nat) {out : State} (gives : fireMerge s g t a n cyc unit = some out) :
    out.mem = s.mem := by
  grind [fireMerge, → fireRead_keepsMem]

/-! Memory. -/

@[simp] theorem setChannel_keepsBytes (s : State) (c : Nat) (x : Channel) : (setChannel s c x).mem.bytes = s.mem.bytes :=
  by simp [setChannel]

@[simp] theorem setStack_keepsBytes (s : State) (n : Nat) (x : Stack) : (setStack s n x).mem.bytes = s.mem.bytes := by simp [setStack]

@[simp] theorem unitMended_keepsBytes (s : State) (st u : Nat) : (unitMended s st u).mem.bytes = s.mem.bytes := (unitMended_frame ..).2

@[simp] theorem crcRepaired_keepsBytes (s : State) (source part handle st u : Nat) :
    (crcRepaired s source part handle st u).mem.bytes = s.mem.bytes := (crcRepaired_frame ..).2

@[simp] theorem poison_keepsBytes (s : State) (st : Nat) : (poison s st).mem.bytes = s.mem.bytes := (poison_frame ..).2

@[simp] theorem loseUnit_keepsBytes (source : Nat) (s : State) (part handle st u : Nat) :
    (loseUnit source s part handle st u).mem.bytes = s.mem.bytes := (loseUnit_frame ..).2

@[simp] theorem fireUnit_keepsBytes (s : State) (part handle st u : Nat) : (fireUnit s part handle st u).mem.bytes = s.mem.bytes :=
  (fireUnit_frame ..).2

@[simp] theorem fetchUnitBy_keepsBytes (source : Nat) (s : State) (part handle st u : Nat) :
    (fetchUnitBy source s part handle st u).1.mem.bytes = s.mem.bytes := (fetchUnitBy_frame ..).2

@[simp] theorem fetchUnit_keepsBytes (s : State) (part handle st u : Nat) : (fetchUnit s part handle st u).1.mem.bytes = s.mem.bytes :=
  (fetchUnit_frame ..).2

@[simp] theorem charge_keepsBytes (s : State) (p : Nat) (n : Int) : (charge s p n).mem.bytes = s.mem.bytes := (charge_frame ..).2

@[simp] theorem settleBuckets_keepsBytes (s : State) : (settleBuckets s).mem.bytes = s.mem.bytes := by simp [settleBuckets]

@[simp] theorem writeStripe_keepsForm (s : State) (part handle st : Nat) (data : List Byte) (en : List Bool) (wf : s.mem.bytes.wf = true) :
    (writeStripe s part handle st data en).mem.bytes.wf = true := writeStripe_wf _ _ _ _ _ _ wf

@[simp] theorem lostRecord_keepsMem (s : State) (h part st : Nat) : (lostRecord s h part st).mem = s.mem := (lostRecord_frame ..).mem

@[simp] theorem loseWork_keepsBytes (s : State) (h : Nat) : (loseWork s h).mem.bytes = s.mem.bytes := by simp [loseWork]

@[simp] theorem objectLost_keepsBytes (s : State) (h part st : Nat) : (objectLost s h part st).mem.bytes = s.mem.bytes :=
  by simp [objectLost]

@[simp] theorem devRead_keepsBytes (s : State) (part handle a n : Nat) : (devRead s part handle a n).1.mem.bytes = s.mem.bytes :=
  (devRead_frame ..).2

@[simp] theorem devWrite_keepsForm (s : State) (part handle a : Nat) (b : List Byte) (wf : s.mem.bytes.wf = true) :
    (devWrite s part handle a b).mem.bytes.wf = true := devWrite_wf _ _ _ _ _ wf

theorem headerWrites_keepsForm {s : State} {part handle : Nat} {l : List (Nat × List Byte)} {out : State} (wf : s.mem.bytes.wf = true)
    (gives : headerWrites s part handle l = some out) : out.mem.bytes.wf = true := by
  induction l generalizing s with
  | nil => cases gives; exact wf
  | cons p l ih => exact ih (devWrite_wf _ _ _ _ _ wf) (headerWrites_cons gives)

@[simp] theorem releaseRange_keepsForm (s : State) (a n : Nat) (wf : s.mem.bytes.wf = true) : (releaseRange s a n).mem.bytes.wf = true :=
  releaseRange_wf _ _ _ wf

@[simp] theorem trimKeep_keepsBytes (s : State) : (trimKeep s).mem.bytes = s.mem.bytes := by simp [trimKeep]

@[simp] theorem touchLine_keepsBytes (s : State) (st u : Nat) (keep : Bool) (session part : Nat) :
    (touchLine s st u keep session part).mem.bytes = s.mem.bytes := by simp [touchLine]

@[simp] theorem cacheRead_keepsBytes (s : State) (st u hint session part : Nat) (rebuilt : Bool) :
    (cacheRead s st u hint session part rebuilt).mem.bytes = s.mem.bytes := by
  fun_cases cacheRead s st u hint session part rebuilt <;> simp

@[simp] theorem cacheWrite_keepsBytes (s : State) (st u hint session part : Nat) :
    (cacheWrite s st u hint session part).mem.bytes = s.mem.bytes := by
  fun_cases cacheWrite s st u hint session part <;> simp

@[simp] theorem dropLines_keepsBytes (s : State) (session : Nat) : (dropLines s session).mem.bytes = s.mem.bytes := by simp [dropLines]

@[simp] theorem setReq_keepsBytes (s : State) (r : MemReq) : (setReq s r).mem.bytes = s.mem.bytes := by simp [setReq]

theorem execBucketRelease_keepsForm (part req : Nat) (s : State) (wf : s.mem.bytes.wf = true) :
    AnswersInForm (execBucketRelease part req s) := by
  fun_cases execBucketRelease part req s <;> simp [wf]

@[simp] theorem markBad_keepsBytes (s : State) (st u src : Nat) : (markBad s st u src).mem.bytes = s.mem.bytes := by simp [markBad]

@[simp] theorem meetDirect_keepsBytes (s : State) (st u : Nat) (crc : Option Nat) : (meetDirect s st u crc).mem.bytes = s.mem.bytes :=
  by simp [meetDirect]

@[simp] theorem meetUnit_keepsBytes (s : State) (st u : Nat) (met : ReadMet) : (meetUnit s st u met).1.mem.bytes = s.mem.bytes := by
  fun_cases meetUnit s st u met <;> simp

@[simp] theorem dropLine_keepsBytes (s : State) (part handle st u : Nat) : (dropLine s part handle st u).mem.bytes = s.mem.bytes :=
  by simp [dropLine]

theorem serveMiss_keepsBytes (s : State) (r : MemReq) (met : ReadMet) {out : State} (gives : serveMiss s r met = some out) :
    out.mem.bytes = s.mem.bytes := by
  grind [serveMiss, meetUnit_keepsBytes, fetchUnitBy_keepsBytes, setReq_keepsBytes, cacheRead_keepsBytes, objectLost_keepsBytes]

@[simp] theorem readUnitOf_keepsForm (req : Nat) (met : ReadMet) (s : State) (wf : s.mem.bytes.wf = true) :
    AnswersInForm (readUnitOf req met s) := by
  fun_cases readUnitOf req met s <;>
    grind [answersInForm_next, answersInForm_no, answersInForm_fault, → serveMiss_keepsBytes, dropLine_keepsBytes, cacheRead_keepsBytes,
      charge_keepsBytes, setReq_keepsBytes]

theorem execMemRead_keepsForm (req : ReadEvent) (s : State) (wf : s.mem.bytes.wf = true) : AnswersInForm (execMemRead req s) := by
  fun_cases execMemRead req s <;> simp [wf]

@[simp] theorem buffer_keepsBytes (s : State) (st : Nat) (us : List Nat) : (buffer s st us).mem.bytes = s.mem.bytes := by simp [buffer]

theorem execMemWrite_keepsForm (req : Nat) (s : State) (wf : s.mem.bytes.wf = true) : AnswersInForm (execMemWrite req s) := by
  unfold execMemWrite
  simp only
  repeat' split
  all_goals simp [wf]

theorem execKeepExpiry_keepsForm (unit : Nat) (s : State) (wf : s.mem.bytes.wf = true) : AnswersInForm (execKeepExpiry unit s) := by
  fun_cases execKeepExpiry unit s <;> simp [wf]

/-! Rings. -/

@[simp] theorem requestFetch_keepsMem (s : State) (fn : Nat) (sqs cqs : List Nat) : (requestFetch s fn sqs cqs).mem = s.mem := rfl

@[simp] theorem kick_keepsMem (s : State) (fn : Nat) (v : BitVec 32) : (kick s fn v).mem = s.mem := by
  fun_cases kick s fn v <;> simp

theorem execKickAll_keepsForm (fn : Nat) (s : State) (wf : s.mem.bytes.wf = true) : AnswersInForm (execKickAll fn s) :=
  by simp [execKickAll, wf]

theorem execKickRing_keepsForm (fn ring : Nat) (s : State) (wf : s.mem.bytes.wf = true) : AnswersInForm (execKickRing fn ring s) :=
  by simp [execKickRing, wf]

theorem execPollTimer_keepsForm (fn : Nat) (s : State) (wf : s.mem.bytes.wf = true) : AnswersInForm (execPollTimer fn s) :=
  by simp [execPollTimer, wf]

@[simp] theorem takeTail_keepsMem (fn : Nat) (recs : List DbRec) (s : State) (i : Nat) : (takeTail fn recs s i).mem = s.mem := by
  fun_cases takeTail fn recs s i <;> simp

@[simp] theorem takeHead_keepsMem (fn : Nat) (recs : List DbRec) (s : State) (i : Nat) : (takeHead fn recs s i).mem = s.mem := by
  fun_cases takeHead fn recs s i <;> simp

theorem execDoorbellRecordArrival_keepsForm (fn : Nat) (recs : List DbRec) (s : State) (wf : s.mem.bytes.wf = true) :
    AnswersInForm (execDoorbellRecordArrival fn recs s) := by simp [execDoorbellRecordArrival, wf]

@[simp] theorem haltSq_keepsMem (s : State) (fn g status : Nat) : (haltSq s fn g status).mem = s.mem := (haltSq_frame ..).mem

theorem execHostFetchError_keepsForm (fn ring : Nat) (s : State) (wf : s.mem.bytes.wf = true) :
    AnswersInForm (execHostFetchError fn ring s) := by
  fun_cases execHostFetchError fn ring s <;> simp [wf]

@[simp] theorem haltCq_keepsMem (s : State) (cq : Nat) (c : Cq) : (haltCq s cq c).mem = s.mem := by simp [haltCq]

theorem execCqWriteError_keepsForm (cq : Nat) (s : State) (wf : s.mem.bytes.wf = true) : AnswersInForm (execCqWriteError cq s) :=
  by simp [execCqWriteError, wf]

theorem execMsixCoalesceTimer_keepsForm (cq : Nat) (s : State) (wf : s.mem.bytes.wf = true) :
    AnswersInForm (execMsixCoalesceTimer cq s) := by
  fun_cases execMsixCoalesceTimer cq s <;> simp [wf]

@[simp] theorem sqReset_keepsMem (s : State) (fn : Nat) (v : BitVec 32) : (sqReset s fn v).mem = s.mem := by
  fun_cases sqReset s fn v <;> simp

theorem execHiSqReset_keepsForm (fn : Nat) (v : BitVec 32) (s : State) (wf : s.mem.bytes.wf = true) :
    AnswersInForm (execHiSqReset fn v s) := by simp [execHiSqReset, wf]

@[simp] theorem writeSqCfg_keepsMem (s : State) (fn : Nat) (v : BitVec 32) : (writeSqCfg s fn v).mem = s.mem := by
  fun_cases writeSqCfg s fn v <;> simp

theorem execSqEnable_keepsForm (fn : Nat) (v : BitVec 32) (s : State) (wf : s.mem.bytes.wf = true) :
    AnswersInForm (execSqEnable fn v s) := by
  fun_cases execSqEnable fn v s <;> simp [wf]

theorem execSqDisable_keepsForm (fn : Nat) (v : BitVec 32) (s : State) (wf : s.mem.bytes.wf = true) :
    AnswersInForm (execSqDisable fn v s) := by
  fun_cases execSqDisable fn v s <;> simp [wf]

@[simp] theorem writeCqCfg_keepsMem (s : State) (fn : Nat) (v : BitVec 32) : (writeCqCfg s fn v).mem = s.mem := by
  fun_cases writeCqCfg s fn v <;> simp

theorem execCqEnable_keepsForm (fn : Nat) (v : BitVec 32) (s : State) (wf : s.mem.bytes.wf = true) :
    AnswersInForm (execCqEnable fn v s) := by
  fun_cases execCqEnable fn v s <;> simp [wf]

theorem execCqDisable_keepsForm (fn : Nat) (v : BitVec 32) (s : State) (wf : s.mem.bytes.wf = true) :
    AnswersInForm (execCqDisable fn v s) := by
  fun_cases execCqDisable fn v s <;> simp [wf]

@[simp] theorem writeCqCtrl_keepsMem (s : State) (fn : Nat) (v : BitVec 32) : (writeCqCtrl s fn v).mem = s.mem := by
  unfold writeCqCtrl
  simp only
  repeat' split
  all_goals simp

theorem execResume_keepsForm (fn : Nat) (s : State) (wf : s.mem.bytes.wf = true) : AnswersInForm (execResume fn s) := by
  fun_cases execResume fn s <;> simp [wf]

theorem execClearNoticeLost_keepsForm (fn : Nat) (s : State) (wf : s.mem.bytes.wf = true) : AnswersInForm (execClearNoticeLost fn s) := by
  fun_cases execClearNoticeLost fn s <;> simp [wf]

@[simp] theorem setMsix_keepsMem (s : State) (fn vec : Nat) (e : MsixEntry) : (setMsix s fn vec e).mem = s.mem := rfl

@[simp] theorem msixFlush_keepsMem (s : State) (fn vec : Nat) : (msixFlush s fn vec).mem = s.mem := by simp [msixFlush]

@[simp] theorem msixUnmask_keepsMem (s : State) (fn vec : Nat) : (msixUnmask s fn vec).mem = s.mem := by simp [msixUnmask]

theorem execMsixUnmask_keepsForm (fn vec : Nat) (s : State) (wf : s.mem.bytes.wf = true) : AnswersInForm (execMsixUnmask fn vec s) :=
  by simp [execMsixUnmask, wf]

/-! Jubo. -/

theorem refill_keepsBytes {s : State} {g : Group} {t a : Nat} {r : Refill} (gives : refill s g t a = r) :
    (∀ u, r = .got u ∨ r = .lost u → u.mem.bytes = s.mem.bytes) := by
  subst gives
  fun_cases refill s g t a <;> grind [devRead_keepsBytes, loseWork_keepsBytes, drawBytes_keepsMem, setTile_mem]

theorem fetched_keepsForm {f : State → Res} (kept : ∀ s, s.mem.bytes.wf = true → AnswersInForm (f s)) (n : Nat) (row : String) (t : Nat)
    {s : State} (wf : s.mem.bytes.wf = true) : AnswersInForm (fetched n row t s f) := by
  induction n generalizing s with
  | zero => exact answersInForm_no row
  | succ n ih =>
    unfold fetched
    split
    · exact kept s wf
    · split
      · exact kept s wf
      · exact answersInForm_no row
      case _ lost => simpa [refill_keepsBytes lost _ (.inr rfl)] using wf
      case _ got => exact ih (by simpa [refill_keepsBytes got _ (.inl rfl)] using wf)

theorem coreInstrIf_keepsForm {f : State → Group → Tile → Nat → Nat → State}
    (kept : ∀ s g x w c, (f s g x w c).mem.bytes = s.mem.bytes) (row : String) (op t : Nat) (ok : Tile → Nat → Nat → Bool)
    (named : Nat → List Nat) {s : State} (wf : s.mem.bytes.wf = true) : AnswersInForm (coreInstrIf row op t ok s named f) := by
  refine fetched_keepsForm (fun s wf => ?_) 3 row t wf
  split <;> simp [kept, wf]

theorem coreInstr_keepsForm {f : State → Group → Tile → Nat → Nat → State}
    (kept : ∀ s g x w c, (f s g x w c).mem.bytes = s.mem.bytes) (row : String) (op t : Nat) (named : Nat → List Nat) {s : State}
    (wf : s.mem.bytes.wf = true) : AnswersInForm (coreInstr row op t s named f) :=
  coreInstrIf_keepsForm kept row op t _ named wf

theorem aluInstrIf_keepsForm (row : String) (op t : Nat) (ok : Tile → Nat → Nat → Bool) (named : Nat → List Nat) (lat : Nat → Nat)
    (v : Tile → Nat → Word64) {s : State} (wf : s.mem.bytes.wf = true) : AnswersInForm (aluInstrIf row op t ok s named lat v) := by
  refine coreInstrIf_keepsForm (fun s g x w c => ?_) row op t ok named wf
  split
  case _ fires => rw [fireTile_keepsMem _ _ _ _ _ _ _ fires]
  case _ => rfl

theorem aluInstr_keepsForm (row : String) (op t : Nat) (named : Nat → List Nat) (lat : Nat → Nat)
    (v : Tile → Nat → Word64) {s : State} (wf : s.mem.bytes.wf = true) : AnswersInForm (aluInstr row op t s named lat v) :=
  aluInstrIf_keepsForm row op t _ named lat v wf

theorem execAlu_keepsForm (t : Nat) {s : State} (wf : s.mem.bytes.wf = true) : AnswersInForm (execAlu t s) :=
  aluInstrIf_keepsForm _ _ _ _ _ _ _ wf

theorem immInstr_keepsForm (row : String) (op t : Nat) (f : Word64 → Word64 → Word64) {s : State} (wf : s.mem.bytes.wf = true) :
    AnswersInForm (immInstr row op t s f) := aluInstr_keepsForm row op t _ _ _ wf

theorem execAddi_keepsForm (t : Nat) {s : State} (wf : s.mem.bytes.wf = true) : AnswersInForm (execAddi t s) :=
  immInstr_keepsForm _ _ _ _ wf

theorem execAndi_keepsForm (t : Nat) {s : State} (wf : s.mem.bytes.wf = true) : AnswersInForm (execAndi t s) :=
  immInstr_keepsForm _ _ _ _ wf

theorem execOri_keepsForm (t : Nat) {s : State} (wf : s.mem.bytes.wf = true) : AnswersInForm (execOri t s) := immInstr_keepsForm _ _ _ _ wf

theorem execXori_keepsForm (t : Nat) {s : State} (wf : s.mem.bytes.wf = true) : AnswersInForm (execXori t s) :=
  immInstr_keepsForm _ _ _ _ wf

theorem execSlli_keepsForm (t : Nat) {s : State} (wf : s.mem.bytes.wf = true) : AnswersInForm (execSlli t s) :=
  immInstr_keepsForm _ _ _ _ wf

theorem execSrli_keepsForm (t : Nat) {s : State} (wf : s.mem.bytes.wf = true) : AnswersInForm (execSrli t s) :=
  immInstr_keepsForm _ _ _ _ wf

theorem execSrai_keepsForm (t : Nat) {s : State} (wf : s.mem.bytes.wf = true) : AnswersInForm (execSrai t s) :=
  immInstr_keepsForm _ _ _ _ wf

theorem execSlti_keepsForm (t : Nat) {s : State} (wf : s.mem.bytes.wf = true) : AnswersInForm (execSlti t s) :=
  immInstr_keepsForm _ _ _ _ wf

theorem execSltiu_keepsForm (t : Nat) {s : State} (wf : s.mem.bytes.wf = true) : AnswersInForm (execSltiu t s) :=
  immInstr_keepsForm _ _ _ _ wf

theorem execSeth_keepsForm (t : Nat) {s : State} (wf : s.mem.bytes.wf = true) : AnswersInForm (execSeth t s) :=
  aluInstr_keepsForm _ _ _ _ _ _ wf

theorem execBfi_keepsForm (t : Nat) {s : State} (wf : s.mem.bytes.wf = true) : AnswersInForm (execBfi t s) :=
  aluInstr_keepsForm _ _ _ _ _ _ wf

theorem execBfx_keepsForm (t : Nat) {s : State} (wf : s.mem.bytes.wf = true) : AnswersInForm (execBfx t s) :=
  aluInstr_keepsForm _ _ _ _ _ _ wf

theorem coreLoad_keepsForm (row : String) (op n t : Nat) {s : State} (wf : s.mem.bytes.wf = true) :
    AnswersInForm (coreLoad row op n t s) := by
  unfold coreLoad
  split
  · exact answersInForm_no row
  · refine coreInstrIf_keepsForm (fun s g x w c => ?_) row op t _ _ wf
    simp only
    split
    case _ fires => rw [fireRead_keepsMem _ _ _ _ _ _ fires]
    case _ => exact settleTile_keepsBytes ..

theorem coreStore_keepsForm (row : String) (op n t : Nat) {s : State} (wf : s.mem.bytes.wf = true) :
    AnswersInForm (coreStore row op n t s) := by
  unfold coreStore
  split
  · exact answersInForm_no row
  · exact coreInstr_keepsForm (fun _ _ _ _ _ => by rfl) row op t _ wf

theorem execCoreStoreWrite_keepsForm (t : Nat) (s : State) (wf : s.mem.bytes.wf = true) : AnswersInForm (execCoreStoreWrite t s) := by
  fun_cases execCoreStoreWrite t s <;>
    grind [answersInForm_next, answersInForm_no, answersInForm_fault, → fireMerge_keepsMem, settleTile_keepsBytes]

theorem execArg_keepsForm (t : Nat) {s : State} (wf : s.mem.bytes.wf = true) : AnswersInForm (execArg t s) :=
  coreInstr_keepsForm (fun _ _ _ _ _ => by rfl) _ _ _ _ wf

theorem execCld_keepsForm (t : Nat) {s : State} (wf : s.mem.bytes.wf = true) : AnswersInForm (execCld t s) :=
  coreInstr_keepsForm (fun _ _ _ _ _ => by rfl) _ _ _ _ wf

theorem branch_keepsForm (row : String) (op t : Nat) (cond : Word64 → Word64 → Bool) {s : State} (wf : s.mem.bytes.wf = true) :
    AnswersInForm (branch row op t s cond) := coreInstr_keepsForm (fun _ _ _ _ _ => by rfl) row op t _ wf

theorem execBeq_keepsForm (t : Nat) {s : State} (wf : s.mem.bytes.wf = true) : AnswersInForm (execBeq t s) := branch_keepsForm _ _ _ _ wf

theorem execBne_keepsForm (t : Nat) {s : State} (wf : s.mem.bytes.wf = true) : AnswersInForm (execBne t s) := branch_keepsForm _ _ _ _ wf

theorem execBlt_keepsForm (t : Nat) {s : State} (wf : s.mem.bytes.wf = true) : AnswersInForm (execBlt t s) := branch_keepsForm _ _ _ _ wf

theorem execBge_keepsForm (t : Nat) {s : State} (wf : s.mem.bytes.wf = true) : AnswersInForm (execBge t s) := branch_keepsForm _ _ _ _ wf

theorem execBltu_keepsForm (t : Nat) {s : State} (wf : s.mem.bytes.wf = true) : AnswersInForm (execBltu t s) := branch_keepsForm _ _ _ _ wf

theorem execBgeu_keepsForm (t : Nat) {s : State} (wf : s.mem.bytes.wf = true) : AnswersInForm (execBgeu t s) := branch_keepsForm _ _ _ _ wf

theorem execJal_keepsForm (t : Nat) {s : State} (wf : s.mem.bytes.wf = true) : AnswersInForm (execJal t s) :=
  coreInstr_keepsForm (fun _ _ _ _ _ => by rfl) _ _ _ _ wf

theorem execJalr_keepsForm (t : Nat) {s : State} (wf : s.mem.bytes.wf = true) : AnswersInForm (execJalr t s) :=
  coreInstr_keepsForm (fun _ _ _ _ _ => by rfl) _ _ _ _ wf

theorem execAnchor_keepsForm (t : Nat) {s : State} (wf : s.mem.bytes.wf = true) : AnswersInForm (execAnchor t s) :=
  coreInstr_keepsForm (fun _ _ _ _ _ => by rfl) _ _ _ _ wf

theorem execWaitc_keepsForm (t : Nat) {s : State} (wf : s.mem.bytes.wf = true) : AnswersInForm (execWaitc t s) :=
  coreInstr_keepsForm (fun _ _ _ _ _ => by rfl) _ _ _ _ wf

theorem execWaitcExpiry_keepsForm (t : Nat) (s : State) (wf : s.mem.bytes.wf = true) : AnswersInForm (execWaitcExpiry t s) := by
  fun_cases execWaitcExpiry t s <;> simp [wf]

theorem execCsrr_keepsForm (t : Nat) {s : State} (wf : s.mem.bytes.wf = true) : AnswersInForm (execCsrr t s) :=
  coreInstrIf_keepsForm (fun _ _ _ _ _ => by rfl) _ _ _ _ _ wf

theorem execEndCore_keepsForm (t : Nat) {s : State} (wf : s.mem.bytes.wf = true) : AnswersInForm (execEndCore t s) := by
  refine fetched_keepsForm (fun s wf => ?_) _ _ _ wf
  split
  · exact answersInForm_no _
  · dsimp only
    split <;> simp [wf]

theorem execCoreNop_keepsForm (t : Nat) {s : State} (wf : s.mem.bytes.wf = true) : AnswersInForm (execCoreNop t s) := by
  refine fetched_keepsForm (fun s wf => ?_) _ _ _ wf
  split
  · exact answersInForm_no _
  · dsimp only
    split <;> simp [wf]

theorem execCycOverflow_keepsForm (t : Nat) (s : State) (wf : s.mem.bytes.wf = true) : AnswersInForm (execCycOverflow t s) := by
  fun_cases execCycOverflow t s <;> simp [wf]

/-! Layout. -/

theorem execDescMake_keepsForm (t : Nat) {s : State} (wf : s.mem.bytes.wf = true) : AnswersInForm (execDescMake t s) := by
  unfold execDescMake
  split
  · exact answersInForm_no _
  · refine coreInstrIf_keepsForm (fun s g x w c => ?_) _ _ _ _ _ wf
    dsimp only
    split
    case _ fires => rw [fireRead_keepsMem _ _ _ _ _ _ fires]
    case _ => exact settleTile_keepsBytes ..

/-! Push. -/

@[simp] theorem acceptPush_keepsBytes (s : State) (g : Group) (t : Nat) (x : Tile) (w c : Nat) :
    (acceptPush s g t x w c).mem.bytes = s.mem.bytes := by simp [acceptPush]

theorem execPush_keepsForm (t : Nat) {s : State} (wf : s.mem.bytes.wf = true) : AnswersInForm (execPush t s) := by
  refine coreInstrIf_keepsForm (fun s g x w c => ?_) _ _ _ _ _ wf
  simp

theorem execPushStallEnd_keepsForm (t cyc : Nat) (s : State) (wf : s.mem.bytes.wf = true) : AnswersInForm (execPushStallEnd t cyc s) := by
  fun_cases execPushStallEnd t cyc s <;> simp [wf]

/-! Sync. -/

theorem execSemw_keepsForm (t : Nat) {s : State} (wf : s.mem.bytes.wf = true) : AnswersInForm (execSemw t s) := by
  refine coreInstrIf_keepsForm (fun s g x w c => ?_) _ _ _ _ _ wf
  simp

theorem execSemwSatisfied_keepsForm (t : Nat) (s : State) (wf : s.mem.bytes.wf = true) : AnswersInForm (execSemwSatisfied t s) := by
  fun_cases execSemwSatisfied t s <;> simp [wf]

@[simp] theorem ownSignal_keepsBytes (s : State) (g : Group) (t : Nat) (x : Tile) (sem n c : Nat) :
    (ownSignal s g t x sem n c).mem.bytes = s.mem.bytes := by simp [ownSignal]

theorem execSems_keepsForm (t : Nat) {s : State} (wf : s.mem.bytes.wf = true) : AnswersInForm (execSems t s) :=
  coreInstr_keepsForm (fun _ _ _ _ _ => ownSignal_keepsBytes ..) _ _ _ _ wf

theorem execSemr_keepsForm (t : Nat) {s : State} (wf : s.mem.bytes.wf = true) : AnswersInForm (execSemr t s) :=
  coreInstrIf_keepsForm (fun _ _ _ _ _ => by rfl) _ _ _ _ _ wf

theorem execRsig_keepsForm (t : Nat) {s : State} (wf : s.mem.bytes.wf = true) : AnswersInForm (execRsig t s) := by
  refine coreInstrIf_keepsForm (fun s g x w c => ?_) _ _ _ _ _ wf
  simp

theorem execRemoteSignalArrival_keepsForm (t src cyc : Nat) (s : State) (wf : s.mem.bytes.wf = true) :
    AnswersInForm (execRemoteSignalArrival t src cyc s) := by
  fun_cases execRemoteSignalArrival t src cyc s <;> simp [wf]

theorem execBar_keepsForm (t : Nat) {s : State} (wf : s.mem.bytes.wf = true) : AnswersInForm (execBar t s) :=
  coreInstr_keepsForm (fun _ _ _ _ _ => by rfl) _ _ _ _ wf

theorem execBarrierArrival_keepsForm (t : Nat) (s : State) (wf : s.mem.bytes.wf = true) : AnswersInForm (execBarrierArrival t s) := by
  fun_cases execBarrierArrival t s <;> simp [wf]

theorem execBarrierRelease_keepsForm (t cyc : Nat) (s : State) (wf : s.mem.bytes.wf = true) :
    AnswersInForm (execBarrierRelease t cyc s) := by
  fun_cases execBarrierRelease t cyc s <;> simp [wf]

theorem execEpoch_keepsForm (t : Nat) {s : State} (wf : s.mem.bytes.wf = true) : AnswersInForm (execEpoch t s) :=
  coreInstr_keepsForm (fun _ _ _ _ _ => by rfl) _ _ _ _ wf

@[simp] theorem idleStep_keepsMem (s : State) : (idleStep s).mem = s.mem := by simp [idleStep]

theorem execSemaphoreDeadlock_keepsForm (h : Nat) (s : State) (wf : s.mem.bytes.wf = true) : AnswersInForm (execSemaphoreDeadlock h s) := by
  unfold execSemaphoreDeadlock
  simp only
  repeat' split
  all_goals simp [wf]

/-! Streams. -/

@[simp] theorem sendReq_keepsBytes (s : State) (g : Group) (t e cyc : Nat) (st : Stream) (r : StreamReq) :
    (sendReq s g t e cyc st r).1.mem.bytes = s.mem.bytes := by
  unfold sendReq
  simp only
  repeat' split
  all_goals simp

@[simp] theorem pumpOne_keepsBytes (s : State) (g : Group) (t e cyc : Nat) : (pumpOne s g t e cyc).1.mem.bytes = s.mem.bytes := by
  fun_cases pumpOne s g t e cyc <;> grind [setTile_mem, sendReq_keepsBytes]

@[simp] theorem pumpLoop_keepsBytes (n : Nat) (s : State) (g : Group) (t cyc : Nat) : (pumpLoop n s g t cyc).mem.bytes = s.mem.bytes := by
  induction n generalizing s with
  | zero => rfl
  | succ n ih =>
    have noted : ∀ (s : State) (e : Nat),
        (if holdsShared s t e then setTile s t { tileOf s t with lastShared := e } else s).mem = s.mem := by simp
    unfold pumpLoop
    grind [pumpOne_keepsBytes]

@[simp] theorem pumpBoth_keepsBytes (s : State) (g : Group) (t cyc : Nat) : (pumpBoth s g t cyc).mem.bytes = s.mem.bytes :=
  by simp [pumpBoth]

theorem execSeNop_keepsForm (t e cyc : Nat) (s : State) (wf : s.mem.bytes.wf = true) : AnswersInForm (execSeNop t e cyc s) := by
  fun_cases execSeNop t e cyc s <;> simp [wf]

@[simp] theorem issueStream_keepsForm (row : String) (k : EKind) (t e cyc : Nat) (s : State) (wf : s.mem.bytes.wf = true) :
    AnswersInForm (issueStream row k t e cyc s) := by
  fun_cases issueStream row k t e cyc s <;>
    grind [answersInForm_next, answersInForm_no, answersInForm_fault, tileAbort_keepsBytes, → fireRead_keepsMem, setTile_mem,
      pumpBoth_keepsBytes]

theorem execSeRead_keepsForm (t e cyc : Nat) (s : State) (wf : s.mem.bytes.wf = true) : AnswersInForm (execSeRead t e cyc s) :=
  by simp [execSeRead, wf]

theorem execSeWrite_keepsForm (t e cyc : Nat) (s : State) (wf : s.mem.bytes.wf = true) : AnswersInForm (execSeWrite t e cyc s) :=
  by simp [execSeWrite, wf]

theorem execBlockListRead_keepsForm (t e cyc : Nat) (s : State) (wf : s.mem.bytes.wf = true) :
    AnswersInForm (execBlockListRead t e cyc s) := by
  fun_cases execBlockListRead t e cyc s <;>
    grind [answersInForm_next, answersInForm_no, Option.bind_eq_some_iff, → fireRead_keepsMem, tileAbort_keepsBytes, pumpBoth_keepsBytes,
      setTile_mem]

theorem fireLand_keepsMem {s : State} {g : Group} {t e cyc : Nat} {l : List (Nat × List Byte)} {out : State}
    (gives : fireLand s g t e cyc l = some out) : out.mem = s.mem := by
  obtain ⟨p, -, fires⟩ := List.exists_of_findSome?_eq_some gives
  exact fireMerge_keepsMem _ _ _ _ _ _ _ fires

@[simp] theorem readLands_keepsBytes (s : State) (g : Group) (t e cyc : Nat) (st : Stream) (r : StreamReq) (data : List Byte) :
    (readLands s g t e cyc st r data).mem.bytes = s.mem.bytes := by
  fun_cases readLands s g t e cyc st r data <;> grind [→ fireLand_keepsMem, tileAbort_keepsBytes, setTile_mem, pumpBoth_keepsBytes]

@[simp] theorem writeLands_keepsBytes (s : State) (g : Group) (t e cyc : Nat) (st : Stream) (r : StreamReq) :
    (writeLands s g t e cyc st r).mem.bytes = s.mem.bytes := by simp [writeLands]

@[simp] theorem localMoves_keepsBytes (s : State) (g : Group) (t e cyc : Nat) (st : Stream) :
    (localMoves s g t e cyc st).mem.bytes = s.mem.bytes := by
  fun_cases localMoves s g t e cyc st <;> grind [→ fireLand_keepsMem, tileAbort_keepsBytes, setTile_mem, pumpBoth_keepsBytes]

theorem execStreamDataArrival_keepsForm (t e req cyc : Nat) (data : HostData) (s : State) (wf : s.mem.bytes.wf = true) :
    AnswersInForm (execStreamDataArrival t e req cyc data s) := by
  fun_cases execStreamDataArrival t e req cyc data s <;>
    grind [answersInForm_next, answersInForm_no, answersInForm_fault, writeLands_keepsBytes, → fireTile_keepsMem, readLands_keepsBytes,
      localMoves_keepsBytes]

theorem execStreamSignal_keepsForm (t e cyc : Nat) (s : State) (wf : s.mem.bytes.wf = true) :
    AnswersInForm (execStreamSignal t e cyc s) := by
  fun_cases execStreamSignal t e cyc s <;> simp [wf]

/-! Remote. -/

theorem execWin_keepsForm (t : Nat) (s : State) (wf : s.mem.bytes.wf = true) : AnswersInForm (execWin t s) := by
  fun_cases execWin t s
  all_goals grind [answersInForm_next, answersInForm_no, answersInForm_fault, coreInstr_keepsForm, settleTile_keepsBytes]

theorem fireAccess_keepsMem {s : State} {g : Group} {t : Nat} {m : Msg} {a cyc : Nat} {out : State}
    (gives : fireAccess s g t m a cyc = some out) : out.mem = s.mem := by
  unfold fireAccess at gives
  split at gives
  · obtain ⟨w, -, fires⟩ := List.exists_of_findSome?_eq_some gives
    exact fireRead_keepsMem _ _ _ _ _ _ fires
  · exact fireRead_keepsMem _ _ _ _ _ _ gives

theorem execRemoteAccessArrival_keepsForm (t src cyc : Nat) (s : State) (wf : s.mem.bytes.wf = true) :
    AnswersInForm (execRemoteAccessArrival t src cyc s) := by
  fun_cases execRemoteAccessArrival t src cyc s <;>
    grind [answersInForm_next, answersInForm_no, answersInForm_fault, → fireAccess_keepsMem, settleTile_keepsBytes, setGroup_mem]

theorem execRemoteResponseArrival_keepsForm (t cyc : Nat) (s : State) (wf : s.mem.bytes.wf = true) :
    AnswersInForm (execRemoteResponseArrival t cyc s) := by
  fun_cases execRemoteResponseArrival t cyc s <;> simp +zetaDelta [wf]

theorem execWindowNack_keepsForm (t : Nat) (s : State) (wf : s.mem.bytes.wf = true) : AnswersInForm (execWindowNack t s) := by
  unfold execWindowNack
  simp only
  repeat' split
  all_goals simp [wf]

@[simp] theorem hostFail_keepsBytes (s : State) (g : Group) (t e status : Nat) (st : Stream) (addr : Nat) :
    (hostFail s g t e status st addr).mem.bytes = s.mem.bytes := by simp [hostFail]

@[simp] theorem notePause_keepsMem (s : State) (h : Nat) : (notePause s h).mem = s.mem := by
  fun_cases notePause s h <;> simp

@[simp] theorem pumpLater_keepsBytes (s : State) (g : Group) (t e : Nat) : (pumpLater s g t e).mem.bytes = s.mem.bytes :=
  by simp [pumpLater]

@[simp] theorem staleAnswer_keepsForm (row : String) (s : State) (wf : s.mem.bytes.wf = true) : AnswersInForm (staleAnswer row s) :=
  by simp [staleAnswer, wf]

theorem execAtsTranslationCompletion_keepsForm (t e req : Nat) (grant : Bool) (s : State) (wf : s.mem.bytes.wf = true) :
    AnswersInForm (execAtsTranslationCompletion t e req grant s) := by
  fun_cases execAtsTranslationCompletion t e req grant s <;> simp +zetaDelta [wf]

theorem execTranslationMiss_keepsForm (t e req : Nat) (s : State) (wf : s.mem.bytes.wf = true) :
    AnswersInForm (execTranslationMiss t e req s) := by
  fun_cases execTranslationMiss t e req s <;> simp +zetaDelta [wf]

theorem execPriResponse_keepsForm (t e : Nat) (resp : PriCode) (s : State) (wf : s.mem.bytes.wf = true) :
    AnswersInForm (execPriResponse t e resp s) := by
  fun_cases execPriResponse t e resp s <;> simp +zetaDelta [wf]

theorem execPageRequestTimeout_keepsForm (t e : Nat) (s : State) (wf : s.mem.bytes.wf = true) :
    AnswersInForm (execPageRequestTimeout t e s) := by
  fun_cases execPageRequestTimeout t e s <;> simp [wf]

theorem execHostAbort_keepsForm (t e req : Nat) (s : State) (wf : s.mem.bytes.wf = true) : AnswersInForm (execHostAbort t e req s) := by
  fun_cases execHostAbort t e req s <;> simp [wf]

/-! Epoch. -/

theorem consumeOne_keepsForm {s : State} {g : Group} {e : Entry} {i : Image} {n : Nat} {r : State × Nat} (wf : s.mem.bytes.wf = true)
    (gives : consumeOne s g e i n = some r) : r.1.mem.bytes.wf = true := by
  unfold consumeOne at gives
  dsimp only at gives
  split at gives
  · cases gives
  · split at gives
    case _ => grind [devRead_keepsBytes, loseWork_keepsBytes]
    case _ =>
      split at gives
      · obtain ⟨u, written, rfl⟩ := Option.map_eq_some_iff.mp gives
        have kept : u.mem.bytes.wf = true := by grind [→ headerWrites_keepsForm, devRead_keepsBytes]
        dsimp only
        split <;> simp [kept]
      · grind [devRead_keepsBytes, abortTask_keepsBytes]

theorem consumeTriples_keepsForm {s : State} {g : Group} {e : Entry} {i : Image} {k : Nat} {r : State × Nat} (wf : s.mem.bytes.wf = true)
    (gives : consumeTriples s g e i k = some r) : r.1.mem.bytes.wf = true := by
  unfold consumeTriples at gives
  generalize hacc : some (s, 0) = acc at gives
  replace hacc : ∀ r, acc = some r → r.1.mem.bytes.wf = true := by rintro r rfl; cases hacc; exact wf
  generalize triplesDue e i k g.triples = l at gives
  induction l generalizing acc with
  | nil => exact hacc r gives
  | cons n l ih =>
    refine ih _ (fun r stepped => ?_) gives
    dsimp only at stepped
    split at stepped
    · exact consumeOne_keepsForm (hacc _ rfl) stepped
    · exact hacc r stepped

theorem execEpochCheckpoint_keepsForm (h : Nat) (s : State) (wf : s.mem.bytes.wf = true) : AnswersInForm (execEpochCheckpoint h s) := by
  fun_cases execEpochCheckpoint h s
  case case4 closed saves s1 g1 r consumed =>
    have kept : s1.mem = s.mem := foldl_keepsMem (fun _ _ => setTile_mem ..) _ s
    refine (answersInForm_next _).mpr (consumeTriples_keepsForm ?_ consumed)
    rwa [setGroup_mem, kept]
  all_goals simp [wf]

@[simp] theorem restoreGroup_keepsBytes (s : State) (g : Group) (e : Entry) (i : Image) :
    (restoreGroup s g e i).mem.bytes = s.mem.bytes := by
  unfold restoreGroup
  dsimp only
  rw [setGroup_mem, foldl_keepsMem (fun _ _ => setTile_mem ..), dropReqs_keepsBytes]

/-! Stacks. -/

@[simp] theorem metadataLoss_keepsBytes (s : State) (before new : List Nat) : (metadataLoss s before new).mem.bytes = s.mem.bytes :=
  by simp [metadataLoss]

@[simp] theorem beginRebuild_keepsBytes (s : State) : (beginRebuild s).mem.bytes = s.mem.bytes := by simp [beginRebuild]

@[simp] theorem loseChannel_keepsBytes (s : State) (c : Nat) : (loseChannel s c).mem.bytes = s.mem.bytes := by simp [loseChannel]

@[simp] theorem loseStack_keepsBytes (s : State) (n src : Nat) : (loseStack s n src).mem.bytes = s.mem.bytes := by simp [loseStack]

@[simp] theorem loseChannelFull_keepsBytes (s : State) (c src : Nat) : (loseChannelFull s c src).mem.bytes = s.mem.bytes :=
  by simp [loseChannelFull]

theorem execChannelLost_keepsForm (ch : Nat) (s : State) (wf : s.mem.bytes.wf = true) : AnswersInForm (execChannelLost ch s) :=
  by simp [execChannelLost, wf]

theorem execStackLost_keepsForm (stk : Nat) (s : State) (wf : s.mem.bytes.wf = true) : AnswersInForm (execStackLost stk s) :=
  by simp [execStackLost, wf]

@[simp] theorem laneFails_keepsBytes (s : State) (ch : Nat) (ca : Bool) (lane src : Nat) :
    (laneFails s ch ca lane src).mem.bytes = s.mem.bytes := by simp [laneFails]

theorem execLaneRepair_keepsForm (ch : Nat) (ca : Bool) (lane : Nat) (s : State) (wf : s.mem.bytes.wf = true) :
    AnswersInForm (execLaneRepair ch ca lane s) := by simp [execLaneRepair, wf]

theorem execLaneRepairDone_keepsForm (ch : Nat) (s : State) (wf : s.mem.bytes.wf = true) : AnswersInForm (execLaneRepairDone ch s) := by
  fun_cases execLaneRepairDone ch s <;> simp [wf]

theorem execCalInterval_keepsForm (ch : Nat) (ca : Bool) (s : State) (wf : s.mem.bytes.wf = true) :
    AnswersInForm (execCalInterval ch ca s) := by simp [execCalInterval, wf]

theorem execCalPause_keepsForm (ch : Nat) (s : State) (wf : s.mem.bytes.wf = true) : AnswersInForm (execCalPause ch s) :=
  by simp [execCalPause, wf]

theorem execCalPauseEnd_keepsForm (ch : Nat) (s : State) (wf : s.mem.bytes.wf = true) : AnswersInForm (execCalPauseEnd ch s) :=
  by simp [execCalPauseEnd, wf]

@[simp] theorem rebuildUnit_keepsBytes (s : State) (p : Nat × Nat) : (rebuildUnit s p).mem.bytes = s.mem.bytes := by
  fun_cases rebuildUnit s p <;> simp +zetaDelta

@[simp] theorem rebuildMeta_keepsBytes (s : State) : (rebuildMeta s).mem.bytes = s.mem.bytes := by simp [rebuildMeta]

@[simp] theorem countReserve_keepsBytes (s : State) (short : Bool) : (countReserve s short).mem.bytes = s.mem.bytes :=
  by simp [countReserve]

@[simp] theorem rebuildSome_keepsBytes (n : Nat) (s : State) : (rebuildSome n s).mem.bytes = s.mem.bytes := by simp [rebuildSome]

@[simp] theorem rebuildTick_keepsBytes (s : State) : (rebuildTick s).mem.bytes = s.mem.bytes := by
  unfold rebuildTick
  simp only
  repeat' split
  all_goals simp

theorem execRebuildDone_keepsForm (s : State) (wf : s.mem.bytes.wf = true) : AnswersInForm (execRebuildDone s) :=
  by simp [execRebuildDone, wf]

theorem execResync_keepsForm (stk : Nat) (s : State) (wf : s.mem.bytes.wf = true) : AnswersInForm (execResync stk s) :=
  by simp [execResync, wf]

theorem execResyncDone_keepsForm (stk : Nat) (s : State) (wf : s.mem.bytes.wf = true) : AnswersInForm (execResyncDone stk s) :=
  by simp [execResyncDone, wf]

@[simp] theorem scrubUnit_keepsBytes (st : Nat) (s : State) (u : Nat) : (scrubUnit st s u).mem.bytes = s.mem.bytes := by simp [scrubUnit]

theorem execPatrolScrub_keepsForm (stripe : Nat) (badUnits : List Nat) (badParity : Bool) (s : State) (wf : s.mem.bytes.wf = true) :
    AnswersInForm (execPatrolScrub stripe badUnits badParity s) := by simp [execPatrolScrub, wf]

/-! Thermal. -/

@[simp] theorem setClock_keepsMem (s : State) (pos : Nat) (x : TileClock) : (setClock s pos x).mem = s.mem := rfl

@[simp] theorem sendThrottles_keepsMem (s : State) : (sendThrottles s).mem = s.mem := by simp [sendThrottles]

@[simp] theorem thermalChange_keepsMem (before after : State) : (thermalChange before after).mem = after.mem := by
  simp [thermalChange, clkEvent]

@[simp] theorem stackSample_keepsBytes (stk : Nat) (temp : Int) (s : State) : (stackSample stk temp s).mem.bytes = s.mem.bytes :=
  by simp [stackSample]

theorem execMirrorZoneTemp_keepsForm (z : Nat) (temp : Int) (s : State) (wf : s.mem.bytes.wf = true) :
    AnswersInForm (execMirrorZoneTemp z temp s) := by simp [execMirrorZoneTemp, wf]

theorem execThrottleCommand_keepsForm (pos : Nat) (s : State) (wf : s.mem.bytes.wf = true) : AnswersInForm (execThrottleCommand pos s) := by
  fun_cases execThrottleCommand pos s <;> simp [wf]

theorem execVoltSettled_keepsForm (pos : Nat) (s : State) (wf : s.mem.bytes.wf = true) : AnswersInForm (execVoltSettled pos s) := by
  fun_cases execVoltSettled pos s <;> simp [wf]

theorem execPowerSample_keepsForm (watts avg : Nat) (s : State) (wf : s.mem.bytes.wf = true) :
    AnswersInForm (execPowerSample watts avg s) := by simp [execPowerSample, wf]

/-! Recovery. -/

@[simp] theorem dropSpare_keepsMem (s : State) (p : Nat) : (dropSpare s p).mem = s.mem := by simp [dropSpare]

@[simp] theorem dropSpares_keepsMem (t n : Nat) (s : State) : (dropSpares t n s).mem = s.mem := by
  induction n generalizing s with
  | zero => rfl
  | succ n ih => unfold dropSpares; split <;> simp [ih]

@[simp] theorem retireTile_keepsBytes (s : State) (t src : Nat) (temp : Bool) (handle detail badSpares : Nat) :
    (retireTile s t src temp handle detail badSpares).mem.bytes = s.mem.bytes := by
  fun_cases retireTile s t src temp handle detail badSpares <;> simp +zetaDelta

@[simp] theorem retireNow_keepsBytes (s : State) (t src : Nat) (temp : Bool) (handle detail badSpares : Nat) :
    (retireNow s t src temp handle detail badSpares).mem.bytes = s.mem.bytes := by simp [retireNow]

@[simp] theorem logGroupFault_keepsMem (s : State) (g : Group) (f : GFault) (action : Nat) : (logGroupFault s g f action).mem = s.mem :=
  by simp [logGroupFault]

@[simp] theorem blame_keepsMem (s : State) (g : Group) (f : GFault) : (blame s g f).mem = s.mem := by
  fun_cases blame s g f <;> simp +zetaDelta

@[simp] theorem replayGroup_keepsBytes (s : State) (h : Nat) (watch : Bool) : (replayGroup s h watch).mem.bytes = s.mem.bytes := by
  fun_cases replayGroup s h watch <;> simp +zetaDelta

theorem faultNow_keepsMem (s : State) (g : Group) (src t : Nat) {out : State × GFault} (gives : faultNow s g src t = some out) :
    out.1.mem = s.mem := by
  grind [faultNow, drawBytes_keepsMem]

theorem execReplay_keepsForm (h src t : Nat) (s : State) (wf : s.mem.bytes.wf = true) : AnswersInForm (execReplay h src t s) := by
  fun_cases execReplay h src t s <;>
    grind [answersInForm_next, answersInForm_no, answersInForm_fault, → faultNow_keepsMem, replayGroup_keepsBytes, blame_keepsMem,
      logGroupFault_keepsMem]

theorem execEpochWatchdog_keepsForm (h : Nat) (failing : List Nat) (s : State) (wf : s.mem.bytes.wf = true) :
    AnswersInForm (execEpochWatchdog h failing s) := by
  have marked : ∀ (l : List Nat) (s : State), (l.foldl (fun s k => setInfo s k { infoOf s k with fails := 3 }) s).mem = s.mem :=
    foldl_keepsMem fun _ _ => setInfo_mem ..
  unfold execEpochWatchdog
  simp only [drawBytes]
  repeat' split
  all_goals simp [marked, wf]

theorem execTileRetire_keepsForm (t code badSpares : Nat) (s : State) (wf : s.mem.bytes.wf = true) :
    AnswersInForm (execTileRetire t code badSpares s) := by
  fun_cases execTileRetire t code badSpares s <;>
    grind [answersInForm_next, answersInForm_no, answersInForm_fault, retireNow_keepsBytes, → faultNow_keepsMem, replayGroup_keepsBytes,
      blame_keepsMem]

theorem execLinkHalving_keepsForm (net : Net) (link h : Nat) (s : State) (wf : s.mem.bytes.wf = true) :
    AnswersInForm (execLinkHalving net link h s) := by
  fun_cases execLinkHalving net link h s <;> simp +zetaDelta [wf]

@[simp] theorem pkeRestart_keepsMem (s : State) : (pkeRestart s).mem = s.mem := by
  fun_cases pkeRestart s <;> simp +zetaDelta

@[simp] theorem mcRestartNow_keepsMem (s : State) (src : Nat) : (mcRestartNow s src).mem = s.mem := by simp [mcRestartNow]

theorem execMcRestart_keepsForm (parity : Bool) (s : State) (wf : s.mem.bytes.wf = true) : AnswersInForm (execMcRestart parity s) :=
  by simp [execMcRestart, wf]

/-! ImageParse. -/

theorem readAll_keepsBytes {s t : State} {part handle : Nat} {l : List (Nat × Nat)} {b : Option (List (List Byte))}
    (gives : readAll s part handle l = .got t b) : t.mem.bytes = s.mem.bytes := by
  have next : ∀ (acc : State × Option (List (List Byte))) p, (readNext part handle acc p).1.mem.bytes = acc.1.mem.bytes := by
    intro acc p
    fun_cases readNext part handle acc p <;> grind [devRead_keepsBytes, loseWork_keepsBytes]
  rw [readAll_eq] at gives
  split at gives <;> cases gives
  exact List.foldlRecOn (motive := fun acc : State × _ => acc.1.mem.bytes = s.mem.bytes) l (readNext part handle)
    (b := (s, some [])) rfl fun acc kept p _ => (next acc p).trans kept

@[simp] theorem clearedHeads_keepsBytes (s : State) (l : List ((Nat × Nat) × List Byte)) :
    (clearedHeads s l).1.mem.bytes = s.mem.bytes := (clearedHeads_heads s l).2.bytes

theorem clearDests_keepsForm {s t : State} {g : Group} {e : Entry} {i : Image} {b : Bool} (wf : s.mem.bytes.wf = true)
    (gives : clearDests s g e i = some (t, b)) : t.mem.bytes.wf = true := by
  unfold clearDests at gives
  split at gives
  · cases gives; exact wf
  · split at gives
    case h_1 => cases gives
    case h_2 got => cases gives; rwa [readAll_keepsBytes got]
    case h_3 got =>
      obtain ⟨u, written, same⟩ := Option.map_eq_some_iff.mp gives
      have kept : u.mem.bytes.wf = true := headerWrites_keepsForm (by rwa [clearedHeads_keepsBytes, readAll_keepsBytes got]) written
      obtain ⟨rfl, -⟩ := Prod.ext_iff.mp same
      rwa [setEntry_mem]

/-- One destination header written not-VALID at once. -/
def clearHeadNow (part handle n : Nat) (s : State) (p : Nat × Nat) : State :=
  devWrite (drawBytes (devRead s part handle p.2 n).1 n).2 part handle p.2
    (notValid (drawBytes (devRead s part handle p.2 n).1 n).1 (prevGenOf ((devRead s part handle p.2 n).2.getD [])))

theorem clearHeadNow_keepsForm (part handle n : Nat) (s : State) (p : Nat × Nat) (wf : s.mem.bytes.wf = true) :
    (clearHeadNow part handle n s p).mem.bytes.wf = true :=
  devWrite_keepsForm _ _ _ _ _ (by rwa [drawBytes_keepsMem, devRead_keepsBytes])

theorem clearNow_eq (s : State) (g : Group) (e : Entry) (i : Image) :
    clearNow s g e i = (destHeads e i).foldl (clearHeadNow g.part g.handle 256) s := by
  unfold clearNow
  rfl

@[simp] theorem clearNow_keepsForm (s : State) (g : Group) (e : Entry) (i : Image) (wf : s.mem.bytes.wf = true) :
    (clearNow s g e i).mem.bytes.wf = true := by
  rw [clearNow_eq]
  exact foldl_keepsForm (clearHeadNow_keepsForm _ _ _) _ s wf

/-- The states that reading an epoch table can leave hold the bytes `m`. -/
def EpochHolds (m : Mem) : EpochRead → Prop
  | .wait => True
  | .lost s => s.mem.bytes = m
  | .bad s => s.mem.bytes = m
  | .ok s _ _ => s.mem.bytes = m

theorem readEpoch_keepsBytes {m : Mem} (part addr : Nat) (h : List Byte) {r : EpochRead} (kept : EpochHolds m r) :
    EpochHolds m (readEpoch part addr h r) := by
  fun_cases readEpoch part addr h r <;> grind [EpochHolds, → readAll_keepsBytes]

theorem readEpochs_keepsBytes (s : State) (part addr : Nat) (h : List Byte) : EpochHolds s.mem.bytes (readEpochs s part addr h) :=
  List.foldlRecOn (motive := fun r : EpochRead => EpochHolds s.mem.bytes r) (List.range (le h 7 1)) _ rfl
    fun _ kept _ _ => readEpoch_keepsBytes part addr h kept

theorem checkTables_keepsBytes {s t : State} {part : Nat} {rs : List Region} {addr : Nat} {h : List Byte} {st : Nat}
    {img : Option Image} (gives : checkTables s part rs addr h = .done t st img) : t.mem.bytes = s.mem.bytes := by
  have epochs := fun s => readEpochs_keepsBytes s part addr h
  revert gives
  fun_cases checkTables s part rs addr h <;> grind [EpochHolds, → readAll_keepsBytes]

theorem ownTask_keepsBytes {s t : State} {part : Nat} {rs : List Region} {d : Desc} {st : Nat} {img : Option Image}
    (gives : ownTask s part rs d = .done t st img) : t.mem.bytes = s.mem.bytes := by
  revert gives
  fun_cases ownTask s part rs d <;> grind [→ readAll_keepsBytes, → checkTables_keepsBytes]

/-! Transfers. -/

@[simp] theorem devScatter_keepsForm (s : State) (part session hint handle : Nat) (l : List (Nat × List Byte))
    (wf : s.mem.bytes.wf = true) :
    (devScatter s part session hint handle l).mem.bytes.wf = true := devScatter_wf _ _ _ _ wf _

@[simp] theorem devGather_keepsBytes (s : State) (part session hint handle : Nat) (l : List Nat) :
    (devGather s part session hint handle l).1.mem.bytes = s.mem.bytes := by
  have next : ∀ (acc : State × Bool) p, (gatherNext part session hint handle acc p).1.mem.bytes = acc.1.mem.bytes := by
    intro acc p
    fun_cases gatherNext part session hint handle acc p <;>
      grind [charge_keepsBytes, fetchUnit_keepsBytes, cacheRead_keepsBytes, objectLost_keepsBytes]
  exact List.foldlRecOn (motive := fun acc : State × Bool => acc.1.mem.bytes = s.mem.bytes) (unitsAt l)
    (gatherNext part session hint handle) (b := (s, true)) rfl fun acc kept p _ => (next acc p).trans kept

@[simp] theorem hostPut_keepsMem (s : State) (key : Nat) (l : List (Nat × List Byte)) : (hostPut s key l).mem = s.mem := rfl

theorem clearHeader_keepsForm (s : State) (e : Entry) {out : State} (wf : s.mem.bytes.wf = true) (gives : clearHeader s e = some out) :
    out.mem.bytes.wf = true := by
  grind [clearHeader, → headerWrites_keepsForm]

@[simp] theorem uploadScatter_keepsForm (s : State) (e : Entry) (l : List (Nat × List Byte)) (wf : s.mem.bytes.wf = true) :
    (uploadScatter s e l).mem.bytes.wf = true := by
  fun_cases uploadScatter s e l <;> simp +zetaDelta [wf]

@[simp] theorem freeElems_keepsMem (s : State) (w : Nat) (addrs : List Nat) : (freeElems s w addrs).2.mem = s.mem := rfl

@[simp] theorem spoilMove_keepsForm (s : State) (e : Entry) (wf : s.mem.bytes.wf = true) : (spoilMove s e).mem.bytes.wf = true := by
  unfold spoilMove
  simp only
  repeat' split
  all_goals simp [wf]

@[simp] theorem spoilExport_keepsMem (s : State) (e : Entry) : (spoilExport s e).mem = s.mem := rfl

@[simp] theorem spoilImport_keepsForm (s : State) (e : Entry) (wf : s.mem.bytes.wf = true) : (spoilImport s e).mem.bytes.wf = true := by
  unfold spoilImport
  simp only
  repeat' split
  all_goals simp [wf]

@[simp] theorem spoilTransfer_keepsForm (s : State) (e : Entry) (wf : s.mem.bytes.wf = true) : (spoilTransfer s e).mem.bytes.wf = true := by
  fun_cases spoilTransfer s e <;> simp [wf]

theorem execTransferStart_keepsForm (s : State) (wf : s.mem.bytes.wf = true) : AnswersInForm (execTransferStart s) := by
  fun_cases execTransferStart s
  case case4 s1 s2 t start =>
    have kept : s2.mem.bytes.wf = true := wf
    refine (answersInForm_next _).mpr ?_
    split at start
    · exact clearHeader_keepsForm _ _ kept start
    · cases start; exact kept
  all_goals simp [wf]

@[simp] theorem failTransfer_keepsForm (s : State) (e : Entry) (wf : s.mem.bytes.wf = true) : (failTransfer s e).mem.bytes.wf = true := by
  fun_cases failTransfer s e <;> simp [wf]

@[simp] theorem endTransfer_keepsMem (s : State) (h st : Nat) : (endTransfer s h st).mem = s.mem := (endTransfer_frame ..).mem

@[simp] theorem noteReruns_keepsMem (s : State) (e : Entry) (source n : Nat) : (noteReruns s e source n).mem = s.mem := by simp [noteReruns]

@[simp] theorem moveOut_keepsForm (s : State) (e : Entry) (wf : s.mem.bytes.wf = true) : (moveOut s e).mem.bytes.wf = true := by
  fun_cases moveOut s e <;> grind [devGather_keepsBytes, spoilMove_keepsForm, endTransfer_keepsMem, hostPut_keepsMem]

@[simp] theorem moveIn_keepsForm (s : State) (e : Entry) (bytes : List Byte) (wf : s.mem.bytes.wf = true) :
    (moveIn s e bytes).mem.bytes.wf = true := by simp [moveIn, wf]

theorem runExport_keepsBytes {s t : State} {e : Entry} (gives : runExport s e = some t) : t.mem.bytes = s.mem.bytes := by
  revert gives
  fun_cases runExport s e <;> grind [devGather_keepsBytes, endTransfer_keepsMem, hostPut_keepsMem, → readAll_keepsBytes]

theorem runImport_keepsForm {s t : State} {e : Entry} {b : List Byte} (wf : s.mem.bytes.wf = true)
    (gives : runImport s e b = some t) : t.mem.bytes.wf = true := by
  revert gives
  fun_cases runImport s e b <;>
    grind [Option.map_eq_some_iff, endTransfer_keepsMem, devScatter_keepsForm, → headerWrites_keepsForm, → readAll_keepsBytes]

@[simp] theorem translatePage_keepsMem (fn space : Nat) (write : Bool) (missing : List Nat) (s : State) (page : Nat) :
    (translatePage fn space write missing s page).mem = s.mem := by simp [translatePage]

@[simp] theorem translateAll_keepsMem (s : State) (e : Entry) (missing : List Nat) : (translateAll s e missing).mem = s.mem :=
  by simp [translateAll]

@[simp] theorem askPage_keepsMem (s : State) (e : Entry) (page : Nat) : (askPage s e page).mem = s.mem := rfl

theorem goodTransfer_keepsForm {s t : State} {x : Entry} {l : List Byte} (wf : s.mem.bytes.wf = true)
    (gives : goodTransfer s x l = some t) : t.mem.bytes.wf = true := by
  revert gives
  fun_cases goodTransfer s x l <;> grind [moveIn_keepsForm, moveOut_keepsForm, runExport_keepsBytes, runImport_keepsForm]

theorem execTransferComplete_keepsForm (h : Nat) (e : HostEnd) (reruns : Nat) (s : State) (wf : s.mem.bytes.wf = true) :
    AnswersInForm (execTransferComplete h e reruns s) := by
  fun_cases execTransferComplete h e reruns s <;>
    grind [answersInForm_next, answersInForm_no, → goodTransfer_keepsForm, translateAll_keepsMem, noteReruns_keepsMem,
      endTransfer_keepsMem, failTransfer_keepsForm, askPage_keepsMem]

/-! Sessions. -/

@[simp] theorem acceptSession_keepsMem (s : State) (tag : Nat) (d : Desc) : (acceptSession s tag d).mem = s.mem := by
  fun_cases acceptSession s tag d <;> simp

theorem ownMacro_keepsBytes {s t : State} {part : Nat} {x : Option Session} {rs : List Region} {d : Desc} {arg : List Byte} {st : Nat}
    {img : Option Image} (gives : ownMacro s part x rs d arg = .done t st img) : t = s := by
  revert gives
  fun_cases ownMacro s part x rs d arg <;> grind

@[simp] theorem undoSession_keepsMem (s : State) (e : Entry) : (undoSession s e).mem = s.mem := by
  fun_cases undoSession s e <;> simp

@[simp] theorem endUnrun_keepsMem (s : State) (e : Entry) (st : Nat) : (endUnrun s e st).mem = s.mem := by simp [endUnrun]

@[simp] theorem endStale_keepsMem (s : State) (e : Entry) : (endStale s e).mem = s.mem := by simp [endStale]

@[simp] theorem runOpen_keepsMem (s : State) (e : Entry) : (runOpen s e).mem = s.mem := by
  fun_cases runOpen s e <;> simp +zetaDelta

@[simp] theorem closeNow_keepsForm (s : State) (n : Nat) (x : Session) (wf : s.mem.bytes.wf = true) :
    (closeNow s n x).mem.bytes.wf = true := by
  unfold closeNow
  exact foldl_keepsForm (g := fun s (r : Region) => releaseRange s r.base r.len) (fun s r => releaseRange_keepsForm s r.base r.len) _ _
    (by rwa [dropLines_keepsBytes])

theorem psetBytes_keepsBytes {s t : State} {e : Entry} {data : HostData} {r : Option (List Byte) × Nat}
    (gives : psetBytes s e data = some (t, r)) : t.mem.bytes = s.mem.bytes := by
  revert gives
  fun_cases psetBytes s e data <;> grind [→ readAll_keepsBytes]

theorem runPset_keepsBytes {s t : State} {e : Entry} {n : Nat} {x : Session} {data : HostData}
    (gives : runPset s e n x data = some t) : t.mem.bytes = s.mem.bytes := by
  revert gives
  fun_cases runPset s e n x data <;> grind [complete_keepsMem, setSession_mem, → psetBytes_keepsBytes]

@[simp] theorem runRemove_keepsForm (s : State) (e : Entry) (n : Nat) (x : Session) (wf : s.mem.bytes.wf = true) :
    (runRemove s e n x).mem.bytes.wf = true := by
  unfold runRemove
  simp only
  repeat' split
  all_goals simp [wf]

theorem runSession_keepsForm {s t : State} {e : Entry} {data : HostData} (wf : s.mem.bytes.wf = true)
    (gives : runSession s e data = some t) : t.mem.bytes.wf = true := by
  revert gives
  fun_cases runSession s e data <;>
    grind [complete_keepsMem, setSession_mem, runOpen_keepsMem, closeNow_keepsForm, runRemove_keepsForm, → runPset_keepsBytes]

theorem execSessionOpRun_keepsForm (h : Nat) (data : HostData) (s : State) (wf : s.mem.bytes.wf = true) :
    AnswersInForm (execSessionOpRun h data s) := by
  fun_cases execSessionOpRun h data s <;>
    grind [answersInForm_next, answersInForm_no, answersInForm_fault, endStale_keepsMem, → runSession_keepsForm]

/-! Pke. -/

theorem pkInput_keepsBytes {s t : State} {e : Entry} {data : HostData} {r : Nat × List Byte}
    (gives : pkInput s e data = some (t, r)) : t.mem.bytes = s.mem.bytes := by
  revert gives
  fun_cases pkInput s e data <;> grind [→ readAll_keepsBytes]

@[simp] theorem pkRelease_keepsForm (s : State) (e : Entry) (o : PkOut) (wf : s.mem.bytes.wf = true) :
    (pkRelease s e o).mem.bytes.wf = true := by
  unfold pkRelease
  simp only
  repeat' split
  all_goals simp [wf]

@[simp] theorem pkReruns_keepsMem (s : State) (e : Entry) (n : Nat) : (pkReruns s e n).mem = s.mem := by simp [pkReruns]

theorem pkTake_keepsForm {s t : State} {e : Entry} {data : HostData} {fails : Nat} (wf : s.mem.bytes.wf = true)
    (gives : pkTake s e data fails = some t) : t.mem.bytes.wf = true := by
  revert gives
  fun_cases pkTake s e data fails <;>
    grind [endStale_keepsMem, mcRestartNow_keepsMem, logFault_keepsMem, pkReruns_keepsMem, drawBytes_keepsMem, setEntry_mem,
      pkRelease_keepsForm, → pkInput_keepsBytes]

theorem execPkeOpStart_keepsForm (data : HostData) (fails : Nat) (s : State) (wf : s.mem.bytes.wf = true) :
    AnswersInForm (execPkeOpStart data fails s) := by
  fun_cases execPkeOpStart data fails s <;> grind [answersInForm_next, answersInForm_no, answersInForm_fault, → pkTake_keepsForm]

theorem pkShorts_keepsForm {n : Nat} {ops : List (HostData × Nat)} {s t : State} (wf : s.mem.bytes.wf = true)
    (gives : pkShorts n ops s = some t) : t.mem.bytes.wf = true := by
  induction n generalizing ops s with
  | zero => cases gives; exact wf
  | succ n ih =>
    unfold pkShorts at gives
    grind [→ pkTake_keepsForm]

theorem execPkeYieldPoint_keepsForm (ops : List (HostData × Nat)) (s : State) (wf : s.mem.bytes.wf = true) :
    AnswersInForm (execPkeYieldPoint ops s) := by
  fun_cases execPkeYieldPoint ops s
  case case7 shorts => exact (answersInForm_next _).mpr (pkShorts_keepsForm (by exact wf) shorts)
  all_goals simp +zetaDelta [wf]

/-! Accept. -/

@[simp] theorem stampFence_keepsMem (s : State) (g tag no : Nat) (wide : Bool) : (stampFence s g tag no wide).mem = s.mem := rfl

theorem readArg_keepsBytes {s t : State} {part h : Nat} {rs : List Region} {d : Desc} {arg : HostData} {st : Nat} {b : List Byte}
    (gives : readArg s part h rs d arg = .done t st b) : t.mem.bytes = s.mem.bytes := by
  revert gives
  fun_cases readArg s part h rs d arg <;> grind [→ readAll_keepsBytes]

theorem checkOwn_keepsBytes {s t : State} {fn part : Nat} {x : Option Session} {rs : List Region} {d : Desc} {arg : List Byte} {st : Nat}
    {img : Option Image} (gives : checkOwn s fn part x rs d arg = .done t st img) : t.mem.bytes = s.mem.bytes := by
  revert gives
  fun_cases checkOwn s fn part x rs d arg <;> grind [→ ownTask_keepsBytes, → ownMacro_keepsBytes]

theorem checkAll_keepsBytes {s t : State} {fn h : Nat} {x : Option Session} {rs : List Region} {d : Desc} {arg : HostData} {st : Nat}
    {b : List Byte} {img : Option Image} (gives : checkAll s fn h x rs d arg = .done t st b img) : t.mem.bytes = s.mem.bytes := by
  revert gives
  fun_cases checkAll s fn h x rs d arg <;> grind [→ readArg_keepsBytes, → checkOwn_keepsBytes]

@[simp] theorem consumeSeq_keepsMem (s : State) (g tag : Nat) (taken : Bool) : (consumeSeq s g tag taken).mem = s.mem := rfl

@[simp] theorem postAccept_keepsMem (s : State) (g h st : Nat) (d : Desc) : (postAccept s g h st d).mem = s.mem := by simp [postAccept]

@[simp] theorem insertEntry_keepsMem (s : State) (e : Entry) : (insertEntry s e).mem = s.mem := rfl

@[simp] theorem cancelTarget_keepsForm (s : State) (self h : Nat) (wf : s.mem.bytes.wf = true) :
    (cancelTarget s self h).1.mem.bytes.wf = true := by
  unfold cancelTarget
  simp only
  repeat' split
  all_goals simp [wf]

@[simp] theorem runDirect_keepsForm (s : State) (e : Entry) (wf : s.mem.bytes.wf = true) : (runDirect s e).mem.bytes.wf = true := by
  unfold runDirect
  simp only
  repeat' split
  all_goals simp [wf]

@[simp] theorem take0_keepsForm (s : State) (g tag : Nat) (e : Entry) (wf : s.mem.bytes.wf = true) :
    (take0 s g tag e).mem.bytes.wf = true := by
  fun_cases take0 s g tag e <;> simp +zetaDelta [wf]

theorem acceptOne_keepsForm (row : String) (fn g : Nat) (d : Desc) (arg : HostData) (s : State) (wf : s.mem.bytes.wf = true) :
    AnswersInForm (acceptOne row fn g d arg s) := by
  unfold acceptOne
  dsimp only
  split
  next => simp
  next s1 st b img found =>
    have kept := checkAll_keepsBytes found
    rw [answersInForm_next]
    split
    · exact take0_keepsForm _ _ _ _ (by simpa [kept] using wf)
    · simpa [kept] using wf

theorem consume_keepsForm (row : String) (fn ring : Nat) (d : Desc) (arg : HostData) (s : State) (wf : s.mem.bytes.wf = true) :
    AnswersInForm (consume row fn ring d arg s) := by
  fun_cases consume row fn ring d arg s <;> simp +zetaDelta [wf, acceptOne_keepsForm]

theorem execFenceComplete_keepsForm (h : Nat) (s : State) (wf : s.mem.bytes.wf = true) : AnswersInForm (execFenceComplete h s) := by
  fun_cases execFenceComplete h s <;> simp [wf]

/-! Ready. -/

/-- The states that reading a task's headers can leave hold the bytes `m`. -/
def HeadsHold (m : Mem) : Heads → Prop
  | .wait => True
  | .ended s => s.mem.bytes = m
  | .got s _ => s.mem.bytes = m

theorem readHeads_keepsBytes (s : State) (e : Entry) (decls : List ObjDecl) (args : Tbl Word64) :
    HeadsHold s.mem.bytes (readHeads s e decls args) := by
  fun_cases readHeads s e decls args <;> grind [HeadsHold, endUnrun_keepsMem, → readAll_keepsBytes]

@[simp] theorem finishReady_keepsMem (s : State) (e : Entry) (i : Image) (hs : List (Nat × List Byte)) (outs : List OutSpec) (st : Nat) :
    (finishReady s e i hs outs st).mem = s.mem := by simp [finishReady]

theorem taskReady_keepsBytes {s t : State} {e : Entry} {x : Session} {i : Image} (gives : taskReady s e x i = some t) :
    t.mem.bytes = s.mem.bytes := by
  have read := readHeads_keepsBytes s e i.objs (argWords e.arg)
  revert gives
  fun_cases taskReady s e x i <;> grind [HeadsHold, endUnrun_keepsMem, finishReady_keepsMem]

theorem macroReady_keepsBytes {s t : State} {e : Entry} {x : Session} (gives : macroReady s e x = some t) :
    t.mem.bytes = s.mem.bytes := by
  have read := fun s decls => readHeads_keepsBytes s e decls (argWords e.arg)
  revert gives
  fun_cases macroReady s e x <;> grind [HeadsHold, endUnrun_keepsMem, finishReady_keepsMem]

theorem makeReady_keepsForm {s t : State} {e : Entry} (wf : s.mem.bytes.wf = true) (gives : makeReady s e = some t) :
    t.mem.bytes.wf = true := by
  revert gives
  fun_cases makeReady s e <;>
    grind [setEntry_mem, endUnrun_keepsMem, runDirect_keepsForm, → taskReady_keepsBytes, → macroReady_keepsBytes]

@[simp] theorem noteHeads_keepsMem (s : State) : (noteHeads s).mem = s.mem := rfl

theorem execReadinessCheck_keepsForm (h : Nat) (s : State) (wf : s.mem.bytes.wf = true) : AnswersInForm (execReadinessCheck h s) := by
  fun_cases execReadinessCheck h s <;>
    grind [answersInForm_next, answersInForm_no, answersInForm_fault, endUnrun_keepsMem, → makeReady_keepsForm, noteHeads_keepsMem]

theorem execPriorityAge_keepsForm (h : Nat) (s : State) (wf : s.mem.bytes.wf = true) : AnswersInForm (execPriorityAge h s) := by
  fun_cases execPriorityAge h s <;> simp [wf]

/-! Sched. -/

@[simp] theorem occupy_keepsMem (s : State) (g : Group) : (occupy s g).mem = s.mem := by
  unfold occupy
  exact foldl_keepsMem (fun _ _ => setInfo_mem ..) _ s

theorem dispatchTo_keepsBytes {s t : State} {e : Entry} {i : Image} {o : Nat × Nat} (gives : dispatchTo s e i o = some t) :
    t.mem.bytes = s.mem.bytes := by
  revert gives
  fun_cases dispatchTo s e i o <;> grind [occupy_keepsMem, setEntry_mem, → readAll_keepsBytes]

theorem execDispatch_keepsForm (part : Nat) (s : State) (wf : s.mem.bytes.wf = true) : AnswersInForm (execDispatch part s) := by
  fun_cases execDispatch part s <;>
    grind [answersInForm_next, answersInForm_no, endStale_keepsMem, noteHeads_keepsMem, → dispatchTo_keepsBytes]

@[simp] theorem startOn_keepsMem (s : State) (h t : Nat) (i : Image) : (startOn s h t i).mem = s.mem := by
  fun_cases startOn s h t i <;> simp +zetaDelta

theorem execTileTaskStart_keepsForm (t : Nat) (s : State) (wf : s.mem.bytes.wf = true) : AnswersInForm (execTileTaskStart t s) := by
  fun_cases execTileTaskStart t s <;>
    grind [answersInForm_next, answersInForm_no, answersInForm_fault, startOn_keepsMem, → clearDests_keepsForm,
      → consumeTriples_keepsForm]

theorem execTaskFinalHeaders_keepsForm (h : Nat) (s : State) (wf : s.mem.bytes.wf = true) : AnswersInForm (execTaskFinalHeaders h s) := by
  fun_cases execTaskFinalHeaders h s <;>
    grind [answersInForm_next, answersInForm_no, complete_keepsMem, endGroup_keepsBytes, tileAbort_keepsBytes, abortTask_keepsBytes,
      → readAll_keepsBytes, → headerWrites_keepsForm]

theorem execLullEntry_keepsForm (t : Nat) (s : State) (wf : s.mem.bytes.wf = true) : AnswersInForm (execLullEntry t s) :=
  by simp [execLullEntry, wf]

theorem execTileScrub_keepsForm (t : Nat) (s : State) (wf : s.mem.bytes.wf = true) : AnswersInForm (execTileScrub t s) :=
  by simp [execTileScrub, wf]

theorem execTileReconfigure_keepsForm (t : Nat) (ok : Bool) (s : State) (wf : s.mem.bytes.wf = true) :
    AnswersInForm (execTileReconfigure t ok s) := by simp [execTileReconfigure, wf]

/-! Audit. -/

@[simp] theorem audit_keepsMem (s : State) (actor result action subject : Nat) (value key : List Byte) :
    (audit s actor result action subject value key).mem = s.mem := rfl

theorem instWrite_keepsMem (s : State) (fn off v : Nat) {out : State} (gives : instWrite s fn off v = some out) : out.mem = s.mem := by
  grind [instWrite, audit_keepsMem]

theorem fltWrite_keepsMem (s : State) (fn off v : Nat) {out : State} (gives : fltWrite s fn off v = some out) : out.mem = s.mem := by
  grind [fltWrite, → instWrite_keepsMem, audit_keepsMem]

theorem rwlWrite_keepsMem (s : State) (fn off v : Nat) {out : State} (gives : rwlWrite s fn off v = some out) : out.mem = s.mem := by
  grind [rwlWrite, → instWrite_keepsMem, audit_keepsMem]

/-! Bundles. -/

@[simp] theorem cfgResult_keepsMem (s : State) (cmd code : Nat) : (cfgResult s cmd code).mem = s.mem := rfl

@[simp] theorem commitNow_keepsMem (s : State) : (commitNow s).mem = s.mem := rfl

@[simp] theorem switchTiles_keepsMem (s : State) (old : Bundle) : (switchTiles s old).mem = s.mem := by simp [switchTiles]

@[simp] theorem activate_keepsBytes (s : State) (b : Bundle) : (activate s b).mem.bytes = s.mem.bytes := by simp [activate]

@[simp] theorem switchApply_keepsBytes (s : State) (b : Bundle) : (switchApply s b).mem.bytes = s.mem.bytes := by simp [switchApply]

@[simp] theorem switchRevert_keepsBytes (s : State) (b : Bundle) : (switchRevert s b).mem.bytes = s.mem.bytes := by simp [switchRevert]

@[simp] theorem switchRelease_keepsBytes (s : State) : (switchRelease s).mem.bytes = s.mem.bytes := by simp [switchRelease]

@[simp] theorem cfgEffect_keepsMem (s : State) (cmd : Nat) (image : List Byte) : (cfgEffect s cmd image).mem = s.mem := by
  fun_cases cfgEffect s cmd image <;> simp +zetaDelta

@[simp] theorem cfgCommand_keepsMem (s : State) (fn cmd : Nat) : (cfgCommand s fn cmd).mem = s.mem := by simp [cfgCommand]

@[simp] theorem cfgRow_keepsForm (row : String) (cmd : Nat) (s : State) (wf : s.mem.bytes.wf = true) : AnswersInForm (cfgRow row cmd s) :=
  by simp [cfgRow, wf]

theorem execStage_keepsForm (s : State) (wf : s.mem.bytes.wf = true) : AnswersInForm (execStage s) := by simp [execStage, wf]

theorem execApply_keepsForm (s : State) (wf : s.mem.bytes.wf = true) : AnswersInForm (execApply s) := by simp [execApply, wf]

theorem execCommit_keepsForm (s : State) (wf : s.mem.bytes.wf = true) : AnswersInForm (execCommit s) := by simp [execCommit, wf]

theorem execRevert_keepsForm (s : State) (wf : s.mem.bytes.wf = true) : AnswersInForm (execRevert s) := by simp [execRevert, wf]

theorem execDiscard_keepsForm (s : State) (wf : s.mem.bytes.wf = true) : AnswersInForm (execDiscard s) := by simp [execDiscard, wf]

theorem execSwitchPoint_keepsForm (s : State) (wf : s.mem.bytes.wf = true) : AnswersInForm (execSwitchPoint s) := by
  fun_cases execSwitchPoint s <;> simp [wf]

theorem execTrialExpiry_keepsForm (s : State) (wf : s.mem.bytes.wf = true) : AnswersInForm (execTrialExpiry s) := by
  fun_cases execTrialExpiry s <;> simp +zetaDelta [wf]

theorem execAutoRevert_keepsForm (s : State) (wf : s.mem.bytes.wf = true) : AnswersInForm (execAutoRevert s) := by
  fun_cases execAutoRevert s <;> simp +zetaDelta [wf]

/-! Trust. -/

@[simp] theorem endDiag_keepsMem (s : State) : (endDiag s).mem = s.mem := (endDiag_frame s).1

@[simp] theorem exportBytes_keepsMem (s : State) (first count : Nat) : (exportBytes s first count).2.mem = s.mem := by
  have prev : (exportPrev s first).2.mem = s.mem := by
    fun_cases exportPrev s first <;> simp
  simp only [exportBytes_eq, signIdk_keepsMem, prev]

@[simp] theorem defaultPolicy_keepsMem (s : State) : (defaultPolicy s).mem = s.mem := rfl

@[simp] theorem releaseNow_keepsMem (s : State) : (releaseNow s).mem = s.mem := endDiag_keepsMem s

@[simp] theorem blobEffect_keepsMem (s : State) (b : List Byte) : (blobEffect s b).mem = s.mem := by
  unfold blobEffect
  dsimp only
  split <;> simp

@[simp] theorem endBlob_keepsMem (s : State) (b : List Byte) (readBack : Bool) : (endBlob s b readBack).mem = s.mem := by
  unfold endBlob
  dsimp only
  rw [drawBytes_keepsMem]
  split <;> split <;> simp

@[simp] theorem startBlob_keepsMem (s : State) : (startBlob s).mem = s.mem := by
  unfold startBlob
  dsimp only
  split <;> rfl

theorem blobGo_keepsForm (row : String) (readBack : Bool) (s : State) (wf : s.mem.bytes.wf = true) :
    AnswersInForm (blobGo row readBack s) := by
  unfold blobGo
  dsimp only
  split <;> simp [wf]

@[simp] theorem restartBlob_keepsMem (s : State) : (restartBlob s).mem = s.mem := by
  unfold restartBlob
  split
  · rfl
  · dsimp only
    split <;> simp

@[simp] theorem rewriteEntry_keepsMem (s : State) (r : Posted) : (rewriteEntry s r).mem = s.mem := by
  unfold rewriteEntry
  dsimp only
  split <;> rfl

@[simp] theorem mcResume_keepsMem (s : State) : (mcResume s).mem = s.mem := by
  unfold mcResume
  dsimp only
  rw [restartBlob_keepsMem, foldl_keepsMem rewriteEntry_keepsMem]

@[simp] theorem quiescePoint_keepsMem (s : State) : (quiescePoint s).mem = s.mem := rfl

theorem execAuthExpiry_keepsForm (s : State) (wf : s.mem.bytes.wf = true) : AnswersInForm (execAuthExpiry s) := by
  fun_cases execAuthExpiry s <;> simp [wf]

theorem execConsentExpiry_keepsForm (s : State) (wf : s.mem.bytes.wf = true) : AnswersInForm (execConsentExpiry s) := by
  fun_cases execConsentExpiry s <;> simp [wf]

/-! Inject. -/

@[simp] theorem injResult_keepsMem (s : State) (kind code : Nat) : (injResult s kind code).mem = s.mem := rfl

@[simp] theorem injectPersist_keepsBytes (s : State) (t : Nat) : (injectPersist s t).mem.bytes = s.mem.bytes := by
  fun_cases injectPersist s t <;> simp +zetaDelta

@[simp] theorem injectLane_keepsBytes (s : State) (c : Nat) : (injectLane s c).mem.bytes = s.mem.bytes := by simp [injectLane]

@[simp] theorem injectChannel_keepsBytes (s : State) (c : Nat) : (injectChannel s c).mem.bytes = s.mem.bytes := by simp [injectChannel]

@[simp] theorem injectStack_keepsBytes (s : State) (n : Nat) : (injectStack s n).mem.bytes = s.mem.bytes := by simp [injectStack]

@[simp] theorem injectNow_keepsBytes (s : State) (v : Nat) : (injectNow s v).mem.bytes = s.mem.bytes := by
  unfold injectNow
  simp only
  repeat' split
  all_goals simp

@[simp] theorem armNow_keepsBytes (s : State) : (armNow s).mem.bytes = s.mem.bytes := by simp [armNow]

@[simp] theorem firePersist_keepsBytes (s : State) : (firePersist s).mem.bytes = s.mem.bytes := by
  fun_cases firePersist s <;> simp

@[simp] theorem cancelNow_keepsMem (s : State) : (cancelNow s).mem = s.mem := by
  fun_cases cancelNow s <;> simp

@[simp] theorem injCtrl_keepsBytes (s : State) (fn v : Nat) : (injCtrl s fn v).mem.bytes = s.mem.bytes := by
  fun_cases injCtrl s fn v <;> grind [→ fltWrite_keepsMem, cancelNow_keepsMem, armNow_keepsBytes]

theorem execArm_keepsForm (s : State) (wf : s.mem.bytes.wf = true) : AnswersInForm (execArm s) := by simp [execArm, wf]

theorem execCancelInjection_keepsForm (s : State) (wf : s.mem.bytes.wf = true) : AnswersInForm (execCancelInjection s) :=
  by simp [execCancelInjection, wf]

theorem execNoOpportunity_keepsForm (s : State) (wf : s.mem.bytes.wf = true) : AnswersInForm (execNoOpportunity s) := by
  fun_cases execNoOpportunity s <;> simp [wf]

/-! Resets. -/

@[simp] theorem stopGroup_keepsBytes (s : State) (g : Group) : (stopGroup s g).mem.bytes = s.mem.bytes := by
  unfold stopGroup
  dsimp only
  rw [foldl_keepsMem (fun _ _ => by rw [setInfo_mem, setTile_mem]), endGroup_keepsBytes]

@[simp] theorem stopWork_keepsForm (s : State) (fn : Nat) (wf : s.mem.bytes.wf = true) : (stopWork s fn).mem.bytes.wf = true := by
  unfold stopWork
  dsimp only
  rw [foldl_keepsMem dropHandle_keepsMem]
  refine (congrArg _ (foldl_keepsBytes stopGroup_keepsBytes _ _)).trans ?_
  exact foldl_keepsForm spoilTransfer_keepsForm _ s wf

@[simp] theorem closeSessions_keepsForm (s : State) (fn : Nat) (wf : s.mem.bytes.wf = true) : (closeSessions s fn).mem.bytes.wf = true := by
  unfold closeSessions
  exact foldl_keepsForm (g := fun s (p : Nat × Session) => closeNow s p.1 p.2) (fun s p => closeNow_keepsForm s p.1 p.2) _ s wf

@[simp] theorem resetPage_keepsMem (s : State) (fn : Nat) : (resetPage s fn).mem = s.mem := rfl

@[simp] theorem silence_keepsMem (s : State) (fn : Nat) : (silence s fn).mem = s.mem := rfl

@[simp] theorem resetFn_keepsForm (s : State) (fn : Nat) (wf : s.mem.bytes.wf = true) : (resetFn s fn).mem.bytes.wf = true := by
  have kept : (resetPage (closeSessions (stopWork (silence s fn) fn) fn) fn).mem.bytes.wf = true := by simp [wf]
  unfold resetFn
  dsimp only
  split <;> exact kept

theorem execFunctionLevelReset_keepsForm (fn : Nat) (s : State) (wf : s.mem.bytes.wf = true) :
    AnswersInForm (execFunctionLevelReset fn s) := by simp [execFunctionLevelReset, wf]

@[simp] theorem linkResetNow_keepsForm (s : State) (wf : s.mem.bytes.wf = true) : (linkResetNow s).mem.bytes.wf = true := by
  unfold linkResetNow
  exact foldl_keepsForm resetFn_keepsForm _ s wf

theorem execLinkReset_keepsForm (s : State) (wf : s.mem.bytes.wf = true) : AnswersInForm (execLinkReset s) := by
  unfold execLinkReset
  simp only
  repeat' split
  all_goals simp [wf]

theorem execGlint_keepsForm (s : State) (wf : s.mem.bytes.wf = true) : AnswersInForm (execGlint s) := by
  unfold execGlint
  simp only
  repeat' split
  all_goals simp [wf]

theorem execTdiError_keepsForm (fn : Nat) (s : State) (wf : s.mem.bytes.wf = true) : AnswersInForm (execTdiError fn s) :=
  by simp [execTdiError, wf]

@[simp] theorem coldReset_bytes (s : State) (pkg : Nat) : (coldReset s pkg).mem.bytes = [] := rfl

@[simp] theorem wf_nil : Mem.wf [] = true := rfl

/-! Power. -/

@[simp] theorem dropRails_bytes (s : State) : (dropRails s).mem.bytes = [] := rfl

theorem execV12Low_keepsForm (mv : Nat) (s : State) : AnswersInForm (execV12Low mv s) := by simp [execV12Low]

@[simp] theorem tripNow_bytes (s : State) : (tripNow s).mem.bytes = [] := rfl

theorem execThermalTrip_keepsForm (s : State) : AnswersInForm (execThermalTrip s) := by simp [execThermalTrip]

theorem execStackTempSample_keepsForm (stk : Nat) (temp : Int) (s : State) (wf : s.mem.bytes.wf = true) :
    AnswersInForm (execStackTempSample stk temp s) := by
  unfold execStackTempSample
  simp only
  repeat' split
  all_goals simp [wf]

@[simp] theorem railsUp_keepsMem (s : State) : (railsUp s).mem = s.mem := rfl

theorem execPllUnlock_keepsForm (s : State) : AnswersInForm (execPllUnlock s) := by simp [execPllUnlock]

theorem execStbyPowerLoss_keepsForm (s : State) : AnswersInForm (execStbyPowerLoss s) := by simp [execStbyPowerLoss]

theorem execStbyPowerValid_keepsForm (mv : Nat) (s : State) (wf : s.mem.bytes.wf = true) : AnswersInForm (execStbyPowerValid mv s) :=
  by simp [execStbyPowerValid, wf]

theorem execMainPowerValid_keepsForm (mv : Nat) (s : State) (wf : s.mem.bytes.wf = true) : AnswersInForm (execMainPowerValid mv s) :=
  by simp [execMainPowerValid, wf]

theorem execColdReset_keepsForm (s : State) : AnswersInForm (execColdReset s) := by simp [execColdReset]

@[simp] theorem startBoot_keepsMem (s : State) : (startBoot s).mem = s.mem := rfl

theorem execPerstDeassert_keepsForm (s : State) (wf : s.mem.bytes.wf = true) : AnswersInForm (execPerstDeassert s) :=
  by simp [execPerstDeassert, wf]

theorem execPllRelock_keepsForm (s : State) (wf : s.mem.bytes.wf = true) : AnswersInForm (execPllRelock s) := by simp [execPllRelock, wf]

theorem execLinkTrained_keepsForm (rate width : Nat) (flit : Bool) (s : State) (wf : s.mem.bytes.wf = true) :
    AnswersInForm (execLinkTrained rate width flit s) := by simp [execLinkTrained, wf]

@[simp] theorem bootWait_keepsMem (s : State) (step err : Nat) : (bootWait s step err).mem = s.mem := rfl

@[simp] theorem bootLoaded_keepsMem (s : State) (img : List Byte) (fromHost : Bool) : (bootLoaded s img fromHost).mem = s.mem := rfl

@[simp] theorem bootSource_keepsMem (s : State) (flash : HostData) : (bootSource s flash).mem = s.mem := by
  fun_cases bootSource s flash <;> simp +zetaDelta

@[simp] theorem reloadFlash_keepsMem (s : State) (flash : HostData) : (reloadFlash s flash).mem = s.mem := by
  fun_cases reloadFlash s flash <;> simp

theorem execMirrorCrc_keepsForm (area : MirrorArea) (both : Bool) (s : State) (wf : s.mem.bytes.wf = true) :
    AnswersInForm (execMirrorCrc area both s) := by
  unfold execMirrorCrc
  simp only
  repeat' split
  all_goals simp [wf]

@[simp] theorem switchConnections_keepsMem (conns : List Nat) (s : State) : (switchConnections conns s).mem = s.mem := rfl

theorem execBootChain_keepsForm (mirrorOk : MirrorTest) (storeOk : Bool) (flash : HostData) (s : State) (wf : s.mem.bytes.wf = true) :
    AnswersInForm (execBootChain mirrorOk storeOk flash s) := by simp [execBootChain, wf]

@[simp] theorem pushBegin_keepsMem (s : State) : (pushBegin s).mem = s.mem := by simp [pushBegin]

@[simp] theorem pushFails_keepsMem (s : State) (step err : Nat) : (pushFails s step err).mem = s.mem := by simp [pushFails]

@[simp] theorem pushLoaded_keepsMem (s : State) (img : List Byte) : (pushLoaded s img).mem = s.mem := by simp [pushLoaded]

@[simp] theorem pushChunk_keepsMem (s : State) (buf pages : Nat) : (pushChunk s buf pages).mem = s.mem := by
  fun_cases pushChunk s buf pages <;> simp

@[simp] theorem pushEnd_keepsMem (s : State) : (pushEnd s).mem = s.mem := by
  fun_cases pushEnd s <;> simp

theorem execBootBegin_keepsForm (s : State) (wf : s.mem.bytes.wf = true) : AnswersInForm (execBootBegin s) := by simp [execBootBegin, wf]

theorem execBootChunk_keepsForm (buf pages : Nat) (s : State) (wf : s.mem.bytes.wf = true) : AnswersInForm (execBootChunk buf pages s) :=
  by simp [execBootChunk, wf]

theorem execBootEnd_keepsForm (s : State) (wf : s.mem.bytes.wf = true) : AnswersInForm (execBootEnd s) := by simp [execBootEnd, wf]

@[simp] theorem afterTraining_keepsBytes (s : State) (weak : List Lane) : (afterTraining s weak).mem.bytes = s.mem.bytes :=
  by simp [afterTraining]

@[simp] theorem startService_keepsBytes (s : State) (bad : List Nat) (weak : List Lane) :
    (startService s bad weak).mem.bytes = s.mem.bytes := by simp [startService]

theorem execServiceReady_keepsForm (initOk : Bool) (badTiles : SelfTests) (s : State) (wf : s.mem.bytes.wf = true) :
    AnswersInForm (execServiceReady initOk badTiles s) := by simp [execServiceReady, wf]

/-! Regs. -/

@[simp] theorem setPair_keepsMem (s : State) (fn off : Nat) (p : Pair) : (setPair s fn off p).mem = s.mem := rfl

@[simp] theorem loRead_keepsMem (s : State) (fn off : Nat) : (loRead s fn off).2.mem = s.mem := rfl

@[simp] theorem hiHalf_keepsMem (s : State) (fn off : Nat) : (hiHalf s fn off).2.mem = s.mem := rfl

@[simp] theorem onSq_keepsMem (s : State) (fn : Nat) (f : Sq → Sq) : (onSq s fn f).mem = s.mem := by
  fun_cases onSq s fn f <;> simp

@[simp] theorem onCq_keepsMem (s : State) (fn : Nat) (f : Cq → Cq) : (onCq s fn f).mem = s.mem := by
  fun_cases onCq s fn f <;> simp

@[simp] theorem pairStore_keepsMem (s : State) (fn off v : Nat) : (pairStore s fn off v).mem = s.mem := by
  fun_cases pairStore s fn off v <;> simp

@[simp] theorem loWrite_keepsMem (s : State) (fn off : Nat) (v : BitVec 32) : (loWrite s fn off v).mem = s.mem := by simp [loWrite]

@[simp] theorem hiWrite_keepsMem (s : State) (fn off : Nat) (v : BitVec 32) : (hiWrite s fn off v).mem = s.mem := by simp [hiWrite]

@[simp] theorem pageWrite_keepsMem (s : State) (fn o : Nat) (v : BitVec 32) : (pageWrite s fn o v).mem = s.mem := by
  fun_cases pageWrite s fn o v <;> simp

@[simp] theorem bootCmd_keepsMem (s : State) (x : Nat) : (bootCmd s x).mem = s.mem := by
  fun_cases bootCmd s x <;> simp

theorem rwlStore_keepsBytes (s : State) (off x lo hi : Nat) {f : DevMem → Nat → DevMem} (kept : ∀ m y, (f m y).bytes = m.bytes) :
    (rwlStore s off x lo hi f).mem.bytes = s.mem.bytes := by
  fun_cases rwlStore s off x lo hi f
  case case1 t written => exact (kept ..).trans (congrArg DevMem.bytes (rwlWrite_keepsMem s 0 off x written))
  case case2 => rfl

@[simp] theorem deviceWrite_keepsBytes (s : State) (off : Nat) (v : BitVec 32) : (deviceWrite s off v).mem.bytes = s.mem.bytes := by
  fun_cases deviceWrite s off v <;>
    grind [bootCmd_keepsMem, startBlob_keepsMem, → instWrite_keepsMem, cfgCommand_keepsMem, rwlStore_keepsBytes, injCtrl_keepsBytes,
      → fltWrite_keepsMem]

@[simp] theorem msixWrite_keepsMem (s : State) (fn o : Nat) (v : BitVec 32) : (msixWrite s fn o v).mem = s.mem := by
  fun_cases msixWrite s fn o v <;> simp

@[simp] theorem regStore_keepsBytes (s : State) (fn off : Nat) (v : BitVec 32) : (regStore s fn off v).mem.bytes = s.mem.bytes := by
  fun_cases regStore s fn off v <;> simp

@[simp] theorem stoppedAccess_keepsMem (s : State) (d fn off : Nat) (w : Option (BitVec 32)) : (stoppedAccess s d fn off w).mem = s.mem :=
  rfl

@[simp] theorem barWrite_keepsBytes (s : State) (fn off : Nat) (l : List Byte) : (barWrite s fn off l).mem.bytes = s.mem.bytes :=
  by simp [barWrite]

theorem execRegisterWrite_keepsForm (fn : Nat) (b : Bar) (off : Nat) (l : List Byte) (s : State) (wf : s.mem.bytes.wf = true) :
    AnswersInForm (execRegisterWrite fn b off l s) := by
  fun_cases execRegisterWrite fn b off l s <;> simp [wf]

theorem execStoppedDomainAccess_keepsForm (fn off : Nat) (w : Option (BitVec 32)) (s : State) (wf : s.mem.bytes.wf = true) :
    AnswersInForm (execStoppedDomainAccess fn off w s) := by
  fun_cases execStoppedDomainAccess fn off w s <;> simp [wf]

@[simp] theorem answer_keepsMem (s : State) (v : BitVec 64) : (answer s v).mem = s.mem := rfl

theorem reached_keepsForm (row : String) {s : State} (fn off : Nat) (w : Option (BitVec 32)) {f : State → State}
    (wf : s.mem.bytes.wf = true) (kept : (f s).mem = s.mem) : AnswersInForm (reached row s fn off w f) := by
  fun_cases reached row s fn off w f <;> simp [wf, kept]

theorem execPairLoRead_keepsForm (fn off : Nat) (s : State) (wf : s.mem.bytes.wf = true) : AnswersInForm (execPairLoRead fn off s) := by
  unfold execPairLoRead
  split
  · exact reached_keepsForm _ _ _ _ wf rfl
  · simp

theorem execPairHiRead_keepsForm (fn off : Nat) (s : State) (wf : s.mem.bytes.wf = true) : AnswersInForm (execPairHiRead fn off s) := by
  unfold execPairHiRead
  split
  · exact reached_keepsForm _ _ _ _ wf rfl
  · simp

theorem execPairLoWrite_keepsForm (fn off : Nat) (v : BitVec 32) (s : State) (wf : s.mem.bytes.wf = true) :
    AnswersInForm (execPairLoWrite fn off v s) := by
  fun_cases execPairLoWrite fn off v s <;> simp [wf, reached_keepsForm]

theorem execPairHiWrite_keepsForm (fn off : Nat) (v : BitVec 32) (s : State) (wf : s.mem.bytes.wf = true) :
    AnswersInForm (execPairHiWrite fn off v s) := by
  fun_cases execPairHiWrite fn off v s <;> simp [wf, reached_keepsForm]

@[simp] theorem read64_keepsMem (s : State) (fn off : Nat) : (read64 s fn off).mem = s.mem := by simp [read64]

theorem execPair64Access_keepsForm (fn off : Nat) (w : Option (BitVec 64)) (s : State) (wf : s.mem.bytes.wf = true) :
    AnswersInForm (execPair64Access fn off w s) := by
  fun_cases execPair64Access fn off w s <;> simp [wf]

/-! Attest. -/

@[simp] theorem reply_keepsMem (s : State) (a : DoeAnswer) : (reply s a).mem = s.mem := rfl

theorem onDoe_keepsForm (row : String) {s f : State} (wf : s.mem.bytes.wf = true) (kept : f.mem = s.mem) :
    AnswersInForm (onDoe row s f) := by
  fun_cases onDoe row s f <;> simp [wf, kept]

@[simp] theorem whenNegotiated_keepsMem {s f : State} (kept : f.mem = s.mem) : (whenNegotiated s f).mem = s.mem := by
  fun_cases whenNegotiated s f <;> simp [kept]

@[simp] theorem signTranscript_keepsMem (s : State) : (signTranscript s).2.mem = s.mem := rfl

theorem execDoeDiscovery_keepsForm (index : Nat) (s : State) (wf : s.mem.bytes.wf = true) : AnswersInForm (execDoeDiscovery index s) := by
  unfold execDoeDiscovery
  exact onDoe_keepsForm _ wf (by simp)

theorem execGetVersion_keepsForm (s : State) (wf : s.mem.bytes.wf = true) : AnswersInForm (execGetVersion s) := by
  unfold execGetVersion
  exact onDoe_keepsForm _ wf (by simp)

theorem execGetCapabilities_keepsForm (s : State) (wf : s.mem.bytes.wf = true) : AnswersInForm (execGetCapabilities s) := by
  unfold execGetCapabilities
  exact onDoe_keepsForm _ wf (by simp)

theorem execNegotiateAlgorithms_keepsForm (ver asym hash dhe aead : Nat) (s : State) (wf : s.mem.bytes.wf = true) :
    AnswersInForm (execNegotiateAlgorithms ver asym hash dhe aead s) := by
  unfold execNegotiateAlgorithms
  exact onDoe_keepsForm _ wf (by simp)

theorem execGetDigests_keepsForm (s : State) (wf : s.mem.bytes.wf = true) : AnswersInForm (execGetDigests s) :=
  onDoe_keepsForm _ wf (whenNegotiated_keepsMem (reply_keepsMem ..))

theorem execGetCertificate_keepsForm (slot off len : Nat) (s : State) (wf : s.mem.bytes.wf = true) :
    AnswersInForm (execGetCertificate slot off len s) := by
  unfold execGetCertificate
  exact onDoe_keepsForm _ wf (by simp)

theorem execChallenge_keepsForm (slot : Nat) (nonce : List (BitVec 8)) (s : State) (wf : s.mem.bytes.wf = true) :
    AnswersInForm (execChallenge slot nonce s) := by
  unfold execChallenge
  exact onDoe_keepsForm _ wf (by simp)

theorem execGetMeasurements_keepsForm (index : Nat) (sign : Bool) (nonce : List (BitVec 8)) (s : State) (wf : s.mem.bytes.wf = true) :
    AnswersInForm (execGetMeasurements index sign nonce s) := by
  unfold execGetMeasurements
  exact onDoe_keepsForm _ wf (by simp)

theorem execKeyExchange_keepsForm (group : Nat) (pub : List (BitVec 8)) (s : State) (wf : s.mem.bytes.wf = true) :
    AnswersInForm (execKeyExchange group pub s) := by
  unfold execKeyExchange
  exact onDoe_keepsForm _ wf (by simp)

@[simp] theorem onSession_keepsMem (s : State) (sid : Nat) (what : String) (f : SpdmSession → SpdmSession) :
    (onSession s sid what f).mem = s.mem := by
  fun_cases onSession s sid what f <;> simp

@[simp] theorem inSession_keepsMem {s f : State} (sid : Nat) (kept : f.mem = s.mem) : (inSession s sid f).mem = s.mem := by
  fun_cases inSession s sid f <;> simp [kept]

theorem execFinish_keepsForm (sid : Nat) (ok : Bool) (s : State) (wf : s.mem.bytes.wf = true) : AnswersInForm (execFinish sid ok s) := by
  unfold execFinish
  refine onDoe_keepsForm _ wf ?_
  split <;> simp

theorem execHeartbeat_keepsForm (sid : Nat) (s : State) (wf : s.mem.bytes.wf = true) : AnswersInForm (execHeartbeat sid s) := by
  unfold execHeartbeat
  exact onDoe_keepsForm _ wf (by simp)

theorem execKeyUpdate_keepsForm (sid op : Nat) (s : State) (wf : s.mem.bytes.wf = true) : AnswersInForm (execKeyUpdate sid op s) := by
  unfold execKeyUpdate
  exact onDoe_keepsForm _ wf (by simp)

theorem execEndSession_keepsForm (sid : Nat) (s : State) (wf : s.mem.bytes.wf = true) : AnswersInForm (execEndSession sid s) := by
  unfold execEndSession
  refine onDoe_keepsForm _ wf (inSession_keepsMem _ ?_)
  simp

theorem execSetCertificate_keepsForm (slot : Nat) (chain : List (BitVec 8)) (s : State) (wf : s.mem.bytes.wf = true) :
    AnswersInForm (execSetCertificate slot chain s) := by
  unfold execSetCertificate
  exact onDoe_keepsForm _ wf (by simp)

@[simp] theorem onStream_keepsMem (s : State) (stream : Nat) (what : String) (f : IdeStream → IdeStream) :
    (onStream s stream what f).mem = s.mem := by simp [onStream]

theorem execKeyProg_keepsForm (sid stream kset : Nat) (tx : Bool) (sub : Nat) (key : List (BitVec 8)) (s : State)
    (wf : s.mem.bytes.wf = true) :
    AnswersInForm (execKeyProg sid stream kset tx sub key s) := by
  unfold execKeyProg
  exact onDoe_keepsForm _ wf (by simp)

theorem execKSetGo_keepsForm (sid stream kset : Nat) (tx : Bool) (s : State) (wf : s.mem.bytes.wf = true) :
    AnswersInForm (execKSetGo sid stream kset tx s) := by
  unfold execKSetGo
  exact onDoe_keepsForm _ wf (by simp)

theorem execKSetStop_keepsForm (sid stream : Nat) (s : State) (wf : s.mem.bytes.wf = true) : AnswersInForm (execKSetStop sid stream s) := by
  unfold execKSetStop
  exact onDoe_keepsForm _ wf (by simp)

@[simp] theorem onTdi_keepsMem {s f : State} (sid fn : Nat) (kept : f.mem = s.mem) : (onTdi s sid fn f).mem = s.mem := by
  unfold onTdi
  apply inSession_keepsMem
  split <;> simp [kept]

@[simp] theorem setTdi_keepsMem (s : State) (fn : Nat) (x : TdiState) : (setTdi s fn x).mem = s.mem := rfl

theorem execLockInterfaceRequest_keepsForm (sid fn : Nat) (s : State) (wf : s.mem.bytes.wf = true) :
    AnswersInForm (execLockInterfaceRequest sid fn s) := by
  unfold execLockInterfaceRequest
  exact onDoe_keepsForm _ wf (by simp)

theorem execStartInterfaceRequest_keepsForm (sid fn : Nat) (s : State) (wf : s.mem.bytes.wf = true) :
    AnswersInForm (execStartInterfaceRequest sid fn s) := by
  unfold execStartInterfaceRequest
  exact onDoe_keepsForm _ wf (by simp)

theorem execStopInterfaceRequest_keepsForm (sid fn : Nat) (s : State) (wf : s.mem.bytes.wf = true) :
    AnswersInForm (execStopInterfaceRequest sid fn s) :=
  onDoe_keepsForm _ wf (onTdi_keepsMem _ _ (by rw [reply_keepsMem, setTdi_keepsMem]))

theorem execGetDeviceInterfaceReport_keepsForm (sid fn : Nat) (s : State) (wf : s.mem.bytes.wf = true) :
    AnswersInForm (execGetDeviceInterfaceReport sid fn s) := by
  unfold execGetDeviceInterfaceReport
  exact onDoe_keepsForm _ wf (by simp)

/-! Keys. -/

theorem execSeKey_keepsForm (t e cyc : Nat) (s : State) (wf : s.mem.bytes.wf = true) : AnswersInForm (execSeKey t e cyc s) := by
  fun_cases execSeKey t e cyc s <;> simp [wf]

@[simp] theorem startKey_keepsBytes (s : State) (g : Group) (t e cyc : Nat) (y : Tile) (st : Stream) (extra : List (Nat × Nat × Nat))
    (v : List Detail) :
    (startKey s g t e cyc y st extra v).mem.bytes = s.mem.bytes := by
  fun_cases startKey s g t e cyc y st extra v <;> simp

@[simp] theorem keyGoes_keepsBytes (s : State) (g : Group) (t e cyc : Nat) (p : Pset) (st : Stream) (h : List Byte) :
    (keyGoes s g t e cyc p st h).mem.bytes = s.mem.bytes := by
  fun_cases keyGoes s g t e cyc p st h <;> simp

theorem execKeyHeaderCheck_keepsForm (t e cyc : Nat) (s : State) (wf : s.mem.bytes.wf = true) :
    AnswersInForm (execKeyHeaderCheck t e cyc s) := by
  fun_cases execKeyHeaderCheck t e cyc s <;>
    grind [answersInForm_next, answersInForm_no, answersInForm_fault, tileAbort_keepsBytes, devRead_keepsBytes, loseWork_keepsBytes,
      → fireTile_keepsMem, keyGoes_keepsBytes]

theorem execSxStreamStart_keepsForm (t e cyc : Nat) (s : State) (wf : s.mem.bytes.wf = true) :
    AnswersInForm (execSxStreamStart t e cyc s) := by
  fun_cases execSxStreamStart t e cyc s <;> simp [wf]

/-! Mma. -/

@[simp] theorem nopCmd_keepsForm (row : String) (q t : Nat) (s : State) (wf : s.mem.bytes.wf = true) :
    AnswersInForm (nopCmd row q t s) := by
  fun_cases nopCmd row q t s <;> simp [wf]

theorem execMmaNop_keepsForm (t : Nat) (s : State) (wf : s.mem.bytes.wf = true) : AnswersInForm (execMmaNop t s) := by simp [execMmaNop, wf]

@[simp] theorem runLoad_keepsBytes (s : State) (g : Group) (t : Nat) (x : Tile) (e : QEntry) (l : Nat) (plane : Plane)
    (reads : List (Nat × Nat × Nat)) (claims : List Claim) (release : Nat) :
    (runLoad s g t x e l plane reads claims release).mem.bytes = s.mem.bytes := by
  unfold runLoad
  split
  next fired => rw [fireRead_keepsMem _ _ _ _ _ _ fired]
  next => exact settleTile_keepsBytes ..

theorem issueCmd_keepsForm (row : String) {s : State} (g : Group) (t q : Nat) (x : Tile) (e : QEntry) (lo full : Nat) {f : Nat → State}
    (wf : s.mem.bytes.wf = true) (kept : ∀ c, (f c).mem.bytes.wf = true) : AnswersInForm (issueCmd row s g t q x e lo full f) := by
  fun_cases issueCmd row s g t q x e lo full f <;> simp [wf, kept]

theorem execMmaLoad_keepsForm (t : Nat) (s : State) (wf : s.mem.bytes.wf = true) : AnswersInForm (execMmaLoad t s) := by
  fun_cases execMmaLoad t s
  case case1 => simp
  all_goals exact issueCmd_keepsForm _ _ _ _ _ _ _ _ wf fun c => by simp [wf]

theorem execMmaLoadt_keepsForm (t : Nat) (s : State) (wf : s.mem.bytes.wf = true) : AnswersInForm (execMmaLoadt t s) := by
  fun_cases execMmaLoadt t s
  case case1 => simp
  all_goals exact issueCmd_keepsForm _ _ _ _ _ _ _ _ wf fun c => by simp [wf]

@[simp] theorem mulStops_keepsMem (s : State) (g : Group) (t : Nat) (x : Tile) (e : QEntry) (c i source : Nat) :
    (mulStops s g t x e c i source).mem = s.mem := by
  fun_cases mulStops s g t x e c i source <;> grind [setTile_mem, → fireTile_keepsMem, groupFault_keepsMem]

@[simp] theorem runMul_keepsBytes (s : State) (g : Group) (t : Nat) (x : Tile) (e : QEntry) (c : Nat) :
    (runMul s g t x e c).mem.bytes = s.mem.bytes := by
  unfold runMul
  split
  next fired => rw [fireRead_keepsMem _ _ _ _ _ _ fired]
  next =>
    split
    · rw [mulStops_keepsMem]
    · exact settleTile_keepsBytes ..

theorem execMmaMul_keepsForm (t : Nat) (s : State) (wf : s.mem.bytes.wf = true) : AnswersInForm (execMmaMul t s) := by
  fun_cases execMmaMul t s
  case case1 => simp
  all_goals exact issueCmd_keepsForm _ _ _ _ _ _ _ _ wf fun c => by simp [wf]

/-! Sideband. -/

@[simp] theorem setCfg_keepsMem (s : State) (fn : Nat) (c : FnCfg) : (setCfg s fn c).mem = s.mem := rfl

@[simp] theorem msixFlushAll_keepsMem (s : State) (fn : Nat) : (msixFlushAll s fn).mem = s.mem := by simp [msixFlushAll]

@[simp] theorem dropAts_keepsMem (s : State) (fn : Nat) : (dropAts s fn).mem = s.mem := rfl

@[simp] theorem powerWrite_keepsForm (s : State) (fn v : Nat) (wf : s.mem.bytes.wf = true) : (powerWrite s fn v).mem.bytes.wf = true := by
  fun_cases powerWrite s fn v <;> simp [wf]

@[simp] theorem cfgStore_keepsForm (s : State) (fn : Nat) (f : CfgField) (v : Nat) (wf : s.mem.bytes.wf = true) :
    (cfgStore s fn f v).mem.bytes.wf = true := by
  fun_cases cfgStore s fn f v <;> simp +zetaDelta [wf]

theorem execConfigSpaceWrite_keepsForm (fn : Nat) (f : CfgField) (v : Nat) (s : State) (wf : s.mem.bytes.wf = true) :
    AnswersInForm (execConfigSpaceWrite fn f v s) := by simp [execConfigSpaceWrite, wf]

theorem execAtsInvalidateRequest_keepsForm (fn : Nat) (pasid : Option Nat) (addr size : Nat) (s : State) (wf : s.mem.bytes.wf = true) :
    AnswersInForm (execAtsInvalidateRequest fn pasid addr size s) := by simp [execAtsInvalidateRequest, wf]

@[simp] theorem smbAnswer_keepsForm (row : String) (s : State) (cmd : Nat) (l : List Byte) (wf : s.mem.bytes.wf = true) :
    AnswersInForm (smbAnswer row s cmd l) := by simp [smbAnswer, wf]

theorem execSmbDomainStatus_keepsForm (s : State) (wf : s.mem.bytes.wf = true) : AnswersInForm (execSmbDomainStatus s) :=
  by simp [execSmbDomainStatus, wf]

theorem execSmbPkgState_keepsForm (s : State) (wf : s.mem.bytes.wf = true) : AnswersInForm (execSmbPkgState s) :=
  by simp [execSmbPkgState, wf]

theorem execSmbTemperatures_keepsForm (s : State) (wf : s.mem.bytes.wf = true) : AnswersInForm (execSmbTemperatures s) :=
  by simp [execSmbTemperatures, wf]

theorem execSmbPower_keepsForm (s : State) (wf : s.mem.bytes.wf = true) : AnswersInForm (execSmbPower s) := by simp [execSmbPower, wf]

theorem execSmbBootStatus_keepsForm (s : State) (wf : s.mem.bytes.wf = true) : AnswersInForm (execSmbBootStatus s) :=
  by simp [execSmbBootStatus, wf]

theorem execSmbFltStatus_keepsForm (s : State) (wf : s.mem.bytes.wf = true) : AnswersInForm (execSmbFltStatus s) :=
  by simp [execSmbFltStatus, wf]

theorem execSmbSerial_keepsForm (s : State) (wf : s.mem.bytes.wf = true) : AnswersInForm (execSmbSerial s) := by simp [execSmbSerial, wf]

theorem execSmbUnsupportedCommand_keepsForm (cmd : Nat) (s : State) (wf : s.mem.bytes.wf = true) :
    AnswersInForm (execSmbUnsupportedCommand cmd s) := by simp [execSmbUnsupportedCommand, wf]

theorem execSmbRefresh_keepsForm (s : State) (wf : s.mem.bytes.wf = true) : AnswersInForm (execSmbRefresh s) := by simp [execSmbRefresh, wf]

theorem execTestControllerAccess_keepsForm (k : TapAccess) (s : State) (wf : s.mem.bytes.wf = true) :
    AnswersInForm (execTestControllerAccess k s) := by
  fun_cases execTestControllerAccess k s <;> simp [wf]

/-! Spq. -/

theorem execSpNop_keepsForm (t : Nat) (s : State) (wf : s.mem.bytes.wf = true) : AnswersInForm (execSpNop t s) := by
  fun_cases execSpNop t s <;> simp [wf]

theorem execSpFill_keepsForm (t : Nat) (s : State) (wf : s.mem.bytes.wf = true) : AnswersInForm (execSpFill t s) := by
  fun_cases execSpFill t s <;> simp [wf]

theorem execSpCopy_keepsForm (t : Nat) (s : State) (wf : s.mem.bytes.wf = true) : AnswersInForm (execSpCopy t s) := by
  fun_cases execSpCopy t s <;>
    grind [answersInForm_next, answersInForm_no, answersInForm_fault, → fireRead_keepsMem, settleTile_keepsBytes]

theorem execSpCommandDone_keepsForm (t : Nat) (s : State) (wf : s.mem.bytes.wf = true) : AnswersInForm (execSpCommandDone t s) := by
  fun_cases execSpCommandDone t s <;> simp [wf]

/-! Ve. -/

theorem execVeNop_keepsForm (t : Nat) (s : State) (wf : s.mem.bytes.wf = true) : AnswersInForm (execVeNop t s) := by simp [execVeNop, wf]

@[simp] theorem runRun_keepsBytes (s : State) (g : Group) (t : Nat) (x : Tile) (e : QEntry) (i : Nat) :
    (runRun s g t x e i).mem.bytes = s.mem.bytes := by
  unfold runRun
  split
  next fired => rw [fireRead_keepsMem _ _ _ _ _ _ fired]
  next =>
    split
    next fired => rw [fireTile_keepsMem _ _ _ _ _ _ _ fired]
    next => exact settleTile_keepsBytes ..

theorem execVeRun_keepsForm (t : Nat) (s : State) (wf : s.mem.bytes.wf = true) : AnswersInForm (execVeRun t s) := by
  fun_cases execVeRun t s
  case case1 => simp
  all_goals exact issueCmd_keepsForm _ _ _ _ _ _ _ _ wf fun c => by simp [wf]

@[simp] theorem runSetup_keepsBytes (s : State) (g : Group) (t : Nat) (x : Tile) (e : QEntry) (i kind idx ready : Nat)
    (reads : List (Nat × Nat × Nat)) (f : Tile → Tile) :
    (runSetup s g t x e i kind idx ready reads f).mem.bytes = s.mem.bytes := by
  fun_cases runSetup s g t x e i kind idx ready reads f <;> grind [→ fireRead_keepsMem, settleTile_keepsBytes]

theorem execVeSetchain_keepsForm (t : Nat) (s : State) (wf : s.mem.bytes.wf = true) : AnswersInForm (execVeSetchain t s) := by
  fun_cases execVeSetchain t s
  case case1 => simp
  all_goals exact issueCmd_keepsForm _ _ _ _ _ _ _ _ wf fun c => by simp [wf]

theorem execVeSetq_keepsForm (t : Nat) (s : State) (wf : s.mem.bytes.wf = true) : AnswersInForm (execVeSetq t s) := by
  fun_cases execVeSetq t s
  case case1 => simp
  all_goals exact issueCmd_keepsForm _ _ _ _ _ _ _ _ wf fun c => by simp [wf]

theorem execVeSetperm_keepsForm (t : Nat) (s : State) (wf : s.mem.bytes.wf = true) : AnswersInForm (execVeSetperm t s) := by
  fun_cases execVeSetperm t s
  case case1 => simp
  all_goals exact issueCmd_keepsForm _ _ _ _ _ _ _ _ wf fun c => by simp [wf]

/-- Every command keeps device memory in its canonical form. -/
theorem exec_keepsForm (i : Instr) {s : State} (wf : s.mem.bytes.wf = true) : AnswersInForm (exec i s) :=
  match i with
  | .kickAll .. => execKickAll_keepsForm _ _ wf
  | .kickRing .. => execKickRing_keepsForm _ _ _ wf
  | .pollTimer .. => execPollTimer_keepsForm _ _ wf
  | .doorbellRecordArrival .. => execDoorbellRecordArrival_keepsForm _ _ _ wf
  | .task .. | .refresh .. | .switchToLwe .. | .repack .. | .pbs .. | .keyswitch .. | .rotateMany .. | .rescale .. | .mpcTrunc ..
  | .mpcCompare .. | .move .. | .fence .. => consume_keepsForm _ _ _ _ _ _ wf
  | .fenceComplete .. => execFenceComplete_keepsForm _ _ wf
  | .cancel .. | .query .. | .openSession .. | .closeSession .. | .loadPset .. | .unloadPset .. | .addRegion .. | .removeRegion ..
  | .policy .. | .exportMsg .. | .importMsg .. | .sha256Op .. | .sha384Op .. | .sha512Op .. | .shake128Op .. | .shake256Op ..
  | .rsa3072Quote .. | .rsa4096Quote .. | .rsa3072PssVerify .. | .rsa4096PssVerify .. | .p256KeyPair .. | .p256EcdsaSign ..
  | .p256EcdsaVerify .. | .p256Ecdh .. | .p384KeyPair .. | .p384EcdsaSign .. | .p384EcdsaVerify .. | .p384Ecdh .. | .x25519KeyPair ..
  | .x25519Op .. | .ed25519KeyPair .. | .ed25519Sign .. | .ed25519Verify .. | .mlKem768KeyPair .. | .mlKem768Encapsulate ..
  | .mlKem768Decapsulate .. | .mlKem1024KeyPair .. | .mlKem1024Encapsulate .. | .mlKem1024Decapsulate .. | .slotLoad ..
  | .slotClear .. => consume_keepsForm _ _ _ _ _ _ wf
  | .pkeOpStart .. => execPkeOpStart_keepsForm _ _ _ wf
  | .pkeYieldPoint .. => execPkeYieldPoint_keepsForm _ _ wf
  | .transferStart .. => execTransferStart_keepsForm _ wf
  | .transferComplete .. => execTransferComplete_keepsForm _ _ _ _ wf
  | .sessionOpRun .. => execSessionOpRun_keepsForm _ _ _ wf
  | .readinessCheck .. => execReadinessCheck_keepsForm _ _ wf
  | .priorityAge .. => execPriorityAge_keepsForm _ _ wf
  | .dispatch .. => execDispatch_keepsForm _ _ wf
  | .tileTaskStart .. => execTileTaskStart_keepsForm _ _ wf
  | .taskFinalHeaders .. => execTaskFinalHeaders_keepsForm _ _ wf
  | .msixCoalesceTimer .. => execMsixCoalesceTimer_keepsForm _ _ wf
  | .hostFetchError .. => execHostFetchError_keepsForm _ _ _ wf
  | .cqWriteError .. => execCqWriteError_keepsForm _ _ wf
  | .hiSqReset .. => execHiSqReset_keepsForm _ _ _ wf
  | .sqEnable .. => execSqEnable_keepsForm _ _ _ wf
  | .sqDisable .. => execSqDisable_keepsForm _ _ _ wf
  | .cqEnable .. => execCqEnable_keepsForm _ _ _ wf
  | .cqDisable .. => execCqDisable_keepsForm _ _ _ wf
  | .resume .. => execResume_keepsForm _ _ wf
  | .clearNoticeLost .. => execClearNoticeLost_keepsForm _ _ wf
  | .functionLevelReset .. => execFunctionLevelReset_keepsForm _ _ wf
  | .linkReset .. => execLinkReset_keepsForm _ wf
  | .tdiError .. => execTdiError_keepsForm _ _ wf
  | .pairLoRead .. => execPairLoRead_keepsForm _ _ _ wf
  | .pairHiRead .. => execPairHiRead_keepsForm _ _ _ wf
  | .pairLoWrite .. => execPairLoWrite_keepsForm _ _ _ _ wf
  | .pairHiWrite .. => execPairHiWrite_keepsForm _ _ _ _ wf
  | .pair64Access .. => execPair64Access_keepsForm _ _ _ _ wf
  | .registerWrite .. => execRegisterWrite_keepsForm _ _ _ _ _ wf
  | .stoppedDomainAccess .. => execStoppedDomainAccess_keepsForm _ _ _ _ wf
  | .stage .. => execStage_keepsForm _ wf
  | .apply .. => execApply_keepsForm _ wf
  | .commit .. => execCommit_keepsForm _ wf
  | .revert .. => execRevert_keepsForm _ wf
  | .discard .. => execDiscard_keepsForm _ wf
  | .switchPoint .. => execSwitchPoint_keepsForm _ wf
  | .trialExpiry .. => execTrialExpiry_keepsForm _ wf
  | .autoRevert .. => execAutoRevert_keepsForm _ wf
  | .tileReconfigure .. => execTileReconfigure_keepsForm _ _ _ wf
  | .lullEntry .. => execLullEntry_keepsForm _ _ wf
  | .tileScrub .. => execTileScrub_keepsForm _ _ wf
  | .alu .. => execAlu_keepsForm _ wf
  | .addi .. => execAddi_keepsForm _ wf
  | .andi .. => execAndi_keepsForm _ wf
  | .ori .. => execOri_keepsForm _ wf
  | .xori .. => execXori_keepsForm _ wf
  | .slli .. => execSlli_keepsForm _ wf
  | .srli .. => execSrli_keepsForm _ wf
  | .srai .. => execSrai_keepsForm _ wf
  | .slti .. => execSlti_keepsForm _ wf
  | .sltiu .. => execSltiu_keepsForm _ wf
  | .seth .. => execSeth_keepsForm _ wf
  | .bfi .. => execBfi_keepsForm _ wf
  | .bfx .. => execBfx_keepsForm _ wf
  | .ld .. | .lw .. => coreLoad_keepsForm _ _ _ _ wf
  | .st .. | .sw .. => coreStore_keepsForm _ _ _ _ wf
  | .coreStoreWrite .. => execCoreStoreWrite_keepsForm _ _ wf
  | .arg .. => execArg_keepsForm _ wf
  | .cld .. => execCld_keepsForm _ wf
  | .beq .. => execBeq_keepsForm _ wf
  | .bne .. => execBne_keepsForm _ wf
  | .blt .. => execBlt_keepsForm _ wf
  | .bge .. => execBge_keepsForm _ wf
  | .bltu .. => execBltu_keepsForm _ wf
  | .bgeu .. => execBgeu_keepsForm _ wf
  | .jal .. => execJal_keepsForm _ wf
  | .jalr .. => execJalr_keepsForm _ wf
  | .push .. => execPush_keepsForm _ wf
  | .pushStallEnd .. => execPushStallEnd_keepsForm _ _ _ wf
  | .semw .. => execSemw_keepsForm _ wf
  | .semwSatisfied .. => execSemwSatisfied_keepsForm _ _ wf
  | .sems .. => execSems_keepsForm _ wf
  | .semr .. => execSemr_keepsForm _ wf
  | .rsig .. => execRsig_keepsForm _ wf
  | .remoteSignalArrival .. => execRemoteSignalArrival_keepsForm _ _ _ _ wf
  | .bar .. => execBar_keepsForm _ wf
  | .barrierArrival .. => execBarrierArrival_keepsForm _ _ wf
  | .barrierRelease .. => execBarrierRelease_keepsForm _ _ _ wf
  | .anchor .. => execAnchor_keepsForm _ wf
  | .waitc .. => execWaitc_keepsForm _ wf
  | .waitcExpiry .. => execWaitcExpiry_keepsForm _ _ wf
  | .csrr .. => execCsrr_keepsForm _ wf
  | .win .. => execWin_keepsForm _ _ wf
  | .descMake .. => execDescMake_keepsForm _ wf
  | .epoch .. => execEpoch_keepsForm _ wf
  | .epochCheckpoint .. => execEpochCheckpoint_keepsForm _ _ wf
  | .endCore .. => execEndCore_keepsForm _ wf
  | .coreNop .. => execCoreNop_keepsForm _ wf
  | .cycOverflow .. => execCycOverflow_keepsForm _ _ wf
  | .mmaNop .. => execMmaNop_keepsForm _ _ wf
  | .mmaLoad .. => execMmaLoad_keepsForm _ _ wf
  | .mmaLoadt .. => execMmaLoadt_keepsForm _ _ wf
  | .mmaMul .. => execMmaMul_keepsForm _ _ wf
  | .veNop .. => execVeNop_keepsForm _ _ wf
  | .veSetchain .. => execVeSetchain_keepsForm _ _ wf
  | .veSetq .. => execVeSetq_keepsForm _ _ wf
  | .veSetperm .. => execVeSetperm_keepsForm _ _ wf
  | .veRun .. => execVeRun_keepsForm _ _ wf
  | .spNop .. => execSpNop_keepsForm _ _ wf
  | .spFill .. => execSpFill_keepsForm _ _ wf
  | .spCopy .. => execSpCopy_keepsForm _ _ wf
  | .spCommandDone .. => execSpCommandDone_keepsForm _ _ wf
  | .seNop .. => execSeNop_keepsForm _ _ _ _ wf
  | .seRead .. => execSeRead_keepsForm _ _ _ _ wf
  | .seWrite .. => execSeWrite_keepsForm _ _ _ _ wf
  | .seKey .. => execSeKey_keepsForm _ _ _ _ wf
  | .keyHeaderCheck .. => execKeyHeaderCheck_keepsForm _ _ _ _ wf
  | .sxStreamStart .. => execSxStreamStart_keepsForm _ _ _ _ wf
  | .blockListRead .. => execBlockListRead_keepsForm _ _ _ _ wf
  | .streamDataArrival .. => execStreamDataArrival_keepsForm _ _ _ _ _ _ wf
  | .streamSignal .. => execStreamSignal_keepsForm _ _ _ _ wf
  | .translationMiss .. => execTranslationMiss_keepsForm _ _ _ _ wf
  | .priResponse .. => execPriResponse_keepsForm _ _ _ _ wf
  | .pageRequestTimeout .. => execPageRequestTimeout_keepsForm _ _ _ wf
  | .hostAbort .. => execHostAbort_keepsForm _ _ _ _ wf
  | .remoteAccessArrival .. => execRemoteAccessArrival_keepsForm _ _ _ _ wf
  | .remoteResponseArrival .. => execRemoteResponseArrival_keepsForm _ _ _ wf
  | .windowNack .. => execWindowNack_keepsForm _ _ wf
  | .semaphoreDeadlock .. => execSemaphoreDeadlock_keepsForm _ _ wf
  | .replay .. => execReplay_keepsForm _ _ _ _ wf
  | .epochWatchdog .. => execEpochWatchdog_keepsForm _ _ _ wf
  | .tileRetire .. => execTileRetire_keepsForm _ _ _ _ wf
  | .linkHalving .. => execLinkHalving_keepsForm _ _ _ _ wf
  | .glint .. => execGlint_keepsForm _ wf
  | .mcRestart .. => execMcRestart_keepsForm _ _ wf
  | .memRead .. => execMemRead_keepsForm _ _ wf
  | .memWrite .. => execMemWrite_keepsForm _ _ wf
  | .bucketRelease .. => execBucketRelease_keepsForm _ _ _ wf
  | .keepExpiry .. => execKeepExpiry_keepsForm _ _ wf
  | .laneRepair .. => execLaneRepair_keepsForm _ _ _ _ wf
  | .calInterval .. => execCalInterval_keepsForm _ _ _ wf
  | .calPause .. => execCalPause_keepsForm _ _ wf
  | .calPauseEnd .. => execCalPauseEnd_keepsForm _ _ wf
  | .channelLost .. => execChannelLost_keepsForm _ _ wf
  | .stackLost .. => execStackLost_keepsForm _ _ wf
  | .rebuildDone .. => execRebuildDone_keepsForm _ wf
  | .resync .. => execResync_keepsForm _ _ wf
  | .patrolScrub .. => execPatrolScrub_keepsForm _ _ _ _ wf
  | .stackTempSample .. => execStackTempSample_keepsForm _ _ _ wf
  | .mirrorZoneTemp .. => execMirrorZoneTemp_keepsForm _ _ _ wf
  | .mirrorCrc .. => execMirrorCrc_keepsForm _ _ _ wf
  | .throttleCommand .. => execThrottleCommand_keepsForm _ _ wf
  | .voltSettled .. => execVoltSettled_keepsForm _ _ wf
  | .powerSample .. => execPowerSample_keepsForm _ _ _ wf
  | .v12Low .. => execV12Low_keepsForm _ _
  | .thermalTrip .. => execThermalTrip_keepsForm _
  | .pllUnlock .. => execPllUnlock_keepsForm _
  | .stbyPowerValid .. => execStbyPowerValid_keepsForm _ _ wf
  | .mainPowerValid .. => execMainPowerValid_keepsForm _ _ wf
  | .coldReset .. => execColdReset_keepsForm _
  | .perstDeassert .. => execPerstDeassert_keepsForm _ wf
  | .bootChain .. => execBootChain_keepsForm _ _ _ _ wf
  | .serviceReady .. => execServiceReady_keepsForm _ _ _ wf
  | .bootBegin .. => execBootBegin_keepsForm _ wf
  | .bootChunk .. => execBootChunk_keepsForm _ _ _ wf
  | .bootEnd .. => execBootEnd_keepsForm _ wf
  | .authOpen .. | .authClose .. => blobGo_keepsForm _ _ _ wf
  | .authExpiry .. => execAuthExpiry_keepsForm _ wf
  | .takeOwnership .. | .releaseOwnership .. | .setPolicy .. | .setCert .. | .auditExport .. | .auditAck .. | .diagUnlock ..
  | .diagLock .. => blobGo_keepsForm _ _ _ wf
  | .consentExpiry .. => execConsentExpiry_keepsForm _ wf
  | .fuseProgram .. | .ship .. => blobGo_keepsForm _ _ _ wf
  | .arm .. => execArm_keepsForm _ wf
  | .cancelInjection .. => execCancelInjection_keepsForm _ wf
  | .noOpportunity .. => execNoOpportunity_keepsForm _ wf
  | .getVersion .. => execGetVersion_keepsForm _ wf
  | .getCapabilities .. => execGetCapabilities_keepsForm _ wf
  | .negotiateAlgorithms .. => execNegotiateAlgorithms_keepsForm _ _ _ _ _ _ wf
  | .getDigests .. => execGetDigests_keepsForm _ wf
  | .getCertificate .. => execGetCertificate_keepsForm _ _ _ _ wf
  | .challenge .. => execChallenge_keepsForm _ _ _ wf
  | .getMeasurements .. => execGetMeasurements_keepsForm _ _ _ _ wf
  | .keyExchange .. => execKeyExchange_keepsForm _ _ _ wf
  | .finish .. => execFinish_keepsForm _ _ _ wf
  | .heartbeat .. => execHeartbeat_keepsForm _ _ wf
  | .keyUpdate .. => execKeyUpdate_keepsForm _ _ _ wf
  | .endSession .. => execEndSession_keepsForm _ _ wf
  | .setCertificate .. => execSetCertificate_keepsForm _ _ _ wf
  | .keyProg .. => execKeyProg_keepsForm _ _ _ _ _ _ _ wf
  | .kSetGo .. => execKSetGo_keepsForm _ _ _ _ _ wf
  | .kSetStop .. => execKSetStop_keepsForm _ _ _ wf
  | .smbDomainStatus .. => execSmbDomainStatus_keepsForm _ wf
  | .smbPkgState .. => execSmbPkgState_keepsForm _ wf
  | .smbTemperatures .. => execSmbTemperatures_keepsForm _ wf
  | .smbPower .. => execSmbPower_keepsForm _ wf
  | .smbBootStatus .. => execSmbBootStatus_keepsForm _ wf
  | .smbFltStatus .. => execSmbFltStatus_keepsForm _ wf
  | .smbSerial .. => execSmbSerial_keepsForm _ wf
  | .smbRefresh .. => execSmbRefresh_keepsForm _ wf
  | .linkTrained .. => execLinkTrained_keepsForm _ _ _ _ wf
  | .stbyPowerLoss .. => execStbyPowerLoss_keepsForm _
  | .pllRelock .. => execPllRelock_keepsForm _ wf
  | .resyncDone .. => execResyncDone_keepsForm _ _ wf
  | .laneRepairDone .. => execLaneRepairDone_keepsForm _ _ wf
  | .atsTranslationCompletion .. => execAtsTranslationCompletion_keepsForm _ _ _ _ _ wf
  | .atsInvalidateRequest .. => execAtsInvalidateRequest_keepsForm _ _ _ _ _ wf
  | .configSpaceWrite .. => execConfigSpaceWrite_keepsForm _ _ _ _ wf
  | .msixUnmask .. => execMsixUnmask_keepsForm _ _ _ wf
  | .doeDiscovery .. => execDoeDiscovery_keepsForm _ _ wf
  | .lockInterfaceRequest .. => execLockInterfaceRequest_keepsForm _ _ _ wf
  | .startInterfaceRequest .. => execStartInterfaceRequest_keepsForm _ _ _ wf
  | .stopInterfaceRequest .. => execStopInterfaceRequest_keepsForm _ _ _ wf
  | .getDeviceInterfaceReport .. => execGetDeviceInterfaceReport_keepsForm _ _ _ wf
  | .smbUnsupportedCommand .. => execSmbUnsupportedCommand_keepsForm _ _ wf
  | .testControllerAccess .. => execTestControllerAccess_keepsForm _ _ wf

/-- An empty queue lets time pass, in which a rebuild goes on, and changes no byte of device memory. -/
theorem idle_keepsBytes (s : State) : (rebuildTick (idleStep s)).mem.bytes = s.mem.bytes := by simp

/-- Settles O59: every command keeps the form, and so does an empty queue. -/
theorem memoryFormKept : Obligations.MemoryFormKept := by
  unfold Obligations.MemoryFormKept
  intro s s' wf stepped
  unfold step at stepped
  split at stepped
  · cases stepped
    rwa [idle_keepsBytes]
  next c rest _ =>
    have kept : ({ s with pending := rest } : State).mem.bytes.wf = true := wf
    exact exec_keepsForm c kept s' stepped

end Sys2Proof.Proofs

/-! O46: temperatures, throttle commands and the power limit (R258 to R260, R263, R395 to R397, R402, R404). -/

namespace Sys2Proof.Proofs
open Sys2Proof Sys2Proof.Machine Sys2Proof.Laws Sys2Proof.Claims

/-! What a sample leaves as it was. -/

/-- Tiles, the scheduler, management and the fault unit are as they were. -/
structure WorkKept (s s' : State) : Prop where
  tiles : s'.tiles = s.tiles
  ts : s'.ts = s.ts
  mgt : s'.mgt = s.mgt
  flt : s'.flt = s.flt

theorem WorkKept.refl (s : State) : WorkKept s s := ⟨rfl, rfl, rfl, rfl⟩

theorem WorkKept.trans {a b c : State} (h : WorkKept a b) (k : WorkKept b c) : WorkKept a c :=
  ⟨k.tiles.trans h.tiles, k.ts.trans h.ts, k.mgt.trans h.mgt, k.flt.trans h.flt⟩

theorem memEvent_workKept (s : State) (b : Nat) : WorkKept s (memEvent s b) := by
  unfold memEvent
  dsimp only
  split
  · have host := faultInterrupt_frame { s with mem := { s.mem with
      event := s.mem.event ||| 2 ^ b, evcnt := counted s.mem.evcnt b (pulse s.mem.tel 0 s.time).2, tel := (pulse s.mem.tel 0 s.time).1 } }
    exact ⟨host.tiles, host.ts, host.mgt, host.flt⟩
  · exact ⟨rfl, rfl, rfl, rfl⟩

theorem HostOnly.clk {a b : State} (h : HostOnly a b) : b.clk = a.clk := by
  unfold HostOnly at h
  rw [h]

theorem memEvent_clk (s : State) (b : Nat) : (memEvent s b).clk = s.clk := by
  unfold memEvent
  dsimp only
  split
  · rw [HostOnly.clk (faultInterrupt_frame _)]
  · rfl

theorem settleBuckets_workKept (s : State) : WorkKept s (settleBuckets s) :=
  foldl_keeps WorkKept.refl WorkKept.trans (f := fun s p => charge s p 0) (fun _ _ => ⟨rfl, rfl, rfl, rfl⟩) _ s

/-! Throttle commands (R395, R396). -/

/-- Only the clocks of positions differ. -/
def ClocksOnly (s s' : State) : Prop := s' = { s with clk := { s.clk with positions := s'.clk.positions } }

theorem ClocksOnly.refl (s : State) : ClocksOnly s s := rfl

theorem ClocksOnly.trans {a b c : State} (h : ClocksOnly a b) (k : ClocksOnly b c) : ClocksOnly a c := by
  unfold ClocksOnly at *
  rw [k, h]

theorem ClocksOnly.workKept {s s' : State} (h : ClocksOnly s s') : WorkKept s s' := by
  unfold ClocksOnly at h
  rw [h]
  exact ⟨rfl, rfl, rfl, rfl⟩

theorem ClocksOnly.mir {s s' : State} (h : ClocksOnly s s') : s'.mir = s.mir := by
  unfold ClocksOnly at h
  rw [h]

theorem ClocksOnly.mem {s s' : State} (h : ClocksOnly s s') : s'.mem = s.mem := by
  unfold ClocksOnly at h
  rw [h]

theorem ClocksOnly.clk {s s' : State} (h : ClocksOnly s s') : s'.clk = { s.clk with positions := s'.clk.positions } := by
  unfold ClocksOnly at h
  rw [h]

theorem ClocksOnly.mainUp {s s' : State} (h : ClocksOnly s s') : s'.clk.mainUp = s.clk.mainUp := by rw [h.clk]

theorem ClocksOnly.event {s s' : State} (h : ClocksOnly s s') : s'.clk.event = s.clk.event := by rw [h.clk]

/-- The causes of a count are apart from the clocks. -/
theorem ClocksOnly.wantedSteps {s s' : State} (h : ClocksOnly s s') (pos : Nat) : wantedSteps s' pos = wantedSteps s pos := by
  unfold ClocksOnly at h
  rw [h]
  rfl

/-- One position gets its command, when its count has changed. -/
def throttle (s : State) (pos : Nat) : State :=
  if aimOf (clockOf s pos) = wantedSteps s pos then s
  else setClock s pos { clockOf s pos with command := some (wantedSteps s pos) }

theorem throttle_clocksOnly (s : State) (pos : Nat) : ClocksOnly s (throttle s pos) := ite_keeps (R := ClocksOnly) (.refl s) rfl

theorem foldl_throttle_clocksOnly (l : List Nat) (s : State) : ClocksOnly s (l.foldl throttle s) :=
  foldl_keeps ClocksOnly.refl ClocksOnly.trans throttle_clocksOnly l s

theorem sendThrottles_eq (s : State) : sendThrottles s = (List.range 72).foldl throttle s := rfl

theorem sendThrottles_clocksOnly (s : State) : ClocksOnly s (sendThrottles s) := by
  rw [sendThrottles_eq]
  exact foldl_throttle_clocksOnly _ s

theorem clockOf_setClock (s : State) (pos q : Nat) (x : TileClock) :
    clockOf (setClock s pos x) q = if q = pos then x else clockOf s q := Tbl.get_put ..

theorem throttle_aim (s : State) (pos : Nat) : aimOf (clockOf (throttle s pos) pos) = wantedSteps s pos := by
  unfold throttle
  split
  case isTrue aimed => exact aimed
  case isFalse => rw [clockOf_setClock, if_pos rfl]; rfl

theorem throttle_clockOf_ne (s : State) {pos q : Nat} (other : q ≠ pos) : clockOf (throttle s pos) q = clockOf s q := by
  unfold throttle
  split
  · rfl
  · rw [clockOf_setClock, if_neg other]

theorem foldl_throttle_aims (s : State) (n : Nat) :
    ∀ pos, pos < n → aimOf (clockOf ((List.range n).foldl throttle s) pos) = wantedSteps s pos := by
  induction n with
  | zero => exact fun pos among => absurd among (Nat.not_lt_zero pos)
  | succ n ih =>
    intro pos among
    rw [List.range_succ, List.foldl_append, List.foldl_cons, List.foldl_nil]
    by_cases last : pos = n
    · rw [last, throttle_aim, (foldl_throttle_clocksOnly _ s).wantedSteps]
    · rw [throttle_clockOf_ne _ last]
      exact ih pos (by omega)

/-- Every position is on its way to the count that the causes request. -/
theorem sendThrottles_aims (s : State) {pos : Nat} (among : pos < 72) :
    aimOf (clockOf (sendThrottles s) pos) = wantedSteps (sendThrottles s) pos := by
  rw [(sendThrottles_clocksOnly s).wantedSteps]
  exact foldl_throttle_aims s 72 pos among

/-! A change of a thermal cause (R396, R420). -/

theorem clkEvent_testBit (s : State) (b : Nat) : (clkEvent s b).clk.event.testBit b = true := by simp [clkEvent]

theorem thermalChange_workKept (before after : State) : WorkKept after (thermalChange before after) :=
  ite_keeps (R := WorkKept) (WorkKept.trans (b := clkEvent after 2) ⟨rfl, rfl, rfl, rfl⟩ (sendThrottles_clocksOnly _).workKept) (.refl _)

theorem thermalChange_mir (before after : State) : (thermalChange before after).mir = after.mir := by
  unfold thermalChange
  split
  · exact (sendThrottles_clocksOnly _).mir
  · rfl

theorem thermalChange_mainUp (before after : State) : (thermalChange before after).clk.mainUp = after.clk.mainUp := by
  unfold thermalChange
  split
  · exact (sendThrottles_clocksOnly _).mainUp
  · rfl

theorem thermalChange_of_moved {before after : State} (moved : stepsMoved before after = true) :
    thermalChange before after = sendThrottles (clkEvent after 2) := if_pos moved

theorem thermalChange_of_still {before after : State} (still : ¬ stepsMoved before after = true) :
    thermalChange before after = after := if_neg still

/-- When the request of some position has moved, the event is set and every position has its command. -/
theorem thermalChange_moved {before after : State} (moved : stepsMoved before (thermalChange before after) = true) :
    (thermalChange before after).clk.event.testBit 2 = true ∧
      ∀ pos, pos < 72 → aimOf (clockOf (thermalChange before after) pos) = wantedSteps (thermalChange before after) pos := by
  by_cases first : stepsMoved before after = true
  · rw [thermalChange_of_moved first]
    refine ⟨?_, fun pos => sendThrottles_aims _⟩
    rw [(sendThrottles_clocksOnly _).event]
    exact clkEvent_testBit after 2
  · rw [thermalChange_of_still first] at moved
    exact absurd moved first

/-! A sample of a stack's temperature (R258, R260). -/

/-- A stack with a new temperature and its three marks. -/
def heated (x : Stack) (temp : Int) : Stack :=
  { x with temp := temp, hot85 := hyst x.hot85 temp 85 82, hot95 := hyst x.hot95 temp 95 92, hot105 := hyst x.hot105 temp 105 102 }

/-- The stack pauses at this sample. -/
def pausesAt (s : State) (stk : Nat) (temp : Int) : Bool :=
  (heated (stackOf s stk) temp).hot105 && ((stackOf s stk).state == 0 || (stackOf s stk).state == 3) && s.mem.paused.isNone

/-- The record of the sampled stack. -/
def sampled (s : State) (stk : Nat) (temp : Int) : Stack :=
  let x := stackOf s stk
  let y := heated x temp
  { y with state := if pausesAt s stk temp then 1 else x.state,
           refresh4 := (x.refresh4 || (y.hot105 && !x.hot105 && pausedHot s stk)) && y.hot105 }

/-- The stacks after a sample, before its events. -/
def afterSample (s : State) (stk : Nat) (temp : Int) : State :=
  let x := stackOf s stk
  let s1 := setStack (settleBuckets s) stk (sampled s stk temp)
  let s1 := if x.hot105 && !(heated x temp).hot105 && s.mem.paused == some stk then
      { s1 with mem := { s1.mem with stks := s1.mem.stks.map (fun p => (p.1, { p.2 with refresh4 := false })) } }
    else s1
  if pausesAt s stk temp then { s1 with mem := { s1.mem with paused := some stk } } else s1

/-- The events of a sample. -/
def heatEvents (x y : Stack) (s : State) : State :=
  let s := if y.hot95 && !x.hot95 then memEvent s 5 else s
  if y.hot105 && !x.hot105 then memEvent s 6 else s

theorem stackSample_eq (stk : Nat) (temp : Int) (s : State) : stackSample stk temp s =
    thermalChange s (heatEvents (stackOf s stk) (heated (stackOf s stk) temp) (afterSample s stk temp)) := rfl

theorem tbl_get_map {α : Type} (t : Tbl α) (f : α → α) (d : α) (k : Nat) (found : t.find k ≠ none) :
    Tbl.get (List.map (fun p => (p.1, f p.2)) t : Tbl α) k d = f (t.get k d) := by
  induction t with
  | nil => exact absurd rfl found
  | cons p t ih =>
    obtain ⟨j, v⟩ := p
    by_cases same : j = k
    · simp [Tbl.get, Tbl.find, same]
    · have rest : Tbl.find t k ≠ none := by simpa [Tbl.find, same] using found
      simpa [Tbl.get, Tbl.find, same] using ih rest

/-- The measures of a further hot stack end at every stack (R260). -/
def measuresEnd (t : Tbl Stack) : Tbl Stack := t.map (fun p => (p.1, { p.2 with refresh4 := false }))

theorem afterSample_stks (s : State) (stk : Nat) (temp : Int) : (afterSample s stk temp).mem.stks =
    let t := (settleBuckets s).mem.stks.put stk (sampled s stk temp)
    if (stackOf s stk).hot105 && !(heated (stackOf s stk) temp).hot105 && s.mem.paused == some stk then measuresEnd t else t := by
  unfold afterSample
  dsimp only
  split <;> split <;> rfl

/-- A sample gives the stack its new record, and no mark of another stack's heat changes it. -/
theorem afterSample_stack (s : State) (stk : Nat) (temp : Int) :
    ∃ r, stackOf (afterSample s stk temp) stk = { sampled s stk temp with refresh4 := r } := by
  unfold stackOf
  rw [afterSample_stks]
  dsimp only
  split
  · refine ⟨false, (tbl_get_map _ (fun x : Stack => { x with refresh4 := false }) stack0 stk ?_).trans ?_⟩
    · rw [Tbl.find_put_self]
      exact Option.some_ne_none _
    · rw [Tbl.get_put_self]
  · exact ⟨_, Tbl.get_put_self ..⟩

theorem afterSample_paused {s : State} {stk : Nat} {temp : Int} (pauses : pausesAt s stk temp = true) :
    (afterSample s stk temp).mem.paused = some stk := by
  simp [afterSample, pauses]

theorem afterSample_bytes (s : State) (stk : Nat) (temp : Int) : (afterSample s stk temp).mem.bytes = s.mem.bytes := by
  simp [afterSample]

theorem afterSample_workKept (s : State) (stk : Nat) (temp : Int) : WorkKept s (afterSample s stk temp) := by
  refine (settleBuckets_workKept s).trans ?_
  unfold afterSample
  dsimp only
  split <;> split <;> exact ⟨rfl, rfl, rfl, rfl⟩

/-! The events of a sample (R258). -/

/-- All of device memory that a sample reads, but its event register and the counts of its pulses is as it was, and so are tiles and work. -/
structure EventsOnly (s s' : State) : Prop where
  work : WorkKept s s'
  clk : s'.clk = s.clk
  stks : s'.mem.stks = s.mem.stks
  paused : s'.mem.paused = s.mem.paused
  bytes : s'.mem.bytes = s.mem.bytes

theorem EventsOnly.refl (s : State) : EventsOnly s s := ⟨.refl s, rfl, rfl, rfl, rfl⟩

theorem EventsOnly.trans {a b c : State} (h : EventsOnly a b) (k : EventsOnly b c) : EventsOnly a c :=
  ⟨h.work.trans k.work, k.clk.trans h.clk, k.stks.trans h.stks, k.paused.trans h.paused, k.bytes.trans h.bytes⟩

theorem memEvent_eventsOnly (s : State) (b : Nat) : EventsOnly s (memEvent s b) :=
  ⟨memEvent_workKept s b, memEvent_clk s b, by rw [memEvent_mem], by rw [memEvent_mem], by rw [memEvent_mem]⟩

theorem heatEvents_eventsOnly (x y : Stack) (s : State) : EventsOnly s (heatEvents x y s) :=
  (ite_keeps (R := EventsOnly) (memEvent_eventsOnly s 5) (.refl s)).trans
    (ite_keeps (R := EventsOnly) (memEvent_eventsOnly _ 6) (.refl _))

theorem memEvent_testBit (s : State) (b k : Nat) :
    (memEvent s b).mem.event.testBit k = (s.mem.event.testBit k || decide (b = k)) := by
  rw [memEvent_mem]
  simp only [Nat.testBit_or, Nat.testBit_two_pow]

theorem heatEvents_95 {x y : Stack} (s : State) (now : y.hot95 = true) (before : x.hot95 = false) :
    (heatEvents x y s).mem.event.testBit 5 = true := by
  simp only [heatEvents, now, before, Bool.not_false, Bool.and_true, if_true]
  split
  · rw [memEvent_testBit, memEvent_testBit]; simp
  · rw [memEvent_testBit]; simp

theorem heatEvents_105 {x y : Stack} (s : State) (now : y.hot105 = true) (before : x.hot105 = false) :
    (heatEvents x y s).mem.event.testBit 6 = true := by
  simp only [heatEvents, now, before, Bool.not_false, Bool.and_true, if_true]
  rw [memEvent_testBit]; simp

theorem hyst_above {was : Bool} {temp hi lo : Int} (above : hi < temp) : hyst was temp hi lo = true := if_pos above

/-! The trip (R404). -/

theorem reset_congr {s t u : State} (kept : WorkKept s t) (reset : Reset t u) : Reset s u := by
  unfold Reset at *
  rwa [kept.mgt, kept.flt] at reset

theorem tripNow_reset (s : State) : Reset s (tripNow s) := by
  refine ⟨fun d positive => ?_, rfl, rfl, rfl, rfl, rfl, rfl, rfl, rfl, rfl, rfl, rfl, rfl, rfl, rfl, rfl, rfl, rfl, rfl, rfl, rfl, rfl,
    rfl, rfl, rfl, rfl, rfl, rfl, rfl⟩
  exact Bool.eq_false_iff.mpr fun set => positive.ne' (Nat.testBit_one_eq_true_iff_self_eq_zero.mp set)

theorem tripNow_clk (s : State) : (tripNow s).clk.trip = true ∧ (tripNow s).clk.thermTrip = true ∧ (tripNow s).clk.mainUp = false ∧
    (tripNow s).clk.pkg = 1 := ⟨rfl, rfl, rfl, rfl⟩

/-! STACK_TEMP_SAMPLE. -/

section
variable {s : State} {stk : Nat} {temp : Int}

theorem stackSample_workKept : WorkKept s (stackSample stk temp s) := by
  rw [stackSample_eq]
  exact (afterSample_workKept s stk temp).trans ((heatEvents_eventsOnly ..).work.trans (thermalChange_workKept ..))

theorem afterSample_mainUp : (afterSample s stk temp).clk.mainUp = s.clk.mainUp := by
  have settled : (settleBuckets s).clk = s.clk :=
    foldl_keeps (R := fun a b => b.clk = a.clk) (fun _ => rfl) (fun h k => k.trans h) (f := fun s p => charge s p 0) (fun _ _ => rfl) _ s
  have kept : (afterSample s stk temp).clk = (settleBuckets s).clk := by
    unfold afterSample
    dsimp only
    split <;> split <;> rfl
  rw [kept, settled]

theorem stackSample_mainUp : (stackSample stk temp s).clk.mainUp = s.clk.mainUp := by
  rw [stackSample_eq, thermalChange_mainUp, (heatEvents_eventsOnly ..).clk, afterSample_mainUp]

/-- The sampled stack has its new record. -/
theorem stackSample_stack : ∃ r, stackOf (stackSample stk temp s) stk = { sampled s stk temp with refresh4 := r } := by
  obtain ⟨r, stack⟩ := afterSample_stack s stk temp
  refine ⟨r, Eq.trans ?_ stack⟩
  unfold stackOf
  rw [stackSample_eq, thermalChange_keepsMem, (heatEvents_eventsOnly ..).stks]

theorem stackSample_bytes : (stackSample stk temp s).mem.bytes = s.mem.bytes := by
  rw [stackSample_eq, thermalChange_keepsMem, (heatEvents_eventsOnly ..).bytes, afterSample_bytes]

/-- The first stack above 105 °C in normal use pauses. -/
theorem pausesAt_hot (hot : 105 < temp) (use : (stackOf s stk).state = 0 ∨ (stackOf s stk).state = 3) (first : s.mem.paused = none) :
    pausesAt s stk temp = true := by
  have marked : (heated (stackOf s stk) temp).hot105 = true := hyst_above hot
  simp [pausesAt, marked, use, first]

theorem stackSample_paused (pauses : pausesAt s stk temp = true) : (stackSample stk temp s).mem.paused = some stk := by
  rw [stackSample_eq, thermalChange_keepsMem, (heatEvents_eventsOnly ..).paused, afterSample_paused pauses]

theorem execStackTempSample_eq (runs : domainRuns s 6 = true) (low : -128 ≤ temp) (high : temp < 128) :
    exec (.stackTempSample stk temp) s = .next (if 115 < temp ∧ s.clk.mainUp = true then tripNow (stackSample stk temp s)
      else stackSample stk temp s) := by
  refine (show _ = execStackTempSample stk temp s from rfl).trans ?_
  simp only [execStackTempSample, runs, low, high, decide_true, Bool.and_self, if_true, stackSample_mainUp]

end

/-! POWER_SAMPLE (R402). -/

/-- The power step is at most one further, and none further at or below POWER_W. -/
theorem powerStepRule_step (s : State) (avg : Nat) :
    (s.clk.powerStep ≤ 3 → (powerStepRule s avg).powerStep ≤ 3) ∧
    (s.clk.powerW < avg → s.clk.overSince = none → (powerStepRule s avg).powerStep = Nat.min 3 (s.clk.powerStep + 1)) ∧
    (avg ≤ s.clk.powerW → (powerStepRule s avg).powerStep ≤ s.clk.powerStep) := by
  fun_cases powerStepRule s avg <;> grind

theorem powerStepRule_rest (s : State) (avg : Nat) : (powerStepRule s avg).powerW = s.clk.powerW ∧
    (powerStepRule s avg).fastStep = s.clk.fastStep ∧ (powerStepRule s avg).fastArmed = s.clk.fastArmed := by
  fun_cases powerStepRule s avg <;> simp +zetaDelta

/-- Above 1.1 × POWER_W the fast step rises when it is armed. -/
theorem fastStepRule_above {c : Clk} (now : Nat) {watts : Nat} (above : 11 * c.powerW < 10 * watts) :
    (fastStepRule c now watts).powerStep = c.powerStep ∧
      (fastStepRule c now watts).fastStep = if c.fastArmed then Nat.min 3 (c.fastStep + 1) else c.fastStep := by
  unfold fastStepRule
  rw [if_pos above]
  split <;> exact ⟨rfl, rfl⟩

/-- At or below it the fast step does not rise. -/
theorem fastStepRule_below {c : Clk} (now : Nat) {watts : Nat} (below : ¬ 11 * c.powerW < 10 * watts) :
    (fastStepRule c now watts).powerStep = c.powerStep ∧ (fastStepRule c now watts).fastStep ≤ c.fastStep := by
  unfold fastStepRule
  rw [if_neg below]
  by_cases calm : watts ≤ c.powerW
  · simp only [if_pos calm]
    repeat' split
    all_goals simp
  · simp only [if_neg calm]
    repeat' split
    all_goals simp

theorem fastStepRule_powerStep (c : Clk) (now watts : Nat) : (fastStepRule c now watts).powerStep = c.powerStep := by
  by_cases above : 11 * c.powerW < 10 * watts
  · exact (fastStepRule_above now above).1
  · exact (fastStepRule_below now above).1

theorem fastStepRule_le {c : Clk} (now watts : Nat) (low : c.fastStep ≤ 3) : (fastStepRule c now watts).fastStep ≤ 3 := by
  by_cases above : 11 * c.powerW < 10 * watts
  · rw [(fastStepRule_above now above).2]
    split
    · exact Nat.min_le_left ..
    · exact low
  · exact (fastStepRule_below now above).2.trans low

/-- The clock registers after a power sample. -/
def powerClk (s : State) (watts avg : Nat) : Clk :=
  let c1 := powerStepRule s avg
  let c2 := fastStepRule c1 s.time watts
  { c2 with avgPower := avg,
            stepRises := Nat.min 0xFFFF (s.clk.stepRises + ((powerTotal c1 - powerTotal s.clk) + (powerTotal c2 - powerTotal c1))) }

/-- The state after a power sample, before its throttle commands. -/
def powered (s : State) (watts avg : Nat) : State :=
  let c1 := powerStepRule s avg
  let s1 := { s with clk := powerClk s watts avg }
  let s2 := if c1.powerStep != s.clk.powerStep then clkEvent s1 0 else s1
  if (powerClk s watts avg).fastStep != c1.fastStep then clkEvent s2 1 else s2

theorem execPowerSample_eq {s : State} {watts avg : Nat} (up : s.clk.mainUp = true) (hw : watts < 2 ^ 16) (ha : avg < 2 ^ 16) :
    exec (.powerSample watts avg) s = .next (sendThrottles (powered s watts avg)) := by
  refine (show _ = execPowerSample watts avg s from rfl).trans ?_
  simp only [execPowerSample, up, hw, ha, decide_true, Bool.and_self, if_true]
  rfl

/-- A power sample changes clock registers only. -/
theorem powered_eq (s : State) (watts avg : Nat) : ∃ e, powered s watts avg = { s with clk := { powerClk s watts avg with event := e } } := by
  unfold powered
  dsimp only
  split <;> split <;> exact ⟨_, rfl⟩

/-- The power registers after a sample and its commands, which touch nothing but the clock unit. -/
structure PowerSampled (s : State) (watts avg : Nat) (u : State) : Prop where
  avgPower : u.clk.avgPower = avg
  powerStep : u.clk.powerStep = (powerStepRule s avg).powerStep
  fastStep : u.clk.fastStep = (fastStepRule (powerStepRule s avg) s.time watts).fastStep
  mem : u.mem = s.mem
  work : WorkKept s u

theorem sendThrottles_powerSampled (s : State) (watts avg : Nat) : PowerSampled s watts avg (sendThrottles (powered s watts avg)) := by
  have clocks := sendThrottles_clocksOnly (powered s watts avg)
  obtain ⟨e, clk⟩ := powered_eq s watts avg
  rw [clk] at clocks ⊢
  exact ⟨by rw [clocks.clk]; rfl, by rw [clocks.clk]; exact fastStepRule_powerStep .., by rw [clocks.clk]; rfl, clocks.mem,
    ⟨clocks.workKept.tiles, clocks.workKept.ts, clocks.workKept.mgt, clocks.workKept.flt⟩⟩

/-! The five rows. -/

theorem stackTempSample_trips {s : State} {stk : Nat} {temp : Int} (hot : 115 < temp) (up : s.clk.mainUp = true) :
    (if 115 < temp ∧ s.clk.mainUp = true then tripNow (stackSample stk temp s) else stackSample stk temp s) =
      tripNow (stackSample stk temp s) := if_pos ⟨hot, up⟩

theorem stackTempSample_stays {s : State} {stk : Nat} {temp : Int} (cool : temp ≤ 115 ∨ s.clk.mainUp = false) :
    (if 115 < temp ∧ s.clk.mainUp = true then tripNow (stackSample stk temp s) else stackSample stk temp s) =
      stackSample stk temp s := by
  refine if_neg fun trips => ?_
  obtain ⟨hot, up⟩ := trips
  rcases cool with low | down
  · omega
  · rw [down] at up
    cases up

/-- A zone with a new temperature and its mark (R263). -/
def zoneHeated (x : Zone) (temp : Int) : Zone := { x with temp := temp, throttle := hyst x.throttle temp 95 92 }

/-- The zones after a sample, before its commands. -/
def zonesSampled (s : State) (z : Nat) (temp : Int) : State :=
  { s with mir := { s.mir with zones := s.mir.zones.put z (zoneHeated (s.mir.zones.get z zone0) temp) } }

theorem execMirrorZoneTemp_eq {s : State} {z : Nat} {temp : Int} (runs : domainRuns s 2 = true) (low : -128 ≤ temp) (high : temp < 128) :
    exec (.mirrorZoneTemp z temp) s = .next (thermalChange s (zonesSampled s z temp)) := by
  refine (show _ = execMirrorZoneTemp z temp s from rfl).trans ?_
  simp only [execMirrorZoneTemp, runs, low, high, decide_true, Bool.and_self, if_true]
  rfl

theorem execThrottleCommand_eq {s : State} {pos w : Nat} (command : (clockOf s pos).command = some w) :
    exec (.throttleCommand pos) s = .next (setClock s pos (if w < (clockOf s pos).steps then
      { clockOf s pos with command := none, settling := some w } else { steps := w, command := none, settling := none })) := by
  refine (show _ = execThrottleCommand pos s from rfl).trans ?_
  simp only [execThrottleCommand, command]

theorem execVoltSettled_eq {s : State} {pos w : Nat} (settling : (clockOf s pos).settling = some w) :
    exec (.voltSettled pos) s = .next (setClock s pos { clockOf s pos with steps := w, settling := none }) := by
  refine (show _ = execVoltSettled pos s from rfl).trans ?_
  simp only [execVoltSettled, settling]

/-- Settles O46: what a sample leaves, the commands that follow a moved request, and the rules of the power limit. -/
theorem thermalAndPowerSteps : Obligations.ThermalAndPowerSteps := by
  unfold Obligations.ThermalAndPowerSteps
  refine fun s => ⟨fun stk temp runs low high => ?stack, fun z temp runs low high => ?zone, fun pos w command => ?command,
    fun pos w settling => execVoltSettled_eq settling, fun watts avg up hw ha => ?power⟩
  case stack =>
    refine ⟨_, execStackTempSample_eq runs low high, fun hot up => ?_, fun cool => ?_⟩
    · rw [stackTempSample_trips hot up]
      exact ⟨reset_congr stackSample_workKept (tripNow_reset _), tripNow_clk _⟩
    · rw [stackTempSample_stays cool]
      obtain ⟨r, stack⟩ := stackSample_stack (s := s) (stk := stk) (temp := temp)
      rw [stack]
      refine ⟨rfl, rfl, rfl, rfl, fun hot use first => ?_, fun hot before => ?_, fun hot before => ?_, fun moved => ?_,
        stackSample_bytes, stackSample_workKept.tiles, stackSample_workKept.ts⟩
      · have pauses := pausesAt_hot hot use first
        exact ⟨if_pos pauses, stackSample_paused pauses⟩
      · rw [stackSample_eq, thermalChange_keepsMem]
        exact heatEvents_95 _ (hyst_above hot) before
      · rw [stackSample_eq, thermalChange_keepsMem]
        exact heatEvents_105 _ (hyst_above hot) before
      · rw [stackSample_eq] at moved ⊢
        exact (thermalChange_moved moved).2
  case zone =>
    refine ⟨_, execMirrorZoneTemp_eq runs low high, ?_, ?_, thermalChange_moved, thermalChange_keepsMem .., (thermalChange_workKept ..).tiles,
      (thermalChange_workKept ..).ts⟩
    · rw [thermalChange_mir, zonesSampled, Tbl.get_put_self]; rfl
    · rw [thermalChange_mir, zonesSampled, Tbl.get_put_self]; rfl
  case command =>
    rw [execThrottleCommand_eq command]
    exact ⟨fun rises => by rw [if_neg (by omega)], fun falls => by rw [if_pos falls]⟩
  case power =>
    refine ⟨_, execPowerSample_eq up hw ha, ?_⟩
    obtain ⟨bound, raised, held⟩ := powerStepRule_step s avg
    obtain ⟨limit, fast, armed⟩ := powerStepRule_rest s avg
    have after := sendThrottles_powerSampled s watts avg
    rw [after.powerStep, after.fastStep]
    refine ⟨after.avgPower, bound, fun low => fastStepRule_le _ _ (by rwa [fast]), raised, held, fun above ready => ?_,
      fun pos => sendThrottles_aims _, after.mem, after.work.tiles, after.work.ts, after.work.mgt⟩
    rw [(fastStepRule_above _ (by rwa [limit])).2, armed, ready, if_pos rfl, fast]

end Sys2Proof.Proofs

/-! O41: the requests at the memory system, their reads and writes, and the lines that expire (R232 to R246, R252, R253, R346). -/

namespace Sys2Proof.Proofs
open Sys2Proof Sys2Proof.Machine Sys2Proof.Laws Sys2Proof.Claims

/-! What a served read leaves (R235, R239). -/

/-- As `ReadOnly`, with the scheduler and the state of every stripe as they were. -/
structure ServeOnly (s s' : State) : Prop extends ReadOnly s s' where
  ts : s'.ts = s.ts
  stripes : s'.mem.stripes = s.mem.stripes

theorem ServeOnly.refl (s : State) : ServeOnly s s := ⟨.refl s, rfl, rfl⟩

theorem ServeOnly.trans {a b c : State} (h : ServeOnly a b) (k : ServeOnly b c) : ServeOnly a c :=
  ⟨h.toReadOnly.trans k.toReadOnly, k.ts.trans h.ts, k.stripes.trans h.stripes⟩

theorem memEvent_serveOnly (s : State) (b : Nat) : ServeOnly s (memEvent s b) :=
  ⟨memEvent_readOnly s b, (memEvent_workKept s b).ts, by rw [memEvent_mem]⟩

theorem fltEvent_serveOnly (s : State) (b : Nat) : ServeOnly s (fltEvent s b) := by
  refine ⟨fltEvent_readOnly s b, ?_, by rw [fltEvent_keepsMem]⟩
  unfold fltEvent
  simp only
  split
  · exact (faultInterrupt_frame _).ts
  · rfl

theorem logFault_serveOnly (s : State) (source action ltile ptile channel part handle detail : Nat) :
    ServeOnly s (logFault s source action ltile ptile channel part handle detail) := by
  refine ⟨logFault_readOnly .., ?_, by rw [logFault_keepsMem]⟩
  unfold logFault
  simp only
  split
  · exact (fltEvent_serveOnly ..).ts
  · rfl

theorem endInjection_serveOnly (s : State) (fired : Bool) (kind code : Nat) : ServeOnly s (endInjection s fired kind code) :=
  ⟨endInjection_readOnly .., (fltEvent_serveOnly ..).ts, (fltEvent_serveOnly ..).stripes⟩

theorem unitMended_serveOnly (s : State) (st u : Nat) : ServeOnly s (unitMended s st u) := ⟨unitMended_readOnly s st u, rfl, rfl⟩

theorem crcRepaired_serveOnly (s : State) (source part handle st u : Nat) : ServeOnly s (crcRepaired s source part handle st u) :=
  (unitMended_serveOnly s st u).trans ((memEvent_serveOnly ..).trans (logFault_serveOnly ..))

theorem fireUnit_serveOnly (s : State) (part handle st u : Nat) : ServeOnly s (fireUnit s part handle st u) := by
  unfold fireUnit
  split
  · exact (endInjection_serveOnly ..).trans (crcRepaired_serveOnly ..)
  · exact .refl s

theorem markBad_serveOnly (s : State) (st u src : Nat) : ServeOnly s (markBad s st u src) := ⟨⟨⟨rfl, rfl⟩, rfl, rfl⟩, rfl, rfl⟩

theorem LinesOnly.serveOnly {s s' : State} (only : LinesOnly s s') : ServeOnly s s' :=
  ⟨only.readOnly, by rw [only], by rw [only]⟩

theorem charge_serveOnly (s : State) (p : Nat) (n : Int) : ServeOnly s (charge s p n) := ⟨charge_readOnly s p n, rfl, rfl⟩

theorem setReq_serveOnly (s : State) (r : MemReq) : ServeOnly s (setReq s r) := ⟨⟨⟨rfl, rfl⟩, rfl, rfl⟩, rfl, rfl⟩

theorem dropLine_serveOnly (s : State) (part handle st u : Nat) : ServeOnly s (dropLine s part handle st u) :=
  (logFault_serveOnly s 0x25 0 0xFF 0xFF (unitChannel s st u) part handle (4096 * st)).trans ⟨⟨⟨rfl, rfl⟩, rfl, rfl⟩, rfl, rfl⟩

theorem ServeOnly.unitBytes {s s' : State} (only : ServeOnly s s') (st u : Nat) : unitBytes s' st u = unitBytes s st u :=
  only.memBytes ..

/-- Every request of that number is the one that has been put. -/
theorem mem_setReq {s : State} {r r' m : MemReq} (among : m ∈ (setReq s r').mem.reqs) (same : r'.id = r.id) (named : m.id = r.id) : m = r' := by
  obtain ⟨k, _, rfl⟩ := List.mem_map.mp among
  split at named
  next => exact if_pos ‹_›
  next other => exact absurd (by rw [named, same]; exact beq_self_eq_true r.id) other

/-! The counters and bits of a repaired unit (R239, R352). -/

theorem logCount_logFault (s : State) (source action ltile ptile channel part handle detail : Nat) :
    (logFault s source action ltile ptile channel part handle detail).flt.logCount = s.flt.logCount + 1 := by
  unfold logFault
  simp only
  split
  · rw [fltEvent_flt]
  · rfl

theorem crcRepaired_event (s : State) (source part handle st u : Nat) :
    (crcRepaired s source part handle st u).mem.event.testBit 0 = true := by
  rw [crcRepaired, logFault_keepsMem, memEvent_testBit]
  simp

theorem crcRepaired_logCount (s : State) (source part handle st u : Nat) :
    (crcRepaired s source part handle st u).flt.logCount = s.flt.logCount + 1 := by
  rw [crcRepaired, logCount_logFault, (memEvent_workKept ..).flt]
  rfl

theorem crcRepaired_good (s : State) (source part handle st u : Nat) : unitBad (crcRepaired s source part handle st u) st u = false := by
  unfold unitBad
  rw [crcRepaired, logFault_keepsMem, memEvent_mem]
  simp [unitMended]

theorem crcRepaired_lineOf (s : State) (source part handle st u k : Nat) : lineOf (crcRepaired s source part handle st u) k = lineOf s k := by
  unfold lineOf
  rw [crcRepaired, logFault_keepsMem, memEvent_mem]
  rfl

/-! How a read of a unit is served, and on what that depends (R235, R239, R253). -/

/-- The channels, the stacks, the stripes and what is wrong with their units are as they were. -/
structure SameUnits (s s' : State) : Prop where
  channels : s'.mem.channels = s.mem.channels
  stks : s'.mem.stks = s.mem.stks
  placed : s'.mem.placed = s.mem.placed
  bad : s'.mem.bad = s.mem.bad
  stale : s'.mem.stale = s.mem.stale
  stripes : s'.mem.stripes = s.mem.stripes
  trained : s'.mem.trained = s.mem.trained

theorem SameUnits.unitRead {s s' : State} (same : SameUnits s s') (st u : Nat) : unitRead s' st u = unitRead s st u := by
  have channel : unitChannel s' = unitChannel s := by funext st u; unfold unitChannel; rw [same.placed]
  have channels : channelOf s' = channelOf s := by funext c; unfold channelOf; rw [same.channels]
  have stks : stackOf s' = stackOf s := by funext n; unfold stackOf; rw [same.stks]
  have bad : unitBad s' = unitBad s := by funext st u; unfold unitBad; rw [same.bad]
  have stale : unitStale s' = unitStale s := by funext st u; unfold unitStale; rw [same.stale]
  have lost : channelIsLost s' = channelIsLost s := by funext c; unfold channelIsLost; rw [channels, stks]
  have out : channelOut s' = channelOut s := by funext c; unfold channelOut; rw [lost, channels, stks]
  have good : unitGood s' = unitGood s := by funext st u; unfold unitGood; rw [out, channel, bad, stale]
  have direct : unitDirect s' = unitDirect s := by funext st u; unfold unitDirect; rw [good, channel, stks, lost, channels, bad, stale]
  have soon : unitSoon s' = unitSoon s := by funext st u; unfold unitSoon; rw [lost, channel, bad, stale]
  have paused : unitPaused s' = unitPaused s := by funext st u; unfold unitPaused; rw [channels, channel]
  unfold Machine.unitRead stripeOf
  rw [same.stripes, good, direct, soon, paused, channel, stks, out, bad, stale]

theorem SameUnits.unitWaits {s s' : State} (same : SameUnits s s') (st u : Nat) : unitWaits s' st u = unitWaits s st u := by
  unfold Machine.unitWaits
  rw [same.unitRead, same.trained]

theorem dropLine_sameUnits (s : State) (part handle st u : Nat) : SameUnits s (dropLine s part handle st u) := by
  unfold dropLine
  simp only [logFault_keepsMem]
  exact ⟨rfl, rfl, rfl, rfl, rfl, rfl, rfl⟩

theorem not_waits {s : State} {st u : Nat} (trained : s.mem.trained = true) (now : unitRead s st u ≠ .waits) : unitWaits s st u = false := by
  simp [unitWaits, trained, now]

theorem unitRead_unwritten {s : State} {st : Nat} (fresh : stripeOf s st = .unwritten) (u : Nat) : unitRead s st u = .zero := by
  simp [unitRead, fresh]

theorem unitRead_written_ne_zero {s : State} {st : Nat} (written : stripeOf s st = .written) (u : Nat) : unitRead s st u ≠ .zero := by
  unfold unitRead
  simp only [written]
  repeat' split
  all_goals simp

theorem memInjection_none {s : State} {st u : Nat} (other : unitRead s st u ≠ .direct) : memInjection s st u = none := by
  unfold memInjection
  split
  · rfl
  · exact if_neg fun direct => other direct.2.1

theorem servedDirect_false {s : State} {st u : Nat} (other : unitRead s st u ≠ .direct) : servedDirect s st u = false := by
  simp [servedDirect, other]

theorem meetUnit_none {s : State} {st u : Nat} {met : ReadMet} (met_ : met = .clean ∨ ∃ c, met = .line c) :
    meetUnit s st u met = (s, none) := by
  obtain rfl | ⟨c, rfl⟩ := met_ <;> rfl

theorem meetUnit_not_direct {s : State} {st u : Nat} (met : ReadMet) (other : servedDirect s st u = false) :
    meetUnit s st u met = (s, none) := by
  simp only [meetUnit, other, Bool.false_eq_true, if_false]
  split <;> rfl

/-! A unit fetched from its stack (R239, R358). -/

theorem fetchUnitBy_reads (source : Nat) (s : State) (part handle : Nat) {st u : Nat} (stored : unitRead s st u ≠ .zero)
    (alive : unitRead s st u ≠ .lost) :
    ∃ t, fetchUnitBy source s part handle st u = (t, some (unitBytes s st u)) ∧ ServeOnly s t := by
  unfold fetchUnitBy
  split
  · exact ⟨_, rfl, (endInjection_serveOnly ..).trans (crcRepaired_serveOnly ..)⟩
  · split
    case h_1 zero => exact absurd zero stored
    case h_2 => exact ⟨_, rfl, .refl s⟩
    case h_3 => exact ⟨_, rfl, ite_keeps (R := ServeOnly) (crcRepaired_serveOnly ..) (.refl s)⟩
    case h_4 => exact ⟨_, rfl, .refl s⟩
    case h_5 lost => exact absurd lost alive

theorem fetchUnitBy_zero (source : Nat) {s : State} (part handle : Nat) {st u : Nat} (zero : unitRead s st u = .zero) :
    fetchUnitBy source s part handle st u = (s, some (List.replicate 256 0)) := by
  simp only [fetchUnitBy, memInjection_none (s := s) (st := st) (u := u) (by rw [zero]; decide), zero]

theorem fetchUnitBy_repairs (source : Nat) {s : State} (part handle : Nat) {st u : Nat} (rebuilt : unitRead s st u = .rebuilt true) :
    fetchUnitBy source s part handle st u = (crcRepaired s source part handle st u, some (unitBytes s st u)) := by
  simp only [fetchUnitBy, memInjection_none (s := s) (st := st) (u := u) (by rw [rebuilt]; decide), rebuilt, if_true]

theorem fetchUnitBy_loses (source : Nat) {s : State} (part handle : Nat) {st u : Nat} (lost : unitRead s st u = .lost) :
    fetchUnitBy source s part handle st u = (loseUnit source s part handle st u, none) := by
  simp only [fetchUnitBy, memInjection_none (s := s) (st := st) (u := u) (by rw [lost]; decide), lost]

/-! A read that misses (R239, R242, R346). -/

section
variable {s s1 : State} {r : MemReq} {st u : Nat} {met : ReadMet} {src : Option Nat}
  (stripe : st = r.addr / 4096) (unit : u = r.addr / 256 % 16) (meets : meetUnit s st u met = (s1, src)) (ready : unitWaits s1 st u = false)
include stripe unit meets ready

theorem serveMiss_served {t : State} {b : List Byte}
    (fetched : fetchUnitBy (src.getD (badSource s1 st u)) s1 r.part (reqHandle s r) st u = (t, some b)) :
    serveMiss s r met =
      some (setReq (cacheRead t st u r.hint r.session r.part (!(allocates s1 st u))) { r with phase := .served, data := b }) := by
  subst stripe unit
  simp only [serveMiss, meets, ready, fetched, Bool.false_eq_true, if_false]

theorem serveMiss_lost {t : State}
    (fetched : fetchUnitBy (src.getD (badSource s1 st u)) s1 r.part (reqHandle s r) st u = (t, none)) :
    serveMiss s r met = some (objectLost t (reqHandle s r) r.part st) := by
  subst stripe unit
  simp only [serveMiss, meets, ready, fetched, Bool.false_eq_true, if_false]

end

/-- The request is served with these bytes. -/
def Serves (s' : State) (r : MemReq) (b : List Byte) : Prop := ∀ m ∈ s'.mem.reqs, m.id = r.id → m.phase = .served ∧ m.data = b

theorem serves_setReq (s : State) (r : MemReq) (b : List Byte) : Serves (setReq s { r with phase := .served, data := b }) r b := by
  intro m among named
  obtain rfl := mem_setReq among (r := r) rfl named
  exact ⟨rfl, rfl⟩

theorem serveMiss_reads {s : State} {r : MemReq} {st u : Nat} {met : ReadMet} (stripe : st = r.addr / 4096) (unit : u = r.addr / 256 % 16)
    (met_ : met = .clean ∨ ∃ c, met = .line c) (ready : unitWaits s st u = false) (stored : unitRead s st u ≠ .zero)
    (alive : unitRead s st u ≠ .lost) : ∃ s', serveMiss s r met = some s' ∧ Serves s' r (unitBytes s st u) ∧ ServeOnly s s' := by
  obtain ⟨t, fetched, only⟩ := fetchUnitBy_reads (badSource s st u) s r.part (reqHandle s r) stored alive
  exact ⟨_, serveMiss_served stripe unit (meetUnit_none met_) ready fetched, serves_setReq _ _ _,
    only.trans ((cacheRead_linesOnly ..).serveOnly.trans (setReq_serveOnly ..))⟩

/-! A unit that its CRC, or every retry of a burst, fails (R236, R239). -/

theorem meetUnit_fails {s : State} {st u : Nat} {met : ReadMet} (direct : servedDirect s st u = true)
    (met_ : met = .burst ∨ ∃ c, met = .unit c ∧ c ≠ crcEntry s st u) : ∃ src, meetUnit s st u met = (markBad s st u src, some src) := by
  obtain rfl | ⟨c, rfl, other⟩ := met_
  · exact ⟨0x21, by simp only [meetUnit, direct, if_true]⟩
  · exact ⟨0x20, by simp only [meetUnit, direct, other, if_true, if_false]⟩

theorem unitBad_markBad (s : State) (st u src : Nat) : unitBad (markBad s st u src) st u = true := by simp [unitBad, markBad]

theorem unitBad_markBad_ne (s : State) {st u k v : Nat} (src : Nat) (other : (k, v) ≠ (st, u)) :
    unitBad (markBad s st u src) k v = unitBad s k v := by
  simp only [unitBad, markBad, List.contains_append, List.contains_cons, List.contains_nil, Bool.or_false,
    beq_eq_false_iff_ne.mpr other]

theorem unitGood_markBad_ne (s : State) {st u k v : Nat} (src : Nat) (other : (k, v) ≠ (st, u)) :
    unitGood (markBad s st u src) k v = unitGood s k v := by
  simp only [unitGood, unitBad_markBad_ne s src other]
  rfl

theorem mem_otherUnits_ne {u v : Nat} (among : v ∈ otherUnits u) : v ≠ u := by
  simpa using (List.mem_filter.mp among).2

theorem unitRead_markBad {s : State} {st u : Nat} (written : stripeOf s st = .written) (good : unitGood s st u = true)
    (others : ∀ v ∈ otherUnits u, unitGood s st v = true ∧ unitPaused s st v = false) (src : Nat) :
    unitRead (markBad s st u src) st u = .rebuilt true := by
  have bad : unitGood (markBad s st u src) st u = false := by simp [unitGood, unitBad_markBad]
  have readable : (otherUnits u).all (unitGood (markBad s st u src) st) = true := List.all_eq_true.mpr fun v among => by
    rw [unitGood_markBad_ne s src (by simpa using mem_otherUnits_ne among)]
    exact (others v among).1
  have running : (otherUnits u).any (unitPaused (markBad s st u src) st) = false := List.any_eq_false.mpr fun v among => by
    rw [show unitPaused (markBad s st u src) st v = unitPaused s st v from rfl, (others v among).2]
    exact Bool.false_ne_true
  have here : (!(channelOut s (unitChannel s st u)) && !(unitStale s st u)) = true := by
    simp only [unitGood, Bool.and_eq_true] at good
    simp [good]
  have repair : (unitBad (markBad s st u src) st u && !(channelOut (markBad s st u src) (unitChannel (markBad s st u src) st u)) &&
      !(unitStale (markBad s st u src) st u)) = true := by
    rw [unitBad_markBad, Bool.true_and]
    exact here
  have still : stripeOf (markBad s st u src) st = .written := written
  simp only [unitRead, still, bad, readable, running, repair, Bool.false_eq_true, if_true, if_false]

theorem cacheRead_rebuilt {s : State} {st u hint session part : Nat} (bare : lineOf s (17 * st + u) = none) :
    cacheRead s st u hint session part true = s := by
  simp only [cacheRead, bare]
  split <;> simp_all

/-! MEM_READ of a request (R235, R239, R240, R242). -/

section
variable {s : State} {req st u : Nat} {r : MemReq} {met : ReadMet}
  (queued : ∀ v c, met ≠ .direct v c)
include queued

theorem memRead_eq : exec (.memRead ⟨req, met⟩) s = readUnitOf req met s := by
  cases met with
  | direct v c => exact absurd rfl (queued v c)
  | _ => rfl

variable (found : s.mem.reqs.find? (fun m => m.id == req && m.phase == .fabric && !(m.write)) = some r)
include found

theorem memRead_beyond (beyond : capacity ≤ r.addr) : exec (.memRead ⟨req, met⟩) s = .fault (.noSuchAddress (r.addr / 256)) := by
  rw [memRead_eq queued]
  simp only [readUnitOf, found, beyond, if_true]

variable (stripe : st = r.addr / 4096) (unit : u = r.addr / 256 % 16) (inside : r.addr < capacity)
include stripe unit inside

theorem memRead_miss (misses : lineServes s st u = false) {t : State} (served : serveMiss s r met = some t) :
    exec (.memRead ⟨req, met⟩) s = .next t := by
  subst stripe unit
  rw [memRead_eq queued]
  simp only [readUnitOf, found, Nat.not_le.mpr inside, misses, served, Bool.false_and, Bool.false_eq_true, if_false]

theorem memRead_drops (hits : lineServes s st u = true) (fails : lineFails s st u met = true) {t : State}
    (served : serveMiss (dropLine s r.part (reqHandle s r) st u) r .clean = some t) : exec (.memRead ⟨req, met⟩) s = .next t := by
  subst stripe unit
  rw [memRead_eq queued]
  simp only [readUnitOf, found, Nat.not_le.mpr inside, hits, fails, served, Bool.and_self, if_true, if_false]

theorem memRead_hits (hits : lineServes s st u = true) (holds : lineFails s st u met = false) :
    exec (.memRead ⟨req, met⟩) s = .next (setReq (cacheRead (charge s r.part (-256)) st u r.hint r.session r.part false)
      { r with phase := .served, data := unitBytes (cacheRead (charge s r.part (-256)) st u r.hint r.session r.part false) st u }) := by
  subst stripe unit
  rw [memRead_eq queued]
  simp only [readUnitOf, found, Nat.not_le.mpr inside, hits, holds, Bool.and_false, Bool.false_eq_true, if_true, if_false]

variable (trained : s.mem.trained = true)
include trained

/-- A unit of a WRITTEN stripe that can be read or reconstructed comes with its bytes. -/
theorem memRead_reads (now : unitRead s st u ≠ .waits) (stored : unitRead s st u ≠ .zero) (alive : unitRead s st u ≠ .lost)
    (met_ : met = .clean ∨ ∃ c, met = .line c) :
    ∃ s', exec (.memRead ⟨req, met⟩) s = .next s' ∧ Serves s' r (unitBytes s st u) ∧ ServeOnly s s' := by
  have ready := not_waits trained now
  cases hits : lineServes s st u with
  | false =>
    obtain ⟨s', served, data, only⟩ := serveMiss_reads stripe unit met_ ready stored alive
    exact ⟨s', memRead_miss queued found stripe unit inside hits served, data, only⟩
  | true =>
    cases fails : lineFails s st u met with
    | true =>
      have same := dropLine_sameUnits s r.part (reqHandle s r) st u
      have drop := dropLine_serveOnly s r.part (reqHandle s r) st u
      obtain ⟨s', served, data, only⟩ := serveMiss_reads (s := dropLine s r.part (reqHandle s r) st u) stripe unit (.inl rfl)
        (by rw [same.unitWaits, ready]) (by rw [same.unitRead]; exact stored) (by rw [same.unitRead]; exact alive)
      exact ⟨s', memRead_drops queued found stripe unit inside hits fails served, drop.unitBytes st u ▸ data, drop.trans only⟩
    | false =>
      have only := (charge_serveOnly s r.part (-256)).trans (cacheRead_linesOnly _ st u r.hint r.session r.part false).serveOnly
      refine ⟨_, memRead_hits queued found stripe unit inside hits fails, ?_, only.trans (setReq_serveOnly ..)⟩
      rw [← only.unitBytes st u]
      exact serves_setReq _ _ _

/-- A unit of an UNWRITTEN stripe that no line holds comes as zeros. -/
theorem memRead_zero (fresh : stripeOf s st = .unwritten) (bare : lineOf s (17 * st + u) = none) :
    ∃ s', exec (.memRead ⟨req, met⟩) s = .next s' ∧ Serves s' r (List.replicate 256 0) ∧ s'.mem.bytes = s.mem.bytes := by
  have zero := unitRead_unwritten fresh u
  have ready := not_waits (st := st) (u := u) trained (by rw [zero]; decide)
  have meets := meetUnit_not_direct (s := s) (st := st) (u := u) met (servedDirect_false (by rw [zero]; decide))
  refine ⟨_, memRead_miss queued found stripe unit inside (by simp [lineServes, bare])
    (serveMiss_served stripe unit meets ready (fetchUnitBy_zero _ _ _ zero)), serves_setReq _ _ _, ?_⟩
  rw [setReq_keepsBytes, cacheRead_keepsBytes]

/-- A unit that fails its CRC is reconstructed and rewritten. -/
theorem memRead_repairs (written : stripeOf s st = .written) (bare : lineOf s (17 * st + u) = none) (direct : servedDirect s st u = true)
    (good : unitGood s st u = true) (others : ∀ v ∈ otherUnits u, unitGood s st v = true ∧ unitPaused s st v = false)
    (met_ : met = .burst ∨ ∃ c, met = .unit c ∧ c ≠ crcEntry s st u) :
    ∃ s', exec (.memRead ⟨req, met⟩) s = .next s' ∧ Serves s' r (unitBytes s st u) ∧ s'.mem.bytes = s.mem.bytes ∧
      s'.mem.event.testBit 0 = true ∧ unitBad s' st u = false ∧ s'.flt.logCount = s.flt.logCount + 1 ∧
      lineOf s' (17 * st + u) = none := by
  obtain ⟨src, meets⟩ := meetUnit_fails direct met_
  have rebuilt := unitRead_markBad written good others src
  have ready : unitWaits (markBad s st u src) st u = false := not_waits trained (by rw [rebuilt]; decide)
  have served := serveMiss_served stripe unit meets ready (fetchUnitBy_repairs _ _ _ rebuilt)
  have unallocated : allocates (markBad s st u src) st u = false := by simp [allocates, rebuilt]
  rw [unallocated, Bool.not_false, cacheRead_rebuilt (by rw [crcRepaired_lineOf]; exact bare),
    (markBad_serveOnly s st u src).unitBytes] at served
  refine ⟨_, memRead_miss queued found stripe unit inside (by simp [lineServes, bare]) served, serves_setReq _ _ _, ?_, ?_, ?_, ?_, ?_⟩
  · rw [setReq_keepsBytes, crcRepaired_keepsBytes, markBad_keepsBytes]
  · exact crcRepaired_event ..
  · exact crcRepaired_good ..
  · exact crcRepaired_logCount ..
  · exact (crcRepaired_lineOf ..).trans bare

end

/-! A task that has met a lost unit (R152, R346, R356). -/

theorem cutGroup_sameWork (s : State) (g : Group) (d : Option Detail) : SameWork s (cutGroup s g d) :=
  (foldl_keeps SameWork.refl SameWork.trans spoilHost_sameWork (groupTiles g) s).trans
    ((foldl_keeps SameWork.refl SameWork.trans (cutTile_sameWork d) _ _).trans (spoilOutputs_sameWork ..))

/-- An abort closes its handle and takes its group away. -/
theorem closed_abortTask {s : State} {h : Nat} {g : Group} (found : groupOf s h = some g) (status : Nat) (d : Option Detail) :
    Closed s (abortTask s h status d) h status 0 ∧ groupOf (abortTask s h status d) h = none := by
  have task := (cutGroup_frame s g d).trans (endGroup_frame _ g)
  have work := (cutGroup_sameWork s g d).trans (endGroup_sameWork _ g)
  have done := complete_frame (endGroup (cutGroup s g d) g) h status 0 d false
  have time : (endGroup (cutGroup s g d) g).time = s.time := by rw [task]
  simp only [abortTask, found]
  refine ⟨⟨over_complete _ _ _ _ _ _, Told.of_sameWork (told_complete _ _ _ _ _ _) work task.flt time⟩, ?_⟩
  unfold groupOf
  rw [done.groups, endGroup_groups, groupOf_handle found]
  exact List.find?_eq_none.mpr fun x among => by simpa using (List.mem_filter.mp among).2

/-- What is told of a handle depends on its entry, its ring, the time and whether the device works. -/
theorem Told.of_calm {s s1 s' : State} {h status info : Nat} (told : Told s1 s' h status info) (read : ReadOnly s s1) (calm : HostCalm s s1) :
    Told s s' h status info := by
  intro e held open_ enabled sound
  have ring : cqOf s1 e.cq = cqOf s e.cq := by unfold cqOf; rw [calm.hi]
  rw [← read.entryOf] at held
  rw [← ring] at enabled
  rw [← calm.sound] at sound
  rw [← time_of_memOnly read.frame]
  exact told e held open_ enabled sound

theorem loseUnit_calm (source : Nat) (s : State) (part handle st u : Nat) : HostCalm s (loseUnit source s part handle st u) :=
  .trans (ite_keeps (R := HostCalm) (logFault_calm ..) (.refl s)) (poison_calm ..)

theorem loseUnit_poisons (source : Nat) (s : State) (part handle st u : Nat) : stripeOf (loseUnit source s part handle st u) st = .poisoned := by
  unfold stripeOf loseUnit poison
  rw [memEvent_mem]
  exact Tbl.get_put_self ..

theorem lostRecord_calm (s : State) (h part st : Nat) : HostCalm s (lostRecord s h part st) := (logFault_calm ..).after rfl rfl

@[simp] theorem lostRecord_sameMem (s : State) (h part st : Nat) : (lostRecord s h part st).mem = s.mem := logFault_keepsMem ..

/-- The state in which OBJECT_LOST ends the work of `h`: with its bit in FLT_EVENT where the handle is still to be completed. -/
def lossNoted (s : State) (h : Nat) : State :=
  let held := match entryOf s h with
    | none => false
    | some e => e.state != EntryState.completing && !(s.flt.unrecoverable)
  if held = true then fltEvent s 4 else s

theorem objectLost_eq (s : State) (h part st : Nat) :
    objectLost s h part st = abortTask (lossNoted (lostRecord s h part st) h) h stObjectLost none := rfl

theorem lossNoted_readOnly (s : State) (h : Nat) : ReadOnly s (lossNoted s h) := ite_keeps (R := ReadOnly) (fltEvent_readOnly ..) (.refl s)

theorem lossNoted_calm (s : State) (h : Nat) : HostCalm s (lossNoted s h) := ite_keeps (R := HostCalm) (fltEvent_calm ..) (.refl s)

@[simp] theorem lossNoted_mem (s : State) (h : Nat) : (lossNoted s h).mem = s.mem := by
  unfold lossNoted
  rw [apply_ite State.mem, fltEvent_keepsMem, ite_self]

theorem lossNoted_event {s : State} {h : Nat} {e : Entry} (held : entryOf s h = some e) (open_ : e.state ≠ .completing)
    (sound : s.flt.unrecoverable = false) : (lossNoted s h).flt.event.testBit 4 = true := by
  simp only [lossNoted, held, sound, bne_iff_ne.mpr open_, Bool.not_false, Bool.and_self, if_true]
  rw [fltEvent_flt, Nat.testBit_or, Nat.testBit_two_pow_self, Bool.or_true]

theorem abortTask_flt (s : State) (h status : Nat) (d : Option Detail) : (abortTask s h status d).flt = s.flt := (abortTask_frame ..).flt

theorem abortTask_stripeOf (s : State) (h status : Nat) (d : Option Detail) (st : Nat) :
    stripeOf (abortTask s h status d) st = stripeOf s st := by
  unfold stripeOf
  rw [abortTask_frame s h status d]

/-- A lost unit ends the task with OBJECT_LOST. -/
theorem objectLost_ends {s s1 : State} {h : Nat} {g : Group} (read : ReadOnly s s1) (calm : HostCalm s s1) (found : groupOf s h = some g)
    (part st : Nat) :
    Closed s (objectLost s1 h part st) h 0x07F1 0 ∧
      (∀ e, entryOf s h = some e → e.state ≠ .completing → s.flt.unrecoverable = false →
        (objectLost s1 h part st).flt.event.testBit 4 = true) ∧
      groupOf (objectLost s1 h part st) h = none ∧ (objectLost s1 h part st).mem.bytes = s.mem.bytes ∧
      stripeOf (objectLost s1 h part st) st = stripeOf s1 st := by
  have record : ReadOnly s (lostRecord s1 h part st) := read.trans (lostRecord_readOnly ..)
  have noted : ReadOnly s (lossNoted (lostRecord s1 h part st) h) := record.trans (lossNoted_readOnly ..)
  have quiet : HostCalm s (lostRecord s1 h part st) := calm.trans (lostRecord_calm ..)
  obtain ⟨⟨over_, told⟩, gone⟩ := closed_abortTask ((noted.groupOf h).trans found) stObjectLost none
  rw [objectLost_eq]
  refine ⟨⟨over_, Told.of_calm told noted (quiet.trans (lossNoted_calm ..))⟩, fun e held open_ sound => ?event, gone, ?bytes, ?stripe⟩
  case event =>
    rw [abortTask_flt]
    exact lossNoted_event ((record.entryOf h).trans held) open_ (quiet.sound.trans sound)
  case bytes => rw [abortTask_keepsBytes, noted.bytes]
  case stripe =>
    rw [abortTask_stripeOf, stripeOf, lossNoted_mem, lostRecord_sameMem, stripeOf]

/-- A read of a lost unit ends the task of its tile. -/
theorem memRead_lost {s : State} {req st u : Nat} {r : MemReq} {met : ReadMet} (queued : ∀ v c, met ≠ .direct v c)
    (found : s.mem.reqs.find? (fun m => m.id == req && m.phase == .fabric && !(m.write)) = some r) (stripe : st = r.addr / 4096)
    (unit : u = r.addr / 256 % 16) (inside : r.addr < capacity) (trained : s.mem.trained = true) {g : Group} (lost : unitRead s st u = .lost)
    (ours : tileGroup s r.tile = some g) (held : groupOf s g.handle = some g) :
    ∃ s', exec (.memRead ⟨req, met⟩) s = .next s' ∧ Closed s s' g.handle 0x07F1 0 ∧
      (∀ e, entryOf s g.handle = some e → e.state ≠ .completing → s.flt.unrecoverable = false → s'.flt.event.testBit 4 = true) ∧
      groupOf s' g.handle = none ∧ s'.mem.bytes = s.mem.bytes ∧ stripeOf s' st = .poisoned := by
  have ready := not_waits (st := st) (u := u) trained (by rw [lost]; decide)
  have meets := meetUnit_not_direct (s := s) (st := st) (u := u) met (servedDirect_false (by rw [lost]; decide))
  have named : reqHandle s r = g.handle := by simp only [reqHandle, ours]
  have served := serveMiss_lost stripe unit meets ready (fetchUnitBy_loses _ _ _ lost)
  rw [named] at served
  obtain ⟨closed, event, gone, bytes, poisoned⟩ :=
    objectLost_ends (loseUnit_readOnly _ s r.part g.handle st u) (loseUnit_calm _ s r.part g.handle st u) held r.part st
  exact ⟨_, memRead_miss queued found stripe unit inside (by simp [lineServes, unitReadable, lost]) served, closed, event, gone, bytes,
    poisoned.trans (loseUnit_poisons ..)⟩

/-! What a direct read will meet (R236, R239; log 28). -/

theorem unit_parts {st u : Nat} (low : u < 17) : (17 * st + u) / 17 = st ∧ (17 * st + u) % 17 = u := by omega

theorem memRead_direct {s : State} {st u : Nat} (req : Nat) (c : Option Nat) (low : u < 17) (trained : s.mem.trained = true) :
    exec (.memRead ⟨req, .direct (17 * st + u) c⟩) s = .next (meetDirect s st u c) := by
  refine (show _ = execMemRead ⟨req, .direct (17 * st + u) c⟩ s from rfl).trans ?_
  simp only [execMemRead, trained, if_true, (unit_parts low).1, (unit_parts low).2]

/-! BUCKET_RELEASE (R245, R246). -/

theorem bucketRelease_completes {s : State} {req : Nat} {r : MemReq}
    (found : s.mem.reqs.find? (fun m => m.id == req && m.phase == .port) = some r) (first : firstAtPort s r = true)
    (level : 0 ≤ partLevel s r.part) :
    exec (.bucketRelease r.part req) s = .next (setReq (charge s r.part (reqCharge r)) { r with phase := .fabric }) := by
  refine (show _ = execBucketRelease r.part req s from rfl).trans ?_
  simp only [execBucketRelease, found, first, level, and_true, if_true]

/-- A charge of `n` bytes lowers the level of the partition by `n`. -/
theorem partLevel_charge (s : State) (p n : Nat) : partLevel (charge s p n) p = partLevel s p - 100 * (n : Int) := by
  have full : partLevel s p ≤ ((409600 * (partOf s p).burst : Nat) : Int) := min_le_left ..
  have bucket : (bucketOf (charge s p n) p).level = min (409600 * ((partOf s p).burst : Int)) (partLevel s p - 100 * (n : Int)) ∧
      (bucketOf (charge s p n) p).at_ = s.time := by
    simp only [bucketOf, charge, Tbl.get_put_self, and_self]
  have level : partLevel (charge s p n) p = min ((409600 * (partOf s p).burst : Nat) : Int) ((bucketOf (charge s p n) p).level +
      ((s.time - (bucketOf (charge s p n) p).at_) * ((partOf s p).rate * rateScale s) : Nat)) := rfl
  rw [level, bucket.1, bucket.2, Nat.sub_self, Nat.zero_mul]
  push_cast at full ⊢
  omega

/-! KEEP_EXPIRY (R243). -/

/-- The lines after the KEEP line of `unit` has become a DEFAULT line. -/
def expired (s : State) (unit : Nat) : State :=
  { s with mem := { s.mem with lines := s.mem.lines.map (fun x => if x.unit == unit then { x with keep := false } else x) } }

theorem keepExpiry_completes {s : State} {unit : Nat} {l : Line} (found : lineOf s unit = some l) (keep : l.keep = true)
    (old : l.used + 100000000 ≤ s.time) : exec (.keepExpiry unit) s = .next (expired s unit) := by
  refine (show _ = execKeepExpiry unit s from rfl).trans ?_
  simp only [execKeepExpiry, found, keep, old, decide_true, Bool.and_self, if_true]
  rfl

theorem lineOf_expired (s : State) (unit k : Nat) :
    lineOf (expired s unit) k = (lineOf s k).map (fun x => if x.unit == unit then { x with keep := false } else x) := by
  refine (List.find?_map ..).trans ?_
  have still : ((fun l : Line => l.unit == k) ∘ fun x => if x.unit == unit then { x with keep := false } else x) = fun l => l.unit == k := by
    funext x
    rw [Function.comp_apply]
    split <;> rfl
  rw [still]
  rfl

theorem lineOf_unit {s : State} {k : Nat} {l : Line} (found : lineOf s k = some l) : l.unit = k := by
  simpa using List.find?_some found

theorem lineOf_expired_same {s : State} {unit : Nat} {l : Line} (found : lineOf s unit = some l) :
    lineOf (expired s unit) unit = some { l with keep := false } := by
  rw [lineOf_expired, found, Option.map_some, if_pos (by rw [lineOf_unit found]; exact beq_self_eq_true unit)]

theorem lineOf_expired_ne (s : State) {unit k : Nat} (other : k ≠ unit) : lineOf (expired s unit) k = lineOf s k := by
  rw [lineOf_expired]
  cases found : lineOf s k with
  | none => rfl
  | some l => rw [Option.map_some, if_neg (by rw [lineOf_unit found]; simpa using other)]

/-! MEM_WRITE (R235, R237, R253). -/

/-- The scheduler and the state of every other stripe are as they were. -/
structure OneStripe (st : Nat) (s s' : State) : Prop where
  ts : s'.ts = s.ts
  others : ∀ k, k ≠ st → stripeOf s' k = stripeOf s k

theorem OneStripe.trans {st : Nat} {a b c : State} (h : OneStripe st a b) (k : OneStripe st b c) : OneStripe st a c :=
  ⟨k.ts.trans h.ts, fun n other => (k.others n other).trans (h.others n other)⟩

theorem ServeOnly.stripeOf {s s' : State} (only : ServeOnly s s') (k : Nat) : stripeOf s' k = stripeOf s k := by
  unfold Machine.stripeOf
  rw [only.stripes]

theorem ServeOnly.oneStripe {s s' : State} (only : ServeOnly s s') (st : Nat) : OneStripe st s s' := ⟨only.ts, fun k _ => only.stripeOf k⟩

theorem stripePut_oneStripe (s : State) (st : Nat) (data : List Byte) (en : List Bool) (x : StripeState) :
    OneStripe st s (stripePut s st data en x) := ⟨rfl, fun _ other => Tbl.get_put_ne _ _ _ other⟩

theorem poison_oneStripe (s : State) (st : Nat) : OneStripe st s (poison s st) := by
  refine OneStripe.trans ?_ ((memEvent_serveOnly ..).oneStripe st)
  exact ⟨rfl, fun _ other => Tbl.get_put_ne _ _ _ other⟩

theorem journal_serveOnly (s : State) (st : Nat) (us keep : List Nat) : ServeOnly s (journal s st us keep) :=
  (foldl_keeps ServeOnly.refl ServeOnly.trans (fun s u => unitMended_serveOnly s st u) _ s).trans ⟨⟨⟨rfl, rfl⟩, rfl, rfl⟩, rfl, rfl⟩

theorem stripeWrite_oneStripe (s : State) (st : Nat) (data : List Byte) (en : List Bool) : OneStripe st s (stripeWrite s st data en) := by
  have put : ∀ (s : State) x us keep, OneStripe st s (journal (stripePut s st data en x) st us keep) := fun s x us keep =>
    (stripePut_oneStripe s st data en x).trans ((journal_serveOnly ..).oneStripe st)
  unfold stripeWrite
  simp only
  split
  · exact (ServeOnly.refl s).oneStripe st
  · split
    · exact put ..
    · split
      · exact put ..
      · exact (poison_oneStripe s st).trans (put ..)
    · split <;> exact put ..

theorem stripeWrite_written {s : State} {st : Nat} (data : List Byte) {en : List Bool} (fresh : stripeOf s st = .unwritten)
    (covers : (coveredUnits en).isEmpty = false) : stripeOf (stripeWrite s st data en) st = .written := by
  simp only [stripeWrite, covers, fresh, Bool.false_eq_true, if_false]
  exact ((journal_serveOnly ..).stripeOf st).trans (Tbl.get_put_self ..)

theorem fires_serveOnly (s : State) (part handle st : Nat) (us : List Nat) :
    ServeOnly s (us.foldl (fun s u => fireUnit s part handle st u) s) :=
  foldl_keeps ServeOnly.refl ServeOnly.trans (fun s u => fireUnit_serveOnly s part handle st u) us s

theorem writeStripe_oneStripe (s : State) (part handle st : Nat) (data : List Byte) (en : List Bool) :
    OneStripe st s (writeStripe s part handle st data en) :=
  ((fires_serveOnly ..).oneStripe st).trans (stripeWrite_oneStripe ..)

theorem writeStripe_written {s : State} (part handle : Nat) {st : Nat} (data : List Byte) {en : List Bool} (fresh : stripeOf s st = .unwritten)
    (covers : (coveredUnits en).isEmpty = false) : stripeOf (writeStripe s part handle st data en) st = .written :=
  stripeWrite_written data (((fires_serveOnly s part handle st _).stripeOf st).trans fresh) covers

/-- A write that enables a byte covers a unit. -/
theorem covers_of_enabled {en : List Bool} {i : Nat} (low : i < 4096) (on : en.getD i false = true) : (coveredUnits en).isEmpty = false := by
  by_contra none_
  refine enables_none (Bool.not_eq_false _ ▸ none_) low ?_
  rw [List.getD_eq_getElem?_getD] at on
  cases at_ : en[i]? with
  | none => simp [at_] at on
  | some v => simpa [at_] using on

theorem setChannel_serveOnly (s : State) (c : Nat) (x : Channel) : ServeOnly s (setChannel s c x) := ⟨⟨⟨rfl, rfl⟩, rfl, rfl⟩, rfl, rfl⟩

theorem buffer_serveOnly (s : State) (st : Nat) (us : List Nat) : ServeOnly s (buffer s st us) :=
  foldl_keeps ServeOnly.refl ServeOnly.trans (fun s _ => ite_keeps (R := ServeOnly) (setChannel_serveOnly ..) (.refl s)) us s

/-- The Stack Cache and the write buffers after the write of these units of a stripe. -/
def cachedWrite (s : State) (r : MemReq) (st : Nat) (us : List Nat) : State :=
  us.foldl (fun s u => cacheWrite s st u r.hint r.session r.part) (buffer s st us)

theorem cachedWrite_serveOnly (s : State) (r : MemReq) (st : Nat) (us : List Nat) : ServeOnly s (cachedWrite s r st us) :=
  (buffer_serveOnly s st us).trans
    (foldl_keeps ServeOnly.refl ServeOnly.trans (fun s u => (cacheWrite_linesOnly s st u r.hint r.session r.part).serveOnly) us _)

/-- The state after a write request has been applied and acknowledged. -/
def writeServed (s : State) (r : MemReq) (st : Nat) : State :=
  let t := writeStripe s r.part (reqHandle s r) st r.data r.enable
  setReq (cachedWrite t r st (writtenUnits t st r.enable)) { r with phase := .served, data := [], enable := [] }

theorem writeServed_serveOnly (s : State) (r : MemReq) (st : Nat) :
    ServeOnly (writeStripe s r.part (reqHandle s r) st r.data r.enable) (writeServed s r st) :=
  (cachedWrite_serveOnly ..).trans (setReq_serveOnly ..)

section
variable {s : State} {req st : Nat} {r : MemReq}
  (found : s.mem.reqs.find? (fun m => m.id == req && m.phase == .fabric && m.write) = some r)
include found

theorem memWrite_beyond (beyond : capacity ≤ r.addr) : exec (.memWrite req) s = .fault (.noSuchAddress (r.addr / 256)) := by
  refine (show _ = execMemWrite req s from rfl).trans ?_
  simp only [execMemWrite, found, beyond, if_true]

theorem memWrite_completes (stripe : st = r.addr / 4096) (inside : r.addr < capacity) (trained : s.mem.trained = true) :
    exec (.memWrite req) s = .next (writeServed s r st) := by
  subst stripe
  refine (show _ = execMemWrite req s from rfl).trans ?_
  simp only [execMemWrite, found, Nat.not_le.mpr inside, trained, Bool.not_true, Bool.false_eq_true, if_false]
  rfl

end

/-- The enabled bytes of the request are put, every other byte reads as before. -/
theorem memByte_writeServed {s : State} {r : MemReq} (data : r.data.length = 4096) (enables : r.enable.length = 4096)
    (wf : s.mem.bytes.wf = true) (st a : Nat) :
    memByte (writeServed s r st).mem a =
      if 4096 * st ≤ a ∧ a < 4096 * st + 4096 ∧ r.enable.getD (a - 4096 * st) false = true then r.data.getD (a - 4096 * st) 0
      else memByte s.mem a := by
  rw [(writeServed_serveOnly s r st).memByte, memByte_writeStripe (w := (r.data, r.enable)) wf r.part (reqHandle s r) st data enables]
  by_cases here : a / 4096 = st
  · have place : a - 4096 * st = a % 4096 := by omega
    have inside : 4096 * st ≤ a ∧ a < 4096 * st + 4096 := by omega
    have at_ : r.enable[a % 4096]? = some true ↔ r.enable.getD (a % 4096) false = true := by
      rw [List.getD_eq_getElem?_getD]
      cases r.enable[a % 4096]? <;> simp
    simp only [here, if_true, place, inside, true_and, enabledAt, at_]
    split <;> rfl
  · rw [if_neg here, if_neg (by omega)]

/-- Settles O41: a request is charged where it leaves its port; what a read is served from decides what it leaves, by the frame of each of its
paths; a write is the write of its stripe; and a line that expires stays where it is. -/
theorem deviceMemoryRequests : Obligations.DeviceMemoryRequests := by
  unfold Obligations.DeviceMemoryRequests
  intro s req st u r met
  refine ⟨fun _ found first level => ⟨bucketRelease_completes found first level, partLevel_charge ..⟩,
    fun found stripe unit queued => ⟨memRead_beyond queued found, fun inside trained now => ⟨?reads, ?repairs, ?zero, ?lost⟩⟩,
    fun trained => ?clean, fun c trained low other direct => ?failing, fun found stripe => ⟨memWrite_beyond found, ?writes⟩,
    fun unit l found keep old => ⟨_, keepExpiry_completes found keep old, lineOf_expired_same found, fun k => lineOf_expired_ne s, rfl⟩⟩
  case reads =>
    intro written alive met_
    obtain ⟨s', runs, data, only⟩ :=
      memRead_reads queued found stripe unit inside trained now (unitRead_written_ne_zero written u) alive met_
    exact ⟨s', runs, data, only.bytes, only.stripes, only.frame.tiles, only.frame.groups, only.ts⟩
  case repairs => exact memRead_repairs queued found stripe unit inside trained
  case zero => exact memRead_zero queued found stripe unit inside trained
  case lost =>
    intro g lost ours held _
    exact memRead_lost queued found stripe unit inside trained lost ours held
  case clean =>
    by_cases low : u < 17
    · left
      rw [memRead_direct req _ low trained, meetDirect, if_pos (.inl rfl)]
    · exact .inr (Nat.le_of_not_lt low)
  case failing =>
    refine ⟨_, memRead_direct req c low trained, ?_⟩
    rw [meetDirect, if_neg (by simp [other, direct])]
    exact ⟨unitBad_markBad .., markBad_keepsBytes .., fun k v => unitBad_markBad_ne s _⟩
  case writes =>
    intro inside trained data enables wf
    have rest := writeServed_serveOnly s r st
    have kept := (writeStripe_oneStripe s r.part (reqHandle s r) st r.data r.enable).trans (rest.oneStripe st)
    have store := (writeStripe_storeOnly s r.part (reqHandle s r) st r.data r.enable).trans rest.toStoreOnly
    refine ⟨_, memWrite_completes found stripe inside trained, fun m among named => ?_, memByte_writeServed data enables wf st,
      fun fresh on => ?_, kept.others, store.frame.groups, kept.ts⟩
    · exact congrArg MemReq.phase (mem_setReq among (r := r) rfl named)
    · obtain ⟨i, low, on⟩ := on
      rw [rest.stripeOf, writeStripe_written _ _ _ fresh (covers_of_enabled low on)]

end Sys2Proof.Proofs

/-! O43: lanes, calibration, losses, the rebuild, resynchronisation and patrol scrub (R248 to R257, R264, R267). -/

namespace Sys2Proof.Proofs
open Sys2Proof Sys2Proof.Machine Sys2Proof.Laws Sys2Proof.Claims

/-! Channels and stacks under the operations of the state. -/

theorem channelOf_setChannel (s : State) (c : Nat) (x : Channel) : channelOf (setChannel s c x) c = x := Tbl.get_put_self ..

theorem stackOf_setStack (s : State) (n : Nat) (x : Stack) : stackOf (setStack s n x) n = x := Tbl.get_put_self ..

/-- The channels, the stacks, the events of device memory and where its rebuild stands are as they were. -/
structure StacksKept (m m' : DevMem) : Prop where
  channels : m'.channels = m.channels
  stks : m'.stks = m.stks
  event : m'.event = m.event
  noReserve : m'.noReserve = m.noReserve
  rebuilding : m'.rebuilding = m.rebuilding

theorem StacksKept.refl (m : DevMem) : StacksKept m m := ⟨rfl, rfl, rfl, rfl, rfl⟩

theorem StacksKept.trans {a b c : DevMem} (h : StacksKept a b) (k : StacksKept b c) : StacksKept a c :=
  ⟨k.channels.trans h.channels, k.stks.trans h.stks, k.event.trans h.event, k.noReserve.trans h.noReserve, k.rebuilding.trans h.rebuilding⟩

theorem endGroup_stacksKept (s : State) (g : Group) : StacksKept s.mem (endGroup s g).mem := by
  constructor <;> rw [endGroup_frame s g]

theorem endGroups_stacksKept (s : State) (l : List Group) : StacksKept s.mem (l.foldl (fun s g => endGroup s g) s).mem :=
  foldl_keeps (R := fun a b => StacksKept a.mem b.mem) (fun s => .refl s.mem) .trans endGroup_stacksKept l s

theorem completes_mem (s : State) (status : Nat) (l : List Nat) : (l.foldl (fun s h => complete s h status 0 none false) s).mem = s.mem :=
  foldl_keeps (R := fun a b => b.mem = a.mem) (fun _ => rfl) (fun h k => k.trans h) (fun s h => complete_keepsMem s h status 0 none false) l s

theorem goUnrecoverable_stacksKept (s : State) (cause : Nat) : StacksKept s.mem (goUnrecoverable s cause).mem := by
  unfold goUnrecoverable
  simp only
  split
  · exact .refl s.mem
  · rw [noticeAll_keepsMem, completes_mem]
    refine StacksKept.trans ?_ (endGroups_stacksKept ..)
    rw [fltEvent_keepsMem, logFault_keepsMem]
    exact .refl s.mem

theorem metadataLoss_stacksKept (s : State) (before new : List Nat) : StacksKept s.mem (metadataLoss s before new).mem := by
  unfold metadataLoss
  simp only
  split
  · split
    · exact goUnrecoverable_stacksKept (drawBytes s 1).2 2
    · exact .refl s.mem
  · exact .refl s.mem

/-! A loss (R254 to R256). -/

/-- What a loss of the channels `new` comes with, after `before`: its event and record, and the rebuild. -/
def lossHandled (s : State) (bit src ch : Nat) (before new : List Nat) : State :=
  beginRebuild (metadataLoss (absorbed (logFault (memEvent s bit) src 5 0xFF 0xFF ch 0xFF 0 0)) before new)

/-- A stack is lost, before its event. -/
def stackDown (s : State) (n : Nat) : State :=
  let t := setStack s n { stackOf s n with state := 2 }
  { t with mem := { t.mem with lostStack := t.mem.lostStack.orElse (fun _ => some n),
                               paused := if t.mem.paused = some n then none else t.mem.paused } }

theorem loseStack_eq (s : State) (n src : Nat) :
    loseStack s n src = lossHandled (stackDown s n) 3 src (48 * n) (allLost s) (stackChannels n) := rfl

/-- The state after the loss of a channel, before that of its stack. -/
def channelDown (s : State) (c src : Nat) : State := lossHandled (loseChannel s c) 2 src c (allLost s) [c]

theorem loseChannelFull_eq (s : State) (c src : Nat) : loseChannelFull s c src =
    if 8 ≤ lostChannels (channelDown s c src) (c / 48) ∧ (stackOf (channelDown s c src) (c / 48)).state ≠ 2 then
      loseStack (channelDown s c src) (c / 48) 0x24
    else channelDown s c src := rfl

/-- The channels, the stacks, what is left of the reserve, and every event that has come are kept. -/
structure LossKept (s s' : State) : Prop where
  channels : s'.mem.channels = s.mem.channels
  stks : s'.mem.stks = s.mem.stks
  noReserve : s'.mem.noReserve = s.mem.noReserve
  event : ∀ k, s.mem.event.testBit k = true → s'.mem.event.testBit k = true

theorem lossHandled_kept (s : State) (bit src ch : Nat) (before new : List Nat) :
    LossKept s (lossHandled s bit src ch before new) ∧ (lossHandled s bit src ch before new).mem.event.testBit bit = true ∧
      (s.mem.noReserve = false → (lossHandled s bit src ch before new).mem.rebuilding = true) := by
  have told : (absorbed (logFault (memEvent s bit) src 5 0xFF 0xFF ch 0xFF 0 0)).mem = (memEvent s bit).mem := by
    rw [absorbed_keepsMem, logFault_keepsMem]
  have kept := metadataLoss_stacksKept (absorbed (logFault (memEvent s bit) src 5 0xFF 0xFF ch 0xFF 0 0)) before new
  unfold lossHandled
  generalize metadataLoss _ before new = t at kept ⊢
  obtain ⟨channels, stks, event, noReserve, _⟩ := kept
  rw [told] at channels stks event noReserve
  have begun : (beginRebuild t).mem.channels = t.mem.channels ∧ (beginRebuild t).mem.stks = t.mem.stks ∧
      (beginRebuild t).mem.noReserve = t.mem.noReserve ∧ (beginRebuild t).mem.event = t.mem.event := by
    unfold beginRebuild
    split <;> exact ⟨rfl, rfl, rfl, rfl⟩
  obtain ⟨channels', stks', noReserve', event'⟩ := begun
  rw [memEvent_mem] at channels stks noReserve
  refine ⟨⟨channels'.trans channels, stks'.trans stks, noReserve'.trans noReserve, fun k on => ?_⟩, ?_, fun room => ?_⟩
  · rw [event', event, memEvent_testBit, on, Bool.true_or]
  · rw [event', event, memEvent_testBit, decide_eq_true rfl, Bool.or_true]
  · unfold beginRebuild
    rw [if_neg (by rw [noReserve]; exact ne_true_of_eq_false room)]

theorem loseStack_loses (s : State) (n src : Nat) :
    (stackOf (loseStack s n src) n).state = 2 ∧ (loseStack s n src).mem.channels = s.mem.channels ∧
      (loseStack s n src).mem.event.testBit 3 = true ∧
      (∀ k, s.mem.event.testBit k = true → (loseStack s n src).mem.event.testBit k = true) ∧
      (s.mem.noReserve = false → (loseStack s n src).mem.rebuilding = true) := by
  obtain ⟨kept, event, rebuilds⟩ := lossHandled_kept (stackDown s n) 3 src (48 * n) (allLost s) (stackChannels n)
  rw [loseStack_eq]
  refine ⟨?_, kept.channels, event, kept.event, rebuilds⟩
  unfold stackOf
  rw [kept.stks]
  exact congrArg Stack.state (stackOf_setStack ..)

theorem channelDown_loses (s : State) (c src : Nat) :
    (channelOf (channelDown s c src) c).state = .lost ∧ (channelDown s c src).mem.event.testBit 2 = true ∧
      (channelDown s c src).mem.noReserve = s.mem.noReserve ∧
      (s.mem.noReserve = false → (channelDown s c src).mem.rebuilding = true) := by
  obtain ⟨kept, event, rebuilds⟩ := lossHandled_kept (loseChannel s c) 2 src c (allLost s) [c]
  refine ⟨?_, event, kept.noReserve, rebuilds⟩
  unfold channelOf channelDown
  rw [kept.channels]
  exact congrArg Channel.state (channelOf_setChannel ..)

theorem loseChannelFull_loses (s : State) (c src : Nat) :
    (channelOf (loseChannelFull s c src) c).state = .lost ∧ (loseChannelFull s c src).mem.event.testBit 2 = true ∧
      (s.mem.noReserve = false → (loseChannelFull s c src).mem.rebuilding = true) := by
  obtain ⟨lost, event, noReserve, rebuilds⟩ := channelDown_loses s c src
  rw [loseChannelFull_eq]
  split
  · obtain ⟨_, channels, _, events, rebuilds'⟩ := loseStack_loses (channelDown s c src) (c / 48) 0x24
    refine ⟨?_, events 2 event, fun room => rebuilds' (noReserve.trans room)⟩
    unfold channelOf at lost ⊢
    rw [channels]
    exact lost
  · exact ⟨lost, event, rebuilds⟩

/-! Lanes: repair, rotation and pause (R250 to R252). -/

/-- The free spares of a kind. -/
def sparesOf (x : Channel) (ca : Bool) : List Nat := if ca then x.caSpares else x.dqSpares

theorem spares_pos (x : Channel) (ca : Bool) : (0 < if ca then x.caFree else x.dqFree) ↔ sparesOf x ca ≠ [] := by
  cases ca <;> exact List.length_pos_iff

theorem spares_zero (x : Channel) (ca : Bool) : ((if ca then x.caFree else x.dqFree) = 0) ↔ sparesOf x ca = [] := by
  cases ca <;> exact List.length_eq_zero_iff

theorem mem_liveLanes {x : Channel} {ca : Bool} {l : Nat} (live : l ∈ liveLanes x ca) : l ∉ sparesOf x ca := by
  cases ca with
  | true =>
    simp only [liveLanes, if_true, List.mem_filter, Bool.and_eq_true, Bool.not_eq_true'] at live
    simpa [sparesOf] using live.2.1
  | false =>
    simp only [liveLanes, Bool.false_eq_true, if_false, List.mem_filter, Bool.and_eq_true, Bool.not_eq_true'] at live
    simpa [sparesOf] using live.2.1.1

/-- Of the lane found so far and one more, the one that calibrated longer ago. -/
def olderLane (x : Channel) (ca : Bool) (b : Option Nat) (l : Nat) : Option Nat :=
  match b with
  | none => some l
  | some k => if calAt x ca l < calAt x ca k then some l else some k

theorem oldestOf_eq (x : Channel) (ca : Bool) (l : List Nat) : oldestOf x ca l = l.foldl (olderLane x ca) none := rfl

theorem olderLane_cases (x : Channel) (ca : Bool) (b : Option Nat) (l : Nat) :
    olderLane x ca b l = some l ∨ olderLane x ca b l = b ∧ b ≠ none := by
  cases b with
  | none => exact .inl rfl
  | some k =>
    unfold olderLane
    simp only
    split
    · exact .inl rfl
    · exact .inr ⟨rfl, by simp⟩

theorem foldl_olderLane (x : Channel) (ca : Bool) (l : List Nat) (b : Option Nat) (some_ : l ≠ [] ∨ b ≠ none) :
    ∃ k, l.foldl (olderLane x ca) b = some k ∧ (k ∈ l ∨ b = some k) := by
  induction l generalizing b with
  | nil =>
    obtain ⟨k, rfl⟩ := Option.ne_none_iff_exists'.mp (some_.resolve_left (fun h => h rfl))
    exact ⟨k, rfl, .inr rfl⟩
  | cons a l ih =>
    rw [List.foldl_cons]
    obtain first | ⟨same, held⟩ := olderLane_cases x ca b a
    · obtain ⟨k, found, among⟩ := ih (olderLane x ca b a) (.inr (by rw [first]; simp))
      refine ⟨k, found, .inl ?_⟩
      rw [first, Option.some.injEq] at among
      exact List.mem_cons.mpr (among.symm.imp Eq.symm id)
    · obtain ⟨k, found, among⟩ := ih (olderLane x ca b a) (.inr (by rw [same]; exact held))
      rw [same] at among
      exact ⟨k, found, among.imp (List.mem_cons_of_mem _) id⟩

theorem mem_of_oldestOf {x : Channel} {ca : Bool} {l : List Nat} {k : Nat} (found : oldestOf x ca l = some k) : k ∈ l := by
  cases l with
  | nil => cases found
  | cons a l =>
    obtain ⟨k', found', among⟩ := foldl_olderLane x ca (a :: l) none (.inl (by simp))
    rw [← oldestOf_eq, found, Option.some.injEq] at found'
    exact found' ▸ among.resolve_right (by simp)

/-- Where a spare is free, the lane that calibrates next is one. -/
theorem calLane_of_spare {x : Channel} {ca : Bool} (free : sparesOf x ca ≠ []) : ∃ l, calLane x ca = some l ∧ l ∈ sparesOf x ca := by
  obtain ⟨l, found, _⟩ := foldl_olderLane x ca (sparesOf x ca) none (.inl free)
  rw [← oldestOf_eq] at found
  refine ⟨l, ?_, mem_of_oldestOf found⟩
  unfold calLane
  rw [show (if ca then x.caSpares else x.dqSpares) = sparesOf x ca from rfl, found]
  rfl

theorem length_rotated {l : List Nat} {a : Nat} (k : Nat) (once : l.Nodup) (among : a ∈ l) : (l.filter (· ≠ a) ++ [k]).length = l.length := by
  have erased : l.filter (· ≠ a) = l.erase a := by
    rw [once.erase_eq_filter]
    exact List.filter_congr fun b _ => by simp [bne, Bool.beq_eq_decide_eq]
  have some_ := List.length_pos_of_mem among
  rw [List.length_append, List.length_singleton, erased, List.length_erase_of_mem among]
  omega

theorem rotated_spares (l : List Nat) {a k : Nat} (apart : a ≠ k) : k ∈ l.filter (· ≠ a) ++ [k] ∧ a ∉ l.filter (· ≠ a) ++ [k] := by
  simp [apart]

/-- A rotation leaves a channel in its state with as many free spares; the lane that has calibrated is in service, the oldest one free. -/
theorem rotateLane_rotates {x : Channel} {ca : Bool} (now : Nat) (free : sparesOf x ca ≠ []) (once : (sparesOf x ca).Nodup) :
    (rotateLane x ca now).state = x.state ∧ (rotateLane x ca now).caFree = x.caFree ∧ (rotateLane x ca now).dqFree = x.dqFree ∧
      ∀ l k, calLane x ca = some l → oldestLane x ca = some k → l < (if ca then x.caCal else x.dqCal).length →
        calAt (rotateLane x ca now) ca l = now ∧ k ∈ sparesOf (rotateLane x ca now) ca ∧ l ∉ sparesOf (rotateLane x ca now) ca := by
  obtain ⟨l, next, spare⟩ := calLane_of_spare free
  cases oldest : oldestLane x ca with
  | none => simp only [rotateLane, next, oldest, reduceCtorEq, false_implies, implies_true, and_self]
  | some k =>
    have apart : l ≠ k := fun same => mem_liveLanes (mem_of_oldestOf oldest) (same ▸ spare)
    have length := length_rotated k once spare
    cases ca with
    | true =>
      simp only [rotateLane, next, oldest, if_true, Channel.caFree, Channel.dqFree, true_and]
      refine ⟨length, fun l' k' same same' inside => ?_⟩
      obtain ⟨rfl, rfl⟩ : l = l' ∧ k = k' := ⟨Option.some.inj same, Option.some.inj same'⟩
      exact ⟨by simp [calAt, inside], rotated_spares _ apart⟩
    | false =>
      simp only [rotateLane, next, oldest, Bool.false_eq_true, if_false, Channel.caFree, Channel.dqFree, true_and]
      refine ⟨length, fun l' k' same same' inside => ?_⟩
      obtain ⟨rfl, rfl⟩ : l = l' ∧ k = k' := ⟨Option.some.inj same, Option.some.inj same'⟩
      exact ⟨by simp [calAt, inside], rotated_spares _ apart⟩

/-- A channel that pauses to calibrate each kind that is due and has no free spare. -/
def pausedChannel (s : State) (x : Channel) : Channel :=
  { x with state := .pause, pauses := satInc x.pauses 8191,
           dqCal := if x.dqFree == 0 && calDue s x false then List.replicate 18 s.time else x.dqCal,
           caCal := if x.caFree == 0 && calDue s x true then List.replicate 8 s.time else x.caCal }

section
variable {s : State} {ch : Nat} (lives : channelLives s ch = true) (serves : (channelOf s ch).state = .inService)
include lives serves

theorem laneRepair_fails {ca : Bool} {lane : Nat} (live : lane ∈ liveLanes (channelOf s ch) ca) :
    exec (.laneRepair ch ca lane) s = .next (laneFails s ch ca lane 0x22) := by
  refine (show _ = execLaneRepair ch ca lane s from rfl).trans ?_
  simp only [execLaneRepair, lives, serves, List.contains_iff_mem.mpr live, beq_self_eq_true, Bool.and_self, if_true]

/-- A free spare is taken while the channel is in repair. -/
theorem laneRepair_repairs {ca : Bool} {lane : Nat} (live : lane ∈ liveLanes (channelOf s ch) ca) (free : sparesOf (channelOf s ch) ca ≠ []) :
    ∃ s' spare, exec (.laneRepair ch ca lane) s = .next s' ∧ spare ∈ sparesOf (channelOf s ch) ca ∧
      channelOf s' ch = { channelOf s ch with
        state := .repair, mend := some (ca, lane, spare), buffered := [],
        caSpares := if ca then (channelOf s ch).caSpares.tail else (channelOf s ch).caSpares,
        dqSpares := if ca then (channelOf s ch).dqSpares else (channelOf s ch).dqSpares.tail } ∧
      s'.flt.logCount = s.flt.logCount + 1 ∧ s'.mem.bytes = s.mem.bytes ∧ s'.ts = s.ts := by
  obtain ⟨spare, rest, spares⟩ := List.exists_cons_of_ne_nil free
  have first : (if ca then (channelOf s ch).caSpares else (channelOf s ch).dqSpares) = spare :: rest := spares
  have some_ : ¬(if ca then (channelOf s ch).caFree else (channelOf s ch).dqFree) = 0 := fun none_ => free ((spares_zero _ ca).mp none_)
  refine ⟨_, spare, laneRepair_fails lives serves live, by rw [spares]; exact List.mem_cons_self, ?_⟩
  simp only [laneFails, if_neg some_, first, List.headD_cons]
  refine ⟨?_, logCount_logFault .., ?_, (logFault_serveOnly ..).ts⟩
  · rw [channelOf, logFault_keepsMem]
    exact channelOf_setChannel ..
  · rw [logFault_keepsMem, setChannel_keepsBytes]

/-- Without a spare the channel is lost. -/
theorem laneRepair_loses {ca : Bool} {lane : Nat} (live : lane ∈ liveLanes (channelOf s ch) ca)
    (used : (if ca then (channelOf s ch).caFree else (channelOf s ch).dqFree) = 0) :
    ∃ s', exec (.laneRepair ch ca lane) s = .next s' ∧ (channelOf s' ch).state = .lost ∧ s'.mem.bytes = s.mem.bytes := by
  refine ⟨_, laneRepair_fails lives serves live, ?_, laneFails_keepsBytes ..⟩
  rw [laneFails]
  simp only [used, if_true]
  exact (loseChannelFull_loses ..).1

theorem calInterval_rotates {ca : Bool} (due : calDue s (channelOf s ch) ca = true)
    (free : 0 < if ca then (channelOf s ch).caFree else (channelOf s ch).dqFree) :
    exec (.calInterval ch ca) s = .next (setChannel s ch (rotateLane (channelOf s ch) ca s.time)) := by
  refine (show _ = execCalInterval ch ca s from rfl).trans ?_
  simp only [execCalInterval, lives, serves, due, free, beq_self_eq_true, decide_true, Bool.and_self, if_true]

theorem calPause_pauses (due : ((channelOf s ch).dqFree = 0 ∧ calDue s (channelOf s ch) false = true) ∨
      ((channelOf s ch).caFree = 0 ∧ calDue s (channelOf s ch) true = true)) :
    ∃ y, exec (.calPause ch) s = .next (setChannel s ch y) ∧ y.state = .pause ∧ y.pauses = satInc (channelOf s ch).pauses 8191 := by
  have used : ((channelOf s ch).dqFree == 0 && calDue s (channelOf s ch) false ||
      (channelOf s ch).caFree == 0 && calDue s (channelOf s ch) true) = true := by
    simpa only [Bool.or_eq_true, Bool.and_eq_true, beq_iff_eq] using due
  have runs : exec (.calPause ch) s = .next (setChannel s ch (pausedChannel s (channelOf s ch))) := by
    refine (show _ = execCalPause ch s from rfl).trans ?_
    simp only [execCalPause, lives, serves, used, beq_self_eq_true, Bool.and_self, if_true]
    rfl
  exact ⟨_, runs, rfl, rfl⟩

end

theorem calPauseEnd_completes {s : State} {ch : Nat} (paused : (channelOf s ch).state = .pause) :
    exec (.calPauseEnd ch) s = .next (setChannel s ch { channelOf s ch with state := .inService, buffered := [] }) := by
  refine (show _ = execCalPauseEnd ch s from rfl).trans ?_
  simp only [execCalPauseEnd, paused, beq_self_eq_true, if_true]

/-- The channel with the spare, calibrated now, in the place of the lane. -/
def switchedIn (x : Channel) (ca : Bool) (lane spare now : Nat) : Channel :=
  let y := if ca then { x with failCa := lane, caCal := x.caCal.set spare now }
    else if x.failA = 31 then { x with failA := lane, dqCal := x.dqCal.set spare now }
    else { x with failB := lane, dqCal := x.dqCal.set spare now }
  { y with state := .inService, mend := none }

theorem calAt_switchedIn {x : Channel} {ca : Bool} {spare : Nat} (lane now : Nat)
    (inside : spare < (if ca then x.caCal else x.dqCal).length) : calAt (switchedIn x ca lane spare now) ca spare = now := by
  cases ca with
  | true =>
    simp only [if_true] at inside
    simp [calAt, switchedIn, inside]
  | false =>
    simp only [Bool.false_eq_true, if_false] at inside
    simp only [calAt, switchedIn, Bool.false_eq_true, if_false]
    split <;> simp [inside]

theorem laneRepairDone_completes {s : State} {ch : Nat} {ca : Bool} {lane spare : Nat} (mends : (channelOf s ch).mend = some (ca, lane, spare))
    (lives : channelLives s ch = true) (repairs : (channelOf s ch).state = .repair) :
    exec (.laneRepairDone ch) s = .next (memEvent (setChannel s ch (switchedIn (channelOf s ch) ca lane spare s.time)) 1) := by
  have enters : (channelLives s ch && (channelOf s ch).state == .repair) = true := by
    rw [lives, repairs, beq_self_eq_true, Bool.and_self]
  refine (show _ = execLaneRepairDone ch s from rfl).trans ?_
  unfold execLaneRepairDone
  simp only
  split
  next none_ => exact absurd (mends.symm.trans none_) (by simp)
  next ca' lane' spare' mends' =>
    obtain ⟨rfl, rfl, rfl⟩ : ca = ca' ∧ lane = lane' ∧ spare = spare' := by simpa using mends.symm.trans mends'
    rw [if_pos enters]
    rfl

theorem channelOf_memEvent (s : State) (b c : Nat) : channelOf (memEvent s b) c = channelOf s c := by
  unfold channelOf
  rw [memEvent_mem]

/-! Losses (R254). -/

theorem channelLost_completes {s : State} {ch : Nat} (lives : channelLives s ch = true) :
    exec (.channelLost ch) s = .next (loseChannelFull s ch 0x23) := by
  refine (show _ = execChannelLost ch s from rfl).trans ?_
  simp only [execChannelLost, lives, if_true]

theorem stackLost_completes {s : State} {n : Nat} (trained : s.mem.trained = true) (stands : (stackOf s n).state ≠ 2) :
    exec (.stackLost n) s = .next (loseStack s n 0x24) := by
  refine (show _ = execStackLost n s from rfl).trans ?_
  simp only [execStackLost, trained, bne_iff_ne.mpr stands, Bool.and_self, if_true]

/-! The rebuild (R255, R256, R264). -/

theorem openIn_le {tag v lo hi : Nat} (range : lo ≤ hi) : lo ≤ openIn tag v lo hi ∧ openIn tag v lo hi ≤ hi := by
  have part : Config.freeNat (2 ^ 64 + tag) v % (hi - lo + 1) < hi - lo + 1 := Nat.mod_lt _ (Nat.succ_pos _)
  unfold openIn
  omega

/-- A part of a rebuild that places `n` units at most: it goes on, and UNWRITTEN stripes stay so. -/
structure Places (n : Nat) (s s' : State) : Prop where
  rebuilding : s'.mem.rebuilding = s.mem.rebuilding
  rebuilt : s'.mem.rebuilt = s.mem.rebuilt
  grows : s.mem.reserveUsed ≤ s'.mem.reserveUsed
  bound : s'.mem.reserveUsed ≤ s.mem.reserveUsed + n
  fresh : ∀ st, stripeOf s st = .unwritten → stripeOf s' st = .unwritten

theorem Places.refl (n : Nat) (s : State) : Places n s s := ⟨rfl, rfl, Nat.le_refl _, Nat.le_add_right .., fun _ => id⟩

theorem Places.trans {m n : Nat} {a b c : State} (h : Places m a b) (k : Places n b c) : Places (m + n) a c :=
  ⟨k.rebuilding.trans h.rebuilding, k.rebuilt.trans h.rebuilt, h.grows.trans k.grows, by have := h.bound; have := k.bound; omega,
    fun st fresh => k.fresh st (h.fresh st fresh)⟩

theorem stripeOf_poison (s : State) (st k : Nat) : stripeOf (poison s st) k = if k = st then .poisoned else stripeOf s k := by
  unfold stripeOf poison
  rw [memEvent_mem]
  exact Tbl.get_put ..

theorem poison_places {s : State} {st : Nat} (written : stripeOf s st ≠ .unwritten) : Places 1 s (poison s st) := by
  have mem : (poison s st).mem.rebuilding = s.mem.rebuilding ∧ (poison s st).mem.rebuilt = s.mem.rebuilt ∧
      (poison s st).mem.reserveUsed = s.mem.reserveUsed := by
    unfold poison
    rw [memEvent_mem]
    exact ⟨rfl, rfl, rfl⟩
  obtain ⟨rebuilding, rebuilt, used⟩ := mem
  refine ⟨rebuilding, rebuilt, used.ge, by omega, fun k fresh => ?_⟩
  have other : k ≠ st := fun same => written (same ▸ fresh)
  rw [stripeOf_poison, if_neg other, fresh]

theorem rebuildUnit_places (s : State) (p : Nat × Nat) : Places 1 s (rebuildUnit s p) := by
  unfold rebuildUnit
  simp only
  split
  next lost =>
    refine poison_places fun fresh => ?_
    rw [unitRead_unwritten fresh] at lost
    exact absurd lost (by decide)
  · split
    · exact .refl 1 s
    · split <;> exact ⟨rfl, rfl, Nat.le_succ _, Nat.le_refl _, fun _ => id⟩

theorem rebuildUnits_places (l : List (Nat × Nat)) (s : State) : Places l.length s (l.foldl rebuildUnit s) := by
  induction l generalizing s with
  | nil => exact .refl 0 s
  | cons p l ih =>
    have step := (rebuildUnit_places s p).trans (ih (rebuildUnit s p))
    rwa [Nat.add_comm] at step

/-- A part of a rebuild: it goes on, it takes no more than the reserve holds, and UNWRITTEN stripes stay so. -/
structure Rebuilds (s s' : State) : Prop where
  rebuilding : s'.mem.rebuilding = s.mem.rebuilding
  rebuilt : s'.mem.rebuilt = s.mem.rebuilt
  used : s.mem.reserveUsed ≤ reserveUnits → s.mem.reserveUsed ≤ s'.mem.reserveUsed ∧ s'.mem.reserveUsed ≤ reserveUnits
  fresh : ∀ st, stripeOf s st = .unwritten → stripeOf s' st = .unwritten

theorem Rebuilds.refl (s : State) : Rebuilds s s := ⟨rfl, rfl, fun room => ⟨Nat.le_refl _, room⟩, fun _ => id⟩

theorem Rebuilds.trans {a b c : State} (h : Rebuilds a b) (k : Rebuilds b c) : Rebuilds a c :=
  ⟨k.rebuilding.trans h.rebuilding, k.rebuilt.trans h.rebuilt,
    fun room => ⟨(h.used room).1.trans (k.used (h.used room).2).1, (k.used (h.used room).2).2⟩, fun st fresh => k.fresh st (h.fresh st fresh)⟩

theorem Places.rebuilds {n : Nat} {s s' : State} (places : Places n s s') (room : n ≤ reserveUnits - s.mem.reserveUsed) : Rebuilds s s' :=
  ⟨places.rebuilding, places.rebuilt, fun fits => ⟨places.grows, by have := places.bound; omega⟩, places.fresh⟩

theorem countReserve_rebuilds (s : State) (short : Bool) : Rebuilds s (countReserve s short) :=
  ⟨rfl, rfl, fun room => ⟨Nat.le_refl _, room⟩, fun _ => id⟩

theorem rebuildMeta_rebuilds (s : State) : Rebuilds s (rebuildMeta s) := by
  unfold rebuildMeta
  simp only
  split
  · exact .refl s
  · exact ⟨rfl, rfl, fun room => ⟨Nat.le_min.mpr ⟨room, Nat.le_add_right ..⟩, Nat.min_le_left ..⟩, fun _ => id⟩

theorem rebuildSome_rebuilds (n : Nat) (s : State) : Rebuilds s (rebuildSome n s) := by
  refine ((rebuildUnits_places ((rebuildUnits s).take (Nat.min (reserveUnits - s.mem.reserveUsed) n)) s).rebuilds ?_).trans
    (countReserve_rebuilds ..)
  exact (List.length_take_le ..).trans (Nat.min_le_left ..)

/-- While time passes a rebuild goes on. -/
theorem rebuildTick_rebuilds {s : State} (part : s.mem.rebuilt ≤ 999) :
    (rebuildTick s).mem.rebuilding = s.mem.rebuilding ∧ s.mem.rebuilt ≤ (rebuildTick s).mem.rebuilt ∧ (rebuildTick s).mem.rebuilt ≤ 999 ∧
      (s.mem.reserveUsed ≤ reserveUnits →
        s.mem.reserveUsed ≤ (rebuildTick s).mem.reserveUsed ∧ (rebuildTick s).mem.reserveUsed ≤ reserveUnits) ∧
      ∀ st, stripeOf s st = .unwritten → stripeOf (rebuildTick s) st = .unwritten := by
  have stays : s.mem.rebuilding = s.mem.rebuilding ∧ s.mem.rebuilt ≤ s.mem.rebuilt ∧ s.mem.rebuilt ≤ 999 ∧
      (s.mem.reserveUsed ≤ reserveUnits → s.mem.reserveUsed ≤ s.mem.reserveUsed ∧ s.mem.reserveUsed ≤ reserveUnits) ∧
      ∀ st, stripeOf s st = .unwritten → stripeOf s st = .unwritten :=
    ⟨rfl, Nat.le_refl _, part, fun room => ⟨Nat.le_refl _, room⟩, fun _ => id⟩
  unfold rebuildTick
  simp only
  split
  · split
    · exact stays
    · have step : Rebuilds (drawBytes s 1).2 (if (drawBytes s 1).2.mem.metaDone then rebuildSome 1 (drawBytes s 1).2
          else countReserve (rebuildMeta (drawBytes s 1).2) false) :=
        ite_keeps (R := Rebuilds) (rebuildSome_rebuilds ..) ((rebuildMeta_rebuilds _).trans (countReserve_rebuilds ..))
      generalize (if (drawBytes s 1).2.mem.metaDone then rebuildSome 1 (drawBytes s 1).2
        else countReserve (rebuildMeta (drawBytes s 1).2) false) = t at step ⊢
      obtain ⟨rebuilding, rebuilt, used, fresh⟩ := step
      have shown : t.mem.rebuilt = s.mem.rebuilt := rebuilt
      obtain ⟨low, high⟩ := openIn_le (tag := 4) (v := t.mem.reserveUsed) (lo := t.mem.rebuilt) (hi := 999) (by rw [shown]; exact part)
      exact ⟨rebuilding, shown ▸ low, high, used, fresh⟩
  · exact stays

/-- The state after the units that are left have been placed. -/
def rebuildEnd (s : State) : State := rebuildSome (rebuildUnits (rebuildMeta s)).length (rebuildMeta s)

/-- The rebuild is complete. -/
def rebuildOver (s : State) : State :=
  memEvent { rebuildEnd s with mem := { (rebuildEnd s).mem with rebuilding := false, rebuilt := 1000 } } 4

theorem rebuildDone_completes {s : State} (under_ : s.mem.rebuilding = true) (some_ : allLost s ≠ [])
    (ready : ∀ p ∈ unitsOn s (allLost s), unitRead s p.1 p.2 ≠ .waits) : exec .rebuildDone s = .next (rebuildOver s) := by
  have idle : (unitsOn s (allLost s)).any (fun p => unitRead s p.1 p.2 == .waits) = false :=
    List.any_eq_false.mpr fun p among => by simpa using ready p among
  have lost : (allLost s).isEmpty = false := by simpa using some_
  refine (show _ = execRebuildDone s from rfl).trans ?_
  simp only [execRebuildDone, under_, lost, idle, Bool.not_false, Bool.and_self, if_true]
  rfl

theorem rebuildOver_ends (s : State) : (rebuildOver s).mem.rebuilding = false ∧ (rebuildOver s).mem.rebuilt = 1000 ∧
    (rebuildOver s).mem.event.testBit 4 = true ∧ (rebuildOver s).mem.bytes = s.mem.bytes ∧
    ∀ st, stripeOf s st = .unwritten → stripeOf (rebuildOver s) st = .unwritten := by
  have all := (rebuildMeta_rebuilds s).trans (rebuildSome_rebuilds (rebuildUnits (rebuildMeta s)).length (rebuildMeta s))
  have bytes : (rebuildEnd s).mem.bytes = s.mem.bytes := by rw [rebuildEnd, rebuildSome_keepsBytes, rebuildMeta_keepsBytes]
  refine ⟨?_, ?_, ?_, ?_, fun st fresh => ?_⟩
  · rw [rebuildOver, memEvent_mem]
  · rw [rebuildOver, memEvent_mem]
  · rw [rebuildOver, memEvent_testBit, decide_eq_true rfl, Bool.or_true]
  · rw [rebuildOver, memEvent_keepsBytes]
    exact bytes
  · rw [rebuildOver, stripeOf, memEvent_mem]
    exact all.fresh st fresh

/-! Resynchronisation (R257, R264, R268). -/

theorem resync_completes {s : State} {n : Nat} (paused : (stackOf s n).state = 1) (cool : (stackOf s n).hot105 = false) :
    exec (.resync n) s = .next { setStack s n { stackOf s n with state := 3 } with
      mem := { (setStack s n { stackOf s n with state := 3 }).mem with paused := none } } := by
  refine (show _ = execResync n s from rfl).trans ?_
  simp only [execResync, paused, cool, beq_self_eq_true, Bool.not_false, Bool.and_self, if_true]

/-- One stale unit of a WRITTEN stripe is resynchronised. -/
def resyncUnit (s : State) (p : Nat × Nat) : State :=
  if (otherUnits p.2).all (unitDirect s p.1) then unitMended s p.1 p.2 else poison s p.1

/-- What resynchronising the units of a list leaves stale. -/
structure Resyncs (l : List (Nat × Nat)) (s s' : State) : Prop where
  shrinks : ∀ p ∈ s'.mem.stale, p ∈ s.mem.stale
  readable : ∀ st u, unitDirect s st u = true → unitDirect s' st u = true
  left : ∀ p ∈ l, p ∈ s'.mem.stale → ∃ u ∈ otherUnits p.2, unitDirect s p.1 u = false
  rest : ∀ p ∈ s.mem.stale, p ∉ l → p ∈ s'.mem.stale

theorem Resyncs.cons {p : Nat × Nat} {l : List (Nat × Nat)} {a b c : State} (h : Resyncs [p] a b) (k : Resyncs l b c) : Resyncs (p :: l) a c where
  shrinks q stale := h.shrinks q (k.shrinks q stale)
  readable st u now := k.readable st u (h.readable st u now)
  left q among stale := by
    obtain rfl | among := List.mem_cons.mp among
    · exact h.left q (List.mem_singleton_self q) (k.shrinks q stale)
    · obtain ⟨u, other, unread⟩ := k.left q among stale
      exact ⟨u, other, Bool.eq_false_iff.mpr fun now => Bool.eq_false_iff.mp unread (h.readable q.1 u now)⟩
  rest q stale out := by
    rw [List.mem_cons, not_or] at out
    obtain ⟨apart, out⟩ := out
    exact k.rest q (h.rest q stale (by simpa using apart)) out

theorem mem_stale_unitMended {s : State} {st u : Nat} {p : Nat × Nat} :
    p ∈ (unitMended s st u).mem.stale ↔ p ∈ s.mem.stale ∧ p ≠ (st, u) := by
  simp [unitMended]

theorem unitDirect_good {s : State} {k v : Nat} (now : unitDirect s k v = true) : unitBad s k v = false ∧ unitStale s k v = false := by
  simp only [unitDirect, Bool.and_eq_true, Bool.not_eq_true'] at now
  exact ⟨now.1.2, now.2⟩

theorem unitDirect_unitMended {s : State} {st u : Nat} (k v : Nat) (now : unitDirect s k v = true) :
    unitDirect (unitMended s st u) k v = true := by
  obtain ⟨good, fresh⟩ := unitDirect_good now
  have among : ∀ l : List (Nat × Nat), l.contains (k, v) = false → (l.filter (fun p => !(p == (st, u)))).contains (k, v) = false := by
    intro l out
    rw [← Bool.not_eq_true, List.contains_iff_mem] at out ⊢
    exact fun among => out (List.mem_filter.mp among).1
  have good' : unitBad (unitMended s st u) k v = false := among s.mem.bad good
  have fresh' : unitStale (unitMended s st u) k v = false := among s.mem.stale fresh
  simp only [unitDirect, unitGood, good, fresh] at now
  simp only [unitDirect, unitGood, good', fresh']
  exact now

theorem poison_mem (s : State) (st : Nat) : (poison s st).mem.stale = s.mem.stale ∧ ∀ k v, unitDirect (poison s st) k v = unitDirect s k v := by
  unfold poison unitDirect unitGood unitBad unitStale channelOut channelIsLost unitChannel channelOf stackOf
  rw [memEvent_mem]
  exact ⟨rfl, fun _ _ => rfl⟩

theorem resyncUnit_resyncs (s : State) (p : Nat × Nat) : Resyncs [p] s (resyncUnit s p) := by
  unfold resyncUnit
  split
  next => exact ⟨fun q stale => (mem_stale_unitMended.mp stale).1, fun st u => unitDirect_unitMended st u,
    fun q among stale => absurd (List.mem_singleton.mp among) (mem_stale_unitMended.mp stale).2,
    fun q stale out => mem_stale_unitMended.mpr ⟨stale, by simpa using out⟩⟩
  next unread =>
    obtain ⟨stale, direct⟩ := poison_mem s p.1
    refine ⟨fun q among => stale ▸ among, fun st u now => (direct st u).trans now, fun q among _ => ?_, fun q among _ => stale ▸ among⟩
    obtain rfl := List.mem_singleton.mp among
    simpa using unread

theorem resyncUnits_resyncs (l : List (Nat × Nat)) (s : State) : Resyncs l s (l.foldl resyncUnit s) := by
  induction l generalizing s with
  | nil => exact ⟨fun _ => id, fun _ _ => id, fun p among => absurd among List.not_mem_nil, fun p stale _ => stale⟩
  | cons p l ih => exact (resyncUnit_resyncs s p).cons (ih _)

/-- The stale units of WRITTEN stripes on a stack. -/
def staleOn (s : State) (n : Nat) : List (Nat × Nat) :=
  s.mem.stale.filter (fun p => unitChannel s p.1 p.2 / 48 == n && stripeOf s p.1 == .written)

/-- A stack that has been resynchronised. -/
def resynced (s : State) (n : Nat) : State := setStack ((staleOn s n).foldl resyncUnit s) n { stackOf s n with state := 0 }

theorem mem_staleOn {s : State} {n : Nat} {p : Nat × Nat} :
    p ∈ staleOn s n ↔ p ∈ s.mem.stale ∧ unitChannel s p.1 p.2 / 48 = n ∧ stripeOf s p.1 = .written := by
  simp [staleOn]

theorem resynced_bytes (s : State) (n : Nat) : (resynced s n).mem.bytes = s.mem.bytes := by
  rw [resynced, setStack_keepsBytes]
  refine foldl_keeps (R := fun a b => b.mem.bytes = a.mem.bytes) (fun _ => rfl) (fun h k => k.trans h) (fun s p => ?_) _ s
  exact ite_keeps (R := fun a b => b.mem.bytes = a.mem.bytes) (unitMended_readOnly ..).bytes (poison_readOnly ..).bytes

theorem resyncDone_completes {s : State} {n : Nat} (syncs : (stackOf s n).state = 3)
    (ready : ∀ p ∈ s.mem.stale, unitChannel s p.1 p.2 / 48 = n → stripeOf s p.1 = .written → resyncWaits s p.1 p.2 = false) :
    exec (.resyncDone n) s = .next (resynced s n) := by
  have idle : (staleOn s n).any (fun p => resyncWaits s p.1 p.2) = false := List.any_eq_false.mpr fun p among => by
    obtain ⟨stale, here, written⟩ := mem_staleOn.mp among
    rw [ready p stale here written]
    exact Bool.false_ne_true
  refine (show _ = execResyncDone n s from rfl).trans ?_
  unfold execResyncDone
  simp only
  exact if_pos (by rw [syncs, beq_self_eq_true, Bool.true_and]; exact congrArg not idle)

/-! Patrol scrub (R239, R248). -/

/-- The units of a list that patrol scrub has found to fail join those known to. -/
def foundBad (s : State) (stripe : Nat) (bad : List Nat) : State :=
  { s with mem := { s.mem with bad := s.mem.bad ++ (bad.filter (fun u => !(unitBad s stripe u))).map (fun u => (stripe, u)) } }

/-- The units that patrol scrub reads of those whose CRC it has met. -/
def metBad (s : State) (stripe : Nat) (badUnits : List Nat) : List Nat :=
  (badUnits.filter (fun u => decide (u < 17) && unitDirect s stripe u)).eraseDups

/-- A stripe with the units repaired that fail. -/
def scrubbed (s : State) (stripe : Nat) (bad : List Nat) : State :=
  ((List.range 17).filter (unitBad (foundBad s stripe bad) stripe)).foldl (scrubUnit stripe) (foundBad s stripe bad)

/-- The reads of a patrol scrub, at which an armed injection can fire. -/
def scrubReads (s : State) (stripe : Nat) : State := (List.range 17).foldl (fun s u => fireUnit s 0xFF 0 stripe u) s

/-- A stripe after its patrol scrub. -/
def patrolled (s : State) (stripe : Nat) (badUnits : List Nat) (badParity : Bool) : State :=
  let bad := metBad (scrubReads s stripe) stripe badUnits
  let t := scrubbed (scrubReads s stripe) stripe bad
  if badParity && bad.isEmpty then memEvent t 0 else t

theorem patrolScrub_completes {s : State} {stripe : Nat} (badUnits : List Nat) (badParity : Bool) (trained : s.mem.trained = true)
    (written : stripeOf s stripe = .written) (inside : stripe < capacity / 4096) :
    exec (.patrolScrub stripe badUnits badParity) s = .next (patrolled s stripe badUnits badParity) := by
  refine (show _ = execPatrolScrub stripe badUnits badParity s from rfl).trans ?_
  unfold execPatrolScrub
  exact if_pos (by rw [trained, written, beq_self_eq_true, decide_eq_true inside]; rfl)

theorem loseUnit_oneStripe (source : Nat) (s : State) (part handle st u : Nat) : OneStripe st s (loseUnit source s part handle st u) := by
  unfold loseUnit
  simp only
  refine OneStripe.trans ?_ (poison_oneStripe _ st)
  exact (ite_keeps (R := ServeOnly) (logFault_serveOnly ..) (.refl s)).oneStripe st

theorem scrubUnit_oneStripe (st : Nat) (s : State) (u : Nat) : OneStripe st s (scrubUnit st s u) :=
  ite_keeps (R := OneStripe st) (ite_keeps (R := OneStripe st) (loseUnit_oneStripe ..) ((ServeOnly.refl s).oneStripe st))
    ((crcRepaired_serveOnly ..).oneStripe st)

theorem scrubbed_oneStripe (s : State) (stripe : Nat) (bad : List Nat) : OneStripe stripe s (scrubbed s stripe bad) :=
  OneStripe.trans (b := foundBad s stripe bad) ⟨rfl, fun _ _ => rfl⟩
    (foldl_keeps (R := OneStripe stripe) (fun s => (ServeOnly.refl s).oneStripe stripe) .trans (scrubUnit_oneStripe stripe) _ _)

theorem patrolled_oneStripe (s : State) (stripe : Nat) (badUnits : List Nat) (badParity : Bool) :
    OneStripe stripe s (patrolled s stripe badUnits badParity) := by
  have read : OneStripe stripe s (scrubReads s stripe) := (fires_serveOnly ..).oneStripe stripe
  have scrub := read.trans (scrubbed_oneStripe (scrubReads s stripe) stripe (metBad (scrubReads s stripe) stripe badUnits))
  exact ite_keeps (R := OneStripe stripe) (scrub.trans ((memEvent_serveOnly ..).oneStripe stripe)) scrub

theorem patrolled_bytes (s : State) (stripe : Nat) (badUnits : List Nat) (badParity : Bool) :
    (patrolled s stripe badUnits badParity).mem.bytes = s.mem.bytes := by
  have read : (scrubReads s stripe).mem.bytes = s.mem.bytes := (fires_serveOnly ..).bytes
  have scrub : ∀ bad, (scrubbed (scrubReads s stripe) stripe bad).mem.bytes = s.mem.bytes := fun bad =>
    (foldl_keeps (R := fun a b => b.mem.bytes = a.mem.bytes) (fun _ => rfl) (fun h k => k.trans h)
      (fun s u => scrubUnit_keepsBytes stripe s u) _ _).trans read
  unfold patrolled
  simp only
  split
  · rw [memEvent_keepsBytes, scrub]
  · exact scrub _

/-- Parity that disagrees with intact data is rewritten, with CRC_REPAIRED. -/
theorem patrolled_parity (s : State) (stripe : Nat) : (patrolled s stripe [] true).mem.event.testBit 0 = true := by
  have none_ : metBad (scrubReads s stripe) stripe [] = [] := rfl
  simp only [patrolled, none_, List.isEmpty_nil, Bool.and_self, if_true]
  rw [memEvent_testBit, decide_eq_true rfl, Bool.or_true]

/-- Settles O43: each command's own equation, and of the state that it leaves the losses' shared course, the rotation of the lanes, the
rebuild unit by unit and the resynchronisation unit by unit. -/
theorem stacksAndChannels : Obligations.StacksAndChannels := by
  unfold Obligations.StacksAndChannels
  intro s ch stk
  refine ⟨fun lives serves => ⟨fun ca lane live free => ?repairs, fun ca lane => laneRepair_loses lives serves, fun ca due free once => ?rotates,
      calPause_pauses lives serves⟩,
    calPauseEnd_completes, fun ca lane spare mends lives repairs => ?mended, fun lives => ?channelLost, fun trained stands => ?stackLost,
    fun under_ some_ ready => ?rebuilt, fun empty part => ?ticks, fun paused cool => ?cooled, fun syncs ready => ?resynced,
    fun stripe bad par trained written inside => ?scrubbed⟩
  case repairs => exact laneRepair_repairs lives serves live ((spares_pos _ ca).mp free)
  case rotates =>
    obtain ⟨state, caFree, dqFree, lanes⟩ := rotateLane_rotates s.time ((spares_pos _ ca).mp free) once
    exact ⟨_, calInterval_rotates lives serves due free, state.trans serves, caFree, dqFree, lanes⟩
  case mended =>
    refine ⟨_, laneRepairDone_completes mends lives repairs, ?_⟩
    rw [channelOf_memEvent, channelOf_setChannel, memEvent_testBit, memEvent_keepsBytes, setChannel_keepsBytes, decide_eq_true rfl]
    exact ⟨rfl, rfl, Bool.or_true _, calAt_switchedIn lane s.time, rfl⟩
  case channelLost =>
    obtain ⟨lost, event, rebuilds⟩ := loseChannelFull_loses s ch 0x23
    exact ⟨_, channelLost_completes lives, lost, event, rebuilds, loseChannelFull_keepsBytes ..⟩
  case stackLost =>
    obtain ⟨lost, _, event, _, rebuilds⟩ := loseStack_loses s stk 0x24
    exact ⟨_, stackLost_completes trained stands, lost, event, rebuilds, loseStack_keepsBytes ..⟩
  case rebuilt => exact ⟨_, rebuildDone_completes under_ some_ ready, rebuildOver_ends s⟩
  case ticks =>
    have idle := idleStep_keepsMem s
    obtain ⟨rebuilding, low, high, used, fresh⟩ := rebuildTick_rebuilds (s := idleStep s) (by rw [idle]; exact part)
    have stripes : ∀ st, stripeOf (idleStep s) st = stripeOf s st := fun st => by rw [stripeOf, idle, stripeOf]
    rw [idle] at rebuilding low used
    refine ⟨_, by rw [step, empty], rebuilding, low, high, idle_keepsBytes s, used, fun st now => fresh st ((stripes st).trans now)⟩
  case cooled => exact ⟨_, resync_completes paused cool, stackOf_setStack .., rfl, rfl⟩
  case resynced =>
    have syncs_ := resyncUnits_resyncs (staleOn s stk) s
    refine ⟨_, resyncDone_completes syncs ready, congrArg Stack.state (stackOf_setStack ..), ?_, fun p stale => ⟨syncs_.shrinks p stale, ?_⟩,
      fun p stale poisoned => syncs_.rest p stale ?_⟩
    · exact resynced_bytes s stk
    · exact fun here written => syncs_.left p (mem_staleOn.mpr ⟨syncs_.shrinks p stale, here, written⟩) stale
    · intro among
      obtain ⟨_, _, written⟩ := mem_staleOn.mp among
      rw [poisoned] at written
      cases written
  case scrubbed =>
    refine ⟨_, patrolScrub_completes bad par trained written inside, patrolled_bytes .., (patrolled_oneStripe ..).others, ?_⟩
    rintro rfl rfl
    exact patrolled_parity s stripe

end Sys2Proof.Proofs
